-- ==== Sys2Proof/Word.lean ====
section
/-!
DEFINITION. Sys2Proof/Word.lean: the word types of the LK6424 model.
-/

namespace Sys2Proof

/-- A byte of a memory, a record or a host structure (00_scope.md R6: multi-byte fields are little-endian). -/
abbrev Byte := BitVec 8

/-- A 16-bit field. -/
abbrev U16 := BitVec 16

/-- A register's 32 bits (00_scope.md R7). -/
abbrev U32 := BitVec 32

/-- A 64-bit value: a Tally, a host address, a `_LO`/`_HI` register pair (00_scope.md R7). -/
abbrev U64 := BitVec 64

/-- A Tally value or a tick count on CLK_FAB (12_determinism_and_fabric.md R283). -/
abbrev Tally := BitVec 64

end Sys2Proof
end

