-- ==== Sys2Proof/Machine/Tbl.lean ====
section
/-!
DEFINITION. Sys2Proof/Machine/Tbl.lean: sparse tables. Every memory, register file and numbered table of the model is a
list of (number, value) pairs in ONE canonical form: numbers strictly rising, and no entry equal to the default that an
unlisted number reads as. Two equal tables are then equal data.
-/

namespace Sys2Proof.Machine

/-- A sparse table: pairs (number, value). -/
abbrev Tbl (α : Type) := List (Nat × α)

/-- The value at number `i`, `d` where the table lists nothing. -/
def tget {α : Type} (d : α) : Tbl α → Nat → α
  | [], _ => d
  | (k, v) :: r, i => if k = i then v else tget d r i

/-- The table without number `i`. -/
def terase {α : Type} : Tbl α → Nat → Tbl α
  | [], _ => []
  | (k, v) :: r, i => if k = i then terase r i else (k, v) :: terase r i

/-- The table with `v` placed at number `i`, in rising order. -/
def tinsert {α : Type} : Tbl α → Nat → α → Tbl α
  | [], i, v => [(i, v)]
  | (k, w) :: r, i, v =>
    if i < k then (i, v) :: (k, w) :: r
    else if k = i then (i, v) :: r
    else (k, w) :: tinsert r i v

/-- A write: writing the default removes the entry, so that the canonical form is kept. -/
def tset {α : Type} [DecidableEq α] (d : α) (m : Tbl α) (i : Nat) (v : α) : Tbl α :=
  if v = d then terase m i else tinsert m i v

/-- A change of one entry by a function. -/
def tmod {α : Type} [DecidableEq α] (d : α) (m : Tbl α) (i : Nat) (f : α → α) : Tbl α :=
  tset d m i (f (tget d m i))

/-- Every number of the table is above `b`, numbers rise strictly, and no value is the default. -/
def twfAbove {α : Type} [DecidableEq α] (d : α) : Option Nat → Tbl α → Bool
  | _, [] => true
  | b, (k, v) :: r =>
    (match b with
      | none => true
      | some n => decide (n < k)) && decide (v ≠ d) && twfAbove d (some k) r

/-- The canonical form of a table with default `d`. -/
def twf {α : Type} [DecidableEq α] (d : α) (m : Tbl α) : Bool := twfAbove d none m

/-- The entries whose numbers satisfy `p`. -/
def tfilter {α : Type} (p : Nat → Bool) (m : Tbl α) : Tbl α := m.filter (fun e => p e.1)

/-- Write a list of values at consecutive numbers. -/
def tsetList {α : Type} [DecidableEq α] (d : α) (m : Tbl α) (i : Nat) : List α → Tbl α
  | [] => m
  | v :: vs => tsetList d (tset d m i v) (i + 1) vs

/-- Read `n` values at consecutive numbers. -/
def tgetList {α : Type} (d : α) (m : Tbl α) (i : Nat) : Nat → List α
  | 0 => []
  | n + 1 => tget d m i :: tgetList d m (i + 1) n

end Sys2Proof.Machine
end

