-- ==== Sys2Proof/Machine/Bits.lean ====
section
/-!
DEFINITION. Sys2Proof/Machine/Bits.lean: byte order, signed fields, rounding and saturation, and the exact integer helpers
that several chapters use (00_scope.md R4 and R6; the two primitives rhe and sat of 05_number_formats_and_quantisation.md).
-/

namespace Sys2Proof.Machine

/-- `v` as `n` bytes, least significant first (00_scope.md R6); bits beyond `n` bytes are dropped. -/
def le : Nat → Nat → List Byte
  | 0, _ => []
  | n + 1, v => BitVec.ofNat 8 v :: le n (v / 256)

/-- The number whose bytes, least significant first, are given (00_scope.md R6). -/
def unle : List Byte → Nat
  | [] => 0
  | b :: r => b.toNat + 256 * unle r

/-- `v` in two's complement of `w` bits, as a natural number. -/
def enc (w : Nat) (v : Int) : Nat := (v % (2 ^ w : Nat)).toNat

/-- The signed value of the low `w` bits of `v`. -/
def sgn (w v : Nat) : Int :=
  let u := v % 2 ^ w
  if 2 * u < 2 ^ w then (u : Int) else (u : Int) - (2 ^ w : Nat)

/-- `v` as `n` bytes in two's complement, least significant first. -/
def leI (n : Nat) (v : Int) : List Byte := le n (enc (8 * n) v)

/-- Bits `hi` to `lo` of `v` (00_scope.md R4). -/
def bitsOf (v hi lo : Nat) : Nat := v / 2 ^ lo % 2 ^ (hi + 1 - lo)

/-- Bit `i` of `v`. -/
def bitOf (v i : Nat) : Bool := v.testBit i

/-- `v` with bit `i` set. -/
def setBit (v i : Nat) : Nat := v ||| 2 ^ i

/-- `lo` ≤ `v` ≤ `hi`. -/
def inRange (lo hi v : Nat) : Bool := decide (lo ≤ v) && decide (v ≤ hi)

/-- `v` with bit `i` cleared. -/
def clrBit (v i : Nat) : Nat := if v.testBit i then v ^^^ 2 ^ i else v

/-- `v` with bit `i` made `b`. -/
def putBit (v i : Nat) (b : Bool) : Nat := if b then setBit v i else clrBit v i

/-- Round half to even of `a / b` for a positive `b` (rhe of 05_number_formats_and_quantisation.md). -/
def rhe (a : Int) (b : Nat) : Int :=
  let q := a / (b : Int)
  let r := a - q * b
  if 2 * r < b then q
  else if 2 * r > b then q + 1
  else if q % 2 = 0 then q else q + 1

/-- Saturation to `lo` .. `hi` (sat of 05_number_formats_and_quantisation.md). -/
def sat (lo hi v : Int) : Int := if v < lo then lo else if hi < v then hi else v

/-- Saturation to a signed format of `w` bits. -/
def satI (w : Nat) (v : Int) : Int := sat (-(2 ^ (w - 1) : Nat)) ((2 ^ (w - 1) : Nat) - 1) v

/-- The signed value of `v` modulo 2^w: what an accumulator of `w` bits holds. -/
def wrapI (w : Nat) (v : Int) : Int := sgn w (enc w v)

/-- ⌈a / b⌉ for natural numbers; 0 when `b` is 0. -/
def cdiv (a b : Nat) : Nat := (a + b - 1) / b

/-- Integer square root by trial of each bit, from bit `n - 1` down. -/
def isqrtFrom : Nat → Nat → Nat → Nat
  | 0, acc, _ => acc
  | n + 1, acc, v =>
    let t := acc + 2 ^ n
    if t * t ≤ v then isqrtFrom n t v else isqrtFrom n acc v

/-- ⌊√v⌋ for v below 2^128. -/
def isqrt (v : Nat) : Nat := isqrtFrom 64 0 v

/-- The first `n` elements, filled up with `d`. -/
def padTo {α : Type} (d : α) : Nat → List α → List α
  | 0, _ => []
  | n + 1, [] => d :: padTo d n []
  | n + 1, x :: xs => x :: padTo d n xs

/-- Numbers `a` to `a + n - 1`. -/
def rangeFrom (a : Nat) : Nat → List Nat
  | 0 => []
  | n + 1 => a :: rangeFrom (a + 1) n

/-- Numbers 0 to `n - 1`. -/
def upto (n : Nat) : List Nat := rangeFrom 0 n

/-- The sum of a list of natural numbers. -/
def sumN : List Nat → Nat
  | [] => 0
  | x :: xs => x + sumN xs

/-- The sum of a list of integers. -/
def sumI : List Int → Int
  | [] => 0
  | x :: xs => x + sumI xs

/-- Insert `x` behind every element that does not stand after it: a stable insertion step. -/
def insertBy {α : Type} (before : α → α → Bool) (x : α) : List α → List α
  | [] => [x]
  | y :: ys => if before x y then x :: y :: ys else y :: insertBy before x ys

/-- Stable insertion sort: `before x y` says that `x` stands strictly before `y`; equal elements keep their order. -/
def sortBy {α : Type} (before : α → α → Bool) : List α → List α
  | [] => []
  | x :: xs =>
    let rec place : List α → List α
      | [] => [x]
      | y :: ys => if before y x then y :: place ys else x :: y :: ys
    place (sortBy before xs)

/-- The list without its elements at the numbers for which `p` holds is given by filter; `enumFrom` numbers a list. -/
def enumFrom {α : Type} : Nat → List α → List (Nat × α)
  | _, [] => []
  | n, x :: xs => (n, x) :: enumFrom (n + 1) xs

/-- Element `i`, `d` beyond the end. -/
def nth {α : Type} (d : α) : List α → Nat → α
  | [], _ => d
  | x :: _, 0 => x
  | _ :: xs, n + 1 => nth d xs n

/-- The list with element `i` replaced. -/
def setNth {α : Type} : List α → Nat → α → List α
  | [], _, _ => []
  | _ :: xs, 0, v => v :: xs
  | x :: xs, n + 1, v => x :: setNth xs n v

/-- The minimum over a list of numbers, `d` when it is empty. -/
def minOf (d : Nat) (l : List Nat) : Nat := l.foldl (fun a b => if b < a then b else a) d

/-- The maximum over a list of numbers, 0 when it is empty. -/
def maxOf (l : List Nat) : Nat := l.foldl (fun a b => if a < b then b else a) 0

/-- Ticks of `ms` milliseconds: a management round is 1,300,000 ticks (01_architecture.md, two worlds). -/
def msTicks (ms : Nat) : Nat := ms * 1300000

/-- Ticks of `us` microseconds (00_scope.md R5). -/
def usTicks (us : Nat) : Nat := us * 1300

end Sys2Proof.Machine
end

