-- ==== Sys2Proof/Machine/Types.lean ====
section
/-!
DEFINITION. Sys2Proof/Machine/Types.lean: the pieces of state that have no register of their own: what queues, tables and
engines of the device hold (the tables of 02 to 17 of the spec). Each structure cites the rule that names it.
-/

namespace Sys2Proof.Machine

/-! ## Records and rings (08_tracking_and_metadata.md) -/

/-- What a record is for the record writer: the ring R199 sends it to, its bytes (Table 8-3 header included), and, for a
JOB record with a done status, the result Reeve checks (R314): plan ID and source Tally. `orphan` marks a record that has left
the overflow queue of a disabled ring for the orphan journal (R201). -/
structure Rec where
  ring : Nat
  bytes : List Byte
  result : Option (Nat × Nat) := none
  orphan : Bool := false
deriving DecidableEq, Repr

/-- A result ring's own state beside its registers (R200 to R202): the overflow queue, the records diverted since the last
ORPHANED record with the first one's tick and the journal indices at the start of the first and the last, the records
and the first tick since the last message, and whether a SAF record is among them. -/
structure RingS where
  ovf : List Rec := []
  diverted : Nat := 0
  firstTick : Nat := 0
  firstIdx : Nat := 0
  lastIdx : Nat := 0
  unsig : Nat := 0
  firstUnsig : Nat := 0
  safUnsig : Bool := false
deriving DecidableEq, Repr

/-! ## Track engine (08_tracking_and_metadata.md) -/

/-- A candidate of a hand-off: the box in 1/16 pixel, its score and its class (R99, R183). -/
structure Cand where
  x0 : Int
  y0 : Int
  x1 : Int
  y1 : Int
  score : Int
  cls : Nat
deriving DecidableEq, Repr

/-- A shared covariance, 24.8 pixel² (R189). -/
structure Cov where
  p11 : Int := 0
  p12 : Int := 0
  p22 : Int := 0
deriving DecidableEq, Repr

/-- One coordinate of a track: position in 1/256 pixel and velocity (R189). -/
structure Coord where
  p : Int := 0
  v : Int := 0
deriving DecidableEq, Repr

/-- States of a ledger entry (Table 8-2 STATE[1:0]). -/
inductive TrackSt where
  | free | tentative | confirmed | lost
deriving DecidableEq, Repr

/-- A track ledger entry (Table 8-2). `ue` marks an entry whose memory holds an uncorrectable error (R191, last row). -/
structure Track where
  id : Nat := 0
  slot : Nat := 0
  st : TrackSt := .free
  embValid : Bool := false
  cls : Nat := 0
  hits : Nat := 0
  misses : Nat := 0
  score : Int := 0
  cx : Coord := {}
  cy : Coord := {}
  w : Coord := {}
  h : Coord := {}
  pc : Cov := {}
  ps : Cov := {}
  step : Nat := 0
  ue : Bool := false
deriving DecidableEq, Repr

/-- A detection hand-off waiting in the queue of 256 (R181, R196). -/
structure HandOff where
  tick : Nat
  slot : Nat
  seq : Nat
  src : Nat
  cands : List Cand
deriving DecidableEq, Repr

/-- Where a step stands: in the engine, waiting for embeddings, or ready to associate after its wait (R188, R196). -/
inductive StepPhase where
  | active | waiting | ready
deriving DecidableEq, Repr

/-- A step of one slot (R196). -/
structure TrkStep where
  slot : Nat
  seq : Nat
  src : Nat
  phase : StepPhase
  start : Nat
  waitFrom : Nat
  waited : Nat
  n : Nat
  m : Nat
  dets : List Cand
  embs : Option (List (List Int))
  late : Bool
deriving DecidableEq, Repr

/-- A slot's part in tracking that has no register: source Tally of its last accepted hand-off, step number, next track ID,
and whether the slot has closed while its step runs. -/
structure TrkSlot where
  hasStep : Bool := false
  lastSrc : Nat := 0
  stepNo : Nat := 0
  nextId : Nat := 1
  closing : Bool := false
deriving DecidableEq, Repr

/-! ## Work ledger and items (11_dispatch_preemption_and_paging.md) -/

/-- A work-ledger entry (Table 11-1). -/
structure Entry where
  seq : Nat := 0
  plan : Nat := 0
  session : Nat := 0
  cls : Nat := 0
  prio : Nat := 0
  batch : Nat := 0
  ring : Nat := 0
  launch : Nat := 0
  deadline : Nat := 0
  perturb : Nat := 0
  input : Nat := 0
  bind : List Nat := []
deriving DecidableEq, Repr

/-- Where an item stands. `pooled` and `pinned` wait in their queues, `decided` has had its launch decision (pinned),
`running` has been launched, `saving` is being pre-empted, `out` is pre-empted or evicted with its contexts saved,
`restoring` returns to cores. -/
inductive ItemSt where
  | pooled | pinned | decided | running | saving | out | restoring
deriving DecidableEq, Repr

/-- A read of host memory an item depends on. -/
inductive Fetch where
  | notNeeded | pending | done | failed
deriving DecidableEq, Repr

/-- An utterance packed for an item (03 R71, R72): its record slot, its number, the arrival Tally of its first audio item, and
whether it was left out as too long. -/
structure Utt where
  slot : Nat
  utt : Nat
  src : Nat
  oversize : Bool
deriving DecidableEq, Repr

/-- An item (R255): one ledger entry, or one repeat of it, from arrival to its JOB record. `lateBinds` are the bindings not
ready at a pinned decision (R258), `ranMask` the logical cores that ran it, `stopAt` the tick it was pre-empted or evicted,
`bufs` the Cooper buffers of its scaler stages in order, `utts` the utterances packed for it, `moveWait` that its launch has been held for a save frame. -/
structure Item where
  key : Nat := 0
  e : Entry := {}
  st : ItemSt := .pooled
  arrival : Nat := 0
  ready : Option Nat := none
  decision : Nat := 0
  launchT : Nat := 0
  cores : List Nat := []
  clusterSet : List (Nat × Nat) := []
  stopAt : Option Nat := none
  delay : Nat := 0
  flags : Nat := 0
  spills : Nat := 0
  late : Bool := false
  nonEmpty : Bool := false
  ended : List Nat := []
  inputF : Fetch := .notNeeded
  inputB : List Byte := []
  perturbF : Fetch := .notNeeded
  perturbB : List Byte := []
  inherit : Bool := false
  isRepeat : Bool := false
  relaunched : Bool := false
  golden : Bool := false
  evicted : Bool := false
  lateBinds : List Nat := []
  ranMask : Nat := 0
  bufs : List Nat := []
  utts : List Utt := []
  filled : List Nat := []
  moveWait : Bool := false
deriving DecidableEq, Repr

/-- A core reservation of a pinned decision: the item, its logical cores, and the window [lo, hi) (R257). -/
structure Resv where
  item : Nat
  cores : List Nat
  lo : Nat
  hi : Nat
deriving DecidableEq, Repr

/-- A hold of a logical core for a pinned item (R257): until the item's END, or, when it was refused, until the end of its
window. -/
structure Hold where
  core : Nat
  item : Nat
  until_ : Option Nat
deriving DecidableEq, Repr

/-- How a finished item stands for a REGION binding (R253): plan-table index, low 16 bits of SEQ, whether it ended done, and
the output shapes it wrote at its END. -/
structure Outcome where
  idx : Nat
  seq : Nat
  isDone : Bool
  dims : List (List Nat)
deriving DecidableEq, Repr

/-- A ledger poll (R252): reading the producer index, or `count` entries: those arrived by position, the first position not
read with the tick its read failed (R254), and the number checked. -/
structure Poll where
  pidxPending : Bool := true
  count : Nat := 0
  got : Tbl (List Byte) := []
  failedFrom : Option (Nat × Nat) := none
  checked : Nat := 0
deriving DecidableEq, Repr

/-- The last entry fetched for an item offset of an AUTONOMOUS plan, with the LAUNCH and count of its last repeat (R272). -/
structure Repeat where
  idx : Nat
  offset : Nat
  e : Entry
  count : Nat
  lastLaunch : Nat
deriving DecidableEq, Repr

/-- Where a context lies (R264). -/
inductive CtxSt where
  | free | save | warm | cold | moving | restoring
deriving DecidableEq, Repr

/-- A context-table entry (R264): one core's context of one pre-empted or evicted item; what the core's engines and live rows
held stands in `State.ctxCores` under the same number. `core` is the logical core whose save frame it was written to; while
its item is restoring, `place` is where the context lies and `restored` tells that its rows are back in a core. A frame's bytes are
not held (log entry 144). -/
structure Ctx where
  st : CtxSt := .free
  blocked : Bool := false
  rank : Nat := 0
  cluster : Nat := 0
  core : Nat := 0
  frame : Nat := 0
  item : Nat := 0
  toCold : Bool := false
  tag : Nat := 0
  tagPlan : Nat := 0
  place : CtxSt := .free
  restored : Bool := false
deriving DecidableEq, Repr

/-- A semaphore (R267): its value, and the item whose WAIT took it to 0. -/
structure Sem where
  val : Nat := 0
  holder : Option Nat := none
deriving DecidableEq, Repr

end Sys2Proof.Machine
end

