-- ==== Sys2Proof/Machine/TileTypes.lean ====
section
/-!
DEFINITION. Sys2Proof/Machine/TileTypes.lean: the tile program of 04_compute_core.md (Table 4-11), the vector operations of
Table 4-6 with DERIVE and BIASQ of 05_number_formats_and_quantisation.md, protected memories (09_memory_system.md R212),
and what a core and a cluster hold beside their registers.
-/

namespace Sys2Proof.Machine

/-! ## Protected memory -/

/-- A memory under the (144,128) code: its bytes, and for each 16-byte codeword (numbered address / 16) the pattern of bits
that stand inverted against the encoding of those bytes (R212, R213). A pattern of 0 is a good word; a write leaves a good
word, a poison write the pattern with bits 128 and 132. -/
structure Mem where
  data : Tbl Byte := []
  err : Tbl Nat := []
deriving DecidableEq, Repr

/-- What a read met (R213, R222, R102): corrected codewords, an uncorrectable one, stored poison, a dark bank, a row never
written, and the last failing address, syndrome and corrected symbol. `gran` is the unit and address in the Granary of a granule
that could not be delivered, where a bin operand came from a spill area; `hbm` the device address of one in an overflow area. -/
structure ReadInfo where
  ce : Nat := 0
  ue : Nat := 0
  poison : Nat := 0
  decPoison : Bool := false
  dark : Bool := false
  unwritten : Nat := 0
  lastAddr : Option Nat := none
  lastSyn : Nat := 0
  gran : Option (Nat × Nat) := none
  hbm : Option Nat := none
deriving DecidableEq, Repr

/-! ## Tile program (Table 4-11) -/

/-- The three bins (Table 4-9). -/
inductive Bin where
  | weight | act | psum
deriving DecidableEq, Repr

/-- An address operand inside a region of a bin: region 0 to 7, byte offset, and the loop strides added to it, each as
(nesting level counted from the innermost loop, stride number 0 to 3) (R104, R107 LOOP). -/
structure BinRef where
  bin : Bin
  reg : Nat
  off : Nat
  strides : List (Nat × Nat) := []
deriving DecidableEq, Repr

/-- A Granary operand (R207): stripe width and first bank, start offset, the loop strides added to the start, and the
Granary circular region (R211) it names, with its length in granules per bank, if any, and the slots that the plan's static schedule
waits there. -/
structure GranRef where
  width : Nat
  bank : Nat
  start : Nat
  strides : List (Nat × Nat) := []
  circ : Option (Nat × Nat) := none
  slack : Nat := 0
deriving DecidableEq, Repr

/-- An operand of an instruction: in a bin, or in the Granary. -/
inductive Oper where
  | bin (r : BinRef)
  | gran (g : GranRef)
deriving DecidableEq, Repr

/-- Completion tokens of an instruction (R107): the one it sets and the up to two it waits for. -/
structure Toks where
  sets : Option Nat := none
  waits : List Nat := []
deriving DecidableEq, Repr

/-- Array modes (Table 4-2). -/
inductive Mode where
  | i8 | l4 | l3 | b16 | c16
deriving DecidableEq, Repr

/-- Dataflows (Table 4-3), and the diagonal mapping of the weight-stationary dataflow (R91). -/
inductive Flow where
  | ws | os | is_ | diag
deriving DecidableEq, Repr

/-- How the feeder forms activation rows of a convolution (06_convolution_and_image_operators.md R138): the operator descriptor,
the first output position, or the first transform row, of the operation, its first output channel, the first input row that the
operand holds (R156); on the frequency-domain path the stage of Table 6-7, 2 to 6, and the frequency bin of stage 4. -/
structure Feed where
  op : Nat
  pos : Nat
  chan : Nat
  row0 : Nat := 0
  stage : Nat := 2
  fbin : Nat := 0
deriving DecidableEq, Repr

/-- Where a conversion writes the outputs of a convolution (06 R154): the operator descriptor, and the first output position and output
channel of its elements, which stand in rows of 32 channels; on the frequency-domain path it takes them from the stage-6 output by
the extraction of Table 6-7. -/
structure OutMap where
  op : Nat
  pos : Nat
  chan : Nat
deriving DecidableEq, Repr

/-- The scale of a staged tensor (05 R118): one the plan fixes; RNE32(p · 2^G) with p the product of the scales at two operands (R117);
or RNE32(2^G) for a B16 producer. -/
inductive StageScale where
  | fixed (s : Nat)
  | prod (sa sw : BinRef) (g : Int)
  | pow (g : Int)
deriving DecidableEq, Repr

/-- One array operation (Table 4-11 MM): `a` the activations (M × K), `w` the weights (K × N), `tiles` the partial-sum tile
indices in row-major order of 32 × 32 output blocks, `acc` the accumulate flag, `fp16` the B16 operand format, `loadAct`
`chunks` the rows streamed per pass of each chunk of M, and `feed` the convolution whose rows the feeder forms from the input
at `a`. -/
structure MMOp where
  mode : Mode
  flow : Flow
  m : Nat
  n : Nat
  k : Nat
  a : BinRef
  w : BinRef
  tiles : List Nat
  acc : Bool
  fp16 : Bool := false
  wfp16 : Bool := false
  chunks : List Nat := []
  feed : Option Feed := none
deriving DecidableEq, Repr

/-- Element formats of vector operands (Table 5-1). -/
inductive Fmt where
  | i8 | i16 | i32 | bf16 | fp16 | fp32
deriving DecidableEq, Repr

/-- The parameters of a table function (R96) beside its 64 segments: which of the eight tables, the origin, the shifts and
the two fixed-point exponents for FP32 input and output. -/
structure TabPar where
  tab : Nat
  x0 : Int
  sh : Nat
  r : Nat
  f : Nat
  g : Nat
  fpIn : Bool
  fpOut : Bool
deriving DecidableEq, Repr

/-- The parameters of box decoding (R99). `dist` names the DIST form, `tab` is the table function E of the DELTA form; scores are
INT16 when `score16`, else INT8; `toGran` is the Granary region of the list where it does not go to a bin. -/
structure BoxPar where
  dist : Bool
  anchors : Nat
  classes : Nat
  frac : Nat
  thr : Int
  cap : Nat
  score16 : Bool := true
  tab : TabPar
  toGran : Option GranRef := none
deriving DecidableEq, Repr

/-- Vector operations (Table 4-6, R120, R126). `fmt` is INT32 or FP32 unless the operation says otherwise. With an operator
descriptor `opr`, max is max pooling, add is average or global average pooling, and fma is tensor crop-and-resize with its box list
at `x2` (06_convolution_and_image_operators.md R147 to R152; log entry 36). -/
inductive VecOp where
  | relu (fmt : Fmt) (n : Nat) (x y : BinRef)
  | clip (fmt : Fmt) (n : Nat) (lo hi : Nat) (x y : BinRef)
  | requantise (src : Fmt) (n : Nat) (x scl y : BinRef) (om : Option OutMap)
  | tableFn (n : Nat) (p : TabPar) (x y : BinRef)
  | maxAbs (fmt : Fmt) (n : Nat) (x y : BinRef)
  | softmax (n : Nat) (src : Fmt) (scale : Nat) (dst : Fmt) (x y : BinRef)
  | layerNorm (n : Nat) (eps : Nat) (x gamma beta y : BinRef)
  | boxDecode (p : BoxPar) (anchors scores regs y : BinRef)
  | add (fmt : Fmt) (psum : Bool) (n : Nat) (x1 x2 y : BinRef) (opr : Option Nat)
  | mul (fmt : Fmt) (n : Nat) (x1 x2 y : BinRef)
  | fma (fmt : Fmt) (n : Nat) (x1 x2 x3 y : BinRef) (opr : Option Nat)
  | min (fmt : Fmt) (n : Nat) (x1 x2 y : BinRef)
  | max (fmt : Fmt) (n : Nat) (x1 x2 y : BinRef) (opr : Option Nat)
  | convert (src dst : Fmt) (n : Nat) (x y : BinRef) (om : Option OutMap)
  | derive_ (fmt : Fmt) (sStage : StageScale) (clip : Nat) (int16 : Bool) (x y : BinRef)
  | biasq (n : Nat) (sa sw : BinRef) (b y : BinRef)
deriving DecidableEq, Repr

/-- The operand of WAIT (Table 4-11, R267): a token, a Tally count, or a semaphore named in the program or by a scratch
register. -/
inductive WaitOn where
  | token (t : Nat)
  | tally (t : Nat)
  | sem (n : Nat)
  | semScratch (r : Nat)
deriving DecidableEq, Repr

/-- Where LD puts its bytes: a bin region, or one of the eight tables of the table store (R96). -/
inductive LdDst where
  | bin (r : BinRef)
  | table (t : Nat)
deriving DecidableEq, Repr

/-- A tile-program instruction (Table 4-11). -/
inductive TileIns where
  | ld (g : GranRef) (d : LdDst) (bytes : Nat)
  | st (x : BinRef) (g : GranRef) (bytes : Nat)
  | ldw (g : GranRef) (x : BinRef) (bytes : Nat) (tag : Nat)
  | cb (x : BinRef)
  | mm (op : MMOp)
  | vec (op : VecOp)
  | reg (bin : Bin) (r base len : Nat) (circ : Bool)
  | loop (n : Nat) (strides : List Int)
  | endl
  | wait (w : WaitOn)
  | sig (n : Nat)
  | bnd (live : List (Bin × Nat))
  | end_
deriving DecidableEq, Repr

/-- An instruction with its tokens. -/
structure TileCmd where
  ins : TileIns
  tok : Toks := {}
deriving DecidableEq, Repr

/-! ## A core's own state -/

/-- A bin region (R104): rows `base` to `base + len - 1`; a circular one counts the rows written and read, and keeps the cycles at which
the newest row written stands in it and the newest row read is free. -/
structure Region where
  defined : Bool := false
  base : Nat := 0
  len : Nat := 0
  circ : Bool := false
  head : Nat := 0
  tail : Nat := 0
  wrAt : Nat := 0
  rdAt : Nat := 0
deriving DecidableEq, Repr

/-- An open loop (R107 LOOP): the program position after LOOP, the iterations left after this one, the iteration number and
the strides. -/
structure LoopF where
  start : Nat
  left : Nat
  iter : Nat
  strides : List Int
deriving DecidableEq, Repr

/-- Why a core is blocked at a WAIT (R266, R268): the tick it blocked and the semaphore when it waits for one. -/
structure Blocked where
  since : Nat
  sem : Option Nat
deriving DecidableEq, Repr

/-- An instruction in flight on an engine that waits for rows of a circular region, or for room in one (R92, R104, 09 R211): the
instruction, its item, the loops at its issue, whether the residue check finds an error in it (R110); the operands still to be read, the
bytes of those read and of the one in work, what the reads met; whether its effect is done, and the operands and bytes still to be
written; the cycle at which it next needs a row, and the cycle of its end by Tables 4-4, 4-6 and 4-11 with the bubbles so far; the tick of
its next Granary slot, and the slots it has found empty, or full (09 R211). -/
structure Flight where
  cmd : TileCmd
  item : Nat
  loops : List LoopF
  residueErr : Bool := false
  rd : List (Oper × Nat)
  got : List (List Byte) := []
  part : List Byte := []
  info : ReadInfo := {}
  read : Bool := false
  out : List (Oper × List Byte) := []
  need : Nat
  endAt : Nat
  slotAt : Nat := 0
  waited : Nat := 0
deriving DecidableEq, Repr

/-- A core's state beside its registers (R100 to R110). Engine times count CLK_ARITH cycles. `flights` are the instructions in flight
by engine (0 array, 1 vector unit, 2 loader); `arrayTail` the dataflow and tail of the array's last operation (R94); `drain` the
cycle at which each tile of that operation begins to drain (R95); `itemTag` the weight tag that the item has named last (R107);
`wbAt` the cycle up to which the write-back queue has been served (R101). `scratch` and `vregs` hold the loop engine's scratch
registers and the vector unit's registers, which are undefined at a launch (R103). -/
structure CoreS where
  wbin : Mem := {}
  abin : Mem := {}
  pbin : Mem := {}
  written : Tbl Bool := []
  regions : Tbl Region := []
  tokens : Nat := 0
  tokAt : Tbl Nat := []
  loops : List LoopF := []
  pc : Nat := 0
  codebook : List Int := []
  tstore : Tbl Byte := []
  tstorePlan : Nat := 0
  resident : List (Nat × Nat) := []
  wbq : List (Bin × Nat) := []
  item : Option Nat := none
  rank : Nat := 0
  launched : Nat := 0
  busyFrom : Nat := 0
  arrayFree : Nat := 0
  vecFree : Nat := 0
  loadFree : Nat := 0
  issueAt : Nat := 0
  blocked : Option Blocked := none
  preempt : Option Nat := none
  atBnd : Option (List (Bin × Nat)) := none
  stopped : Bool := false
  stopT : Nat := 0
  psumMask : Nat := 0
  modeOf : Tbl Nat := []
  credits : Nat := 0
  flights : Tbl (Option Flight) := []
  arrayTail : Option (Flow × Nat) := none
  drain : Tbl Nat := []
  itemTag : Nat := 0
  wbAt : Nat := 0
  scratch : Tbl (Option Nat) := []
  vregs : Tbl (Option Nat) := []
deriving DecidableEq, Repr

/-! ## A cluster's own state (09_memory_system.md) -/

/-- A Granary circular region (R211): the granules written and read so far, and the cycles at which the newest granule written can be
read and the newest one read is free. -/
structure GranCirc where
  head : Nat := 0
  tail : Nat := 0
  wrAt : Nat := 0
  rdAt : Nat := 0
deriving DecidableEq, Repr

/-- A row waiting in a bank's scrub register (R215). -/
structure ScrubReg where
  row : Nat := 0
  full : Bool := false
deriving DecidableEq, Repr

/-- A cluster's state beside its registers. Memory addresses are physical bank × 2^21 + offset. `inflight` lists writes issued and not landed as (bank, tick they
land, item that writes) (R221); `carterAt` the first tick at which Carter's slots are free (R208); `wbIn` corrected rows on their way to the write-back queue as (bank, row, tick they enter) (R214); `usableAt` the tick a powered-up bank's domain and zero-fill end (R223). -/
structure CluS where
  mem : Mem := {}
  wbq : List (Nat × Nat) := []
  scrub : Tbl ScrubReg := []
  sweep : Tbl Nat := []
  circ : Tbl GranCirc := []
  inflight : List (Nat × Nat × Option Nat) := []
  wbIn : List (Nat × Nat × Nat) := []
  copyRow : Option Nat := none
  copyDone : Option Nat := none
  retiredUnits : Tbl Nat := []
  retiredBanks : Nat := 0
  offBanks : Nat := 0x10000
  zeroFrom : Tbl Nat := []
  outOfService : Bool := false
  carterAt : Nat := 0
deriving DecidableEq, Repr

/-- A Granary claim (R207, R435): its owner (a plan-table index, or 256 for firmware's reservations), width, first bank,
start offset and bytes per bank. -/
structure GranClaim where
  owner : Nat
  width : Nat
  bank : Nat
  start : Nat
  perBank : Nat
deriving DecidableEq, Repr

/-! ## Cooper (R224 to R229) -/

/-- A buffer of a pool: its owner when held, the item it is held for, and its generation. -/
structure Buf where
  owner : Option Nat := none
  item : Option Nat := none
  gen : Nat := 0
deriving DecidableEq, Repr

/-- A pool's state beside its registers: buffers, the FIFO of R227 (ring mode) with the entries cached, the head of R228 (list
mode) and the buffer whose link is still to be read, and the minima by owner. -/
structure PoolS where
  bufs : Tbl Buf := []
  free : List Nat := []
  cached : Nat := 0
  head : Option Nat := none
  link : Option Nat := none
  minima : Tbl Nat := []
deriving DecidableEq, Repr

end Sys2Proof.Machine
end

