-- ==== Sys2Proof/Machine/PlanTypes.lean ====
section
/-!
DEFINITION. Sys2Proof/Machine/PlanTypes.lean: what a plan image holds (07_plans_tiling_and_mapping.md R158, Tables 7-1 and
7-2; the operator descriptors of Table 6-1; the shaping descriptors of Tables 3-1 and 3-3; the fabric transfers of
Table 12-4), and an entry of the plan table (R161).
-/

namespace Sys2Proof.Machine

/-- Plan image header (Table 7-1). -/
structure PlanHdr where
  magic : Nat := 0x4C504B4C
  format : Nat := 0x0100
  sections : Nat := 1
  cls : Nat := 0
  flags : Nat := 0
  maxBatch : Nat := 1
  psumAssumed : Nat := 16
  cores : Nat := 1
  tags : Nat := 0
  pools : Nat := 0
  granKib : Nat := 0
  hbmKib : Nat := 0
  spillKib : Nat := 64
  keyId : Nat := 0
  tag : Nat := 0
deriving DecidableEq, Repr

/-- A section-table entry (R158): type, offset, length. -/
structure Section where
  ty : Nat
  off : Nat
  len : Nat
deriving DecidableEq, Repr

/-- Operator descriptor (Table 6-1); `elem` is the element size of the input in bytes, `fmt` the format pooling and
crop-and-resize work on. The input is the object of a binding, or the output of an earlier operator (R134; log entry 36). -/
structure OpDesc where
  op : Nat
  path : Nat
  mode : Nat
  flow : Nat
  cIn : Nat
  cOut : Nat
  groups : Nat
  hMax : Nat
  wMax : Nat
  kh : Nat
  kw : Nat
  sh : Nat
  sw : Nat
  dh : Nat
  dw : Nat
  padT : Nat
  padB : Nat
  padL : Nat
  padR : Nat
  padv : Nat
  flags : Nat
  strN : Nat
  strH : Nat
  strW : Nat
  strC : Nat
  outLayout : Nat
  elem : Nat
  fmt : Fmt
  binding : Nat
  from_ : Option Nat := none
deriving DecidableEq, Repr

/-- Shaping descriptor (Table 3-1). -/
structure ShapeDesc where
  outW : Nat
  outH : Nat
  rot : Nat := 0
  mirror : Bool := false
  matrix : Nat := 0
  outFmt : Nat := 0
  tensor : Bool := false
  filter : Bool := false
  mult : Nat := 0
  shift : Nat := 0
  off : List Nat := []
  table : List (List Int) := []
deriving DecidableEq, Repr

/-- Box list header (Table 3-3). -/
structure BoxHdr where
  count : Nat
  outW : Nat
  outH : Nat
  mode : Nat
  targets : Nat
  fill : List Nat
  binding : Nat
deriving DecidableEq, Repr

/-- A box, edge coordinates in 1/16 luma pixel (R65). -/
structure Box where
  x0 : Int
  y0 : Int
  x1 : Int
  y1 : Int
deriving DecidableEq, Repr

/-- The packer's settings (R71): tile form with its guard columns, or token form with the bytes of a token; whether what reads the
rows takes the token form (Table 3-7). -/
structure PackCfg where
  tile : Bool
  forTokens : Bool := false
  rowW : Nat
  guard_ : Nat
  tokBytes : Nat
  maxRows : Nat
deriving DecidableEq, Repr

/-- Which unit a shaping stage runs on (R59): the scaler, Sickle unit 0 or 1. -/
inductive ShapeUnit where
  | scaler | sickle0 | sickle1
deriving DecidableEq, Repr

/-- A shaping stage of a plan (R58, R59, R65): the unit, the input binding (for a scaler stage of several pictures, `more` the
bindings of the others), the descriptor, the list's fixed header for a Sickle stage, the exact duration, the fixed offset from the
launch Tally of a pinned stage, where the output goes (`dstGran` the region in each target cluster), where a list in memory stands
(in the Granary, or at an offset of the plan's HBM claim), and the packer's settings. -/
structure ShapeStage where
  unit : ShapeUnit
  binding : Nat
  more : List Nat := []
  desc : ShapeDesc
  hdr : Option BoxHdr := none
  listBinding : Nat := 0
  duration : Nat := 0
  offset : Nat := 0
  dstGran : GranRef := { width := 16, bank := 0, start := 0 }
  listAt : Option GranRef := none
  listHbm : Option Nat := none
  pack : Option PackCfg := none
deriving DecidableEq, Repr

/-- An input binding of the BINDINGS section (Table 7-2). -/
structure BindDecl where
  dims : List Nat := []
  fmt : Nat := 0
  primary : Bool := false
deriving DecidableEq, Repr

/-- A golden window of the TIMELINE section (R320): offset in the period, length, interval in periods, the expected CRC-64, and
where in the WEIGHTS section the golden input stands, binding after binding. -/
structure Golden where
  offset : Nat
  length : Nat
  every : Nat
  sig : Nat
  input : Nat := 0
deriving DecidableEq, Repr

/-- The TIMELINE section (R166). -/
structure Timeline where
  period : Nat
  offsets : List Nat
  golden : Option Golden := none
deriving DecidableEq, Repr

/-- A semaphore of the SEMAPHORES section (R267): number, initial value. -/
structure SemDecl where
  n : Nat
  init : Nat
deriving DecidableEq, Repr

/-- A split of the SPLIT section (R172): the mode and the K of the operation that is split, the boundaries of its parts from 0 to K, and
its combine region as offset and bytes in the plan's Granary claim. -/
structure SplitDecl where
  mode : Mode
  k : Nat
  bounds : List Nat
  combine : Nat
  len : Nat
deriving DecidableEq, Repr

/-- A fabric transfer (Table 12-4): port, destination, source and destination, flits, ticks after launch, the semaphore and
the slack. -/
structure FabXfer where
  srcChip : Nat
  dstChip : Nat
  port : Nat
  relay : Bool
  dstHbm : Bool
  start : Nat
  bytes : Nat
  slack : Nat
  sem : Nat
  srcAddr : Nat
  dstAddr : Nat
deriving DecidableEq, Repr

/-- The FABRIC section (R295): the hop latency bound, the chip list, the transfers. -/
structure FabSec where
  hMax : Nat := 0
  chips : List Nat := []
  xfers : List FabXfer := []
deriving DecidableEq, Repr

/-- What an output of a plan is for at END: a REGION output (R253), the detection hand-off or the embedding hand-off
(R181), or the emit list (R198). -/
inductive OutUse where
  | region | detect | embed | emit
deriving DecidableEq, Repr

/-- An output of a plan: its number 0 to 15, its use, the batch element, the Granary cluster-relative region it stands in,
its bytes and its dimensions at the maximum shapes, and the operator whose output it is, where it is one. -/
structure OutDecl where
  n : Nat
  use : OutUse
  elem : Nat := 0
  rank : Nat := 0
  at_ : GranRef
  bytes : Nat
  dims : List Nat := []
  op : Option Nat := none
deriving DecidableEq, Repr

/-- A piece of the decrypted WEIGHTS section and its place in the plan's claims: bytes `from_` to `from_ + len - 1`, at an offset of
the HBM claim, or in every cluster at a byte offset of the Granary claim, 64-byte granules across its 16 banks (01 R13; log entry
125). -/
structure ClaimPut where
  hbm : Bool
  at_ : Nat
  from_ : Nat
  len : Nat
deriving DecidableEq, Repr

/-- A plan image after decryption (R158). `len` is its length in bytes. -/
structure PlanImage where
  hdr : PlanHdr := {}
  len : Nat := 256
  table : List Section := []
  progs : List (Nat × List TileCmd) := []
  ops : List OpDesc := []
  shaping : List ShapeStage := []
  staticRecs : List Nat := []
  binds : List BindDecl := []
  wcet : List Nat := []
  timeline : Option Timeline := none
  sems : List SemDecl := []
  splits : List SplitDecl := []
  fabric : Option FabSec := none
  outs : List OutDecl := []
  poolMins : List (Nat × Nat) := []
  weights : List Byte := []
  content : List ClaimPut := []
deriving DecidableEq, Repr

/-- States of a plan-table entry (PLAN_ENTRY.STATE). -/
inductive PlanSt where
  | free | installing | installed | removing
deriving DecidableEq, Repr

/-- A plan-table entry (R161): state, generation, image, what it claims, its launched items, and, while
it is being removed, that its claims have been released. -/
structure PlanS where
  st : PlanSt := .free
  gen : Nat := 0
  img : PlanImage := {}
  wcet : List Nat := []
  claim : Option GranClaim := none
  hbmBase : Nat := 0
  running : Nat := 0
  released : Bool := false
deriving DecidableEq, Repr

end Sys2Proof.Machine
end

