-- ==== Sys2Proof/Machine/StreamTypes.lean ====
section
/-!
DEFINITION. Sys2Proof/Machine/StreamTypes.lean: stream slots, pictures, decode cores, CSI-2 ports, record channels
(02_streams_and_decoding.md), shaping units and encoders (03_shaping_and_encoding.md).
-/

namespace Sys2Proof.Machine

/-- An intake descriptor (Table 2-2). -/
structure Desc where
  addr : Nat
  len : Nat
  seq : Nat
  flags : Nat
  user : Nat
deriving DecidableEq, Repr

/-- What an access unit waiting behind others is: one to be decoded, one beyond the admitted rate (R42), or the place of one
that was not copied (R36): from there on the slot skips to the next random-access point. -/
inductive AuKind where
  | plain | overRate | notCopied
deriving DecidableEq, Repr

/-- A copied access unit waiting for decoding or for the speech front end (R35); `bytes` are kept for record slots. -/
structure AU where
  d : Desc
  arrival : Nat
  handle : Nat
  readFailed : Bool := false
  bytes : List Byte := []
  kind : AuKind := .plain
deriving DecidableEq, Repr

/-- Why a slot skips pictures up to the next random-access point (R36, R42, R46). -/
inductive SkipSt where
  | none
  | outcome (outcome cause : Nat)
deriving DecidableEq, Repr

/-- A stream slot's state beside its admission record (R30 to R46). `closing` holds while a picture is still decoding;
`copying` is the descriptor and buffer of the running copy, `copyRes` its end: whether the read failed, and the bytes. -/
structure SlotS where
  isOpen : Bool := false
  closing : Bool := false
  budget : Nat := 0
  cidx : Nat := 0
  fetched : List Desc := []
  copying : Option (Desc × Nat) := none
  copyRes : Option (Bool × List Byte) := none
  aus : List AU := []
  skip : SkipSt := .none
  arrivals : List Nat := []
  decoding : Bool := false
  pidxPending : Bool := false
  descPending : Nat := 0
deriving DecidableEq, Repr

/-- What a picture object is (Table 11-2): a decoded picture, a live field or window (number 0 is the full field, k + 1
window k). -/
inductive PicKind where
  | decoded
  | live (win : Nat)
deriving DecidableEq, Repr

/-- A picture, field or window (R41, R49, R253). `format` is coded as in Table 2-9; `base` is its address in HBM; a picture
that can never become ready has `dead`; `held` while it is among the slot's newest; `recHead` and `user` are what its PIC
record will say when the output process releases it. -/
structure Pic where
  slot : Nat
  seq : Nat
  kind : PicKind
  w : Nat
  h : Nat
  format : Nat
  base : Nat
  handle : Nat
  src : Nat
  ready : Bool
  dead : Bool := false
  outcome : Nat := 0
  held : Bool := true
  recHead : List Byte := []
  user : Nat := 0
deriving DecidableEq, Repr

/-- A box list a binding may name (R70, R188). -/
structure BoxList where
  slot : Nat
  detect : Bool
  seq : Nat
  boxes : List Box
  t : Nat
deriving DecidableEq, Repr

/-- What the headers of an access unit claim, as the codec's syntax gives them (R42): the outside computes them from the
bitstream. `profile` is coded as ADM_CODEC.PROFILE; `tools` holds when the stream uses a tool the device does not support. -/
structure Claims where
  codec : Nat
  profile : Nat
  tools : Bool
  w : Nat
  h : Nat
  dpb : Nat
  level : Nat
  hibit : Bool
  rap : Bool
  units : Nat
  grain : Bool := false
deriving DecidableEq, Repr

/-- A decode core's state beside its page (R39, R40): the picture it works on, the gang, its start, the slot last served, the
uncorrectable errors of its memories, and whether one fell in the present picture. -/
structure DecS where
  au : Option AU := none
  claims : Option Claims := none
  handle : Nat := 0
  slot : Nat := 0
  gang : List Nat := []
  start : Nat := 0
  lastSlot : Nat := 128
  ueCount : Nat := 0
  ue : Bool := false
deriving DecidableEq, Repr

/-- A window of a live frame (R49), or an area of a picture. -/
structure Win where
  x : Nat
  y : Nat
  w : Nat
  h : Nat
deriving DecidableEq, Repr

/-- Chroma sampling of a stream (R38). -/
inductive Chroma where
  | c400 | c420 | c422 | c444
deriving DecidableEq, Repr

/-- What the standard's decoding process gives for a picture (R38, R43): the samples of its components, the areas its data do
not fill and those that a syntax error left, the SEQ of its first reference picture, the cycles spent, the bytes of the
picture that stand in memories with an uncorrectable error (offset and count; none: all of it), and the SEQs of the pictures
that the output process releases in this tick, in output order (R41). -/
structure Decoded where
  chroma : Chroma
  y : List (List Nat)
  u : List (List Nat)
  v : List (List Nat)
  missing : List Win
  broken : List Win
  ref : Option Nat
  poisoned : List (Nat × Nat)
  cycles : Nat
  released : List Nat
deriving DecidableEq, Repr

/-- A CSI-2 packet of a line (R47, R52): virtual channel, data type, header and payload check results, pixel values. -/
structure CsiPkt where
  vc : Nat
  dt : Nat
  hdrErr : Nat
  crcOk : Bool
  px : List Nat
deriving DecidableEq, Repr

/-- A live port's state beside its page (R47 to R52). Lines are raw pixel values, one list per line; `lastGood` is by row
parity; `trkNext` is the window list the track engine has committed for the next frame start, `trkWins` the one in force. -/
structure CsiS where
  busy : Bool := false
  s : Nat := 0
  seq : Nat := 0
  lines : List (List Nat) := []
  filled : Nat := 0
  cause : Nat := 0
  stale : Bool := false
  wins : List Win := []
  lastGood : Tbl (List Nat) := []
  trkNext : Option (List Win) := none
  trkWins : List Win := []
deriving DecidableEq, Repr

/-- A CBOR value as far as Table 2-8 tells kinds apart: an unsigned or negative integer, a byte string, a float (its size in
bytes and its bits), or anything else. -/
inductive Cbor where
  | uint (v : Nat)
  | nint (v : Nat)
  | bstr (b : List Byte)
  | flt (size bits : Nat)
  | other
deriving DecidableEq, Repr

/-- A vehicle signal (Table 2-8): its ID, source time and value. -/
structure Signal where
  id : Nat
  time : Nat
  value : Cbor
deriving DecidableEq, Repr

/-- A record slot's state (R53, R54). `starts` holds, for each utterance, its number and the arrival Tally of its first audio item. -/
structure RecS where
  started : Bool := false
  endTime : Nat := 0
  utt : Nat := 0
  itemPos : Nat := 0
  starts : List (Nat × Nat) := []
  frames : List (List Int) := []
  signals : List Signal := []
  firstArrival : Nat := 0
deriving DecidableEq, Repr

/-- A stage in a shaping unit (R59, R60, R69): item, stage number, start, exact duration, whether it waited on late data. -/
structure StageS where
  item : Nat
  stage : Nat
  start : Nat
  dur : Nat
  late : Bool := false
  pinned : Bool := false
deriving DecidableEq, Repr

/-- A Sickle unit (R65 to R69): its stage, the boxes, the box in work, granules issued per box, buffer entries in use,
issue tick of each box's last granule, start of the present box, end of the box before, flags written. -/
structure SickleS where
  stage : Option StageS := none
  hdr : BoxHdr := { count := 0, outW := 7, outH := 7, mode := 0, targets := 1, fill := [], binding := 0 }
  boxes : List Box := []
  box : Nat := 0
  started : Bool := false
  startT : Nat := 0
  endT : Nat := 0
  issueBox : Nat := 0
  issued : Nat := 0
  inBuf : Nat := 0
  lastIssue : Tbl Nat := []
  flags : List Nat := []
deriving DecidableEq, Repr

/-- A crop that a Sickle stage has produced for the packer (R71): the item, the stage, the crop's size and its bytes. -/
structure Crop where
  item : Nat
  stage : Nat
  w : Nat
  h : Nat
  bytes : List Byte
deriving DecidableEq, Repr

/-- A token-form sample (R71): an utterance of a record slot with the tokens the speech front end gives for it, or a sequence that
cores have written to a Granary region, with its length in bytes. -/
inductive PackSrc where
  | utt (slot utt : Nat) (bytes : List Byte)
  | seq (at_ : GranRef) (bytes : Nat)
deriving DecidableEq, Repr

/-- A source picture queued in an encoder (R77, R78): its source Tally, number, source slot, format, size and bytes; and, once its
encoding has started, the slices it is cut in, the CLIP flags IDR, LTR_STORE and LTR_USE, and whether its slices are emitted one by
one (R80). -/
structure EncPic where
  src : Nat
  num : Nat
  slot : Nat := 0
  fmt : Nat := 0
  w : Nat := 0
  h : Nat := 0
  bytes : List Byte := []
  slices : Nat := 1
  flags : Nat := 0
  sub : Bool := false
deriving DecidableEq, Repr

/-- An encoder's state beside its page (R76 to R82). `history` holds, for each picture whose encoding has started since EN was set,
the committed fields and flags it is coded with and the bytes of the encoder's input: what the bitstream is a function of. -/
structure EncS where
  queue : List EncPic := []
  due : Nat := 0
  started : Bool := false
  picNum : Nat := 0
  sinceIdr : Nat := 0
  firstDone : Bool := false
  ltr0 : Bool := false
  ltr1 : Bool := false
  slice : Nat := 0
  history : List (List Nat × List Byte) := []
  session : Nat := 0
deriving DecidableEq, Repr

end Sys2Proof.Machine
end

