-- ==== Sys2Proof/Machine/ExtTypes.lean ====
section
/-!
DEFINITION. Sys2Proof/Machine/ExtTypes.lean: operands and state of the host interface, the management plane, the HBM
controller, the links and the safety mechanisms (10, 12 to 17 of the spec).
-/

namespace Sys2Proof.Machine

/-! ## Host interface (16_host_interface.md) -/

/-- How a completion ends a request (R383). -/
inductive CplStatus where
  | ok | ur | ca | poisoned | malformed
deriving DecidableEq, Repr

/-- Where a host access goes (R380, R381): BAR 0, the exchange window of BAR 2, the MSI-X structures of BAR 4, or
configuration space; `fw` accesses of firmware go to register pages only. -/
inductive Space where
  | bar0 | bar2 | bar4 | cfg
deriving DecidableEq, Repr

/-- What a device read of host memory is for (Table 16-5). -/
inductive ReadKind where
  | ledgerPidx
  | ledgerEntries (first n : Nat)
  | inputBlock (item : Nat)
  | perturb (item : Nat)
  | intakePidx (slot : Nat)
  | intakeDesc (slot n : Nat)
  | auBytes (slot : Nat)
  | planImage
  | fwImage
  | relayPidx
  | relayDesc (n : Nat)
  | relayUnit
deriving DecidableEq, Repr

/-- One request of a device read (R382, R434). -/
structure Req where
  tag : Nat
  off : Nat
  len : Nat
  issued : Nat
  data : Option (List Byte)
deriving DecidableEq, Repr

/-- A device read (R434): its requests issued so far, and the bytes not yet issued from `next` on. `keep` tells whether
the data are kept (an image's content is an operand of its command, not of its completions). -/
structure HostRead where
  id : Nat
  kind : ReadKind
  addr : Nat
  len : Nat
  next : Nat
  reqs : List Req
  keep : Bool
deriving DecidableEq, Repr

/-! ## Flits (12_determinism_and_fabric.md R285, R286, R290 to R292) -/

/-- What a flit carries beside its framing: a probe, an echo with its two stamps, a marker with its departure Tally, a unit
header, data, a NAK of a sequence, a credit return. -/
inductive FlitBody where
  | probe
  | echo (t1 t2 : Nat)
  | marker (t : Nat)
  | header (plan launch entry : Nat)
  | data (bytes : List Byte)
  | nak (seq : Nat)
  | credit (lane n : Nat)
deriving DecidableEq, Repr

/-- A flit (R290): virtual lane, start and end of unit, sequence, the CRC-4 it carries, the error pattern of each of its
codewords that is not error-free, and its content. -/
structure Flit where
  lane : Nat
  sou : Bool := false
  eou : Bool := false
  seq : Nat := 0
  crc : Nat := 0
  errs : List Nat := []
  body : FlitBody
deriving DecidableEq, Repr

/-- What the device sends to the outside, in order (R382, R385, R393, R429). -/
inductive HostOut where
  | write (addr : Nat) (bytes : List Byte)
  | poisonedWrite (addr : Nat) (n : Nat)
  | msix (vector addr data : Nat)
  | pmPme
  | pmeToAck
  | ltr (ns : Option Nat)
  | readReply (value : Nat)
  | readBytes (bytes : List Byte)
  | unsupported
  | smbus (value : Nat)
  | readReq (tag addr len : Nat)
  | linkFlit (port : Nat) (f : Flit)
  | tapBits (bits : List Bool)
deriving DecidableEq, Repr

/-- An error reported under AER (Table 16-6). -/
inductive AerErr where
  | completionTimeout | unexpectedCompletion | poisonedTlp | unsupportedRequest | unsupportedRead | malformed | uncorrectableInternal
deriving DecidableEq, Repr

/-- The errors of Table 16-6 by their bits in the AER registers (log entry 124). -/
def AerErr.bit : AerErr → Nat
  | .completionTimeout => 14
  | .unexpectedCompletion => 16
  | .poisonedTlp => 12
  | .unsupportedRequest => 20
  | .unsupportedRead => 20
  | .malformed => 18
  | .uncorrectableInternal => 22

/-- The error is found in a received TLP, whose header is logged (R384). -/
def AerErr.ofTlp : AerErr → Bool
  | .completionTimeout => false
  | .uncorrectableInternal => false
  | _ => true

/-- An error that is reported as an advisory one when its severity is non-fatal: the request, or the completion, ends elsewhere. -/
def AerErr.advisory : AerErr → Bool
  | .unexpectedCompletion => true
  | .unsupportedRead => true
  | _ => false

/-- An MSI-X table entry (R380, R385). -/
structure MsixEnt where
  addr : Nat := 0
  data : Nat := 0
  mask : Bool := true
deriving DecidableEq, Repr

/-- The endpoint's state beside its page (R376 to R394). `aer` lists the errors reported so far; `aerStatus` to `aerCorMask` are the
status, mask and severity registers of the AER capability, with the base specification's values at reset, and `aerFirst` is the number of the
error whose header the header log holds (R384; log entry 124). `hotStart` holds in the START_UP phase that follows a hot reset (R389). -/
structure PcieS where
  bme : Bool := false
  memSpace : Bool := false
  msixEn : Bool := false
  fnMask : Bool := false
  pmeEn : Bool := false
  pmeStatus : Bool := false
  bars : Tbl Nat := []
  maxPayload : Nat := 128
  maxRead : Nat := 512
  ctoSel : Nat := 0
  msix : Tbl MsixEnt := []
  pba : Nat := 0
  reads : List HostRead := []
  readId : Nat := 0
  dropTags : List Nat := []
  out : List HostOut := []
  aer : List AerErr := []
  aerStatus : Nat := 0
  aerCor : Nat := 0
  aerMask : Nat := 0x400000
  aerSeverity : Nat := 0x462010
  aerCorMask : Nat := 0x6000
  aerFirst : Option Nat := none
  evtTick : Option Nat := none
  turnedOff : Bool := false
  ackPending : Bool := false
  hotStart : Bool := false
deriving DecidableEq, Repr

/-! ## Power (17_power_clocks_and_reset.md) -/

/-- Power and reset state beside the PWR page (R397 to R409). -/
structure PowerS where
  vddAon : Bool := true
  perst : Bool := true
  clkHold : Bool := false
  testEn : Bool := false
  smbAddr : Nat := 0
  settling : List (Nat × Nat) := []
  deferred : List Nat := []
  lastOn : Option Nat := none
  wakeN : Bool := false
  smbAlert : Bool := true
  xspiCsHigh : Bool := true
  timeOut : Bool := false
  timeOutAt : Nat := 0
deriving DecidableEq, Repr

/-- The instructions of the TAP: those of IEEE 1149.1 that R354 of 14_security_and_sessions.md names, and the debug instructions
that JTAG_UNLOCK opens. -/
inductive TapIr where
  | bypass | idcode | samplePreload | extest
  | debug (n : Nat)
deriving DecidableEq, Repr

/-! ## Boot (15_management_firmware_and_storage.md R361, R362; 17_power_clocks_and_reset.md R403 to R405) -/

/-- The pool that firmware sets up at boot for the codec cores: its number, its buffers' size in 4 KiB units and their count, and the
minimum of each codec core, the 9 decode cores first, then the 2 encode cores (09 R225). -/
structure CodecPool where
  pool : Nat := 0
  size : Nat := 1
  count : Nat := 11
  mins : List Nat := List.replicate 11 1
deriving DecidableEq, Repr

/-- A channel's training record (10 R248): the stack's serial number, the temperature in °C, the delays of its 72 lanes and the lane remaps
of its pseudo-channels. -/
structure TrainRec where
  stack : Nat := 0
  deg : Int := 40
  rd : List Nat := []
  wr : List Nat := []
  lanes : List Nat := [0, 0]
deriving DecidableEq, Repr

/-- What the boot after a release of PERST_N meets outside the model: whether the SRAM PUF reconstructs the device root,
the stack's identity check (R231), its serial number, the channels that pass the fast path's pattern runs and, of the others, full
training, with its results (R248), the stack temperature, what fails the boot test (R362), the lowest code each core's replica passes at (R404), the cores'
CORE_AGE counts (R112), VDD_CORE as measured; and what the booted image decides: HBMC_MAP, the size of the Cooper area in KiB
and the pool of the codec cores (10 R233, 09 R224, R225; log entry 14). -/
structure BootIn where
  pufOk : Bool := true
  stackOk : Bool := true
  fastMask : Nat := 0xFFFF
  fullMask : Nat := 0xFFFF
  stack : Nat := 0
  trained : Tbl TrainRec := []
  stackDeg : Int := 40
  badCores : List Nat := []
  badBanks : List (Nat × Nat) := []
  badDecs : List Nat := []
  replica : List Nat := []
  ages : List Nat := []
  mv : Nat := 800
  grain : Nat := 12
  fold : Bool := false
  areaKib : Nat := 4194304
  codec : CodecPool := {}
deriving DecidableEq, Repr

/-! ## Security (14_security_and_sessions.md) -/

/-- The session fields of a mailbox request's frame (Table 14-5): SESSION, SEQ and TAG. CMD is the command itself. -/
structure MbReq where
  session : Nat
  seq : Nat
  tag : Nat
deriving DecidableEq, Repr

/-- A write of REG_WRITE (R343): page base, offset, value. -/
structure RegW where
  base : Nat
  off : Nat
  value : Nat
deriving DecidableEq, Repr

/-- A firmware image (R349, R363, Table 15-3): version, interface version, SVN, length, digest of its body, and whether its
XMSS signature verifies under Hydramen's key (computed outside the model by the named standard). -/
structure FwImage where
  version : Nat := 0x01000000
  iface : Nat := 0x0100
  svn : Nat := 1
  len : Nat := 294912
  digest : Nat := 0
  sigOk : Bool := true
deriving DecidableEq, Repr

/-- A session slot (R338): generation, open or pending, role, the OPEN payload's MIN_SVN, IFACE, HWM and host nonce, the
device nonce, K_s, the next expected SEQ, the run of BAD_TAG failures, restricted, and the tick of OPEN. -/
structure Sess where
  gen : Nat := 0
  isOpen : Bool := false
  pending : Bool := false
  role : Nat := 0
  minSvn : Nat := 0
  iface : Nat := 0
  hwm : Nat := 0
  hostNonce : Nat := 0
  devNonce : Nat := 0
  key : Nat := 0
  seq : Nat := 0
  badRun : Nat := 0
  restricted : Bool := false
  openedAt : Nat := 0
deriving DecidableEq, Repr

/-- A mailbox response (Table 14-5). A payload that R335 has sealed stands here sealed. -/
structure MbResp where
  session : Nat := 0
  cmd : Nat := 0
  status : Nat := 0
  reason : Nat := 0
  seq : Nat := 0
  payload : List Byte := []
  tag : Nat := 0
deriving DecidableEq, Repr

/-- A tensor unlock (R348): session tag, plan ID, output number, releases left. -/
structure TUnlock where
  session : Nat
  plan : Nat
  output : Nat
  count : Nat
deriving DecidableEq, Repr

/-- A release into the evidence window (R348): release number, session tag, plan ID, SEQ, the output's bytes. -/
structure Release where
  number : Nat
  session : Nat
  plan : Nat
  seq : Nat
  bytes : List Byte
deriving DecidableEq, Repr

/-- An INSTALL in progress (R159): its request, the length of the image in host memory, the image, and the plan-table entry it
has taken once the image has been read and its first three checks have passed (R160). -/
structure Install where
  req : MbReq
  len : Nat
  img : PlanImage
  idx : Option Nat := none
deriving DecidableEq, Repr

/-- A FW_UPDATE in progress (R364): its request, the image, the length given, and whether the image has been read and accepted. -/
structure FwUpdate where
  req : MbReq
  img : FwImage
  len : Nat
  fetched : Bool := false
deriving DecidableEq, Repr

/-- The Locksmith and the mailbox beside the SEC page (R331 to R354). `roleKeys` and `modelKeys` are what the Locksmith
holds, `flashRole` and `flashModel` what the configuration partition holds wrapped. -/
structure SecS where
  sess : Tbl Sess := []
  roleKeys : Tbl (Option Nat) := []
  modelKeys : List (Nat × Nat) := []
  flashModel : List (Nat × Nat) := []
  flashRole : Tbl (Option Nat) := []
  lostRoles : Nat := 0
  streamUnlocks : List (Nat × Nat) := []
  tensorUnlocks : List TUnlock := []
  window : Option Release := none
  waiting : List Release := []
  releaseNo : Nat := 0
  reqBuf : Tbl Byte := []
  resp : MbResp := {}
  install : Option Install := none
  fwUpdate : Option FwUpdate := none
  entropyBad : Bool := false
  repairAuth : List (Nat × Nat) := []
  testBy : Option Nat := none
  testFrom : Nat := 1
  closeAfter : Bool := false
deriving DecidableEq, Repr

/-! ## Management plane and flash (15_management_firmware_and_storage.md) -/

/-- A fault-journal entry (Table 15-9). -/
structure FjEntry where
  number : Nat := 0
  tally : Nat := 0
  boot : Nat := 0
  code : Nat := 0
  severity : Nat := 0
  unitKind : Nat := 0
  unit : Nat := 0
  plan : Nat := 0
  detail : Nat := 0
deriving DecidableEq, Repr

/-- An entry of the disabled-unit map (Table 15-10). -/
structure DumEntry where
  kind : Nat
  unit : Nat
  sub : Nat
  value : Nat
deriving DecidableEq, Repr

/-- The management pairs beside the MGMT page (R357 to R375). Pair 0 is A, pair 1 is B: `resetAt` the tick at which a pair
was put in reset. -/
structure MgmtS where
  resetAt : Tbl (Option Nat) := []
  fjBuf : List FjEntry := []
  fjAll : List FjEntry := []
  fjNext : Nat := 0
  fjLost : Nat := 0
  dum : List DumEntry := []
  dumSeq : Nat := 0
  bootCount : Nat := 0
  rounds : Nat := 0
  vidBase : Nat := 0
  ageBase : Tbl Nat := []
  firstService : Bool := false
deriving DecidableEq, Repr

/-- A flash operation (R365, R372). -/
inductive FlashKind where
  | read | program | erase
deriving DecidableEq, Repr

/-- What a flash operation is part of (R372): a record copy, a move, a refresh, a block erase, a boot record, an XMSS
reservation, a fault-journal page, a journal entry, or patrol. -/
inductive FlashUse where
  | record | move | refresh | blockErase | bootRecord | xmss | faultPage
  | journal | fwImage | patrol
deriving DecidableEq, Repr

/-- A flash operation issued or waiting to be issued by pair B. A program of `use` journal, faultPage, xmss or bootRecord goes
to the next free page of its partition; `page` tells an INTENT (0) from a DONE (1) of the journal. -/
structure FlashOp where
  kind : FlashKind
  use : FlashUse
  block : Nat := 0
  page : Nat := 0
deriving DecidableEq, Repr

/-- A block of the flash (R366 to R369): erase count, pages written, the round it was programmed in, and why it is bad:
0 good, 1 factory mark, 2 grown. -/
structure FBlock where
  erases : Nat := 0
  pages : Nat := 0
  progRound : Nat := 0
  bad : Nat := 0
deriving DecidableEq, Repr

/-- A record copy of CONFIG (R371): type, key, sequence, the block of each copy. -/
structure FRec where
  ty : Nat
  key : Nat
  seq : Nat
  blockA : Nat
  blockB : Nat
deriving DecidableEq, Repr

/-- The flash: its blocks, the operation in progress (the head of `ops`) and those waiting, journal entries with INTENT and
without DONE, the configuration records, the boot record in force with the two firmware slots, the persisted XMSS end
(R352), the rows on the soft-repair list (10 R246) and what the training records say (10 R248). As delivered it holds a boot record, firmware in FW_A, the PUF helper data
and the Service key (log entry 9). -/
structure FlashS where
  blocks : Tbl FBlock := [(0, { pages := 1 }), (8, { pages := 64 }), (9, { pages := 8 }), (136, { pages := 1 }),
    (137, { pages := 1 }), (138, { pages := 1 }), (139, { pages := 1 })]
  ops : List FlashOp := []
  intents : List FlashOp := []
  recs : List FRec := [{ ty := 4, key := 0, seq := 1, blockA := 136, blockB := 137 },
    { ty := 5, key := 4, seq := 1, blockA := 138, blockB := 139 }]
  bootSlot : Nat := 0
  bootSeq : Nat := 1
  slotA : Option FwImage := some {}
  slotB : Option FwImage := none
  xmssEnd : Nat := 0
  softRows : List Nat := []
  training : Tbl TrainRec := []
deriving DecidableEq, Repr

/-! ## Fabric (12_determinism_and_fabric.md) -/

/-- A link port's state beside its page (R285, R290 to R294): sequence of the next flit sent and of the next one expected, the
last 128 flits sent, the flit being replayed with its replays, whether a replay is awaited, the flits waiting for a credit with
the tick from which each waits, the lanes of the credits in use with the core that holds each, whether the spare lane is in
use, the departure of the probe under way, the units whose headers have arrived, those without an item as none, in the order in which their
data come, and until when a pinned unit holds the data lane. -/
structure LinkS where
  txSeq : Nat := 0
  rxSeq : Nat := 0
  replay : List Flit := []
  replays : Nat := 0
  nakSeq : Nat := 0
  awaiting : Bool := false
  txq : List (Flit × Nat × Option Nat) := []
  held : List (Nat × Option Nat) := []
  spareUsed : Bool := false
  probeT0 : Option Nat := none
  rxUnits : List (Option (Nat × Nat)) := []
  laneBusyTo : Nat := 0
deriving DecidableEq, Repr

/-- A transfer unit that this chip receives (R296, R301): the waiting item, its entry of the FABRIC section, the bytes that have
arrived, whether all have, the tick at which the data landed, and whether SEM has been signalled. -/
structure XUnit where
  item : Nat
  entry : Nat
  arrived : List Byte := []
  complete : Bool := false
  landed : Option Nat := none
  signalled : Bool := false
deriving DecidableEq, Repr

/-- A relayed unit as host software places it (R300): the fields of its 32-byte header, its ciphertext and tag. -/
structure RelayUnit where
  srcChip : Nat
  dstChip : Nat
  plan : Nat
  launch : Nat
  entry : Nat
  bytes : Nat
  ct : List Byte
  tag : Nat
deriving DecidableEq, Repr

/-- Tally alignment, the time reference, the ports and the transfers (R283 to R301). `step` is a Tally step waiting for the
next SYSREF edge, and `stepAligns` tells that it completes an alignment; `expected` is the next expected TIME_IN edge and
`lastEdge` the last one or the last report of its absence; `relayWait` the relay units waiting for room, `relayIn` the consumer index
of the relay-in ring, `relayReady` how many relayed units have been read; `started` the units
sent. -/
structure FabS where
  armed : Bool := false
  timeArmed : Bool := false
  step : Option Int := none
  stepAligns : Bool := false
  expected : Option Nat := none
  lastEdge : Option Nat := none
  lastMarker : Option Nat := none
  links : Tbl LinkS := []
  units : List XUnit := []
  relayWait : List (List Byte) := []
  relayIn : Nat := 0
  relayReady : Nat := 0
  started : List (Nat × Nat) := []
deriving DecidableEq, Repr

/-! ## HBM (10_hbm_controller.md) -/

/-- Where a request comes from (09 R217): the staging DMA or Carter of a cluster, by the cluster's HBM-side ports; a client of the hub, by its
number; the controller itself, which patrols and writes back. -/
inductive HbmSrc where
  | staging (clu : Nat) | carter (clu : Nat) | client (n : Nat) | controller
deriving DecidableEq, Repr

/-- A request of 64 bytes or less to one granule (R234, R235): its number, source, device address, direction, the bytes and the mask of a
write, and the item it belongs to. -/
structure HbmReq where
  id : Nat
  src : HbmSrc
  addr : Nat
  wr : Bool
  bytes : List Byte := []
  mask : List Bool := []
  item : Option Nat := none
deriving DecidableEq, Repr

/-- What an entry of a queue is: a request, a read of the patrol (R242), or a write-back (R240). -/
inductive HbmKind where
  | request | patrol | writeBack
deriving DecidableEq, Repr

/-- A request on its way (R234 to R236): its class, the tick from which its latency counts, the tick since which it has waited for an entry,
how many requests admitted after it have passed it; and the granule as it stood when the request was admitted, with what a read of it
meets (R235). -/
structure HbmEnt where
  req : HbmReq
  kind : HbmKind := .request
  pinned : Bool := false
  at_ : Nat
  since : Nat := 0
  passed : Nat := 0
  snap : List Byte := []
  info : ReadInfo := {}
deriving DecidableEq, Repr

/-- A repair running in a channel (R246): the bank it holds and its start. -/
structure Repair where
  pc : Nat
  bank : Nat
  row : Nat
  hard : Bool
  start : Nat
deriving DecidableEq, Repr

/-- The HBM controller beside its pages. Pseudo-channels are numbered 2·c + PC; `served` is the last granule read, as it was
delivered, with whether it was poison. -/
structure HbmS where
  mem : Mem := {}
  ports : List HbmEnt := []
  flying : List (HbmEnt × Nat) := []
  queues : Tbl (List HbmEnt) := []
  waiting : List HbmEnt := []
  served : Option (HbmReq × List Byte × Bool) := none
  wbq : Tbl (List Nat) := []
  patrol : Tbl Nat := []
  patrolAt : Tbl Nat := []
  idleSince : Tbl Nat := []
  repairs : Tbl (Option Repair) := []
  refBank : Tbl Nat := []
  rowCE : Tbl Nat := []
  candidates : List Nat := []
  withheld : List (Nat × Nat) := []
  spareRows : Tbl Nat := []
  reserved : Bool := false
  srefExit : Option Nat := none
  trainRun : Tbl Bool := []
deriving DecidableEq, Repr

/-! ## Functional safety (13_functional_safety.md) -/

/-- A report to the fault collector (Table 13-3). `cores` are the physical cores that consumed the data. -/
inductive FaultCls where
  | core (core col : Nat) (adder : Bool)
  | memory (unitKind unit addr : Nat) (poison decPoison : Bool) (cores : List Nat)
  | dark (clu bank : Nat) (cores : List Nat)
  | link (port : Nat)
  | management (pair cause : Nat)
  | trackLedger (index : Nat)
  | thermal
  | decoder (core : Nat)
  | selfCheck
deriving DecidableEq, Repr

/-- A report with its test tag (R317). -/
structure FaultRep where
  cls : FaultCls
  test : Bool := false
deriving DecidableEq, Repr

/-- A core-class reaction running in a cluster (R309): the faulted core, the logical core, the spare it waits for, the
pinned items to relaunch, the tick at which the core was retired. -/
structure Reaction where
  core : Nat
  logical : Option Nat
  spare : Option Nat
  items : List Item
  since : Nat
deriving DecidableEq, Repr

/-- A checker segment to start (Table 13-6): its number in that table from 0, the unit kind of Table 8-10 (9 a cluster's
Granary, 10 the fault collector) and the unit. -/
structure SegReq where
  seg : Nat
  unitKind : Nat
  unit : Nat
deriving DecidableEq, Repr

/-- A running segment. -/
structure SegRun where
  seg : Nat
  unitKind : Nat
  unit : Nat
  start : Nat
deriving DecidableEq, Repr

/-- A handover of a cluster (R322): the logical core, the physical core it leaves and the spare, and whether the copy is
complete. -/
structure Handover where
  logical : Nat
  phys : Nat
  spare : Nat
  start : Nat
deriving DecidableEq, Repr

/-- A Reeve pipeline's own state (R314 to R316): the tick its period runs from, the tick of its last result or of the commit that
enabled it, and whether its period has run out since. -/
structure ReeveP where
  since : Nat := 0
  last : Nat := 0
  live : Bool := false
  bad : Bool := false
deriving DecidableEq, Repr

/-- Winnow beside its page (R317 to R325). `passAt` and `overdueAt` are indexed by segment, unit kind and unit. -/
structure WinS where
  segs : List SegRun := []
  passAt : Tbl Nat := []
  overdueAt : Tbl Nat := []
  overruns : Tbl Nat := []
  handovers : Tbl (Option Handover) := []
  testing : Tbl (Option Nat) := []
  goldenRun : Tbl Nat := []
  overdueOpen : List Nat := []
  findings : List Nat := []
  goldenBad : List Nat := []
  provingSince : Nat := 0
deriving DecidableEq, Repr

/-! ## Shaping (03_shaping_and_encoding.md) -/

/-- The shaping stages: the scaler's stage, the Sickle units, the stages completed (item, stage, tick), the crops that wait for the
packer, and the rows packed for an item. The reserved windows of R59 follow from the pinned items and their plans. -/
structure ShapeS where
  scaler : Option StageS := none
  sickle : Tbl SickleS := []
  done : List (Nat × Nat × Nat) := []
  crops : List Crop := []
  packRows : Tbl Nat := []
deriving DecidableEq, Repr

/-! ## Dispatch and pager (11_dispatch_preemption_and_paging.md) -/

/-- The dispatcher beside its registers: the ledger poll in flight, the items, the reservations and holds, the outcomes
REGION bindings look up, the repeats, the lease. -/
structure DispS where
  poll : Option Poll := none
  items : List Item := []
  nextKey : Nat := 1
  resv : List Resv := []
  holds : List Hold := []
  outcomes : List Outcome := []
  repeats : List Repeat := []
  lastSeq : Option Nat := none
  evictFor : Option Nat := none
  leaseEnd : Option Nat := none
  leaseSuspended : Bool := false
  cidxHeld : Bool := false
deriving DecidableEq, Repr

/-- Tracking: the ledger by entry number, the embedding store, per-slot state, hand-offs, running steps. -/
structure TrkS where
  tracks : Tbl Track := []
  embs : Tbl (List Int) := []
  slots : Tbl TrkSlot := []
  handoffs : List HandOff := []
  steps : List TrkStep := []
  embHands : List (Nat × Nat × List (List Int)) := []
deriving DecidableEq, Repr

/-- What a commit of the placement map replaced: its tick, its writer, the register values and the handovers before it. A hardware
substitution in the same tick takes the commit back (01 R15). -/
structure MapUndo where
  tick : Nat
  fw : Bool
  vals : List (Nat × Nat)
  handovers : Tbl (Option Handover)
deriving DecidableEq, Repr

/-- The fault collector: waiting core-class reports, the running reactions by cluster, and whether its self-check has failed. -/
structure FaultS where
  mapUndo : Option MapUndo := none
  queue : List (Nat × Nat) := []
  reactions : Tbl (Option Reaction) := []
  selfCheck : Bool := false
deriving DecidableEq, Repr

end Sys2Proof.Machine
end

