-- ==== Sys2Proof/Machine/RegTable.lean ====
section
/-!
DEFINITION. Sys2Proof/Machine/RegTable.lean: every register field the spec gives an address, with its page, its offset,
its bits, its access class (00_scope.md Table 0-5), its writer (18_register_map.md Table 18-1, R16) and its reset value,
as the register tables of the chapters list them (18_register_map.md R414 to R421 and the "Registers" section of each
chapter).
-/

namespace Sys2Proof.Machine

/-- The access classes of 00_scope.md Table 0-5. -/
inductive Access where
  | ro | rw | rws | w1c | wo | rc
deriving DecidableEq, Repr

/-- The one writer of a field (01_architecture.md R16): host software, firmware, or nobody. -/
inductive Writer where
  | host | fw | none
deriving DecidableEq, Repr

/-- The selector register through which a field is reached, `none` for a field of its own address. -/
inductive SelKind where
  | none | slot | tslot | ring | pool | pipe | session | plan | ctx
deriving DecidableEq, Repr

/-- One register field: `base` is the number of its block's first page in the order of Table 18-1, `n` the number of
pages, `off` the offset of array element 0, `stride` and `cnt` the array it repeats in. -/
structure Fld where
  id : Nat
  base : Nat
  n : Nat
  off : Nat
  stride : Nat
  cnt : Nat
  sel : SelKind
  hi : Nat
  lo : Nat
  acc : Access
  wr : Writer
  rv : Nat
deriving DecidableEq, Repr

namespace F

def INTAKE_SLOT_SEL : Fld := ⟨0, 14, 1, 0x100, 4, 1, .none, 6, 0, .rw, .host, 0⟩
def ADM_CODEC_CODEC : Fld := ⟨1, 14, 1, 0x104, 4, 1, .slot, 3, 0, .rws, .host, 0⟩
def ADM_CODEC_PROFILE : Fld := ⟨2, 14, 1, 0x104, 4, 1, .slot, 7, 4, .rws, .host, 0⟩
def ADM_CODEC_LEVEL : Fld := ⟨3, 14, 1, 0x104, 4, 1, .slot, 15, 8, .rws, .host, 0⟩
def ADM_CODEC_HIBIT : Fld := ⟨4, 14, 1, 0x104, 4, 1, .slot, 16, 16, .rws, .host, 0⟩
def ADM_CODEC_LOWLAT : Fld := ⟨5, 14, 1, 0x104, 4, 1, .slot, 17, 17, .rws, .host, 0⟩
def ADM_DIMS_WIDTH : Fld := ⟨6, 14, 1, 0x108, 4, 1, .slot, 15, 0, .rws, .host, 0⟩
def ADM_DIMS_HEIGHT : Fld := ⟨7, 14, 1, 0x108, 4, 1, .slot, 31, 16, .rws, .host, 0⟩
def ADM_DPB_RATE_DPB : Fld := ⟨8, 14, 1, 0x10c, 4, 1, .slot, 4, 0, .rws, .host, 0⟩
def ADM_DPB_RATE_FPS : Fld := ⟨9, 14, 1, 0x10c, 4, 1, .slot, 23, 16, .rws, .host, 0⟩
def ADM_POOL_POOL : Fld := ⟨10, 14, 1, 0x110, 4, 1, .slot, 2, 0, .rws, .host, 0⟩
def ADM_POOL_SESSION : Fld := ⟨11, 14, 1, 0x110, 4, 1, .slot, 31, 16, .rws, .host, 0⟩
def ADM_BUDGET : Fld := ⟨12, 14, 1, 0x114, 4, 1, .slot, 7, 0, .rws, .host, 0⟩
def INTAKE_RING_BASE_LO : Fld := ⟨13, 14, 1, 0x118, 4, 1, .slot, 31, 0, .rws, .host, 0⟩
def INTAKE_RING_BASE_HI : Fld := ⟨14, 14, 1, 0x11c, 4, 1, .slot, 31, 0, .rws, .host, 0⟩
def INTAKE_RING_CFG : Fld := ⟨15, 14, 1, 0x120, 4, 1, .slot, 12, 0, .rws, .host, 0⟩
def PIDX_ADDR_LO : Fld := ⟨16, 14, 1, 0x124, 4, 1, .slot, 31, 0, .rws, .host, 0⟩
def PIDX_ADDR_HI : Fld := ⟨17, 14, 1, 0x128, 4, 1, .slot, 31, 0, .rws, .host, 0⟩
def SLOT_STATE_STATE : Fld := ⟨18, 14, 1, 0x130, 4, 1, .slot, 1, 0, .ro, .none, 0⟩
def SLOT_STATE_CIDX : Fld := ⟨19, 14, 1, 0x130, 4, 1, .slot, 31, 16, .ro, .none, 0⟩
def INTAKE_LOAD : Fld := ⟨20, 14, 1, 0x134, 4, 1, .none, 12, 0, .ro, .none, 0⟩
def INTAKE_PERIOD : Fld := ⟨21, 14, 1, 0x138, 4, 1, .none, 19, 0, .rw, .host, 4096⟩
def DEC_CTRL : Fld := ⟨22, 96, 9, 0x100, 4, 1, .none, 0, 0, .rws, .fw, 1⟩
def DEC_STATE_BUSY : Fld := ⟨23, 96, 9, 0x104, 4, 1, .none, 0, 0, .ro, .none, 0⟩
def DEC_STATE_GANGED : Fld := ⟨24, 96, 9, 0x104, 4, 1, .none, 1, 1, .ro, .none, 0⟩
def DEC_STATE_SLOT : Fld := ⟨25, 96, 9, 0x104, 4, 1, .none, 8, 2, .ro, .none, 0⟩
def DEC_PICTURES : Fld := ⟨26, 96, 9, 0x108, 4, 1, .none, 31, 0, .ro, .none, 0⟩
def DEC_CONCEALED : Fld := ⟨27, 96, 9, 0x10c, 4, 1, .none, 31, 0, .ro, .none, 0⟩
def DEC_ABANDONED : Fld := ⟨28, 96, 9, 0x110, 4, 1, .none, 31, 0, .ro, .none, 0⟩
def DEC_REFUSED : Fld := ⟨29, 96, 9, 0x114, 4, 1, .none, 31, 0, .ro, .none, 0⟩
def DEC_SWITCHES : Fld := ⟨30, 96, 9, 0x118, 4, 1, .none, 31, 0, .ro, .none, 0⟩
def DEC_BUSY_LO : Fld := ⟨31, 96, 9, 0x11c, 4, 1, .none, 31, 0, .ro, .none, 0⟩
def DEC_BUSY_HI : Fld := ⟨32, 96, 9, 0x120, 4, 1, .none, 31, 0, .ro, .none, 0⟩
def CSI_CFG_LANES : Fld := ⟨33, 107, 8, 0x100, 4, 1, .none, 1, 0, .rws, .host, 2⟩
def CSI_CFG_VC : Fld := ⟨34, 107, 8, 0x100, 4, 1, .none, 3, 2, .rws, .host, 0⟩
def CSI_CFG_DT : Fld := ⟨35, 107, 8, 0x100, 4, 1, .none, 9, 4, .rws, .host, 43⟩
def CSI_CFG_OUT : Fld := ⟨36, 107, 8, 0x100, 4, 1, .none, 11, 10, .rws, .host, 0⟩
def CSI_CFG_CFA : Fld := ⟨37, 107, 8, 0x100, 4, 1, .none, 13, 12, .rws, .host, 0⟩
def CSI_CFG_SCALE : Fld := ⟨38, 107, 8, 0x100, 4, 1, .none, 15, 14, .rws, .host, 1⟩
def CSI_CFG_DEFECT : Fld := ⟨39, 107, 8, 0x100, 4, 1, .none, 16, 16, .rws, .host, 0⟩
def CSI_FRAME_SIZE_WIDTH : Fld := ⟨40, 107, 8, 0x104, 4, 1, .none, 12, 0, .rws, .host, 0⟩
def CSI_FRAME_SIZE_HEIGHT : Fld := ⟨41, 107, 8, 0x104, 4, 1, .none, 27, 16, .rws, .host, 0⟩
def CSI_BLACK_01_CH_EVEN : Fld := ⟨42, 107, 8, 0x108, 4, 1, .none, 11, 0, .rws, .host, 0⟩
def CSI_BLACK_23_CH_EVEN : Fld := ⟨43, 107, 8, 0x10c, 4, 1, .none, 11, 0, .rws, .host, 0⟩
def CSI_GAIN_01_CH_EVEN : Fld := ⟨44, 107, 8, 0x110, 4, 1, .none, 11, 0, .rws, .host, 256⟩
def CSI_GAIN_23_CH_EVEN : Fld := ⟨45, 107, 8, 0x114, 4, 1, .none, 11, 0, .rws, .host, 256⟩
def CSI_BLACK_01_CH_ODD : Fld := ⟨46, 107, 8, 0x108, 4, 1, .none, 27, 16, .rws, .host, 0⟩
def CSI_BLACK_23_CH_ODD : Fld := ⟨47, 107, 8, 0x10c, 4, 1, .none, 27, 16, .rws, .host, 0⟩
def CSI_GAIN_01_CH_ODD : Fld := ⟨48, 107, 8, 0x110, 4, 1, .none, 27, 16, .rws, .host, 256⟩
def CSI_GAIN_23_CH_ODD : Fld := ⟨49, 107, 8, 0x114, 4, 1, .none, 27, 16, .rws, .host, 256⟩
def CSI_DEFECT_THR : Fld := ⟨50, 107, 8, 0x118, 4, 1, .none, 11, 0, .rws, .host, 64⟩
def CSI_FE_TIMEOUT : Fld := ⟨51, 107, 8, 0x11c, 4, 1, .none, 15, 0, .rw, .host, 660⟩
def ROI_CTRL_COUNT : Fld := ⟨52, 107, 8, 0x120, 4, 1, .none, 4, 0, .rws, .host, 0⟩
def ROI_CTRL_SRC : Fld := ⟨53, 107, 8, 0x120, 4, 1, .none, 8, 8, .rws, .host, 0⟩
def ROI_CTRL_MARGIN : Fld := ⟨54, 107, 8, 0x120, 4, 1, .none, 23, 16, .rws, .host, 4⟩
def ROI_POS_X : Fld := ⟨55, 107, 8, 0x140, 8, 16, .none, 15, 0, .rws, .host, 0⟩
def ROI_POS_Y : Fld := ⟨56, 107, 8, 0x140, 8, 16, .none, 31, 16, .rws, .host, 0⟩
def ROI_SIZE_W : Fld := ⟨57, 107, 8, 0x144, 8, 16, .none, 15, 0, .rws, .host, 32⟩
def ROI_SIZE_H : Fld := ⟨58, 107, 8, 0x144, 8, 16, .none, 31, 16, .rws, .host, 32⟩
def CSI_FRAMES : Fld := ⟨59, 107, 8, 0x1c0, 4, 1, .none, 31, 0, .ro, .none, 0⟩
def CSI_CRC_ERR : Fld := ⟨60, 107, 8, 0x1c4, 4, 1, .none, 31, 0, .ro, .none, 0⟩
def CSI_ECC_CORR : Fld := ⟨61, 107, 8, 0x1c8, 4, 1, .none, 31, 0, .ro, .none, 0⟩
def CSI_ROI_STALE : Fld := ⟨62, 107, 8, 0x1cc, 4, 1, .none, 31, 0, .ro, .none, 0⟩
def CSI_FE_TIMEOUTS : Fld := ⟨63, 107, 8, 0x1d0, 4, 1, .none, 31, 0, .ro, .none, 0⟩
def REC_CFG_CHANNELS : Fld := ⟨64, 115, 1, 0x100, 4, 4, .none, 3, 0, .rws, .host, 8⟩
def REC_CFG_AUDIO : Fld := ⟨65, 115, 1, 0x100, 4, 4, .none, 4, 4, .rws, .host, 1⟩
def REC_CFG_SIGNALS : Fld := ⟨66, 115, 1, 0x100, 4, 4, .none, 5, 5, .rws, .host, 1⟩
def REC_ITEMS : Fld := ⟨67, 115, 1, 0x110, 4, 4, .none, 31, 0, .ro, .none, 0⟩
def REC_DROPS : Fld := ⟨68, 115, 1, 0x120, 4, 4, .none, 31, 0, .ro, .none, 0⟩
def REC_GAPS : Fld := ⟨69, 115, 1, 0x130, 4, 4, .none, 31, 0, .ro, .none, 0⟩
def SICKLE_STATE_BUSY : Fld := ⟨70, 116, 2, 0x100, 4, 1, .none, 0, 0, .ro, .none, 0⟩
def SICKLE_STATE_PINNED : Fld := ⟨71, 116, 2, 0x100, 4, 1, .none, 1, 1, .ro, .none, 0⟩
def SICKLE_STATE_REMAINING : Fld := ⟨72, 116, 2, 0x100, 4, 1, .none, 28, 16, .ro, .none, 0⟩
def SICKLE_LISTS : Fld := ⟨73, 116, 2, 0x104, 4, 1, .none, 31, 0, .ro, .none, 0⟩
def SICKLE_BOXES : Fld := ⟨74, 116, 2, 0x108, 4, 1, .none, 31, 0, .ro, .none, 0⟩
def SICKLE_OUTSIDE : Fld := ⟨75, 116, 2, 0x10c, 4, 1, .none, 31, 0, .ro, .none, 0⟩
def SICKLE_DEGENERATE : Fld := ⟨76, 116, 2, 0x110, 4, 1, .none, 31, 0, .ro, .none, 0⟩
def SICKLE_LATE : Fld := ⟨77, 116, 2, 0x114, 4, 1, .none, 31, 0, .ro, .none, 0⟩
def SICKLE_OVERSIZE : Fld := ⟨78, 116, 2, 0x118, 4, 1, .none, 31, 0, .ro, .none, 0⟩
def SICKLE_BUSY : Fld := ⟨79, 116, 2, 0x11c, 4, 1, .none, 31, 0, .ro, .none, 0⟩
def ENC_CTRL_EN : Fld := ⟨80, 105, 2, 0x100, 4, 1, .none, 0, 0, .rws, .host, 0⟩
def ENC_CTRL_CODEC : Fld := ⟨81, 105, 2, 0x100, 4, 1, .none, 2, 1, .rws, .host, 0⟩
def ENC_CTRL_RC : Fld := ⟨82, 105, 2, 0x100, 4, 1, .none, 3, 3, .rws, .host, 0⟩
def ENC_CTRL_SUBLAT : Fld := ⟨83, 105, 2, 0x100, 4, 1, .none, 4, 4, .rws, .host, 0⟩
def ENC_SRC_SLOT : Fld := ⟨84, 105, 2, 0x104, 4, 1, .none, 6, 0, .rws, .host, 0⟩
def ENC_SRC_ROT : Fld := ⟨85, 105, 2, 0x104, 4, 1, .none, 8, 7, .rws, .host, 0⟩
def ENC_SRC_MIRROR : Fld := ⟨86, 105, 2, 0x104, 4, 1, .none, 9, 9, .rws, .host, 0⟩
def ENC_SRC_SEL : Fld := ⟨87, 105, 2, 0x104, 4, 1, .none, 14, 10, .rws, .host, 0⟩
def ENC_SRC_RING : Fld := ⟨88, 105, 2, 0x104, 4, 1, .none, 19, 15, .rws, .host, 0⟩
def ENC_SIZE_W : Fld := ⟨89, 105, 2, 0x108, 4, 1, .none, 15, 0, .rws, .host, 1920⟩
def ENC_SIZE_H : Fld := ⟨90, 105, 2, 0x108, 4, 1, .none, 31, 16, .rws, .host, 1080⟩
def ENC_RATE_KBPS : Fld := ⟨91, 105, 2, 0x10c, 4, 1, .none, 15, 0, .rws, .host, 4000⟩
def ENC_RATE_QP : Fld := ⟨92, 105, 2, 0x10c, 4, 1, .none, 21, 16, .rws, .host, 30⟩
def ENC_RATE_FPS : Fld := ⟨93, 105, 2, 0x10c, 4, 1, .none, 31, 24, .rws, .host, 30⟩
def ENC_GOP_IDR_PERIOD : Fld := ⟨94, 105, 2, 0x110, 4, 1, .none, 15, 0, .rws, .host, 30⟩
def ENC_GOP_SLICE_ROWS : Fld := ⟨95, 105, 2, 0x110, 4, 1, .none, 23, 16, .rws, .host, 0⟩
def ENC_LTR_STORE : Fld := ⟨96, 105, 2, 0x114, 4, 1, .none, 0, 0, .rws, .host, 0⟩
def ENC_LTR_STORE_IDX : Fld := ⟨97, 105, 2, 0x114, 4, 1, .none, 1, 1, .rws, .host, 0⟩
def ENC_LTR_USE : Fld := ⟨98, 105, 2, 0x114, 4, 1, .none, 2, 2, .rws, .host, 0⟩
def ENC_LTR_USE_IDX : Fld := ⟨99, 105, 2, 0x114, 4, 1, .none, 3, 3, .rws, .host, 0⟩
def ENC_PICTURES : Fld := ⟨100, 105, 2, 0x140, 4, 1, .none, 31, 0, .ro, .none, 0⟩
def ENC_BYTES_LO : Fld := ⟨101, 105, 2, 0x144, 4, 1, .none, 31, 0, .ro, .none, 0⟩
def ENC_BYTES_HI : Fld := ⟨102, 105, 2, 0x148, 4, 1, .none, 31, 0, .ro, .none, 0⟩
def ENC_SKIPPED : Fld := ⟨103, 105, 2, 0x14c, 4, 1, .none, 31, 0, .ro, .none, 0⟩
def ENC_DISCARDED : Fld := ⟨104, 105, 2, 0x150, 4, 1, .none, 31, 0, .ro, .none, 0⟩
def CORE_STATE_STATE : Fld := ⟨105, 16, 72, 0x100, 4, 1, .none, 2, 0, .ro, .none, 0⟩
def CORE_STATE_LOGICAL : Fld := ⟨106, 16, 72, 0x100, 4, 1, .none, 10, 4, .ro, .none, 127⟩
def CORE_STATE_CLUSTER : Fld := ⟨107, 16, 72, 0x100, 4, 1, .none, 14, 12, .ro, .none, 0⟩
def CORE_STATE_PINNED : Fld := ⟨108, 16, 72, 0x100, 4, 1, .none, 15, 15, .ro, .none, 0⟩
def CORE_STATE_PLAN : Fld := ⟨109, 16, 72, 0x100, 4, 1, .none, 31, 16, .ro, .none, 0⟩
def CORE_ITEM : Fld := ⟨110, 16, 72, 0x104, 4, 1, .none, 31, 0, .ro, .none, 0⟩
def CORE_RESIDENT_TAG : Fld := ⟨111, 16, 72, 0x108, 4, 1, .none, 15, 0, .ro, .none, 0⟩
def CORE_RESIDENT_PLAN : Fld := ⟨112, 16, 72, 0x108, 4, 1, .none, 31, 16, .ro, .none, 0⟩
def CORE_BIN_CAP_WEIGHT_KIB : Fld := ⟨113, 16, 72, 0x10c, 4, 1, .none, 7, 0, .ro, .none, 128⟩
def CORE_BIN_CAP_ACT_KIB : Fld := ⟨114, 16, 72, 0x10c, 4, 1, .none, 15, 8, .ro, .none, 192⟩
def CORE_BIN_CAP_PSUM_TILES : Fld := ⟨115, 16, 72, 0x10c, 4, 1, .none, 20, 16, .ro, .none, 16⟩
def CORE_CTRL_RETIRE : Fld := ⟨116, 16, 72, 0x110, 4, 1, .none, 0, 0, .rws, .fw, 0⟩
def CORE_CTRL_FLUSH_RESIDENT : Fld := ⟨117, 16, 72, 0x110, 4, 1, .none, 1, 1, .rws, .fw, 0⟩
def CORE_CTRL_GATE_DIS : Fld := ⟨118, 16, 72, 0x110, 4, 1, .none, 2, 2, .rws, .fw, 0⟩
def CORE_PSUM_MASK : Fld := ⟨119, 16, 72, 0x114, 4, 1, .none, 15, 0, .rws, .fw, 0⟩
def CORE_AGE : Fld := ⟨120, 16, 72, 0x118, 4, 1, .none, 23, 0, .ro, .none, 0⟩
def CORE_BUSY_LO : Fld := ⟨121, 16, 72, 0x120, 4, 1, .none, 31, 0, .ro, .none, 0⟩
def CORE_BUSY_HI : Fld := ⟨122, 16, 72, 0x124, 4, 1, .none, 31, 0, .ro, .none, 0⟩
def CORE_MACS_LO : Fld := ⟨123, 16, 72, 0x128, 4, 1, .none, 31, 0, .ro, .none, 0⟩
def CORE_MACS_HI : Fld := ⟨124, 16, 72, 0x12c, 4, 1, .none, 31, 0, .ro, .none, 0⟩
def CORE_GATED_LO : Fld := ⟨125, 16, 72, 0x130, 4, 1, .none, 31, 0, .ro, .none, 0⟩
def CORE_GATED_HI : Fld := ⟨126, 16, 72, 0x134, 4, 1, .none, 31, 0, .ro, .none, 0⟩
def CORE_BUBBLES : Fld := ⟨127, 16, 72, 0x138, 4, 1, .none, 31, 0, .ro, .none, 0⟩
def CORE_LATE_CYCLES : Fld := ⟨128, 16, 72, 0x13c, 4, 1, .none, 31, 0, .ro, .none, 0⟩
def CORE_PSUM_SPILLS : Fld := ⟨129, 16, 72, 0x140, 4, 1, .none, 31, 0, .ro, .none, 0⟩
def CORE_RESIDUE_ERR : Fld := ⟨130, 16, 72, 0x144, 4, 1, .none, 31, 0, .ro, .none, 0⟩
def CORE_UNWRITTEN : Fld := ⟨131, 16, 72, 0x148, 4, 1, .none, 31, 0, .ro, .none, 0⟩
def CORE_RESIDENT_HITS : Fld := ⟨132, 16, 72, 0x14c, 4, 1, .none, 31, 0, .ro, .none, 0⟩
def CORE_WB_DROP : Fld := ⟨133, 16, 72, 0x150, 4, 1, .none, 31, 0, .ro, .none, 0⟩
def CORE_PREEMPTS : Fld := ⟨134, 16, 72, 0x154, 4, 1, .none, 31, 0, .ro, .none, 0⟩
def CORE_ACC_WRAPS : Fld := ⟨135, 16, 72, 0x158, 4, 1, .none, 31, 0, .ro, .none, 0⟩
def PLAN_SEL_INDEX : Fld := ⟨136, 2, 1, 0x800, 4, 1, .none, 7, 0, .rw, .host, 0⟩
def PLAN_SEL_BATCH : Fld := ⟨137, 2, 1, 0x800, 4, 1, .none, 23, 16, .rw, .host, 1⟩
def PLAN_ENTRY_STATE : Fld := ⟨138, 2, 1, 0x804, 4, 1, .plan, 1, 0, .ro, .none, 0⟩
def PLAN_ENTRY_PINNED : Fld := ⟨139, 2, 1, 0x804, 4, 1, .plan, 2, 2, .ro, .none, 0⟩
def PLAN_ENTRY_WHOLE_TILE : Fld := ⟨140, 2, 1, 0x804, 4, 1, .plan, 3, 3, .ro, .none, 0⟩
def PLAN_ENTRY_AUTONOMOUS : Fld := ⟨141, 2, 1, 0x804, 4, 1, .plan, 4, 4, .ro, .none, 0⟩
def PLAN_ENTRY_FABRIC : Fld := ⟨142, 2, 1, 0x804, 4, 1, .plan, 5, 5, .ro, .none, 0⟩
def PLAN_ENTRY_ONE_CLUSTER : Fld := ⟨143, 2, 1, 0x804, 4, 1, .plan, 6, 6, .ro, .none, 0⟩
def PLAN_ENTRY_PSUM_ASSUMED : Fld := ⟨144, 2, 1, 0x804, 4, 1, .plan, 12, 8, .ro, .none, 0⟩
def PLAN_ENTRY_CORES : Fld := ⟨145, 2, 1, 0x804, 4, 1, .plan, 22, 16, .ro, .none, 0⟩
def PLAN_ENTRY_MAX_BATCH : Fld := ⟨146, 2, 1, 0x804, 4, 1, .plan, 31, 24, .ro, .none, 0⟩
def PLAN_ID : Fld := ⟨147, 2, 1, 0x808, 4, 1, .plan, 15, 0, .ro, .none, 0⟩
def PLAN_CLAIM_GRANARY_KIB : Fld := ⟨148, 2, 1, 0x80c, 4, 1, .plan, 15, 0, .ro, .none, 0⟩
def PLAN_CLAIM_SPILL_KIB : Fld := ⟨149, 2, 1, 0x80c, 4, 1, .plan, 23, 16, .ro, .none, 0⟩
def PLAN_HBM : Fld := ⟨150, 2, 1, 0x810, 4, 1, .plan, 31, 0, .ro, .none, 0⟩
def PLAN_WCET : Fld := ⟨151, 2, 1, 0x814, 4, 1, .plan, 31, 0, .ro, .none, 0⟩
def PLAN_LAUNCHES : Fld := ⟨152, 2, 1, 0x820, 4, 1, .plan, 31, 0, .ro, .none, 0⟩
def PLAN_LATE : Fld := ⟨153, 2, 1, 0x824, 4, 1, .plan, 31, 0, .ro, .none, 0⟩
def PLAN_EMPTY : Fld := ⟨154, 2, 1, 0x828, 4, 1, .plan, 31, 0, .ro, .none, 0⟩
def PLAN_REFUSED : Fld := ⟨155, 2, 1, 0x82c, 4, 1, .plan, 31, 0, .ro, .none, 0⟩
def PLAN_LAST_STATUS : Fld := ⟨156, 2, 1, 0x830, 4, 1, .none, 15, 0, .ro, .none, 0⟩
def PLAN_LAST_REASON : Fld := ⟨157, 2, 1, 0x830, 4, 1, .none, 23, 16, .ro, .none, 0⟩
def PLAN_LAST_INDEX : Fld := ⟨158, 2, 1, 0x830, 4, 1, .none, 31, 24, .ro, .none, 0⟩
def PLAN_FREE : Fld := ⟨159, 2, 1, 0x834, 4, 1, .none, 8, 0, .ro, .none, 256⟩
def PLAN_FREE_HBM : Fld := ⟨160, 2, 1, 0x838, 4, 1, .none, 31, 0, .ro, .none, 0⟩
def PLAN_PINNED : Fld := ⟨161, 2, 1, 0x83c, 4, 1, .none, 6, 0, .ro, .none, 0⟩
def TRK_SLOT_SEL : Fld := ⟨162, 15, 1, 0x100, 4, 1, .none, 6, 0, .rw, .host, 0⟩
def TRK_CTRL_EN : Fld := ⟨163, 15, 1, 0x104, 4, 1, .tslot, 0, 0, .rws, .host, 0⟩
def TRK_CTRL_MODE : Fld := ⟨164, 15, 1, 0x104, 4, 1, .tslot, 1, 1, .rws, .host, 0⟩
def TRK_CTRL_EMB : Fld := ⟨165, 15, 1, 0x104, 4, 1, .tslot, 2, 2, .rws, .host, 0⟩
def TRK_CTRL_ROI : Fld := ⟨166, 15, 1, 0x104, 4, 1, .tslot, 3, 3, .rws, .host, 0⟩
def TRK_CTRL_NMS_AGNOSTIC : Fld := ⟨167, 15, 1, 0x104, 4, 1, .tslot, 4, 4, .rws, .host, 0⟩
def TRK_CTRL_OBJ_ALL : Fld := ⟨168, 15, 1, 0x104, 4, 1, .tslot, 5, 5, .rws, .host, 0⟩
def TRK_NMS_IOU_T : Fld := ⟨169, 15, 1, 0x108, 4, 1, .tslot, 10, 0, .rws, .host, 512⟩
def TRK_NMS_MAX_KEEP : Fld := ⟨170, 15, 1, 0x108, 4, 1, .tslot, 27, 16, .rws, .host, 256⟩
def TRK_GATE_IOU_MIN : Fld := ⟨171, 15, 1, 0x10c, 4, 1, .tslot, 10, 0, .rws, .host, 307⟩
def TRK_GATE_COS_MAX : Fld := ⟨172, 15, 1, 0x10c, 4, 1, .tslot, 27, 16, .rws, .host, 2048⟩
def TRK_LIFE_N_CONFIRM : Fld := ⟨173, 15, 1, 0x110, 4, 1, .tslot, 3, 0, .rws, .host, 3⟩
def TRK_LIFE_N_LOST : Fld := ⟨174, 15, 1, 0x110, 4, 1, .tslot, 15, 8, .rws, .host, 5⟩
def TRK_LIFE_N_RETIRE : Fld := ⟨175, 15, 1, 0x110, 4, 1, .tslot, 23, 16, .rws, .host, 30⟩
def TRK_QUOTA_QUOTA : Fld := ⟨176, 15, 1, 0x114, 4, 1, .tslot, 12, 0, .rws, .host, 0⟩
def TRK_QUOTA_BIRTH_SCORE : Fld := ⟨177, 15, 1, 0x114, 4, 1, .tslot, 31, 16, .rws, .host, 0⟩
def TRK_KF_POS_Q_P : Fld := ⟨178, 15, 1, 0x118, 4, 1, .tslot, 15, 0, .rws, .host, 64⟩
def TRK_KF_POS_Q_V : Fld := ⟨179, 15, 1, 0x118, 4, 1, .tslot, 31, 16, .rws, .host, 16⟩
def TRK_KF_SIZE_Q_P : Fld := ⟨180, 15, 1, 0x11c, 4, 1, .tslot, 15, 0, .rws, .host, 64⟩
def TRK_KF_SIZE_Q_V : Fld := ⟨181, 15, 1, 0x11c, 4, 1, .tslot, 31, 16, .rws, .host, 16⟩
def TRK_KF_R_R_POS : Fld := ⟨182, 15, 1, 0x120, 4, 1, .tslot, 15, 0, .rws, .host, 1024⟩
def TRK_KF_R_R_SIZE : Fld := ⟨183, 15, 1, 0x120, 4, 1, .tslot, 31, 16, .rws, .host, 1024⟩
def TRK_KF_V0 : Fld := ⟨184, 15, 1, 0x124, 4, 1, .tslot, 15, 0, .rws, .host, 4096⟩
def TRK_DET : Fld := ⟨185, 15, 1, 0x128, 4, 1, .tslot, 15, 0, .rws, .host, 0⟩
def TRK_EMB_PLAN : Fld := ⟨186, 15, 1, 0x12c, 4, 1, .tslot, 15, 0, .rws, .host, 0⟩
def TRK_EMB_W_APP : Fld := ⟨187, 15, 1, 0x12c, 4, 1, .tslot, 24, 16, .rws, .host, 128⟩
def TRK_EMB_WAIT_ALPHA : Fld := ⟨188, 15, 1, 0x130, 4, 1, .tslot, 8, 0, .rws, .host, 64⟩
def TRK_EMB_WAIT_UNITS : Fld := ⟨189, 15, 1, 0x130, 4, 1, .tslot, 31, 16, .rws, .host, 1024⟩
def TRK_SLOT_STATE_LIVE : Fld := ⟨190, 15, 1, 0x134, 4, 1, .tslot, 12, 0, .ro, .none, 0⟩
def TRK_SLOT_STATE_STEPPING : Fld := ⟨191, 15, 1, 0x134, 4, 1, .tslot, 13, 13, .ro, .none, 0⟩
def TRK_SAF : Fld := ⟨192, 15, 1, 0x138, 4, 1, .none, 3, 0, .rw, .host, 0⟩
def SLOT_ROUTE_PIC_RING : Fld := ⟨193, 15, 1, 0x200, 4, 76, .none, 3, 0, .rw, .host, 0⟩
def SLOT_ROUTE_OBJ_RING : Fld := ⟨194, 15, 1, 0x200, 4, 76, .none, 7, 4, .rw, .host, 0⟩
def RING_SEL : Fld := ⟨195, 15, 1, 0x400, 4, 1, .none, 3, 0, .rw, .host, 0⟩
def TRACK_RING_BASE_LO : Fld := ⟨196, 15, 1, 0x404, 4, 1, .ring, 31, 0, .rws, .host, 0⟩
def TRACK_RING_BASE_HI : Fld := ⟨197, 15, 1, 0x408, 4, 1, .ring, 31, 0, .rws, .host, 0⟩
def TRACK_RING_CFG_EN : Fld := ⟨198, 15, 1, 0x40c, 4, 1, .ring, 0, 0, .rws, .host, 0⟩
def TRACK_RING_CFG_SIZE : Fld := ⟨199, 15, 1, 0x40c, 4, 1, .ring, 12, 8, .rws, .host, 16⟩
def WIDX_ADDR_LO : Fld := ⟨200, 15, 1, 0x410, 4, 1, .ring, 31, 0, .rws, .host, 0⟩
def WIDX_ADDR_HI : Fld := ⟨201, 15, 1, 0x414, 4, 1, .ring, 31, 0, .rws, .host, 0⟩
def RING_IRQ_VECTOR : Fld := ⟨202, 15, 1, 0x418, 4, 1, .ring, 5, 0, .rws, .host, 0⟩
def RING_IRQ_COUNT : Fld := ⟨203, 15, 1, 0x418, 4, 1, .ring, 15, 8, .rws, .host, 1⟩
def RING_IRQ_TIMER : Fld := ⟨204, 15, 1, 0x418, 4, 1, .ring, 31, 16, .rws, .host, 64⟩
def RING_STATE_OVF_BYTES : Fld := ⟨205, 15, 1, 0x41c, 4, 1, .ring, 18, 0, .ro, .none, 0⟩
def RING_STATE_RIDX_ERR : Fld := ⟨206, 15, 1, 0x41c, 4, 1, .ring, 31, 31, .w1c, .host, 0⟩
def RING_RIDX : Fld := ⟨207, 15, 1, 0x440, 4, 16, .none, 31, 0, .rw, .host, 0⟩
def RING_WIDX : Fld := ⟨208, 15, 1, 0x480, 4, 16, .none, 31, 0, .ro, .none, 0⟩
def TRK_STEPS : Fld := ⟨209, 15, 1, 0x500, 4, 1, .none, 31, 0, .ro, .none, 0⟩
def TRK_SUPPRESSED : Fld := ⟨210, 15, 1, 0x504, 4, 1, .none, 31, 0, .ro, .none, 0⟩
def TRK_BIRTHS : Fld := ⟨211, 15, 1, 0x508, 4, 1, .none, 31, 0, .ro, .none, 0⟩
def TRK_DENIED : Fld := ⟨212, 15, 1, 0x50c, 4, 1, .none, 31, 0, .ro, .none, 0⟩
def TRK_RETIRED : Fld := ⟨213, 15, 1, 0x510, 4, 1, .none, 31, 0, .ro, .none, 0⟩
def TRK_STALE : Fld := ⟨214, 15, 1, 0x514, 4, 1, .none, 31, 0, .ro, .none, 0⟩
def TRK_DROPS : Fld := ⟨215, 15, 1, 0x518, 4, 1, .none, 31, 0, .ro, .none, 0⟩
def TRK_EMB_LATE : Fld := ⟨216, 15, 1, 0x51c, 4, 1, .none, 31, 0, .ro, .none, 0⟩
def TRK_NO_SLOT : Fld := ⟨217, 15, 1, 0x520, 4, 1, .none, 31, 0, .ro, .none, 0⟩
def RING_OVERFLOWS : Fld := ⟨218, 15, 1, 0x524, 4, 1, .none, 31, 0, .ro, .none, 0⟩
def RING_ORPHANED : Fld := ⟨219, 15, 1, 0x528, 4, 1, .none, 31, 0, .ro, .none, 0⟩
def LEDGER_LIVE : Fld := ⟨220, 15, 1, 0x52c, 4, 1, .none, 31, 0, .ro, .none, 0⟩
def CLU_BANK_MAP_0 : Fld := ⟨221, 88, 8, 0x100, 4, 1, .none, 29, 0, .rws, .fw, 172066848⟩
def CLU_BANK_MAP_1 : Fld := ⟨222, 88, 8, 0x104, 4, 1, .none, 29, 0, .rws, .fw, 379887846⟩
def CLU_BANK_MAP_2 : Fld := ⟨223, 88, 8, 0x108, 4, 1, .none, 29, 0, .rws, .fw, 506284⟩
def CLU_BANK_PWR : Fld := ⟨224, 88, 8, 0x10c, 4, 1, .none, 16, 0, .rws, .fw, 65535⟩
def CLU_BANK_FORCE : Fld := ⟨225, 88, 8, 0x110, 4, 1, .none, 16, 0, .rws, .host, 0⟩
def CLU_BANK_STATE_DRAINING : Fld := ⟨226, 88, 8, 0x114, 4, 1, .none, 16, 0, .ro, .none, 0⟩
def CLU_BANK_STATE_COPYING : Fld := ⟨227, 88, 8, 0x114, 4, 1, .none, 17, 17, .ro, .none, 0⟩
def CLU_BANK_STATE_COPY_SRC : Fld := ⟨228, 88, 8, 0x114, 4, 1, .none, 22, 18, .ro, .none, 0⟩
def CLU_BANK_CAP_UNITS : Fld := ⟨229, 88, 8, 0x120, 4, 16, .none, 5, 0, .ro, .none, 32⟩
def CLU_BANK_CAP_DARK : Fld := ⟨230, 88, 8, 0x120, 4, 16, .none, 31, 16, .ro, .none, 0⟩
def CLU_SCRUB_INTERVAL : Fld := ⟨231, 88, 8, 0x160, 4, 1, .none, 15, 0, .rws, .fw, 1023⟩
def CLU_SCRUB_PATROL_EN : Fld := ⟨232, 88, 8, 0x160, 4, 1, .none, 16, 16, .rws, .fw, 1⟩
def CLU_SPILLS : Fld := ⟨233, 88, 8, 0x180, 4, 1, .none, 31, 0, .ro, .none, 0⟩
def CLU_WB_SUPERSEDED : Fld := ⟨234, 88, 8, 0x184, 4, 1, .none, 31, 0, .ro, .none, 0⟩
def CLU_WB_DROP : Fld := ⟨235, 88, 8, 0x188, 4, 1, .none, 31, 0, .ro, .none, 0⟩
def CLU_POISON_READS : Fld := ⟨236, 88, 8, 0x18c, 4, 1, .none, 31, 0, .ro, .none, 0⟩
def CLU_DARK_READS : Fld := ⟨237, 88, 8, 0x190, 4, 1, .none, 31, 0, .ro, .none, 0⟩
def CLU_DARK_WRITES : Fld := ⟨238, 88, 8, 0x194, 4, 1, .none, 31, 0, .ro, .none, 0⟩
def CLU_CIRC_WAITS : Fld := ⟨239, 88, 8, 0x198, 4, 1, .none, 31, 0, .ro, .none, 0⟩
def CLU_SWEEPS : Fld := ⟨240, 88, 8, 0x19c, 4, 1, .none, 31, 0, .ro, .none, 0⟩
def COOPER_POOL_SEL : Fld := ⟨241, 4, 1, 0x100, 4, 1, .none, 2, 0, .rw, .host, 0⟩
def COOPER_POOL_CFG_EN : Fld := ⟨242, 4, 1, 0x104, 4, 1, .pool, 0, 0, .rws, .host, 0⟩
def COOPER_POOL_CFG_LIST : Fld := ⟨243, 4, 1, 0x104, 4, 1, .pool, 1, 1, .rws, .host, 0⟩
def COOPER_POOL_CFG_SIZE : Fld := ⟨244, 4, 1, 0x104, 4, 1, .pool, 15, 2, .rws, .host, 0⟩
def COOPER_POOL_CFG_COUNT : Fld := ⟨245, 4, 1, 0x104, 4, 1, .pool, 27, 16, .rws, .host, 0⟩
def COOPER_POOL_BASE : Fld := ⟨246, 4, 1, 0x108, 4, 1, .pool, 31, 0, .rws, .host, 0⟩
def COOPER_POOL_HEAD_LO : Fld := ⟨247, 4, 1, 0x10c, 4, 1, .pool, 31, 0, .ro, .none, 0⟩
def COOPER_POOL_HEAD_HI : Fld := ⟨248, 4, 1, 0x110, 4, 1, .pool, 31, 0, .ro, .none, 0⟩
def COOPER_POOL_STATE_FREE : Fld := ⟨249, 4, 1, 0x114, 4, 1, .pool, 11, 0, .ro, .none, 0⟩
def COOPER_POOL_STATE_UNMET : Fld := ⟨250, 4, 1, 0x114, 4, 1, .pool, 23, 12, .ro, .none, 0⟩
def COOPER_POOL_STATE_OWNERS : Fld := ⟨251, 4, 1, 0x114, 4, 1, .pool, 31, 24, .ro, .none, 0⟩
def COOPER_POOL_BROKEN : Fld := ⟨252, 4, 1, 0x120, 4, 1, .pool, 0, 0, .ro, .none, 0⟩
def COOPER_AREA : Fld := ⟨253, 4, 1, 0x118, 4, 1, .none, 31, 0, .ro, .none, 0⟩
def COOPER_CODEC : Fld := ⟨254, 4, 1, 0x11c, 4, 1, .none, 2, 0, .ro, .none, 0⟩
def COOPER_ALLOCS : Fld := ⟨255, 4, 1, 0x140, 4, 1, .none, 31, 0, .ro, .none, 0⟩
def COOPER_CAPACITY_FAIL : Fld := ⟨256, 4, 1, 0x144, 4, 1, .none, 31, 0, .ro, .none, 0⟩
def COOPER_BAD_FREES : Fld := ⟨257, 4, 1, 0x148, 4, 1, .none, 31, 0, .ro, .none, 0⟩
def COOPER_REFILLS : Fld := ⟨258, 4, 1, 0x14c, 4, 1, .none, 31, 0, .ro, .none, 0⟩
def HBMC_MAP_GRAIN : Fld := ⟨259, 118, 1, 0x100, 4, 1, .none, 3, 0, .rws, .fw, 12⟩
def HBMC_MAP_FOLD : Fld := ⟨260, 118, 1, 0x100, 4, 1, .none, 4, 4, .rws, .fw, 0⟩
def HBMC_STATE_STATE : Fld := ⟨261, 118, 1, 0x104, 4, 1, .none, 2, 0, .ro, .none, 0⟩
def HBMC_STATE_FAST : Fld := ⟨262, 118, 1, 0x104, 4, 1, .none, 3, 3, .ro, .none, 0⟩
def HBMC_STATE_READY : Fld := ⟨263, 118, 1, 0x104, 4, 1, .none, 31, 16, .ro, .none, 0⟩
def HBMC_SREF : Fld := ⟨264, 118, 1, 0x108, 4, 1, .none, 0, 0, .rws, .fw, 0⟩
def HBMC_TEMP_DEG : Fld := ⟨265, 118, 1, 0x10c, 4, 1, .none, 7, 0, .ro, .none, 0⟩
def HBMC_TEMP_DOUBLE : Fld := ⟨266, 118, 1, 0x10c, 4, 1, .none, 8, 8, .ro, .none, 0⟩
def HBMC_CH_PD : Fld := ⟨267, 119, 16, 0x100, 4, 1, .none, 24, 0, .rws, .fw, 4096⟩
def HBMC_CH_SCRUB_INTERVAL : Fld := ⟨268, 119, 16, 0x104, 4, 1, .none, 23, 0, .rws, .fw, 1024⟩
def HBMC_CH_SCRUB_EN : Fld := ⟨269, 119, 16, 0x104, 4, 1, .none, 24, 24, .rws, .fw, 1⟩
def HBMC_CH_REPAIR_ROW : Fld := ⟨270, 119, 16, 0x108, 4, 1, .none, 13, 0, .rws, .fw, 0⟩
def HBMC_CH_REPAIR_BA : Fld := ⟨271, 119, 16, 0x108, 4, 1, .none, 15, 14, .rws, .fw, 0⟩
def HBMC_CH_REPAIR_BG : Fld := ⟨272, 119, 16, 0x108, 4, 1, .none, 17, 16, .rws, .fw, 0⟩
def HBMC_CH_REPAIR_SID : Fld := ⟨273, 119, 16, 0x108, 4, 1, .none, 19, 18, .rws, .fw, 0⟩
def HBMC_CH_REPAIR_PC : Fld := ⟨274, 119, 16, 0x108, 4, 1, .none, 20, 20, .rws, .fw, 0⟩
def HBMC_CH_REPAIR_HARD : Fld := ⟨275, 119, 16, 0x108, 4, 1, .none, 21, 21, .rws, .fw, 0⟩
def HBMC_CH_REPAIR_GO : Fld := ⟨276, 119, 16, 0x108, 4, 1, .none, 22, 22, .rws, .fw, 0⟩
def HBMC_CH_LANE_PC0 : Fld := ⟨277, 119, 16, 0x10c, 4, 1, .none, 19, 0, .rws, .fw, 0⟩
def HBMC_CH_LANE_PC1 : Fld := ⟨278, 119, 16, 0x110, 4, 1, .none, 19, 0, .rws, .fw, 0⟩
def HBMC_CH_TRAIN_PATTERN : Fld := ⟨279, 119, 16, 0x114, 4, 1, .none, 2, 0, .rw, .fw, 0⟩
def HBMC_CH_TRAIN_DIR : Fld := ⟨280, 119, 16, 0x114, 4, 1, .none, 3, 3, .rw, .fw, 0⟩
def HBMC_CH_TRAIN_LEN : Fld := ⟨281, 119, 16, 0x114, 4, 1, .none, 8, 4, .rw, .fw, 16⟩
def HBMC_CH_TRAIN_GO : Fld := ⟨282, 119, 16, 0x114, 4, 1, .none, 9, 9, .wo, .fw, 0⟩
def HBMC_CH_TRAIN_BUSY : Fld := ⟨283, 119, 16, 0x114, 4, 1, .none, 10, 10, .ro, .none, 0⟩
def HBMC_CH_TRAIN_PAT : Fld := ⟨284, 119, 16, 0x118, 4, 1, .none, 31, 0, .rw, .fw, 0⟩
def HBMC_CH_STATE_MODE : Fld := ⟨285, 119, 16, 0x11c, 4, 1, .none, 1, 0, .ro, .none, 0⟩
def HBMC_CH_STATE_QPIN : Fld := ⟨286, 119, 16, 0x11c, 4, 1, .none, 6, 2, .ro, .none, 0⟩
def HBMC_CH_STATE_QPOOL : Fld := ⟨287, 119, 16, 0x11c, 4, 1, .none, 11, 7, .ro, .none, 0⟩
def CH_READS_LO : Fld := ⟨288, 119, 16, 0x180, 4, 1, .none, 31, 0, .ro, .none, 0⟩
def CH_READS_HI : Fld := ⟨289, 119, 16, 0x184, 4, 1, .none, 31, 0, .ro, .none, 0⟩
def CH_WRITES_LO : Fld := ⟨290, 119, 16, 0x188, 4, 1, .none, 31, 0, .ro, .none, 0⟩
def CH_WRITES_HI : Fld := ⟨291, 119, 16, 0x18c, 4, 1, .none, 31, 0, .ro, .none, 0⟩
def CH_LATE : Fld := ⟨292, 119, 16, 0x190, 4, 1, .none, 31, 0, .ro, .none, 0⟩
def CH_MAX_LAT : Fld := ⟨293, 119, 16, 0x194, 4, 1, .none, 31, 0, .rc, .none, 0⟩
def CH_QFULL_TICKS : Fld := ⟨294, 119, 16, 0x198, 4, 1, .none, 31, 0, .ro, .none, 0⟩
def CH_PD_ENTRIES : Fld := ⟨295, 119, 16, 0x19c, 4, 1, .none, 31, 0, .ro, .none, 0⟩
def CH_REFRESHES : Fld := ⟨296, 119, 16, 0x1a0, 4, 1, .none, 31, 0, .ro, .none, 0⟩
def CH_WB : Fld := ⟨297, 119, 16, 0x1a4, 4, 1, .none, 31, 0, .ro, .none, 0⟩
def CH_WB_CANCELLED : Fld := ⟨298, 119, 16, 0x1a8, 4, 1, .none, 31, 0, .ro, .none, 0⟩
def CH_WB_DROP : Fld := ⟨299, 119, 16, 0x1ac, 4, 1, .none, 31, 0, .ro, .none, 0⟩
def CH_RMW : Fld := ⟨300, 119, 16, 0x1b0, 4, 1, .none, 31, 0, .ro, .none, 0⟩
def CH_SWEEPS : Fld := ⟨301, 119, 16, 0x1b4, 4, 1, .none, 31, 0, .ro, .none, 0⟩
def HBMC_CH_LANE_ERR : Fld := ⟨302, 119, 16, 0x200, 4, 72, .none, 23, 0, .ro, .none, 0⟩
def HBMC_CH_DLY_RD : Fld := ⟨303, 119, 16, 0x400, 4, 72, .none, 7, 0, .rws, .fw, 0⟩
def HBMC_CH_DLY_WR : Fld := ⟨304, 119, 16, 0x400, 4, 72, .none, 15, 8, .rws, .fw, 0⟩
def DISP_LEDGER_BASE_LO : Fld := ⟨305, 2, 1, 0x100, 4, 1, .none, 31, 0, .rws, .host, 0⟩
def DISP_LEDGER_BASE_HI : Fld := ⟨306, 2, 1, 0x104, 4, 1, .none, 31, 0, .rws, .host, 0⟩
def DISP_PIDX_ADDR_LO : Fld := ⟨307, 2, 1, 0x10c, 4, 1, .none, 31, 0, .rws, .host, 0⟩
def DISP_PIDX_ADDR_HI : Fld := ⟨308, 2, 1, 0x110, 4, 1, .none, 31, 0, .rws, .host, 0⟩
def DISP_CIDX_ADDR_LO : Fld := ⟨309, 2, 1, 0x114, 4, 1, .none, 31, 0, .rws, .host, 0⟩
def DISP_CIDX_ADDR_HI : Fld := ⟨310, 2, 1, 0x118, 4, 1, .none, 31, 0, .rws, .host, 0⟩
def DISP_LEDGER_CFG_EN : Fld := ⟨311, 2, 1, 0x108, 4, 1, .none, 0, 0, .rws, .host, 0⟩
def DISP_LEDGER_CFG_LOG2 : Fld := ⟨312, 2, 1, 0x108, 4, 1, .none, 12, 8, .rws, .host, 6⟩
def DISP_PERIOD : Fld := ⟨313, 2, 1, 0x11c, 4, 1, .none, 23, 0, .rws, .host, 8192⟩
def DISP_LEDGER_CIDX : Fld := ⟨314, 2, 1, 0x120, 4, 1, .none, 31, 0, .ro, .none, 0⟩
def DISP_LEASE_MS : Fld := ⟨315, 2, 1, 0x124, 4, 1, .none, 13, 0, .rws, .host, 500⟩
def DISP_LEASE_RENEW : Fld := ⟨316, 2, 1, 0x124, 4, 1, .none, 16, 16, .wo, .host, 0⟩
def DISP_LEASE_EXPIRED : Fld := ⟨317, 2, 1, 0x124, 4, 1, .none, 31, 31, .ro, .none, 0⟩
def DISP_LEASE_LEFT : Fld := ⟨318, 2, 1, 0x128, 4, 1, .none, 13, 0, .ro, .none, 0⟩
def DISP_QUEUE : Fld := ⟨319, 2, 1, 0x12c, 4, 1, .none, 10, 0, .rws, .host, 1024⟩
def DISP_QUEUE_STATE_POOLED : Fld := ⟨320, 2, 1, 0x130, 4, 1, .none, 10, 0, .ro, .none, 0⟩
def DISP_QUEUE_STATE_PINNED : Fld := ⟨321, 2, 1, 0x130, 4, 1, .none, 24, 16, .ro, .none, 0⟩
def DISP_JOURNAL_WIDX : Fld := ⟨322, 2, 1, 0x134, 4, 1, .none, 31, 0, .ro, .none, 0⟩
def DISP_JOURNAL_RIDX : Fld := ⟨323, 2, 1, 0x138, 4, 1, .none, 31, 0, .rw, .host, 0⟩
def DISP_JOURNAL_SIZE : Fld := ⟨324, 2, 1, 0x13c, 4, 1, .none, 31, 0, .ro, .none, 65536⟩
def DISP_FETCHED : Fld := ⟨325, 2, 1, 0x180, 4, 1, .none, 31, 0, .ro, .none, 0⟩
def DISP_LAUNCH_PINNED : Fld := ⟨326, 2, 1, 0x184, 4, 1, .none, 31, 0, .ro, .none, 0⟩
def DISP_LAUNCH_POOLED : Fld := ⟨327, 2, 1, 0x188, 4, 1, .none, 31, 0, .ro, .none, 0⟩
def DISP_REFUSED : Fld := ⟨328, 2, 1, 0x18c, 4, 1, .none, 31, 0, .ro, .none, 0⟩
def DISP_PREEMPTS : Fld := ⟨329, 2, 1, 0x190, 4, 1, .none, 31, 0, .ro, .none, 0⟩
def DISP_DEADLINE_REFUSALS : Fld := ⟨330, 2, 1, 0x194, 4, 1, .none, 31, 0, .ro, .none, 0⟩
def DISP_INHERITS : Fld := ⟨331, 2, 1, 0x198, 4, 1, .none, 31, 0, .ro, .none, 0⟩
def DISP_POLL_SKIPS : Fld := ⟨332, 2, 1, 0x19c, 4, 1, .none, 31, 0, .ro, .none, 0⟩
def DISP_FETCH_TIMEOUTS : Fld := ⟨333, 2, 1, 0x1a0, 4, 1, .none, 31, 0, .ro, .none, 0⟩
def CARTER_WARM : Fld := ⟨334, 3, 1, 0x100, 4, 1, .none, 7, 0, .rws, .fw, 126⟩
def CARTER_COLD : Fld := ⟨335, 3, 1, 0x104, 4, 1, .none, 31, 0, .ro, .none, 16640⟩
def CARTER_CTX_SEL : Fld := ⟨336, 3, 1, 0x108, 4, 1, .none, 9, 0, .rw, .host, 0⟩
def CARTER_CTX_STATE : Fld := ⟨337, 3, 1, 0x10c, 4, 1, .ctx, 2, 0, .ro, .none, 0⟩
def CARTER_CTX_BLOCKED : Fld := ⟨338, 3, 1, 0x10c, 4, 1, .ctx, 3, 3, .ro, .none, 0⟩
def CARTER_CTX_RANK : Fld := ⟨339, 3, 1, 0x10c, 4, 1, .ctx, 9, 4, .ro, .none, 0⟩
def CARTER_CTX_CLUSTER : Fld := ⟨340, 3, 1, 0x10c, 4, 1, .ctx, 12, 10, .ro, .none, 0⟩
def CARTER_CTX_INHERIT : Fld := ⟨341, 3, 1, 0x10c, 4, 1, .ctx, 13, 13, .ro, .none, 0⟩
def CARTER_CTX_PLAN : Fld := ⟨342, 3, 1, 0x10c, 4, 1, .ctx, 31, 16, .ro, .none, 0⟩
def CARTER_CTX_SEQ : Fld := ⟨343, 3, 1, 0x110, 4, 1, .ctx, 31, 0, .ro, .none, 0⟩
def CARTER_STATE_FREE : Fld := ⟨344, 3, 1, 0x114, 4, 1, .none, 10, 0, .ro, .none, 1024⟩
def CARTER_STATE_COLD : Fld := ⟨345, 3, 1, 0x114, 4, 1, .none, 26, 16, .ro, .none, 0⟩
def CARTER_SAVES : Fld := ⟨346, 3, 1, 0x180, 4, 1, .none, 31, 0, .ro, .none, 0⟩
def CARTER_RESTORES : Fld := ⟨347, 3, 1, 0x184, 4, 1, .none, 31, 0, .ro, .none, 0⟩
def CARTER_EVICTIONS : Fld := ⟨348, 3, 1, 0x188, 4, 1, .none, 31, 0, .ro, .none, 0⟩
def CARTER_DEMOTIONS : Fld := ⟨349, 3, 1, 0x18c, 4, 1, .none, 31, 0, .ro, .none, 0⟩
def CARTER_COLD_RESTORES : Fld := ⟨350, 3, 1, 0x190, 4, 1, .none, 31, 0, .ro, .none, 0⟩
def CARTER_MOVE_WAITS : Fld := ⟨351, 3, 1, 0x194, 4, 1, .none, 31, 0, .ro, .none, 0⟩
def TALLY_LO : Fld := ⟨352, 1, 1, 0x100, 4, 1, .none, 31, 0, .ro, .none, 0⟩
def TALLY_HI : Fld := ⟨353, 1, 1, 0x104, 4, 1, .none, 31, 0, .ro, .none, 0⟩
def TALLY_CHIP : Fld := ⟨354, 1, 1, 0x108, 4, 1, .none, 15, 0, .rws, .host, 0⟩
def TALLY_CTRL_ROLE : Fld := ⟨355, 1, 1, 0x10c, 4, 1, .none, 1, 0, .rws, .host, 0⟩
def TALLY_CTRL_SRC_PORT : Fld := ⟨356, 1, 1, 0x10c, 4, 1, .none, 3, 2, .rws, .host, 0⟩
def TALLY_CTRL_TIME_EN : Fld := ⟨357, 1, 1, 0x10c, 4, 1, .none, 4, 4, .rws, .host, 0⟩
def TALLY_CTRL_ALIGN : Fld := ⟨358, 1, 1, 0x10c, 4, 1, .none, 5, 5, .rws, .host, 0⟩
def TALLY_STATE_STATE : Fld := ⟨359, 1, 1, 0x110, 4, 1, .none, 2, 0, .ro, .none, 0⟩
def TALLY_STATE_RESID : Fld := ⟨360, 1, 1, 0x110, 4, 1, .none, 15, 8, .ro, .none, 0⟩
def TALLY_TIME_LOAD_LO : Fld := ⟨361, 1, 1, 0x114, 4, 1, .none, 31, 0, .rws, .host, 0⟩
def TALLY_TIME_LOAD_HI : Fld := ⟨362, 1, 1, 0x118, 4, 1, .none, 31, 0, .rws, .host, 0⟩
def TALLY_TIME_COMP : Fld := ⟨363, 1, 1, 0x11c, 4, 1, .none, 15, 0, .rws, .host, 4⟩
def TALLY_TIME_TOL : Fld := ⟨364, 1, 1, 0x120, 4, 1, .none, 15, 0, .rws, .host, 1300⟩
def TALLY_TIME_STAMP_LO : Fld := ⟨365, 1, 1, 0x124, 4, 1, .none, 31, 0, .ro, .none, 0⟩
def TALLY_TIME_STAMP_HI : Fld := ⟨366, 1, 1, 0x128, 4, 1, .none, 31, 0, .ro, .none, 0⟩
def TALLY_TIME_ERR : Fld := ⟨367, 1, 1, 0x12c, 4, 1, .none, 31, 0, .ro, .none, 0⟩
def RELAY_CFG_EN : Fld := ⟨368, 1, 1, 0x140, 4, 1, .none, 0, 0, .rws, .host, 0⟩
def RELAY_CFG_VECTOR : Fld := ⟨369, 1, 1, 0x140, 4, 1, .none, 6, 1, .rws, .host, 0⟩
def RELAY_OUT_WIDX : Fld := ⟨370, 1, 1, 0x144, 4, 1, .none, 31, 0, .ro, .none, 0⟩
def RELAY_OUT_RIDX : Fld := ⟨371, 1, 1, 0x148, 4, 1, .none, 31, 0, .rw, .host, 0⟩
def RELAY_OUT_SIZE : Fld := ⟨372, 1, 1, 0x14c, 4, 1, .none, 31, 0, .ro, .none, 4096⟩
def RELAY_IN_BASE_LO : Fld := ⟨373, 1, 1, 0x150, 4, 1, .none, 31, 0, .rws, .host, 0⟩
def RELAY_IN_BASE_HI : Fld := ⟨374, 1, 1, 0x154, 4, 1, .none, 31, 0, .rws, .host, 0⟩
def RELAY_IN_CFG : Fld := ⟨375, 1, 1, 0x158, 4, 1, .none, 3, 0, .rws, .host, 4⟩
def RELAY_IN_PIDX_ADDR_LO : Fld := ⟨376, 1, 1, 0x15c, 4, 1, .none, 31, 0, .rws, .host, 0⟩
def RELAY_IN_PIDX_ADDR_HI : Fld := ⟨377, 1, 1, 0x160, 4, 1, .none, 31, 0, .rws, .host, 0⟩
def TALLY_MARKERS : Fld := ⟨378, 1, 1, 0x180, 4, 1, .none, 31, 0, .ro, .none, 0⟩
def TALLY_SLIPS : Fld := ⟨379, 1, 1, 0x184, 4, 1, .none, 31, 0, .ro, .none, 0⟩
def TIME_EDGES : Fld := ⟨380, 1, 1, 0x188, 4, 1, .none, 31, 0, .ro, .none, 0⟩
def TIME_DRIFTS : Fld := ⟨381, 1, 1, 0x18c, 4, 1, .none, 31, 0, .ro, .none, 0⟩
def RELAY_OUT_UNITS : Fld := ⟨382, 1, 1, 0x190, 4, 1, .none, 31, 0, .ro, .none, 0⟩
def RELAY_IN_UNITS : Fld := ⟨383, 1, 1, 0x194, 4, 1, .none, 31, 0, .ro, .none, 0⟩
def RELAY_TAG_FAIL : Fld := ⟨384, 1, 1, 0x198, 4, 1, .none, 31, 0, .ro, .none, 0⟩
def LINK_CTRL : Fld := ⟨385, 135, 4, 0x100, 4, 1, .none, 0, 0, .rws, .host, 1⟩
def LINK_STATE_STATE : Fld := ⟨386, 135, 4, 0x104, 4, 1, .none, 2, 0, .ro, .none, 0⟩
def LINK_STATE_SPARE_FOR : Fld := ⟨387, 135, 4, 0x104, 4, 1, .none, 6, 3, .ro, .none, 0⟩
def LINK_PEER_CHIP : Fld := ⟨388, 135, 4, 0x108, 4, 1, .none, 15, 0, .ro, .none, 0⟩
def LINK_PEER_PORT : Fld := ⟨389, 135, 4, 0x108, 4, 1, .none, 17, 16, .ro, .none, 0⟩
def LINK_HOP : Fld := ⟨390, 135, 4, 0x10c, 4, 1, .none, 11, 0, .ro, .none, 0⟩
def LINK_TX_FLITS : Fld := ⟨391, 135, 4, 0x180, 4, 1, .none, 31, 0, .ro, .none, 0⟩
def LINK_RX_FLITS : Fld := ⟨392, 135, 4, 0x184, 4, 1, .none, 31, 0, .ro, .none, 0⟩
def LINK_CORRECTED : Fld := ⟨393, 135, 4, 0x188, 4, 1, .none, 31, 0, .ro, .none, 0⟩
def LINK_RETRIES : Fld := ⟨394, 135, 4, 0x18c, 4, 1, .none, 31, 0, .ro, .none, 0⟩
def LINK_DOWNS : Fld := ⟨395, 135, 4, 0x190, 4, 1, .none, 31, 0, .ro, .none, 0⟩
def LINK_ORPHAN_FLITS : Fld := ⟨396, 135, 4, 0x194, 4, 1, .none, 31, 0, .ro, .none, 0⟩
def LINK_CREDIT_WAITS : Fld := ⟨397, 135, 4, 0x198, 4, 1, .none, 31, 0, .ro, .none, 0⟩
def LINK_LATE_UNITS : Fld := ⟨398, 135, 4, 0x19c, 4, 1, .none, 31, 0, .ro, .none, 0⟩
def REEVE_SEL : Fld := ⟨399, 5, 1, 0x100, 4, 1, .none, 5, 0, .rw, .fw, 0⟩
def REEVE_CFG_EN : Fld := ⟨400, 5, 1, 0x104, 4, 1, .pipe, 0, 0, .rws, .fw, 0⟩
def REEVE_CFG_FAULT : Fld := ⟨401, 5, 1, 0x104, 4, 1, .pipe, 1, 1, .rws, .fw, 1⟩
def REEVE_CFG_SAFE : Fld := ⟨402, 5, 1, 0x104, 4, 1, .pipe, 2, 2, .rws, .fw, 0⟩
def REEVE_CFG_PLAN : Fld := ⟨403, 5, 1, 0x104, 4, 1, .pipe, 31, 16, .rws, .fw, 0⟩
def REEVE_AGE : Fld := ⟨404, 5, 1, 0x108, 4, 1, .pipe, 31, 0, .rws, .fw, 0⟩
def REEVE_PERIOD : Fld := ⟨405, 5, 1, 0x10c, 4, 1, .pipe, 31, 0, .rws, .fw, 0⟩
def REEVE_FAULT_ASSERTED : Fld := ⟨406, 5, 1, 0x140, 4, 1, .none, 0, 0, .ro, .none, 1⟩
def REEVE_FAULT_BREACH : Fld := ⟨407, 5, 1, 0x140, 4, 1, .none, 1, 1, .ro, .none, 0⟩
def REEVE_FAULT_SAFE_STATE : Fld := ⟨408, 5, 1, 0x140, 4, 1, .none, 2, 2, .ro, .none, 0⟩
def REEVE_FAULT_THERM_CRIT : Fld := ⟨409, 5, 1, 0x140, 4, 1, .none, 3, 3, .ro, .none, 0⟩
def REEVE_FAULT_LATENT_OVERDUE : Fld := ⟨410, 5, 1, 0x140, 4, 1, .none, 4, 4, .ro, .none, 0⟩
def REEVE_FAULT_GOLDEN_MISMATCH : Fld := ⟨411, 5, 1, 0x140, 4, 1, .none, 5, 5, .ro, .none, 0⟩
def REEVE_FAULT_FINDING : Fld := ⟨412, 5, 1, 0x140, 4, 1, .none, 6, 6, .ro, .none, 0⟩
def REEVE_FAULT_PHASE : Fld := ⟨413, 5, 1, 0x140, 4, 1, .none, 7, 7, .ro, .none, 1⟩
def REEVE_FAULT_CLR : Fld := ⟨414, 5, 1, 0x144, 4, 1, .none, 0, 0, .wo, .host, 0⟩
def REEVE_BREACH_LO : Fld := ⟨415, 5, 1, 0x148, 4, 1, .none, 31, 0, .ro, .none, 0⟩
def REEVE_BREACH_HI : Fld := ⟨416, 5, 1, 0x14c, 4, 1, .none, 31, 0, .ro, .none, 0⟩
def REEVE_RESULTS : Fld := ⟨417, 5, 1, 0x160, 4, 1, .none, 31, 0, .ro, .none, 0⟩
def REEVE_AGE_BREACHES : Fld := ⟨418, 5, 1, 0x164, 4, 1, .none, 31, 0, .ro, .none, 0⟩
def REEVE_PERIOD_BREACHES : Fld := ⟨419, 5, 1, 0x168, 4, 1, .none, 31, 0, .ro, .none, 0⟩
def REEVE_LAST_AGE : Fld := ⟨420, 5, 1, 0x400, 4, 64, .none, 31, 0, .ro, .none, 0⟩
def WINNOW_CTRL_EN : Fld := ⟨421, 6, 1, 0x100, 4, 1, .none, 0, 0, .rws, .fw, 1⟩
def WINNOW_CTRL_ROTATE : Fld := ⟨422, 6, 1, 0x100, 4, 1, .none, 1, 1, .rws, .fw, 1⟩
def WINNOW_CTRL_OVERDUE_FAULT : Fld := ⟨423, 6, 1, 0x100, 4, 1, .none, 2, 2, .rws, .fw, 1⟩
def WINNOW_LATENT_MS : Fld := ⟨424, 6, 1, 0x104, 4, 1, .none, 15, 0, .rws, .fw, 1000⟩
def WINNOW_LATENT_ROT_S : Fld := ⟨425, 6, 1, 0x104, 4, 1, .none, 31, 16, .rws, .fw, 20⟩
def WINNOW_AGE_THR : Fld := ⟨426, 6, 1, 0x108, 4, 1, .none, 7, 0, .rws, .fw, 40⟩
def WINNOW_CLU_SPARE : Fld := ⟨427, 6, 1, 0x110, 4, 8, .none, 3, 0, .ro, .none, 8⟩
def WINNOW_CLU_STATE : Fld := ⟨428, 6, 1, 0x110, 4, 8, .none, 6, 4, .ro, .none, 0⟩
def WINNOW_CLU_NEXT : Fld := ⟨429, 6, 1, 0x110, 4, 8, .none, 10, 7, .ro, .none, 0⟩
def WINNOW_SEGMENTS : Fld := ⟨430, 6, 1, 0x180, 4, 1, .none, 31, 0, .ro, .none, 0⟩
def WINNOW_DEFERRALS : Fld := ⟨431, 6, 1, 0x184, 4, 1, .none, 31, 0, .ro, .none, 0⟩
def WINNOW_OVERRUNS : Fld := ⟨432, 6, 1, 0x188, 4, 1, .none, 31, 0, .ro, .none, 0⟩
def WINNOW_FINDINGS : Fld := ⟨433, 6, 1, 0x18c, 4, 1, .none, 31, 0, .ro, .none, 0⟩
def WINNOW_OVERDUE : Fld := ⟨434, 6, 1, 0x190, 4, 1, .none, 31, 0, .ro, .none, 0⟩
def WINNOW_GOLDEN_PASS : Fld := ⟨435, 6, 1, 0x194, 4, 1, .none, 31, 0, .ro, .none, 0⟩
def WINNOW_GOLDEN_DEFERRED : Fld := ⟨436, 6, 1, 0x198, 4, 1, .none, 31, 0, .ro, .none, 0⟩
def WINNOW_GOLDEN_MISMATCH : Fld := ⟨437, 6, 1, 0x19c, 4, 1, .none, 31, 0, .ro, .none, 0⟩
def WINNOW_HANDOVERS : Fld := ⟨438, 6, 1, 0x1a0, 4, 1, .none, 31, 0, .ro, .none, 0⟩
def WINNOW_WEAR_RETIRED : Fld := ⟨439, 6, 1, 0x1a4, 4, 1, .none, 31, 0, .ro, .none, 0⟩
def SEC_MB_GO : Fld := ⟨440, 7, 1, 0x100, 4, 1, .none, 0, 0, .wo, .host, 0⟩
def SEC_MB_STATE_STATE : Fld := ⟨441, 7, 1, 0x104, 4, 1, .none, 1, 0, .ro, .none, 0⟩
def SEC_MB_STATE_REASON : Fld := ⟨442, 7, 1, 0x104, 4, 1, .none, 15, 8, .ro, .none, 0⟩
def SEC_MB_STATE_STATUS : Fld := ⟨443, 7, 1, 0x104, 4, 1, .none, 31, 16, .ro, .none, 0⟩
def SEC_MB_IRQ_VECTOR : Fld := ⟨444, 7, 1, 0x108, 4, 1, .none, 5, 0, .rw, .host, 0⟩
def SEC_MB_IRQ_EN : Fld := ⟨445, 7, 1, 0x108, 4, 1, .none, 8, 8, .rw, .host, 0⟩
def SEC_STATE_PUF_OK : Fld := ⟨446, 7, 1, 0x10c, 4, 1, .none, 0, 0, .ro, .none, 0⟩
def SEC_STATE_KEYS_READY : Fld := ⟨447, 7, 1, 0x10c, 4, 1, .none, 1, 1, .ro, .none, 0⟩
def SEC_STATE_ZEROISED : Fld := ⟨448, 7, 1, 0x10c, 4, 1, .none, 2, 2, .ro, .none, 0⟩
def SEC_STATE_JTAG_OPEN : Fld := ⟨449, 7, 1, 0x10c, 4, 1, .none, 3, 3, .ro, .none, 0⟩
def SEC_STATE_ROLES_SET : Fld := ⟨450, 7, 1, 0x10c, 4, 1, .none, 8, 4, .ro, .none, 16⟩
def SEC_STATE_OPEN : Fld := ⟨451, 7, 1, 0x10c, 4, 1, .none, 20, 16, .ro, .none, 0⟩
def SEC_IFACE_IFACE : Fld := ⟨452, 7, 1, 0x110, 4, 1, .none, 15, 0, .ro, .none, 0⟩
def SEC_IFACE_SVN : Fld := ⟨453, 7, 1, 0x110, 4, 1, .none, 31, 16, .ro, .none, 0⟩
def SEC_XMSS : Fld := ⟨454, 7, 1, 0x114, 4, 1, .none, 20, 0, .ro, .none, 0⟩
def SEC_XMSS_END : Fld := ⟨455, 7, 1, 0x118, 4, 1, .none, 20, 0, .ro, .none, 0⟩
def SEC_SESS_SEL : Fld := ⟨456, 7, 1, 0x11c, 4, 1, .none, 3, 0, .rw, .host, 0⟩
def SEC_SESS_TAG : Fld := ⟨457, 7, 1, 0x120, 4, 1, .session, 15, 0, .ro, .none, 0⟩
def SEC_SESS_ROLE : Fld := ⟨458, 7, 1, 0x120, 4, 1, .session, 18, 16, .ro, .none, 0⟩
def SEC_SESS_OPEN : Fld := ⟨459, 7, 1, 0x120, 4, 1, .session, 19, 19, .ro, .none, 0⟩
def SEC_SESS_PENDING : Fld := ⟨460, 7, 1, 0x120, 4, 1, .session, 20, 20, .ro, .none, 0⟩
def SEC_SESS_RESTRICTED : Fld := ⟨461, 7, 1, 0x120, 4, 1, .session, 21, 21, .ro, .none, 0⟩
def SEC_SESS_BAD_RUN : Fld := ⟨462, 7, 1, 0x120, 4, 1, .session, 27, 24, .ro, .none, 0⟩
def SEC_UNLOCK_0 : Fld := ⟨463, 7, 1, 0x128, 4, 1, .none, 31, 0, .ro, .none, 0⟩
def SEC_UNLOCK_1 : Fld := ⟨464, 7, 1, 0x12c, 4, 1, .none, 31, 0, .ro, .none, 0⟩
def SEC_UNLOCK_2 : Fld := ⟨465, 7, 1, 0x130, 4, 1, .none, 31, 0, .ro, .none, 0⟩
def SEC_EGRESS_LAST_LO : Fld := ⟨466, 7, 1, 0x140, 4, 1, .none, 31, 0, .ro, .none, 0⟩
def SEC_EGRESS_LAST_HI : Fld := ⟨467, 7, 1, 0x144, 4, 1, .none, 31, 0, .ro, .none, 0⟩
def SEC_COMMANDS : Fld := ⟨468, 7, 1, 0x180, 4, 1, .none, 31, 0, .ro, .none, 0⟩
def SEC_OPENS : Fld := ⟨469, 7, 1, 0x184, 4, 1, .none, 31, 0, .ro, .none, 0⟩
def SEC_OPEN_FAILS : Fld := ⟨470, 7, 1, 0x188, 4, 1, .none, 31, 0, .ro, .none, 0⟩
def SEC_BAD_TAGS : Fld := ⟨471, 7, 1, 0x18c, 4, 1, .none, 31, 0, .ro, .none, 0⟩
def SEC_BAD_SEQ : Fld := ⟨472, 7, 1, 0x190, 4, 1, .none, 31, 0, .ro, .none, 0⟩
def SEC_EGRESS_BLOCKS : Fld := ⟨473, 7, 1, 0x194, 4, 1, .none, 31, 0, .ro, .none, 0⟩
def SEC_RELEASES : Fld := ⟨474, 7, 1, 0x198, 4, 1, .none, 31, 0, .ro, .none, 0⟩
def SEC_RELEASE_SKIPS : Fld := ⟨475, 7, 1, 0x19c, 4, 1, .none, 31, 0, .ro, .none, 0⟩
def MGMT_STATE_PAIR_A : Fld := ⟨476, 8, 1, 0x100, 4, 1, .none, 1, 0, .ro, .none, 0⟩
def MGMT_STATE_PAIR_B : Fld := ⟨477, 8, 1, 0x100, 4, 1, .none, 3, 2, .ro, .none, 0⟩
def MGMT_BOOT_SLOT : Fld := ⟨478, 8, 1, 0x104, 4, 1, .none, 0, 0, .ro, .none, 0⟩
def MGMT_BOOT_FALLBACK : Fld := ⟨479, 8, 1, 0x104, 4, 1, .none, 1, 1, .ro, .none, 0⟩
def MGMT_BOOT_FULL_TRAIN : Fld := ⟨480, 8, 1, 0x104, 4, 1, .none, 2, 2, .ro, .none, 0⟩
def MGMT_BOOT_COUNT : Fld := ⟨481, 8, 1, 0x104, 4, 1, .none, 31, 16, .ro, .none, 0⟩
def MGMT_FW_VERSION : Fld := ⟨482, 8, 1, 0x108, 4, 1, .none, 31, 0, .ro, .none, 0⟩
def MGMT_BOOT_MS : Fld := ⟨483, 8, 1, 0x10c, 4, 1, .none, 15, 0, .ro, .none, 0⟩
def MGMT_SERVICE_DEC : Fld := ⟨484, 8, 1, 0x110, 4, 1, .none, 8, 0, .ro, .none, 0⟩
def MGMT_SERVICE_DEC_SPARE : Fld := ⟨485, 8, 1, 0x110, 4, 1, .none, 12, 9, .ro, .none, 8⟩
def MGMT_SERVICE_CLUSTER : Fld := ⟨486, 8, 1, 0x110, 4, 1, .none, 23, 16, .ro, .none, 0⟩
def MGMT_DUM_ENTRIES : Fld := ⟨487, 8, 1, 0x114, 4, 1, .none, 15, 0, .ro, .none, 0⟩
def MGMT_DUM_SEQ : Fld := ⟨488, 8, 1, 0x114, 4, 1, .none, 31, 16, .ro, .none, 0⟩
def MGMT_FJ_SEL : Fld := ⟨489, 8, 1, 0x140, 4, 1, .none, 31, 0, .rw, .host, 0⟩
def MGMT_FJ_FIRST : Fld := ⟨490, 8, 1, 0x144, 4, 1, .none, 31, 0, .ro, .none, 0⟩
def MGMT_FJ_NEXT : Fld := ⟨491, 8, 1, 0x148, 4, 1, .none, 31, 0, .ro, .none, 0⟩
def MGMT_FJ_READY : Fld := ⟨492, 8, 1, 0x14c, 4, 1, .none, 0, 0, .ro, .none, 0⟩
def MGMT_FJ_DATA : Fld := ⟨493, 8, 1, 0x150, 4, 16, .none, 31, 0, .ro, .none, 0⟩
def MGMT_RESETS_A : Fld := ⟨494, 8, 1, 0x1c0, 4, 1, .none, 31, 0, .ro, .none, 0⟩
def MGMT_RESETS_B : Fld := ⟨495, 8, 1, 0x1c4, 4, 1, .none, 31, 0, .ro, .none, 0⟩
def MGMT_DIVERGENCES : Fld := ⟨496, 8, 1, 0x1c8, 4, 1, .none, 31, 0, .ro, .none, 0⟩
def MGMT_WDOG_EXPIRIES : Fld := ⟨497, 8, 1, 0x1cc, 4, 1, .none, 31, 0, .ro, .none, 0⟩
def MGMT_FW_SVC_FAILS : Fld := ⟨498, 8, 1, 0x1d0, 4, 1, .none, 31, 0, .ro, .none, 0⟩
def MGMT_FJ_OVERFLOWS : Fld := ⟨499, 8, 1, 0x1d4, 4, 1, .none, 31, 0, .ro, .none, 0⟩
def FLASH_STATE_MODE : Fld := ⟨500, 9, 1, 0x100, 4, 1, .none, 1, 0, .ro, .none, 0⟩
def FLASH_STATE_REPLAYING : Fld := ⟨501, 9, 1, 0x100, 4, 1, .none, 2, 2, .ro, .none, 0⟩
def FLASH_BAD_FACTORY : Fld := ⟨502, 9, 1, 0x104, 4, 1, .none, 12, 0, .ro, .none, 0⟩
def FLASH_BAD_GROWN : Fld := ⟨503, 9, 1, 0x104, 4, 1, .none, 28, 16, .ro, .none, 0⟩
def FLASH_PART_GOOD : Fld := ⟨504, 9, 1, 0x120, 4, 7, .none, 12, 0, .ro, .none, 0⟩
def FLASH_PART_SPREAD : Fld := ⟨505, 9, 1, 0x120, 4, 7, .none, 27, 16, .ro, .none, 0⟩
def FLASH_PART_FAILED : Fld := ⟨506, 9, 1, 0x120, 4, 7, .none, 31, 31, .ro, .none, 0⟩
def FLASH_READS : Fld := ⟨507, 9, 1, 0x180, 4, 1, .none, 31, 0, .ro, .none, 0⟩
def FLASH_PROGRAMS : Fld := ⟨508, 9, 1, 0x184, 4, 1, .none, 31, 0, .ro, .none, 0⟩
def FLASH_ERASES : Fld := ⟨509, 9, 1, 0x188, 4, 1, .none, 31, 0, .ro, .none, 0⟩
def FLASH_CORR_BITS : Fld := ⟨510, 9, 1, 0x18c, 4, 1, .none, 31, 0, .ro, .none, 0⟩
def FLASH_UNCORR : Fld := ⟨511, 9, 1, 0x190, 4, 1, .none, 31, 0, .ro, .none, 0⟩
def FLASH_REFRESHES : Fld := ⟨512, 9, 1, 0x194, 4, 1, .none, 31, 0, .ro, .none, 0⟩
def FLASH_RETIRED : Fld := ⟨513, 9, 1, 0x198, 4, 1, .none, 31, 0, .ro, .none, 0⟩
def FLASH_REPLAYS : Fld := ⟨514, 9, 1, 0x19c, 4, 1, .none, 31, 0, .ro, .none, 0⟩
def FLASH_PATROLS : Fld := ⟨515, 9, 1, 0x1a0, 4, 1, .none, 31, 0, .ro, .none, 0⟩
def PCIE_LINK_SPEED : Fld := ⟨516, 13, 1, 0x100, 4, 1, .none, 3, 0, .ro, .none, 0⟩
def PCIE_LINK_WIDTH : Fld := ⟨517, 13, 1, 0x100, 4, 1, .none, 9, 4, .ro, .none, 0⟩
def PCIE_LINK_STATE : Fld := ⟨518, 13, 1, 0x100, 4, 1, .none, 12, 10, .ro, .none, 0⟩
def PCIE_POWER_DSTATE : Fld := ⟨519, 13, 1, 0x104, 4, 1, .none, 1, 0, .ro, .none, 0⟩
def PCIE_POWER_WATCH : Fld := ⟨520, 13, 1, 0x104, 4, 1, .none, 2, 2, .ro, .none, 0⟩
def PCIE_POWER_WAKE : Fld := ⟨521, 13, 1, 0x104, 4, 1, .none, 3, 3, .ro, .none, 0⟩
def PCIE_POWER_LAST_RESET : Fld := ⟨522, 13, 1, 0x104, 4, 1, .none, 6, 4, .ro, .none, 0⟩
def PCIE_EVT_CFG_VECTOR : Fld := ⟨523, 13, 1, 0x108, 4, 1, .none, 5, 0, .rws, .host, 0⟩
def PCIE_EVT_CFG_EN : Fld := ⟨524, 13, 1, 0x108, 4, 1, .none, 8, 8, .rws, .host, 0⟩
def PCIE_WATCH_EN : Fld := ⟨525, 13, 1, 0x10c, 4, 1, .none, 0, 0, .rws, .host, 0⟩
def PCIE_WATCH_SAF : Fld := ⟨526, 13, 1, 0x10c, 4, 1, .none, 1, 1, .rws, .host, 0⟩
def PCIE_WATCH_CONFIRMED : Fld := ⟨527, 13, 1, 0x10c, 4, 1, .none, 2, 2, .rws, .host, 0⟩
def PCIE_WATCH_LOST : Fld := ⟨528, 13, 1, 0x10c, 4, 1, .none, 3, 3, .rws, .host, 0⟩
def PCIE_WATCH_PLAN_EVT : Fld := ⟨529, 13, 1, 0x10c, 4, 1, .none, 4, 4, .rws, .host, 0⟩
def PCIE_WATCH_PIN : Fld := ⟨530, 13, 1, 0x10c, 4, 1, .none, 5, 5, .rws, .host, 0⟩
def PCIE_WATCH_SAF_MIN : Fld := ⟨531, 13, 1, 0x10c, 4, 1, .none, 7, 6, .rws, .host, 1⟩
def PCIE_CTO : Fld := ⟨532, 13, 1, 0x110, 4, 1, .none, 31, 0, .ro, .none, 50000⟩
def PCIE_EVT_SUM : Fld := ⟨533, 13, 1, 0x140, 4, 5, .none, 31, 0, .ro, .none, 0⟩
def PCIE_READ_FAILS : Fld := ⟨534, 13, 1, 0x180, 4, 1, .none, 31, 0, .ro, .none, 0⟩
def PCIE_CPL_TIMEOUTS : Fld := ⟨535, 13, 1, 0x184, 4, 1, .none, 31, 0, .ro, .none, 0⟩
def PCIE_BAD_ACCESS : Fld := ⟨536, 13, 1, 0x188, 4, 1, .none, 31, 0, .ro, .none, 0⟩
def PCIE_LINK_DOWNS : Fld := ⟨537, 13, 1, 0x18c, 4, 1, .none, 31, 0, .ro, .none, 0⟩
def PCIE_FLRS : Fld := ⟨538, 13, 1, 0x190, 4, 1, .none, 31, 0, .ro, .none, 0⟩
def PCIE_HOT_RESETS : Fld := ⟨539, 13, 1, 0x194, 4, 1, .none, 31, 0, .ro, .none, 0⟩
def PCIE_WAKES : Fld := ⟨540, 13, 1, 0x198, 4, 1, .none, 31, 0, .ro, .none, 0⟩
def PWR_TRIM_CODE : Fld := ⟨541, 10, 1, 0x100, 4, 1, .none, 5, 0, .rws, .fw, 40⟩
def PWR_TRIM_BASE : Fld := ⟨542, 10, 1, 0x100, 4, 1, .none, 13, 8, .ro, .none, 0⟩
def PWR_TRIM_RESERVE_MV : Fld := ⟨543, 10, 1, 0x100, 4, 1, .none, 23, 16, .ro, .none, 0⟩
def PWR_RESET_CAUSE : Fld := ⟨544, 10, 1, 0x104, 4, 1, .none, 2, 0, .ro, .none, 0⟩
def PWR_VCORE : Fld := ⟨545, 10, 1, 0x108, 4, 1, .none, 11, 0, .ro, .none, 0⟩
def PWR_DOM_ON : Fld := ⟨546, 10, 1, 0x120, 4, 8, .none, 31, 0, .rws, .fw, 0⟩
def PWR_DOM_STATE : Fld := ⟨547, 10, 1, 0x140, 4, 8, .none, 31, 0, .ro, .none, 0⟩
def PWR_SWITCHES : Fld := ⟨548, 10, 1, 0x180, 4, 1, .none, 31, 0, .ro, .none, 0⟩
def CLK_PLL : Fld := ⟨549, 11, 1, 0x100, 4, 1, .none, 5, 0, .ro, .none, 0⟩
def CLK_LOSS : Fld := ⟨550, 11, 1, 0x104, 4, 1, .none, 6, 0, .rc, .none, 0⟩
def THERM_TEMP_DEG : Fld := ⟨551, 12, 1, 0x100, 4, 13, .none, 7, 0, .ro, .none, 0⟩
def THERM_TEMP_MAX : Fld := ⟨552, 12, 1, 0x100, 4, 13, .none, 15, 8, .rc, .none, 0⟩
def THERM_WARN : Fld := ⟨553, 12, 1, 0x140, 4, 1, .none, 7, 0, .rws, .fw, 110⟩
def THERM_CRIT : Fld := ⟨554, 12, 1, 0x144, 4, 1, .none, 7, 0, .ro, .none, 120⟩
def THERM_STATE_WARN : Fld := ⟨555, 12, 1, 0x148, 4, 1, .none, 0, 0, .ro, .none, 0⟩
def THERM_STATE_CRIT : Fld := ⟨556, 12, 1, 0x148, 4, 1, .none, 1, 1, .ro, .none, 0⟩
def THERM_STATE_HOT : Fld := ⟨557, 12, 1, 0x148, 4, 1, .none, 7, 4, .ro, .none, 0⟩
def THERM_WARNS : Fld := ⟨558, 12, 1, 0x180, 4, 1, .none, 31, 0, .ro, .none, 0⟩
def THERM_CRITS : Fld := ⟨559, 12, 1, 0x184, 4, 1, .none, 31, 0, .ro, .none, 0⟩
def PAGE_ID_MINOR : Fld := ⟨560, 0, 139, 0x0, 4, 1, .none, 7, 0, .ro, .none, 0⟩
def PAGE_ID_MAJOR : Fld := ⟨561, 0, 139, 0x0, 4, 1, .none, 15, 8, .ro, .none, 1⟩
def PAGE_ID_INSTANCE : Fld := ⟨562, 0, 139, 0x0, 4, 1, .none, 23, 16, .ro, .none, 0⟩
def PAGE_ID_TYPE : Fld := ⟨563, 0, 139, 0x0, 4, 1, .none, 31, 24, .ro, .none, 0⟩
def PAGE_CAPS_STAGED : Fld := ⟨564, 0, 139, 0x4, 4, 1, .none, 0, 0, .ro, .none, 0⟩
def PAGE_CAPS_HOST_FIELDS : Fld := ⟨565, 0, 139, 0x4, 4, 1, .none, 1, 1, .ro, .none, 0⟩
def PAGE_CAPS_FW_FIELDS : Fld := ⟨566, 0, 139, 0x4, 4, 1, .none, 2, 2, .ro, .none, 0⟩
def PAGE_CAPS_INT_BITS : Fld := ⟨567, 0, 139, 0x4, 4, 1, .none, 15, 8, .ro, .none, 0⟩
def PAGE_ACCESS_LEVEL : Fld := ⟨568, 0, 139, 0x18, 4, 1, .none, 1, 0, .ro, .none, 0⟩
def PAGE_ACCESS_ROLE : Fld := ⟨569, 0, 139, 0x18, 4, 1, .none, 4, 2, .ro, .none, 0⟩
def PAGE_CTRL : Fld := ⟨570, 0, 139, 0x8, 4, 1, .none, 0, 0, .wo, .host, 0⟩
def PAGE_STATUS_ACCESS_VIOLATION : Fld := ⟨571, 0, 139, 0xc, 4, 1, .none, 0, 0, .w1c, .host, 0⟩
def PAGE_STATUS_UP : Fld := ⟨572, 0, 139, 0xc, 4, 1, .none, 1, 1, .ro, .none, 0⟩
def PAGE_COMMIT_HOST : Fld := ⟨573, 0, 139, 0x10, 4, 1, .none, 0, 0, .wo, .host, 0⟩
def PAGE_COMMIT_FW : Fld := ⟨574, 0, 139, 0x10, 4, 1, .none, 1, 1, .wo, .fw, 0⟩
def PAGE_COMMIT_STATUS_HOST_STATE : Fld := ⟨575, 0, 139, 0x14, 4, 1, .none, 1, 0, .ro, .none, 0⟩
def PAGE_COMMIT_STATUS_FW_STATE : Fld := ⟨576, 0, 139, 0x14, 4, 1, .none, 3, 2, .ro, .none, 0⟩
def PAGE_COMMIT_STATUS_REASON : Fld := ⟨577, 0, 139, 0x14, 4, 1, .none, 15, 8, .ro, .none, 0⟩
def PAGE_COMMIT_STATUS_WHO : Fld := ⟨578, 0, 139, 0x14, 4, 1, .none, 16, 16, .ro, .none, 0⟩
def PAGE_COMMIT_STATUS_HOST_SYNC : Fld := ⟨579, 0, 139, 0x14, 4, 1, .none, 17, 17, .ro, .none, 1⟩
def PAGE_COMMIT_STATUS_FW_SYNC : Fld := ⟨580, 0, 139, 0x14, 4, 1, .none, 18, 18, .ro, .none, 1⟩
def PAGE_COMMIT_STATUS_REFUSALS : Fld := ⟨581, 0, 139, 0x14, 4, 1, .none, 31, 24, .ro, .none, 0⟩
def INT_STATUS : Fld := ⟨582, 0, 139, 0x20, 4, 1, .none, 31, 0, .w1c, .host, 0⟩
def INT_ENABLE : Fld := ⟨583, 0, 139, 0x24, 4, 1, .none, 31, 0, .rw, .host, 0⟩
def INT_FORCE : Fld := ⟨584, 0, 139, 0x28, 4, 1, .none, 31, 0, .wo, .host, 0⟩
def ERR_COUNT_CE : Fld := ⟨585, 0, 139, 0x30, 4, 1, .none, 31, 0, .ro, .none, 0⟩
def ERR_COUNT_UE : Fld := ⟨586, 0, 139, 0x34, 4, 1, .none, 31, 0, .ro, .none, 0⟩
def ERR_LAST_ADDR_LO : Fld := ⟨587, 0, 139, 0x38, 4, 1, .none, 31, 0, .ro, .none, 0⟩
def ERR_LAST_ADDR_HI : Fld := ⟨588, 0, 139, 0x3c, 4, 1, .none, 31, 0, .ro, .none, 0⟩
def ERR_LAST_SYNDROME : Fld := ⟨589, 0, 139, 0x40, 4, 1, .none, 21, 0, .ro, .none, 0⟩
def SYS_STATUS_PHASE : Fld := ⟨590, 0, 1, 0x100, 4, 1, .none, 2, 0, .ro, .none, 0⟩
def SYS_STATUS_READY : Fld := ⟨591, 0, 1, 0x100, 4, 1, .none, 3, 3, .ro, .none, 0⟩
def SYS_STATUS_GRADE : Fld := ⟨592, 0, 1, 0x100, 4, 1, .none, 4, 4, .ro, .none, 0⟩
def SYS_STATUS_SAFE : Fld := ⟨593, 0, 1, 0x100, 4, 1, .none, 5, 5, .ro, .none, 0⟩
def SYS_STATUS_HALTED : Fld := ⟨594, 0, 1, 0x100, 4, 1, .none, 6, 6, .ro, .none, 0⟩
def SYS_STATUS_JOURNAL_FULL : Fld := ⟨595, 0, 1, 0x100, 4, 1, .none, 7, 7, .ro, .none, 0⟩
def SYS_STATUS_LEASE : Fld := ⟨596, 0, 1, 0x100, 4, 1, .none, 8, 8, .ro, .none, 0⟩
def SYS_REV_REV : Fld := ⟨597, 0, 1, 0x104, 4, 1, .none, 7, 0, .ro, .none, 1⟩
def SYS_REV_MAP : Fld := ⟨598, 0, 1, 0x104, 4, 1, .none, 15, 8, .ro, .none, 1⟩
def SYS_SERIAL_LO : Fld := ⟨599, 0, 1, 0x108, 4, 1, .none, 31, 0, .ro, .none, 0⟩
def SYS_SERIAL_HI : Fld := ⟨600, 0, 1, 0x10c, 4, 1, .none, 31, 0, .ro, .none, 0⟩
def SYS_PLACE_PHYS_0 : Fld := ⟨601, 0, 1, 0x140, 4, 16, .none, 6, 0, .rws, .fw, 127⟩
def SYS_PLACE_PHYS_1 : Fld := ⟨602, 0, 1, 0x140, 4, 16, .none, 14, 8, .rws, .fw, 127⟩
def SYS_PLACE_PHYS_2 : Fld := ⟨603, 0, 1, 0x140, 4, 16, .none, 22, 16, .rws, .fw, 127⟩
def SYS_PLACE_PHYS_3 : Fld := ⟨604, 0, 1, 0x140, 4, 16, .none, 30, 24, .rws, .fw, 127⟩
def SYS_PLACE_ACT_PHYS_0 : Fld := ⟨605, 0, 1, 0x180, 4, 16, .none, 6, 0, .ro, .none, 127⟩
def SYS_PLACE_ACT_PHYS_1 : Fld := ⟨606, 0, 1, 0x180, 4, 16, .none, 14, 8, .ro, .none, 127⟩
def SYS_PLACE_ACT_PHYS_2 : Fld := ⟨607, 0, 1, 0x180, 4, 16, .none, 22, 16, .ro, .none, 127⟩
def SYS_PLACE_ACT_PHYS_3 : Fld := ⟨608, 0, 1, 0x180, 4, 16, .none, 30, 24, .ro, .none, 127⟩
def SYS_PLACE_GEN : Fld := ⟨609, 0, 1, 0x1c0, 4, 1, .none, 31, 0, .ro, .none, 0⟩
def SYS_PLACE_BASE : Fld := ⟨610, 0, 1, 0x1c4, 4, 1, .none, 31, 0, .rws, .fw, 0⟩

end F

/-- Part 0 of the field table. -/
def fieldsPart0 : List Fld := [
  F.INTAKE_SLOT_SEL, F.ADM_CODEC_CODEC, F.ADM_CODEC_PROFILE, F.ADM_CODEC_LEVEL, F.ADM_CODEC_HIBIT, F.ADM_CODEC_LOWLAT, F.ADM_DIMS_WIDTH, F.ADM_DIMS_HEIGHT, F.ADM_DPB_RATE_DPB, F.ADM_DPB_RATE_FPS, F.ADM_POOL_POOL, F.ADM_POOL_SESSION, F.ADM_BUDGET, F.INTAKE_RING_BASE_LO, F.INTAKE_RING_BASE_HI, F.INTAKE_RING_CFG, F.PIDX_ADDR_LO, F.PIDX_ADDR_HI, F.SLOT_STATE_STATE, F.SLOT_STATE_CIDX, F.INTAKE_LOAD, F.INTAKE_PERIOD, F.DEC_CTRL, F.DEC_STATE_BUSY, F.DEC_STATE_GANGED, F.DEC_STATE_SLOT, F.DEC_PICTURES, F.DEC_CONCEALED, F.DEC_ABANDONED, F.DEC_REFUSED, F.DEC_SWITCHES, F.DEC_BUSY_LO, F.DEC_BUSY_HI, F.CSI_CFG_LANES, F.CSI_CFG_VC, F.CSI_CFG_DT, F.CSI_CFG_OUT, F.CSI_CFG_CFA, F.CSI_CFG_SCALE, F.CSI_CFG_DEFECT, F.CSI_FRAME_SIZE_WIDTH, F.CSI_FRAME_SIZE_HEIGHT, F.CSI_BLACK_01_CH_EVEN, F.CSI_BLACK_23_CH_EVEN, F.CSI_GAIN_01_CH_EVEN, F.CSI_GAIN_23_CH_EVEN, F.CSI_BLACK_01_CH_ODD, F.CSI_BLACK_23_CH_ODD, F.CSI_GAIN_01_CH_ODD, F.CSI_GAIN_23_CH_ODD]
/-- Part 1 of the field table. -/
def fieldsPart1 : List Fld := [
  F.CSI_DEFECT_THR, F.CSI_FE_TIMEOUT, F.ROI_CTRL_COUNT, F.ROI_CTRL_SRC, F.ROI_CTRL_MARGIN, F.ROI_POS_X, F.ROI_POS_Y, F.ROI_SIZE_W, F.ROI_SIZE_H, F.CSI_FRAMES, F.CSI_CRC_ERR, F.CSI_ECC_CORR, F.CSI_ROI_STALE, F.CSI_FE_TIMEOUTS, F.REC_CFG_CHANNELS, F.REC_CFG_AUDIO, F.REC_CFG_SIGNALS, F.REC_ITEMS, F.REC_DROPS, F.REC_GAPS, F.SICKLE_STATE_BUSY, F.SICKLE_STATE_PINNED, F.SICKLE_STATE_REMAINING, F.SICKLE_LISTS, F.SICKLE_BOXES, F.SICKLE_OUTSIDE, F.SICKLE_DEGENERATE, F.SICKLE_LATE, F.SICKLE_OVERSIZE, F.SICKLE_BUSY, F.ENC_CTRL_EN, F.ENC_CTRL_CODEC, F.ENC_CTRL_RC, F.ENC_CTRL_SUBLAT, F.ENC_SRC_SLOT, F.ENC_SRC_ROT, F.ENC_SRC_MIRROR, F.ENC_SRC_SEL, F.ENC_SRC_RING, F.ENC_SIZE_W, F.ENC_SIZE_H, F.ENC_RATE_KBPS, F.ENC_RATE_QP, F.ENC_RATE_FPS, F.ENC_GOP_IDR_PERIOD, F.ENC_GOP_SLICE_ROWS, F.ENC_LTR_STORE, F.ENC_LTR_STORE_IDX, F.ENC_LTR_USE, F.ENC_LTR_USE_IDX]
/-- Part 2 of the field table. -/
def fieldsPart2 : List Fld := [
  F.ENC_PICTURES, F.ENC_BYTES_LO, F.ENC_BYTES_HI, F.ENC_SKIPPED, F.ENC_DISCARDED, F.CORE_STATE_STATE, F.CORE_STATE_LOGICAL, F.CORE_STATE_CLUSTER, F.CORE_STATE_PINNED, F.CORE_STATE_PLAN, F.CORE_ITEM, F.CORE_RESIDENT_TAG, F.CORE_RESIDENT_PLAN, F.CORE_BIN_CAP_WEIGHT_KIB, F.CORE_BIN_CAP_ACT_KIB, F.CORE_BIN_CAP_PSUM_TILES, F.CORE_CTRL_RETIRE, F.CORE_CTRL_FLUSH_RESIDENT, F.CORE_CTRL_GATE_DIS, F.CORE_PSUM_MASK, F.CORE_AGE, F.CORE_BUSY_LO, F.CORE_BUSY_HI, F.CORE_MACS_LO, F.CORE_MACS_HI, F.CORE_GATED_LO, F.CORE_GATED_HI, F.CORE_BUBBLES, F.CORE_LATE_CYCLES, F.CORE_PSUM_SPILLS, F.CORE_RESIDUE_ERR, F.CORE_UNWRITTEN, F.CORE_RESIDENT_HITS, F.CORE_WB_DROP, F.CORE_PREEMPTS, F.CORE_ACC_WRAPS, F.PLAN_SEL_INDEX, F.PLAN_SEL_BATCH, F.PLAN_ENTRY_STATE, F.PLAN_ENTRY_PINNED, F.PLAN_ENTRY_WHOLE_TILE, F.PLAN_ENTRY_AUTONOMOUS, F.PLAN_ENTRY_FABRIC, F.PLAN_ENTRY_ONE_CLUSTER, F.PLAN_ENTRY_PSUM_ASSUMED, F.PLAN_ENTRY_CORES, F.PLAN_ENTRY_MAX_BATCH, F.PLAN_ID, F.PLAN_CLAIM_GRANARY_KIB, F.PLAN_CLAIM_SPILL_KIB]
/-- Part 3 of the field table. -/
def fieldsPart3 : List Fld := [
  F.PLAN_HBM, F.PLAN_WCET, F.PLAN_LAUNCHES, F.PLAN_LATE, F.PLAN_EMPTY, F.PLAN_REFUSED, F.PLAN_LAST_STATUS, F.PLAN_LAST_REASON, F.PLAN_LAST_INDEX, F.PLAN_FREE, F.PLAN_FREE_HBM, F.PLAN_PINNED, F.TRK_SLOT_SEL, F.TRK_CTRL_EN, F.TRK_CTRL_MODE, F.TRK_CTRL_EMB, F.TRK_CTRL_ROI, F.TRK_CTRL_NMS_AGNOSTIC, F.TRK_CTRL_OBJ_ALL, F.TRK_NMS_IOU_T, F.TRK_NMS_MAX_KEEP, F.TRK_GATE_IOU_MIN, F.TRK_GATE_COS_MAX, F.TRK_LIFE_N_CONFIRM, F.TRK_LIFE_N_LOST, F.TRK_LIFE_N_RETIRE, F.TRK_QUOTA_QUOTA, F.TRK_QUOTA_BIRTH_SCORE, F.TRK_KF_POS_Q_P, F.TRK_KF_POS_Q_V, F.TRK_KF_SIZE_Q_P, F.TRK_KF_SIZE_Q_V, F.TRK_KF_R_R_POS, F.TRK_KF_R_R_SIZE, F.TRK_KF_V0, F.TRK_DET, F.TRK_EMB_PLAN, F.TRK_EMB_W_APP, F.TRK_EMB_WAIT_ALPHA, F.TRK_EMB_WAIT_UNITS, F.TRK_SLOT_STATE_LIVE, F.TRK_SLOT_STATE_STEPPING, F.TRK_SAF, F.SLOT_ROUTE_PIC_RING, F.SLOT_ROUTE_OBJ_RING, F.RING_SEL, F.TRACK_RING_BASE_LO, F.TRACK_RING_BASE_HI, F.TRACK_RING_CFG_EN, F.TRACK_RING_CFG_SIZE]
/-- Part 4 of the field table. -/
def fieldsPart4 : List Fld := [
  F.WIDX_ADDR_LO, F.WIDX_ADDR_HI, F.RING_IRQ_VECTOR, F.RING_IRQ_COUNT, F.RING_IRQ_TIMER, F.RING_STATE_OVF_BYTES, F.RING_STATE_RIDX_ERR, F.RING_RIDX, F.RING_WIDX, F.TRK_STEPS, F.TRK_SUPPRESSED, F.TRK_BIRTHS, F.TRK_DENIED, F.TRK_RETIRED, F.TRK_STALE, F.TRK_DROPS, F.TRK_EMB_LATE, F.TRK_NO_SLOT, F.RING_OVERFLOWS, F.RING_ORPHANED, F.LEDGER_LIVE, F.CLU_BANK_MAP_0, F.CLU_BANK_MAP_1, F.CLU_BANK_MAP_2, F.CLU_BANK_PWR, F.CLU_BANK_FORCE, F.CLU_BANK_STATE_DRAINING, F.CLU_BANK_STATE_COPYING, F.CLU_BANK_STATE_COPY_SRC, F.CLU_BANK_CAP_UNITS, F.CLU_BANK_CAP_DARK, F.CLU_SCRUB_INTERVAL, F.CLU_SCRUB_PATROL_EN, F.CLU_SPILLS, F.CLU_WB_SUPERSEDED, F.CLU_WB_DROP, F.CLU_POISON_READS, F.CLU_DARK_READS, F.CLU_DARK_WRITES, F.CLU_CIRC_WAITS, F.CLU_SWEEPS, F.COOPER_POOL_SEL, F.COOPER_POOL_CFG_EN, F.COOPER_POOL_CFG_LIST, F.COOPER_POOL_CFG_SIZE, F.COOPER_POOL_CFG_COUNT, F.COOPER_POOL_BASE, F.COOPER_POOL_HEAD_LO, F.COOPER_POOL_HEAD_HI, F.COOPER_POOL_STATE_FREE]
/-- Part 5 of the field table. -/
def fieldsPart5 : List Fld := [
  F.COOPER_POOL_STATE_UNMET, F.COOPER_POOL_STATE_OWNERS, F.COOPER_POOL_BROKEN, F.COOPER_AREA, F.COOPER_CODEC, F.COOPER_ALLOCS, F.COOPER_CAPACITY_FAIL, F.COOPER_BAD_FREES, F.COOPER_REFILLS, F.HBMC_MAP_GRAIN, F.HBMC_MAP_FOLD, F.HBMC_STATE_STATE, F.HBMC_STATE_FAST, F.HBMC_STATE_READY, F.HBMC_SREF, F.HBMC_TEMP_DEG, F.HBMC_TEMP_DOUBLE, F.HBMC_CH_PD, F.HBMC_CH_SCRUB_INTERVAL, F.HBMC_CH_SCRUB_EN, F.HBMC_CH_REPAIR_ROW, F.HBMC_CH_REPAIR_BA, F.HBMC_CH_REPAIR_BG, F.HBMC_CH_REPAIR_SID, F.HBMC_CH_REPAIR_PC, F.HBMC_CH_REPAIR_HARD, F.HBMC_CH_REPAIR_GO, F.HBMC_CH_LANE_PC0, F.HBMC_CH_LANE_PC1, F.HBMC_CH_TRAIN_PATTERN, F.HBMC_CH_TRAIN_DIR, F.HBMC_CH_TRAIN_LEN, F.HBMC_CH_TRAIN_GO, F.HBMC_CH_TRAIN_BUSY, F.HBMC_CH_TRAIN_PAT, F.HBMC_CH_STATE_MODE, F.HBMC_CH_STATE_QPIN, F.HBMC_CH_STATE_QPOOL, F.CH_READS_LO, F.CH_READS_HI, F.CH_WRITES_LO, F.CH_WRITES_HI, F.CH_LATE, F.CH_MAX_LAT, F.CH_QFULL_TICKS, F.CH_PD_ENTRIES, F.CH_REFRESHES, F.CH_WB, F.CH_WB_CANCELLED, F.CH_WB_DROP]
/-- Part 6 of the field table. -/
def fieldsPart6 : List Fld := [
  F.CH_RMW, F.CH_SWEEPS, F.HBMC_CH_LANE_ERR, F.HBMC_CH_DLY_RD, F.HBMC_CH_DLY_WR, F.DISP_LEDGER_BASE_LO, F.DISP_LEDGER_BASE_HI, F.DISP_PIDX_ADDR_LO, F.DISP_PIDX_ADDR_HI, F.DISP_CIDX_ADDR_LO, F.DISP_CIDX_ADDR_HI, F.DISP_LEDGER_CFG_EN, F.DISP_LEDGER_CFG_LOG2, F.DISP_PERIOD, F.DISP_LEDGER_CIDX, F.DISP_LEASE_MS, F.DISP_LEASE_RENEW, F.DISP_LEASE_EXPIRED, F.DISP_LEASE_LEFT, F.DISP_QUEUE, F.DISP_QUEUE_STATE_POOLED, F.DISP_QUEUE_STATE_PINNED, F.DISP_JOURNAL_WIDX, F.DISP_JOURNAL_RIDX, F.DISP_JOURNAL_SIZE, F.DISP_FETCHED, F.DISP_LAUNCH_PINNED, F.DISP_LAUNCH_POOLED, F.DISP_REFUSED, F.DISP_PREEMPTS, F.DISP_DEADLINE_REFUSALS, F.DISP_INHERITS, F.DISP_POLL_SKIPS, F.DISP_FETCH_TIMEOUTS, F.CARTER_WARM, F.CARTER_COLD, F.CARTER_CTX_SEL, F.CARTER_CTX_STATE, F.CARTER_CTX_BLOCKED, F.CARTER_CTX_RANK, F.CARTER_CTX_CLUSTER, F.CARTER_CTX_INHERIT, F.CARTER_CTX_PLAN, F.CARTER_CTX_SEQ, F.CARTER_STATE_FREE, F.CARTER_STATE_COLD, F.CARTER_SAVES, F.CARTER_RESTORES, F.CARTER_EVICTIONS, F.CARTER_DEMOTIONS]
/-- Part 7 of the field table. -/
def fieldsPart7 : List Fld := [
  F.CARTER_COLD_RESTORES, F.CARTER_MOVE_WAITS, F.TALLY_LO, F.TALLY_HI, F.TALLY_CHIP, F.TALLY_CTRL_ROLE, F.TALLY_CTRL_SRC_PORT, F.TALLY_CTRL_TIME_EN, F.TALLY_CTRL_ALIGN, F.TALLY_STATE_STATE, F.TALLY_STATE_RESID, F.TALLY_TIME_LOAD_LO, F.TALLY_TIME_LOAD_HI, F.TALLY_TIME_COMP, F.TALLY_TIME_TOL, F.TALLY_TIME_STAMP_LO, F.TALLY_TIME_STAMP_HI, F.TALLY_TIME_ERR, F.RELAY_CFG_EN, F.RELAY_CFG_VECTOR, F.RELAY_OUT_WIDX, F.RELAY_OUT_RIDX, F.RELAY_OUT_SIZE, F.RELAY_IN_BASE_LO, F.RELAY_IN_BASE_HI, F.RELAY_IN_CFG, F.RELAY_IN_PIDX_ADDR_LO, F.RELAY_IN_PIDX_ADDR_HI, F.TALLY_MARKERS, F.TALLY_SLIPS, F.TIME_EDGES, F.TIME_DRIFTS, F.RELAY_OUT_UNITS, F.RELAY_IN_UNITS, F.RELAY_TAG_FAIL, F.LINK_CTRL, F.LINK_STATE_STATE, F.LINK_STATE_SPARE_FOR, F.LINK_PEER_CHIP, F.LINK_PEER_PORT, F.LINK_HOP, F.LINK_TX_FLITS, F.LINK_RX_FLITS, F.LINK_CORRECTED, F.LINK_RETRIES, F.LINK_DOWNS, F.LINK_ORPHAN_FLITS, F.LINK_CREDIT_WAITS, F.LINK_LATE_UNITS, F.REEVE_SEL]
/-- Part 8 of the field table. -/
def fieldsPart8 : List Fld := [
  F.REEVE_CFG_EN, F.REEVE_CFG_FAULT, F.REEVE_CFG_SAFE, F.REEVE_CFG_PLAN, F.REEVE_AGE, F.REEVE_PERIOD, F.REEVE_FAULT_ASSERTED, F.REEVE_FAULT_BREACH, F.REEVE_FAULT_SAFE_STATE, F.REEVE_FAULT_THERM_CRIT, F.REEVE_FAULT_LATENT_OVERDUE, F.REEVE_FAULT_GOLDEN_MISMATCH, F.REEVE_FAULT_FINDING, F.REEVE_FAULT_PHASE, F.REEVE_FAULT_CLR, F.REEVE_BREACH_LO, F.REEVE_BREACH_HI, F.REEVE_RESULTS, F.REEVE_AGE_BREACHES, F.REEVE_PERIOD_BREACHES, F.REEVE_LAST_AGE, F.WINNOW_CTRL_EN, F.WINNOW_CTRL_ROTATE, F.WINNOW_CTRL_OVERDUE_FAULT, F.WINNOW_LATENT_MS, F.WINNOW_LATENT_ROT_S, F.WINNOW_AGE_THR, F.WINNOW_CLU_SPARE, F.WINNOW_CLU_STATE, F.WINNOW_CLU_NEXT, F.WINNOW_SEGMENTS, F.WINNOW_DEFERRALS, F.WINNOW_OVERRUNS, F.WINNOW_FINDINGS, F.WINNOW_OVERDUE, F.WINNOW_GOLDEN_PASS, F.WINNOW_GOLDEN_DEFERRED, F.WINNOW_GOLDEN_MISMATCH, F.WINNOW_HANDOVERS, F.WINNOW_WEAR_RETIRED, F.SEC_MB_GO, F.SEC_MB_STATE_STATE, F.SEC_MB_STATE_REASON, F.SEC_MB_STATE_STATUS, F.SEC_MB_IRQ_VECTOR, F.SEC_MB_IRQ_EN, F.SEC_STATE_PUF_OK, F.SEC_STATE_KEYS_READY, F.SEC_STATE_ZEROISED, F.SEC_STATE_JTAG_OPEN]
/-- Part 9 of the field table. -/
def fieldsPart9 : List Fld := [
  F.SEC_STATE_ROLES_SET, F.SEC_STATE_OPEN, F.SEC_IFACE_IFACE, F.SEC_IFACE_SVN, F.SEC_XMSS, F.SEC_XMSS_END, F.SEC_SESS_SEL, F.SEC_SESS_TAG, F.SEC_SESS_ROLE, F.SEC_SESS_OPEN, F.SEC_SESS_PENDING, F.SEC_SESS_RESTRICTED, F.SEC_SESS_BAD_RUN, F.SEC_UNLOCK_0, F.SEC_UNLOCK_1, F.SEC_UNLOCK_2, F.SEC_EGRESS_LAST_LO, F.SEC_EGRESS_LAST_HI, F.SEC_COMMANDS, F.SEC_OPENS, F.SEC_OPEN_FAILS, F.SEC_BAD_TAGS, F.SEC_BAD_SEQ, F.SEC_EGRESS_BLOCKS, F.SEC_RELEASES, F.SEC_RELEASE_SKIPS, F.MGMT_STATE_PAIR_A, F.MGMT_STATE_PAIR_B, F.MGMT_BOOT_SLOT, F.MGMT_BOOT_FALLBACK, F.MGMT_BOOT_FULL_TRAIN, F.MGMT_BOOT_COUNT, F.MGMT_FW_VERSION, F.MGMT_BOOT_MS, F.MGMT_SERVICE_DEC, F.MGMT_SERVICE_DEC_SPARE, F.MGMT_SERVICE_CLUSTER, F.MGMT_DUM_ENTRIES, F.MGMT_DUM_SEQ, F.MGMT_FJ_SEL, F.MGMT_FJ_FIRST, F.MGMT_FJ_NEXT, F.MGMT_FJ_READY, F.MGMT_FJ_DATA, F.MGMT_RESETS_A, F.MGMT_RESETS_B, F.MGMT_DIVERGENCES, F.MGMT_WDOG_EXPIRIES, F.MGMT_FW_SVC_FAILS, F.MGMT_FJ_OVERFLOWS]
/-- Part 10 of the field table. -/
def fieldsPart10 : List Fld := [
  F.FLASH_STATE_MODE, F.FLASH_STATE_REPLAYING, F.FLASH_BAD_FACTORY, F.FLASH_BAD_GROWN, F.FLASH_PART_GOOD, F.FLASH_PART_SPREAD, F.FLASH_PART_FAILED, F.FLASH_READS, F.FLASH_PROGRAMS, F.FLASH_ERASES, F.FLASH_CORR_BITS, F.FLASH_UNCORR, F.FLASH_REFRESHES, F.FLASH_RETIRED, F.FLASH_REPLAYS, F.FLASH_PATROLS, F.PCIE_LINK_SPEED, F.PCIE_LINK_WIDTH, F.PCIE_LINK_STATE, F.PCIE_POWER_DSTATE, F.PCIE_POWER_WATCH, F.PCIE_POWER_WAKE, F.PCIE_POWER_LAST_RESET, F.PCIE_EVT_CFG_VECTOR, F.PCIE_EVT_CFG_EN, F.PCIE_WATCH_EN, F.PCIE_WATCH_SAF, F.PCIE_WATCH_CONFIRMED, F.PCIE_WATCH_LOST, F.PCIE_WATCH_PLAN_EVT, F.PCIE_WATCH_PIN, F.PCIE_WATCH_SAF_MIN, F.PCIE_CTO, F.PCIE_EVT_SUM, F.PCIE_READ_FAILS, F.PCIE_CPL_TIMEOUTS, F.PCIE_BAD_ACCESS, F.PCIE_LINK_DOWNS, F.PCIE_FLRS, F.PCIE_HOT_RESETS, F.PCIE_WAKES, F.PWR_TRIM_CODE, F.PWR_TRIM_BASE, F.PWR_TRIM_RESERVE_MV, F.PWR_RESET_CAUSE, F.PWR_VCORE, F.PWR_DOM_ON, F.PWR_DOM_STATE, F.PWR_SWITCHES, F.CLK_PLL]
/-- Part 11 of the field table. -/
def fieldsPart11 : List Fld := [
  F.CLK_LOSS, F.THERM_TEMP_DEG, F.THERM_TEMP_MAX, F.THERM_WARN, F.THERM_CRIT, F.THERM_STATE_WARN, F.THERM_STATE_CRIT, F.THERM_STATE_HOT, F.THERM_WARNS, F.THERM_CRITS, F.PAGE_ID_MINOR, F.PAGE_ID_MAJOR, F.PAGE_ID_INSTANCE, F.PAGE_ID_TYPE, F.PAGE_CAPS_STAGED, F.PAGE_CAPS_HOST_FIELDS, F.PAGE_CAPS_FW_FIELDS, F.PAGE_CAPS_INT_BITS, F.PAGE_ACCESS_LEVEL, F.PAGE_ACCESS_ROLE, F.PAGE_CTRL, F.PAGE_STATUS_ACCESS_VIOLATION, F.PAGE_STATUS_UP, F.PAGE_COMMIT_HOST, F.PAGE_COMMIT_FW, F.PAGE_COMMIT_STATUS_HOST_STATE, F.PAGE_COMMIT_STATUS_FW_STATE, F.PAGE_COMMIT_STATUS_REASON, F.PAGE_COMMIT_STATUS_WHO, F.PAGE_COMMIT_STATUS_HOST_SYNC, F.PAGE_COMMIT_STATUS_FW_SYNC, F.PAGE_COMMIT_STATUS_REFUSALS, F.INT_STATUS, F.INT_ENABLE, F.INT_FORCE, F.ERR_COUNT_CE, F.ERR_COUNT_UE, F.ERR_LAST_ADDR_LO, F.ERR_LAST_ADDR_HI, F.ERR_LAST_SYNDROME, F.SYS_STATUS_PHASE, F.SYS_STATUS_READY, F.SYS_STATUS_GRADE, F.SYS_STATUS_SAFE, F.SYS_STATUS_HALTED, F.SYS_STATUS_JOURNAL_FULL, F.SYS_STATUS_LEASE, F.SYS_REV_REV, F.SYS_REV_MAP, F.SYS_SERIAL_LO]
/-- Part 12 of the field table. -/
def fieldsPart12 : List Fld := [
  F.SYS_SERIAL_HI, F.SYS_PLACE_PHYS_0, F.SYS_PLACE_PHYS_1, F.SYS_PLACE_PHYS_2, F.SYS_PLACE_PHYS_3, F.SYS_PLACE_ACT_PHYS_0, F.SYS_PLACE_ACT_PHYS_1, F.SYS_PLACE_ACT_PHYS_2, F.SYS_PLACE_ACT_PHYS_3, F.SYS_PLACE_GEN, F.SYS_PLACE_BASE]

/-- Every register field of the device. -/
def allFields : List Fld :=
  fieldsPart0 ++ fieldsPart1 ++ fieldsPart2 ++ fieldsPart3 ++ fieldsPart4 ++ fieldsPart5 ++ fieldsPart6 ++ fieldsPart7 ++ fieldsPart8 ++ fieldsPart9 ++ fieldsPart10 ++ fieldsPart11 ++ fieldsPart12

/-- Domains that are on at the release of PERST_N (17_power_clocks_and_reset.md R399): 226 to 229 and banks 0 to 15 of
every cluster, as the eight words of PWR_DOM_ON and PWR_DOM_STATE. -/
def domResetWords : List Nat := [0x0, 0x0, 0xfeffff00, 0xfbfffdff, 0xeffff7ff, 0xbfffdfff, 0x7fff, 0x3c]

/-- Block type of page `p`: 0x01 to 0x1A in the order of Table 18-1. -/
def pageType (p : Nat) : Nat :=
  if p < 16 then p + 1 else if p < 88 then 0x11 else if p < 96 then 0x12 else if p < 105 then 0x13
  else if p < 107 then 0x14 else if p < 115 then 0x15 else if p < 116 then 0x16 else if p < 118 then 0x17
  else if p < 119 then 0x18 else if p < 135 then 0x19 else 0x1A

/-- Number of page `p` within its block; 0 for single pages (18_register_map.md PAGE_ID.INSTANCE). -/
def pageInst (p : Nat) : Nat :=
  if p < 16 then 0 else if p < 88 then p - 16 else if p < 96 then p - 88 else if p < 105 then p - 96
  else if p < 107 then p - 105 else if p < 115 then p - 107 else if p < 116 then 0 else if p < 118 then p - 116
  else if p < 119 then 0 else if p < 135 then p - 119 else p - 135

/-- Level of page `p` (Table 18-1): 0 open, 1 guarded, 2 maintainer. -/
def pageLevel (p : Nat) : Nat :=
  if p = 1 ∨ p = 2 ∨ p = 4 ∨ p = 5 ∨ p = 14 ∨ p = 15 then 1
  else if 88 ≤ p ∧ p < 96 then 2
  else if 105 ≤ p ∧ p < 116 then 1
  else if 135 ≤ p then 1
  else 0

/-- Role that writes the host fields of page `p` through REG_WRITE (14_security_and_sessions.md Table 14-6): Operator 0,
Evidence 2 for ENC_n, Maintainer 3 for CLU_n. -/
def pageRole (p : Nat) : Nat :=
  if 105 ≤ p ∧ p < 107 then 2 else if 88 ≤ p ∧ p < 96 then 3 else 0

/-- INT_STATUS bits that the chapters define for page `p` (DISP 4, COOPER 1, THERM 3, INTAKE 1, REC 1). -/
def pageIntBits (p : Nat) : Nat :=
  if p = 2 then 4 else if p = 4 then 1 else if p = 12 then 3 else if p = 14 then 1 else if p = 115 then 1 else 0

/-- Does field `f` stand on page `p`? -/
def Fld.onPage (f : Fld) (p : Nat) : Bool := decide (f.base ≤ p) && decide (p < f.base + f.n)

/-- The fields of its own block that page `p` has, without the common ones. -/
def ownFields (p : Nat) : List Fld := allFields.filter (fun f => f.onPage p && decide (f.n ≠ 139))

/-- The bit value of a Boolean. -/
def bnat (b : Bool) : Nat := if b then 1 else 0

/-- Reset value of field `f` on instance `inst`, array element `idx`. Almost every field has one value for all of its
instances; the exceptions are the fields whose tables give the reset as a function of the page. -/
def Fld.reset (f : Fld) (inst idx : Nat) : Nat :=
  if f.id = F.CORE_STATE_CLUSTER.id then inst / 9
  else if f.id = F.PWR_DOM_ON.id ∨ f.id = F.PWR_DOM_STATE.id then domResetWords.getD idx 0
  else if f.id = F.PAGE_ID_INSTANCE.id then pageInst inst
  else if f.id = F.PAGE_ID_TYPE.id then pageType inst
  else if f.id = F.PAGE_CAPS_STAGED.id then bnat ((ownFields inst).any (fun g => decide (g.acc = .rws)))
  else if f.id = F.PAGE_CAPS_HOST_FIELDS.id then bnat ((ownFields inst).any (fun g => decide (g.wr = .host)))
  else if f.id = F.PAGE_CAPS_FW_FIELDS.id then bnat ((ownFields inst).any (fun g => decide (g.wr = .fw)))
  else if f.id = F.PAGE_CAPS_INT_BITS.id then pageIntBits inst
  else if f.id = F.PAGE_ACCESS_LEVEL.id then pageLevel inst
  else if f.id = F.PAGE_ACCESS_ROLE.id then pageRole inst
  else f.rv

/-- Width in bits. -/
def Fld.width (f : Fld) : Nat := f.hi + 1 - f.lo

/-- Key of field `f` of instance `inst` (of the block), selector value `sel`, array element `idx` in the register file. -/
def Fld.key (f : Fld) (inst sel idx : Nat) : Nat :=
  ((((f.base + inst) * 2 + (if f.wr = .fw then 1 else 0)) * 1024 + f.id) * 1024 + sel) * 128 + idx

/-- Page number in a key. -/
def keyPage (k : Nat) : Nat := k / (2 * 1024 * 1024 * 128)

/-- Writer bit in a key: true for firmware. -/
def keyFw (k : Nat) : Bool := decide (k / (1024 * 1024 * 128) % 2 = 1)

/-- Field number in a key. -/
def keyId (k : Nat) : Nat := k / (1024 * 128) % 1024

/-- Selector value in a key. -/
def keySel (k : Nat) : Nat := k / 128 % 1024

/-- Array element in a key. -/
def keyIdx (k : Nat) : Nat := k % 128

end Sys2Proof.Machine
end

