-- ==== Sys2Proof/Syntax.lean ====
section
/-!
DEFINITION. Sys2Proof/Syntax.lean: the commands of the device, one constructor per row of spec/opcode_table.json, with the
row's operands. Every docstring gives the row's mnemonic, its rule and its summary.
-/

namespace Sys2Proof

open Sys2Proof.Machine

/-- A command of the device (201 rows). The table gives its rows no bits: a command reaches the block as itself. -/
inductive Instr where
  /-- VDD_AON_POWER_ON (R409). Power-on of VDD_AON resets everything once the rail has been in range for 2 ms. -/
  | vddAonPowerOn (sc : Bool) (serial : Nat) (testEn : Bool) (smbAddr : Nat)
  /-- PERST_N_ASSERT (R402). Assertion of PERST_N isolates and switches off every switched domain except 229, asserts
  FAULT_N and drives XSPI_CS_N high. -/
  | perstNAssert
  /-- PERST_N_RELEASE (R403). Release of PERST_N starts the PLLs, the mask ROM and link training; the Tally starts at
  0 and the device enters START_UP. -/
  | perstNRelease (boot : BootIn)
  /-- CLOCK_LOSS_RESET (R408). A PLL or XTAL_IN check window that finds lost lock or a frequency error above 1 %
  resets the device as PERST_N does. -/
  | clockLossReset (cause : Nat)
  /-- HOT_RESET (R387). A hot reset retrains the link, fails every item with FAILED_RESET, closes sessions and slots,
  and re-enters START_UP. -/
  | hotReset
  /-- LINK_DOWN (R387). A link-down event while the function is in D0 has the effect of a hot reset. -/
  | linkDown
  /-- FUNCTION_LEVEL_RESET (R388). A function-level reset stops requests, closes sessions and slots, ends every item
  FAILED_RESET and resets host-owned fields. -/
  | functionLevelReset
  /-- D3HOT_ENTRY (R391). A write of PowerState = D3hot stops polling and intake, suspends the lease, refuses queued
  entries and enters watch mode or self-refresh. -/
  | d3hotEntry
  /-- D0_RETURN (R390). A return from D3hot to D0 powers up the banks, leaves self-refresh, restarts the lease and
  resumes polling. -/
  | d0Return
  /-- PME_TURN_OFF (R393). A PME_Turn_Off message stops launching; the device sends PME_TO_Ack once the flash
  operation in progress ends and enters L2/L3 Ready. -/
  | pmeTurnOff
  /-- BUS_MASTER_ENABLE_CLEAR (R382). Clearing Bus Master Enable stops device requests; records are held and pending
  reads fail. -/
  | busMasterEnableClear
  /-- COMPLETION_RECEIVED (R383). A completion for a device read returns its data, or fails the read when it is UR,
  CA, poisoned or malformed. -/
  | completionReceived (tag : Nat) (status : CplStatus) (bytes : List Byte)
  /-- COMPLETION_TIMEOUT (R434). Expiry of a request's completion timer fails its whole read, and the reading block
  ends the affected work as Table 16-5 gives. -/
  | completionTimeout (tag : Nat)
  /-- MSIX_UNMASK (R385). Unmasking a vector whose PBA bit is set sends one message and clears the bit. -/
  | msixUnmask (vector : Nat)
  /-- SMBUS_READ_TEMPERATURE (R429). SMBus Read Byte 0x00 to 0x0C returns the reading of sensor s. -/
  | smbusReadTemperature (sensor : Nat)
  /-- SMBUS_READ_VCORE (R429). SMBus Read Word 0x20 returns PWR_VCORE.MV, or 0x8000 while the base domain is off. -/
  | smbusReadVcore
  /-- SMBUS_READ_STATUS (R429). SMBus Read Byte 0x21 returns the phase, ready, safe, FAULT_N and thermal flags. -/
  | smbusReadStatus
  /-- SMBUS_READ_TRIM (R429). SMBus Read Byte 0x22 returns PWR_TRIM.CODE. -/
  | smbusReadTrim
  /-- SMBUS_WAKE (R393). SMBus Write Byte 0x01 to command 0x57 asserts WAKE_N in D3cold. -/
  | smbusWake
  /-- ALERT_RESPONSE (R429). An SMBus Alert Response Address cycle releases SMB_ALERT_N. -/
  | alertResponse
  /-- REGISTER_WRITE (R16). A host or firmware write to a register field with no behaviour of its own changes the
  field or its shadow, or is ignored with the access-violation flag. -/
  | registerWrite (by_ : Writer) (space : Space) (addr : Nat) (size : Nat) (value : Nat)
  /-- LO_READ (R7). A read of a _LO register captures the _HI half in a holding copy for the next _HI read. -/
  | loRead (space : Space) (addr size : Nat)
  /-- RC_READ (R9). A read of an RC field returns its value and clears it. -/
  | rcRead (addr : Nat)
  /-- INT_STATUS_CLEAR (R415). A W1C write to INT_STATUS or another status field clears the bits written as 1. -/
  | intStatusClear (addr : Nat) (value : Nat) (session : Option Nat)
  /-- INT_FORCE (R416). A write to INT_FORCE sets the chosen INT_STATUS bits. -/
  | intForce (page : Nat) (bits : Nat) (session : Nat)
  /-- ERR_CLR (R416). A write of PAGE_CTRL.ERR_CLR clears ERR_LAST_ADDR and ERR_LAST_SYNDROME. -/
  | errClr (page : Nat) (session : Option Nat)
  /-- PAGE_COMMIT_HOST (R417). A write of PAGE_COMMIT.HOST takes a snapshot of the host shadows, which is then
  pending. -/
  | pageCommitHost (page : Nat) (sel : Nat) (session : Option Nat)
  /-- PAGE_COMMIT_FW (R417). A write of PAGE_COMMIT.FW takes a snapshot of the firmware shadows, which is then
  pending. -/
  | pageCommitFw (page : Nat)
  /-- COMMIT_POINT (R417). At the page's commit point the pending snapshots are checked, firmware first, and are
  applied whole or refused whole. -/
  | commitPoint (page : Nat)
  /-- RING_RIDX_WRITE (R200). A host write of RING_k_RIDX frees ring space and drains the overflow queue, or is
  ignored with RIDX_ERR. -/
  | ringRidxWrite (ring : Nat) (idx : Nat)
  /-- DISP_JOURNAL_RIDX_WRITE (R273). A write of DISP_JOURNAL_RIDX frees orphan-journal space, or is ignored with
  JOURNAL_RIDX_ERR. -/
  | dispJournalRidxWrite (idx : Nat)
  /-- RELAY_OUT_RIDX_WRITE (R300). A write of RELAY_OUT_RIDX frees relay-out space for waiting units. -/
  | relayOutRidxWrite (idx : Nat)
  /-- LEASE_RENEW (R271). A write of DISP_LEASE.RENEW that arrives by the expiry tick renews the host lease. -/
  | leaseRenew
  /-- REEVE_FAULT_CLR (R316). A write of REEVE_FAULT_CLR releases the latched causes whose condition has ended. -/
  | reeveFaultClr (session : Option Nat)
  /-- MGMT_FJ_SEL_WRITE (R373). A write of MGMT_FJ_SEL makes firmware place the selected fault-journal entry in the
  data registers within one round. -/
  | mgmtFjSelWrite (n : Nat)
  /-- TRAINING_RUN (R247). A write of HBMC_CH_TRAIN.GO clears the lane error counts and starts a pattern run. -/
  | trainingRun (ch : Nat) (value : Nat)
  /-- TRAINING_RUN_DONE (R247). A pattern run ends with the mismatch counts of every lane. -/
  | trainingRunDone (ch : Nat) (mism : List Nat)
  /-- OPEN (R338). OPEN takes a session slot, forms a pending tag and answers with a device nonce tagged under the
  role key. -/
  | openOp (r : MbReq) (role : Nat) (iface : Nat) (minSvn : Nat) (hwm : Nat) (hostNonce : Nat)
  /-- PROVE (R338). PROVE verifies the host's tag, derives K_s and opens the session. -/
  | prove (r : MbReq)
  /-- CHALLENGE_EXPIRY (R338). A pending challenge expires 1.00 s after OPEN and frees its slot. -/
  | challengeExpiry (slot : Nat)
  /-- CLOSE (R340). CLOSE closes the session and withdraws its unlocks. -/
  | close (r : MbReq)
  /-- PROVISION (R333). PROVISION decapsulates a secret, sets an unset role key, wraps it into flash and returns its
  key check value. -/
  | provision (r : MbReq) (role : Nat) (ct : List Byte)
  /-- ROLE_CLEAR (R333). ROLE_CLEAR returns the TARGET role's key to unset within the session's rights. -/
  | roleClear (r : MbReq) (role : Nat)
  /-- REG_WRITE (R343). REG_WRITE applies up to 335 register writes of guarded pages, one per tick, with command-local
  selectors and staging. -/
  | regWrite (r : MbReq) (count : Nat) (writes : List RegW)
  /-- ADOPT (R341). ADOPT gives the caller every slot of the mask whose owning session is no longer open. -/
  | adopt (r : MbReq) (mask : Nat)
  /-- REEVE_SET (R314). REEVE_SET makes pair A write a Reeve pipeline's configuration. -/
  | reeveSet (r : MbReq) (pipe : Nat) (cfg : Nat) (age : Nat) (period : Nat)
  /-- MODEL_KEY (R344). MODEL_KEY decapsulates and stores a model key under its KEY_ID and returns its key check
  value. -/
  | modelKey (r : MbReq) (keyId : Nat) (ct : List Byte)
  /-- MODEL_KEY_DELETE (R344). MODEL_KEY_DELETE removes a model key that no installed plan names. -/
  | modelKeyDelete (r : MbReq) (keyId : Nat)
  /-- INSTALL (R159). INSTALL reads, decrypts and checks a plan image and reserves its plan-table entry. -/
  | install (r : MbReq) (addr : Nat) (len : Nat) (img : PlanImage)
  /-- INSTALL_COMMIT (R160). Once every check has passed, the plan table, the claims and the Cooper reservations
  change in one tick and the plan is installed. -/
  | installCommit
  /-- UNINSTALL (R163). UNINSTALL makes every later entry naming the plan refused and marks the entry as removing. -/
  | uninstall (r : MbReq) (plan : Nat)
  /-- UNLOCK_STREAM (R348). UNLOCK_STREAM allows ENC_n commits to name the given open slots. -/
  | unlockStream (r : MbReq) (mask : Nat)
  /-- UNLOCK_TENSOR (R348). UNLOCK_TENSOR arms the release of one output of the next count items of a plan. -/
  | unlockTensor (r : MbReq) (plan : Nat) (output : Nat) (count : Nat)
  /-- EMB_READ (R348). EMB_READ returns, sealed, up to 30 embeddings of a slot's live tracks. -/
  | embRead (r : MbReq) (slot : Nat) (first : Nat) (count : Nat)
  /-- LOCK (R348). LOCK withdraws unlocks by slot or by plan. -/
  | lock (r : MbReq) (mask : Nat) (plan : Nat)
  /-- LOCK_ACK (R348). LOCK_ACK acknowledges the present release and lets a waiting release proceed. -/
  | lockAck (r : MbReq)
  /-- ATTEST (R351). ATTEST returns a report signed with the next XMSS leaf. -/
  | attest (r : MbReq) (nonce : Nat)
  /-- GET_CERT (R351). GET_CERT returns the identity certificate. -/
  | getCert (r : MbReq) (part : Nat)
  /-- FW_UPDATE (R364). FW_UPDATE reads, verifies and programs an image into the inactive slot and programs a new boot
  record. -/
  | fwUpdate (r : MbReq) (addr : Nat) (len : Nat) (img : FwImage)
  /-- REPAIR_AUTH (R246). REPAIR_AUTH grants firmware the authorisation that hard repair requires. -/
  | repairAuth (r : MbReq) (ch : Nat) (row : Nat)
  /-- RECOVER (R306). RECOVER leaves the safe state once its cause has gone and enters RECOVERY. -/
  | recover (r : MbReq)
  /-- TEST_MODE (R168). TEST_MODE enters or leaves the TEST phase. -/
  | testMode (r : MbReq) (on : Bool)
  /-- PLACEMENT_EDIT (R421). PLACEMENT_EDIT makes pair A stage and commit a placement-map edit. -/
  | placementEdit (r : MbReq) (edits : List (Nat × Nat))
  /-- JTAG_UNLOCK (R354). JTAG_UNLOCK deletes model keys and plans, closes the other sessions, enters TEST and opens
  the debug instructions. -/
  | jtagUnlock (r : MbReq)
  /-- LOCKSMITH_ZEROISE (R332). An uncorrectable read of Locksmith SRAM clears it and closes every session. -/
  | locksmithZeroise
  /-- KEYS_RELOADED (R332). Pair B unwraps the keys again and ZEROISED clears. -/
  | keysReloaded
  /-- INTAKE_POLL (R35). Every INTAKE_PERIOD ticks intake reads each open slot's producer index, record slots first.
  -/
  | intakePoll
  /-- DESCRIPTOR_READ (R35). Descriptors that arrive are taken in ring order, and copies of their access units start.
  -/
  | descriptorRead (slot : Nat)
  /-- AU_COPY_DONE (R35). A completed copy sets the access unit's arrival Tally and advances the consumer index. -/
  | auCopyDone (slot : Nat)
  /-- PICTURE_DECODE_START (R39). A free decode core, or a gang, takes the ready picture with the lowest arrival
  Tally. -/
  | pictureDecodeStart (claims : Claims)
  /-- DECODE_COMPLETE (R41). A decoded picture is forwarded to shaping at its output-process release, and its PIC
  record is written. -/
  | decodeComplete (core : Nat) (d : Decoded)
  /-- DECODE_BUDGET_EXPIRY (R46). A picture still decoding after B cycles is stopped, abandoned, and the slot skips to
  the next RAP. -/
  | decodeBudgetExpiry (core : Nat)
  /-- FRAME_START (R52). A CSI frame-start pulse stamps S, applies committed windows, and closes a frame that lacked
  its frame end. -/
  | frameStart (port : Nat)
  /-- CSI_PACKET (R52). A CSI-2 packet is checked, and its line is conditioned, replaced or filled. -/
  | csiPacket (port : Nat) (pkt : CsiPkt)
  /-- FRAME_END (R49). A frame-end pulse delivers the full field and the windows, makes the frame's inputs ready and
  writes its PIC record. -/
  | frameEnd (port : Nat)
  /-- FRAME_END_TIMEOUT (R52). Expiry of the frame-end timeout closes the frame and fills its missing lines. -/
  | frameEndTimeout (port : Nat)
  /-- RECORD_ITEM (R53). A CBOR item of a record slot is checked against the schema and passed to the speech front
  end, or skipped. -/
  | recordItem (slot : Nat)
  /-- SCALER_STAGE_START (R59). A scaler stage starts in its reserved window, or when a pooled stage fits before the
  next one. -/
  | scalerStageStart (item : Nat) (stage : Nat)
  /-- SCALER_STAGE_DONE (R60). A scaler stage completes after its exact duration, or later when its data are late. -/
  | scalerStageDone
  /-- SICKLE_STAGE_START (R59). A Sickle stage starts and reads its box list. -/
  | sickleStageStart (unit : Nat) (item : Nat) (stage : Nat)
  /-- SICKLE_GRANULE_READ (R69). A source granule read is issued once a source-buffer entry is free. -/
  | sickleGranuleRead (unit : Nat)
  /-- SICKLE_BOX_START (R69). A box starts once the box before it has ended and its last granule's bound has passed.
  -/
  | sickleBoxStart (unit : Nat)
  /-- SICKLE_BOX_END (R68). A box's crop has been written, its buffer entries are freed and, after the last box, the
  flag array is written. -/
  | sickleBoxEnd (unit : Nat)
  /-- PACK (R71). The packer places samples into rows with mark vectors and a segment table, or refuses the item. -/
  | pack (item : Nat) (stage : Nat) (samples : List PackSrc)
  /-- ENCODER_PICTURE_TAKE (R78). An encoder takes a due source picture into its queue, or skips it. -/
  | encoderPictureTake (enc : Nat) (slot : Nat) (src : Nat)
  /-- ENCODE_SLICE_DONE (R80). A completed slice is emitted in CLIP records when SUBLAT is set. -/
  | encodeSliceDone (enc : Nat)
  /-- ENCODE_PICTURE_DONE (R78). A completed encoded picture is emitted in CLIP records. -/
  | encodePictureDone (enc : Nat)
  /-- LEDGER_POLL (R252). At each multiple of DISP_PERIOD the dispatcher reads the producer index and fetches up to
  256 entries. -/
  | ledgerPoll
  /-- LEDGER_ENTRY_ARRIVAL (R256). A fetched entry is checked at arrival, queued or refused, and the consumer index is
  written back. -/
  | ledgerEntryArrival
  /-- PINNED_LAUNCH_DECISION (R257). At L − 5,200 a pinned item or golden window chooses and reserves its cores,
  requests pre-emption and makes its decision checks. -/
  | pinnedLaunchDecision (item : Nat)
  /-- PINNED_LAUNCH (R258). At L the readiness and late-shape checks are made and the pinned item is launched, or
  refused. -/
  | pinnedLaunch (item : Nat)
  /-- POOLED_PLACEMENT (R259). A pooled head whose conditions hold is placed on the lowest free cores and launched or
  resumed. -/
  | pooledPlacement
  /-- EVICTION (R266). When a head is blocked and every pooled core is blocked at a WAIT, the longest-blocked item is
  evicted. -/
  | eviction
  /-- DEADLINE_REFUSAL (R270). A waiting pooled item that can no longer end by its DEADLINE, or is still not ready at
  it, is refused. -/
  | deadlineRefusal (item : Nat)
  /-- PREEMPTION_ARRIVAL (R261). A pre-emption request reaching a core makes it stop at its next BND, or abandons a
  restore. -/
  | preemptionArrival (core : Nat)
  /-- CONTEXT_SAVE (R263). Carter writes a core's context into its save frame in Carter slots. -/
  | contextSave (core : Nat)
  /-- CONTEXT_SAVE_LANDED (R263). The last byte of the context lands and the core becomes free. -/
  | contextSaveLanded (core : Nat)
  /-- CONTEXT_MOVE (R264). Carter moves a context out of a save frame to the warm or cold store. -/
  | contextMove (ctx : Nat)
  /-- CONTEXT_MOVE_DONE (R264). A context move completes and frees the save frame. -/
  | contextMoveDone (ctx : Nat)
  /-- CONTEXT_RESTORE (R265). Carter restores each rank's context in ascending rank. -/
  | contextRestore (item : Nat)
  /-- CREDIT_RETURN_TIMEOUT (R269). A link credit not returned within 2,600 ticks of a pre-emption request fails the
  item with FAILED_LINK. -/
  | creditReturnTimeout (core : Nat)
  /-- LEASE_EXPIRY (R271). At the expiry tick polling stops, rings and the ledger are disabled, queued entries are
  refused and sessions close. -/
  | leaseExpiry
  /-- AUTONOMOUS_REPEAT (R272). After expiry the dispatcher makes an entry for each item offset of an AUTONOMOUS plan
  each period. -/
  | autonomousRepeat (plan : Nat) (offset : Nat)
  /-- LD (R107). LD moves a Granary region into a bin region. -/
  | ld (core : Nat) (g : GranRef) (d : LdDst) (bytes : Nat) (tok : Toks)
  /-- ST (R107). ST moves a bin region into a Granary region. -/
  | st (core : Nat) (x : BinRef) (g : GranRef) (bytes : Nat) (tok : Toks)
  /-- LDW (R107). LDW loads weights under a tag and marks them resident, or is skipped when the tag matches. -/
  | ldw (core : Nat) (g : GranRef) (x : BinRef) (bytes : Nat) (tag : Nat) (tok : Toks)
  /-- CB (R87). CB loads a codebook into the array. -/
  | cb (core : Nat) (x : BinRef) (tok : Toks)
  /-- MM (R94). MM runs one array operation in its mode and dataflow. -/
  | mm (core : Nat) (op : MMOp) (tok : Toks) (residueErr : Bool)
  /-- RELU (R95). Vector ReLU. -/
  | relu (core : Nat) (fmt : Fmt) (n : Nat) (x : BinRef) (y : BinRef) (tok : Toks)
  /-- CLIP (R95). Vector clip. -/
  | clip (core : Nat) (fmt : Fmt) (n : Nat) (lo : Nat) (hi : Nat) (x : BinRef) (y : BinRef) (tok : Toks)
  /-- REQUANTISE (R122). Requantise converts staged elements with a scale record. -/
  | requantise (core : Nat) (src : Fmt) (n : Nat) (x : BinRef) (scl : BinRef) (y : BinRef) (om : Option OutMap) (tok : Toks)
  /-- TABLE_FUNCTION (R96). A piecewise-linear table function over 64 segments. -/
  | tableFunction (core : Nat) (n : Nat) (p : TabPar) (x : BinRef) (y : BinRef) (tok : Toks)
  /-- MAX_ABS (R119). Max-abs computes the largest magnitude of a staged chunk. -/
  | maxAbs (core : Nat) (fmt : Fmt) (n : Nat) (x : BinRef) (y : BinRef) (tok : Toks)
  /-- SOFTMAX (R97). Softmax over n FP32 inputs in the fixed order. -/
  | softmax (core : Nat) (n : Nat) (src : Fmt) (scale : Nat) (dst : Fmt) (x : BinRef) (y : BinRef) (tok : Toks)
  /-- LAYER_NORMALISATION (R98). Layer normalisation over n FP32 inputs. -/
  | layerNormalisation (core : Nat) (n : Nat) (eps : Nat) (x : BinRef) (gamma : BinRef) (beta : BinRef) (y : BinRef) (tok : Toks)
  /-- BOX_DECODING (R99). Box decoding writes a candidate list from the anchors and detector outputs. -/
  | boxDecoding (core : Nat) (p : BoxPar) (anchors : BinRef) (scores : BinRef) (regs : BinRef) (y : BinRef) (tok : Toks)
  /-- ADD (R95). Element-wise add. -/
  | add (core : Nat) (fmt : Fmt) (psum : Bool) (n : Nat) (x1 : BinRef) (x2 : BinRef) (y : BinRef) (opr : Option Nat) (tok : Toks)
  /-- MULTIPLY (R95). Element-wise multiply. -/
  | multiply (core : Nat) (fmt : Fmt) (n : Nat) (x1 : BinRef) (x2 : BinRef) (y : BinRef) (tok : Toks)
  /-- FUSED_MULTIPLY_ADD (R95). Element-wise fused multiply-add. -/
  | fusedMultiplyAdd (core : Nat) (fmt : Fmt) (n : Nat) (x1 : BinRef) (x2 : BinRef) (x3 : BinRef) (y : BinRef) (opr : Option Nat) (tok : Toks)
  /-- MIN (R95). Element-wise min. -/
  | min (core : Nat) (fmt : Fmt) (n : Nat) (x1 : BinRef) (x2 : BinRef) (y : BinRef) (tok : Toks)
  /-- MAX (R95). Element-wise max, also merging maxima. -/
  | max (core : Nat) (fmt : Fmt) (n : Nat) (x1 : BinRef) (x2 : BinRef) (y : BinRef) (opr : Option Nat) (tok : Toks)
  /-- CONVERT (R116). Format conversion under Table 5-2. -/
  | convert (core : Nat) (src : Fmt) (dst : Fmt) (n : Nat) (x : BinRef) (y : BinRef) (om : Option OutMap) (tok : Toks)
  /-- DERIVE (R120). DERIVE turns a magnitude into a scale record. -/
  | derive (core : Nat) (fmt : Fmt) (sStage : StageScale) (clip : Nat) (int16 : Bool) (x : BinRef) (y : BinRef) (tok : Toks)
  /-- BIASQ (R126). BIASQ forms INT32 biases from FP32 values. -/
  | biasq (core : Nat) (n : Nat) (sa : BinRef) (sw : BinRef) (b : BinRef) (y : BinRef) (tok : Toks)
  /-- REG (R104). REG defines a bin region and resets its pointers. -/
  | reg (core : Nat) (bin : Bin) (r : Nat) (base : Nat) (len : Nat) (circ : Bool) (tok : Toks)
  /-- LOOP (R107). LOOP opens a loop. -/
  | loop (core : Nat) (n : Nat) (strides : List Int) (tok : Toks)
  /-- ENDL (R107). ENDL closes the innermost loop. -/
  | endl (core : Nat) (tok : Toks)
  /-- WAIT (R107). WAIT blocks until a token, a Tally count or a semaphore allows, then decrements the semaphore. -/
  | wait (core : Nat) (w : WaitOn) (tok : Toks)
  /-- SIG (R267). SIG increments a semaphore and ends any inheritance on it. -/
  | sig (core : Nat) (n : Nat) (tok : Toks)
  /-- BND (R108). BND marks a tile boundary at which a pending pre-emption stops the core. -/
  | bnd (core : Nat) (live : List (Bin × Nat)) (tok : Toks)
  /-- END (R107). END ends the item once every engine is idle; its status, hand-offs and JOB record follow. -/
  | endOp (core : Nat) (tok : Toks)
  /-- TRACK_STEP_START (R196). A queued hand-off starts a step: suppression, prediction, and waiting for embeddings
  when EMB is set. -/
  | trackStepStart
  /-- EMB_WAIT_EXPIRY (R188). A step that waits past TRK_EMB_WAIT associates without embeddings and writes EVT
  EMB_LATE. -/
  | embWaitExpiry (slot : Nat)
  /-- TRACK_STEP_END (R196). A step associates, updates filters and lifecycles, emits OBJ and EVT records and commits
  ROI lists. -/
  | trackStepEnd (slot : Nat)
  /-- RECORD_WRITE (R199). The record writer places a record in its ring, its overflow queue or the orphan journal and
  updates the write index. -/
  | recordWrite
  /-- RING_IRQ_TIMER (R202). Expiry of TIMER × 256 ticks after the first unsignalled record sends the message. -/
  | ringIrqTimer (ring : Nat)
  /-- SCRUB_SLOT (R215). In each scrub slot every bank copies for the spare, writes back, reads for write-back or
  patrols. -/
  | scrubSlot (clu : Nat)
  /-- BANK_DRAIN_END (R221). When the in-flight write count reaches 0, the bank switches off. -/
  | bankDrainEnd (clu : Nat) (bank : Nat)
  /-- BANK_ZERO_FILL_DONE (R223). A powered-up bank finishes zero-filling and becomes usable. -/
  | bankZeroFillDone (clu : Nat) (bank : Nat)
  /-- DOMAIN_USABLE (R398). A switched-on domain has settled and been held in reset, and its isolation is released. -/
  | domainUsable (dom : Nat)
  /-- COOPER_ALLOCATION (R226). A buffer request takes a buffer from the first pool of the mask that R225 allows, or
  fails. -/
  | cooperAllocation (owner : Nat) (bytes : Nat) (mask : Nat)
  /-- COOPER_FREE (R229). A free returns a buffer to its pool, or is ignored as a bad free. -/
  | cooperFree (handle : Nat)
  /-- COOPER_REFILL (R227). A pool's cache is refilled with 32 handles from its free ring. -/
  | cooperRefill (pool : Nat)
  /-- LIST_LINK_READ (R228). A list-mode allocation reads the head's link, or marks the pool broken. -/
  | listLinkRead (pool : Nat)
  /-- HBM_REQUEST (R234). A request is admitted to a pseudo-channel queue, or waits for an entry; a channel in power-
  down wakes. -/
  | hbmRequest (req : HbmReq)
  /-- HBM_READ_DATA (R240). Read data return corrected, or as poison; write-back and lateness are recorded. -/
  | hbmReadData (pch : Nat) (id : Nat)
  /-- REFRESH (R241). A per-bank refresh falls due and is issued. -/
  | refresh (pch : Nat)
  /-- STACK_TEMPERATURE_READ (R241). Every 2^20 ticks the stack temperature is read and the refresh rate set. -/
  | stackTemperatureRead (deg : Int)
  /-- HBM_PATROL_READ (R242). A patrol read of one granule per pseudo-channel every INTERVAL ticks. -/
  | hbmPatrolRead (pch : Nat)
  /-- POWER_DOWN_ENTRY (R243). An idle channel enters power-down after TIMER ticks. -/
  | powerDownEntry (ch : Nat)
  /-- REPAIR_DONE (R246). A post-package repair completes and the held requests resume. -/
  | repairDone (ch : Nat) (ok : Bool)
  /-- PROBE (R285). A port sends a hop-latency probe every 2^20 ticks. -/
  | probe (port : Nat)
  /-- PROBE_RECEIVED (R285). A peer stamps a probe and sends its echo. -/
  | probeReceived (port : Nat) (t1 : Nat)
  /-- ECHO_RECEIVED (R285). An echo gives the hop latency H, or FAILED when H exceeds 4,095. -/
  | echoReceived (port : Nat) (t1 : Nat) (t2 : Nat) (t3 : Nat)
  /-- MARKER (R286). An aligned chip sends a marker on every up port every 2^20 ticks. -/
  | marker
  /-- MARKER_RECEIVED (R286). A follower forms Δ and steps its Tally, or fails alignment, or detects a slip. -/
  | markerReceived (port : Nat) (value : Nat)
  /-- MARKER_ABSENT (R302). No marker on the source port for 2^21 ticks. -/
  | markerAbsent
  /-- TIME_IN_EDGE (R288). A TIME_IN edge is stamped, may load the Tally, and is compared with its expected tick. -/
  | timeInEdge
  /-- TIME_IN_ABSENT (R302). No TIME_IN edge for two seconds writes SAF TIME_DRIFT. -/
  | timeInAbsent
  /-- TIME_OUT_START (R289). TIME_OUT goes high in each tick at which Tally mod 1,300,000,000 = 0. -/
  | timeOutStart
  /-- TIME_OUT_END (R289). TIME_OUT falls after 1,300,000 ticks. -/
  | timeOutEnd
  /-- FLIT_RECEIVED (R291). A flit is accepted in line, or NAKed; orphan flits are discarded and credits returned. -/
  | flitReceived (port : Nat) (f : Flit)
  /-- NAK_RECEIVED (R291). A NAK makes the sender replay from that flit, or take the port down after 8 replays. -/
  | nakReceived (port : Nat) (seq : Nat)
  /-- LINK_UP (R293). A retrained port comes up and exchanges chip IDs with its peer, or enters ID_CONFLICT. -/
  | linkUp (port : Nat) (peer : Nat) (peerPort : Nat) (laneErrs : List Nat) (ok : Bool)
  /-- CREDIT_RETURN (R292). A credit return restores a sender's credit for one virtual lane. -/
  | creditReturn (port : Nat) (lane : Nat) (n : Nat)
  /-- TRANSFER_UNIT_START (R297). A fabric transfer unit starts at L + START, or for pooled units at the first free
  tick; relay units go to relay-out. -/
  | transferUnitStart (item : Nat) (entry : Nat)
  /-- UNIT_LANDED (R296). A unit's data land in the receiver's claim. -/
  | unitLanded (item : Nat) (entry : Nat)
  /-- DUE_TICK (R296). At the due tick the receiver signals SEM if the data have landed. -/
  | dueTick (item : Nat) (entry : Nat)
  /-- SLACK_EXPIRY (R296). Data not landed by due tick + SLACK fail the waiting item with FAILED_LINK. -/
  | slackExpiry (item : Nat) (entry : Nat)
  /-- RELAY_UNIT_LANDED (R301). A relayed unit is read and verified, lands and signals SEM, or is discarded on a tag
  failure. -/
  | relayUnitLanded (u : RelayUnit)
  /-- FAULT_REPORT (R308). A report at the fault collector starts the hardware reaction of its class. -/
  | faultReport (f : FaultRep)
  /-- SPARE_RESET_CHECK_DONE (R309). The spare's reset-state check completes, and it is substituted or the cluster
  runs 7 cores. -/
  | spareResetCheckDone (clu : Nat) (ok : Bool)
  /-- PERIOD_BREACH (R314). REEVE_PERIOD ticks without a result raise a period breach. -/
  | periodBreach (pipe : Nat)
  /-- DIVERGENCE (R358). A lockstep mismatch resets its pair and writes MGMT_RESET. -/
  | divergence (pair : Nat)
  /-- WATCHDOG_EXPIRY (R358). A round without a watchdog write resets the pair. -/
  | watchdogExpiry (pair : Nat)
  /-- PAIR_RESTART_DONE (R359). A reset pair is back in service and rebuilds its state. -/
  | pairRestartDone (pair : Nat)
  /-- BOTH_PAIRS_RESET_TIMEOUT (R359). Both pairs in reset for more than 10 ms enters the safe state. -/
  | bothPairsResetTimeout
  /-- FAULT_JOURNAL_WRITE (R373). Buffered SAF records and firmware events are written to the fault journal. -/
  | faultJournalWrite
  /-- DUM_WRITE (R375). Pair A writes a new disabled-unit map after a retirement. -/
  | dumWrite (kind : Nat) (unit : Nat) (sub : Nat) (value : Nat)
  /-- WINNOW_SEGMENT_START (R318). A checker segment starts on an idle unit in a gap. -/
  | winnowSegmentStart (g : SegReq)
  /-- WINNOW_SEGMENT_END (R317). A segment ends passed, or with a finding. -/
  | winnowSegmentEnd (unitKind : Nat) (unit : Nat) (pass_ : Bool)
  /-- TEST_OVERRUN (R319). A segment still running at start + W is stopped, as a finding. -/
  | testOverrun (unitKind : Nat) (unit : Nat)
  /-- GOLDEN_WINDOW_CUTOFF (R320). A golden item not at END when its window ends is cut off. -/
  | goldenWindowCutoff (item : Nat)
  /-- HANDOVER_START (R322). A handover starts copying the weight bin, table store and resident tag to the spare. -/
  | handoverStart (clu : Nat) (core : Nat)
  /-- HANDOVER_SUBSTITUTION (R322). After the copy, the substitution is committed at the first decision at which the
  logical core is idle. -/
  | handoverSubstitution (clu : Nat)
  /-- CORE_TEST_DONE (R322). A core's test ends, and it becomes the warm spare or is retired. -/
  | coreTestDone (core : Nat) (pass_ : Bool) (age : Nat)
  /-- LATENT_OVERDUE (R324). A test not passed within its latent interval raises LATENT_OVERDUE. -/
  | latentOverdue (seg : Nat) (unitKind : Nat) (unit : Nat)
  /-- FLASH_PATROL (R369). Patrol reads flash pages and refreshes weak or old blocks. -/
  | flashPatrol (block : Nat) (page : Nat) (bits : List Nat)
  /-- WEAR_LEVEL_MOVE (R368). An erase-count spread above 2,000 moves the least-worn block's data. -/
  | wearLevelMove (part : Nat)
  /-- THERMAL_CONVERSION (R410). Every 256 CLK_AON cycles the sensors convert and are compared with the thresholds. -/
  | thermalConversion (degs : List Int)
  /-- UNLISTED_COMMAND (R356). A mailbox request whose CMD code is not in Table 14-8 is refused with reason FORMAT. -/
  | unlistedCommand (r : MbReq) (code : Nat)
  /-- FLASH_OPERATION_DONE (R372). A flash read, program or erase issued by pair B completes, after which DONE is
  journalled, a failing block is retired, or a waiting PME_TO_Ack is sent. -/
  | flashOperationDone (ok : Bool)
  /-- PCIE_LINK_UP (R379). PCIe link training completes and the link reaches L0, after which configuration requests
  are answered and BAR 0 serves the SYS and PCIE pages. -/
  | pcieLinkUp (speed : Nat) (width : Nat)
  /-- BUS_MASTER_ENABLE_SET (R382). Setting Bus Master Enable again lets the device issue requests, so held records,
  indices and reads proceed. -/
  | busMasterEnableSet
  /-- PME_STATUS_CLEAR (R393). Host clearing of PME_Status releases WAKE_N and PCIE_POWER.WAKE. -/
  | pmeStatusClear
  /-- SPARE_BANK_COPY_START (R220). Firmware starts copying a failing logical bank to the spare bank, and from then on
  writes to the old bank are mirrored to the spare. -/
  | spareBankCopyStart (clu : Nat) (bank : Nat)
  /-- DEFERRED_DOMAIN_SWITCH_ON (R398). A domain switch-on that waited for the one-per-256-ticks limit closes its
  switch when its turn comes, in ascending domain number. -/
  | deferredDomainSwitchOn
  /-- SELF_REFRESH_EXIT_DONE (R244). 13,000 ticks after SREF is cleared the HBM channels return to service, and held
  requests are served. -/
  | selfRefreshExitDone
  /-- TAP_INSTRUCTION (R354). An IEEE 1149.1 TAP instruction (BYPASS, IDCODE, SAMPLE/PRELOAD, EXTEST, or debug after
  unlock) is accepted or refused on the JTAG pins. -/
  | tapInstruction (ir : TapIr) (dr : List Bool)
  /-- VDD_AON_POWER_LOSS (R402). VDD_AON leaves its range and the whole device, always-on logic included, loses power.
  -/
  | vddAonPowerLoss
  /-- ENTROPY_HEALTH_TEST (R332). The Locksmith entropy source fails its health tests, making OPEN refused with
  NOT_READY, or passes them again, ending that refusal. -/
  | entropyHealthTest (pass_ : Bool)
deriving DecidableEq, Repr

end Sys2Proof
end

