-- ==== Sys2Proof/Decode.lean ====
section
/-!
DEFINITION. Sys2Proof/Decode.lean: the command a word of spec/opcode_table.json spells. The table gives no row any bits (a
command is a register access, a bus message or an event on a pin, not a word), so no word spells one.
-/

namespace Sys2Proof

/-- The command that the table's bits spell: none, since the table gives its rows no bits. -/
def decodeTableWord (_nbits _w : Nat) : Option Instr := none

end Sys2Proof
end

