-- ==== Sys2Proof/Machine/Float.lean ====
section
/-!
DEFINITION. Sys2Proof/Machine/Float.lean: floating-point arithmetic on bit patterns (05_number_formats_and_quantisation.md R114 to
R116; 04_compute_core.md R88, R97, Table 4-7): every operation works on exact values m·2^e and rounds once.
-/

namespace Sys2Proof.Machine

/-- What a FP32 bit pattern stands for: the signed number m·2^e; a zero with its sign; a subnormal stands for zero (R114a). -/
inductive FV where
  | nan
  | inf (neg : Bool)
  | zero (neg : Bool)
  | num (m e : Int)
deriving DecidableEq, Repr

/-- The canonical NaN of FP32. -/
def nan32 : Nat := 0x7FC00000

/-- An infinity and a zero of FP32 by sign. -/
def inf32 (neg : Bool) : Nat := if neg then 0xFF800000 else 0x7F800000
def zero32 (neg : Bool) : Nat := if neg then 0x80000000 else 0

/-- FP32 pattern of a value with the given fields: exponent `e` of the leading bit, 24-bit significand. -/
def pack32 (neg : Bool) (e : Int) (sig : Nat) : Nat :=
  (if neg then 0x80000000 else 0) + (e + 127).toNat * 2 ^ 23 + (sig - 2 ^ 23)

/-- A floating-point pattern with `xb` exponent bits, bias 2^(xb−1) − 1 and `fb` fraction bits, decoded. -/
def decodeF (xb fb v : Nat) : FV :=
  let neg := v.testBit (xb + fb)
  let x := v / 2 ^ fb % 2 ^ xb
  let f := v % 2 ^ fb
  if x = 2 ^ xb - 1 then (if f = 0 then .inf neg else .nan)
  else if x = 0 then .zero neg
  else
    let m : Int := (2 ^ fb + f : Nat)
    .num (if neg then -m else m) ((x : Int) - (2 ^ (xb - 1) - 1 : Nat) - fb)

/-- The value of a FP32, BF16 or FP16 pattern. -/
def of32 (v : Nat) : FV := decodeF 8 23 v
def ofBf (v : Nat) : FV := decodeF 8 7 v
def ofHf (v : Nat) : FV := decodeF 5 10 v

/-- Round |m|·2^e to `p` significant bits, half to even: the exponent of the leading bit and the significand. -/
def roundSig (p : Nat) (m : Nat) (e : Int) : Int × Nat :=
  let l := m.log2
  let sig := if l < p then m * 2 ^ (p - 1 - l) else (rhe m (2 ^ (l + 1 - p))).toNat
  if sig = 2 ^ p then ((l : Int) + e + 1, 2 ^ (p - 1)) else ((l : Int) + e, sig)

/-- Round m·2^e to a format of `p` significant bits, least exponent `lo` and greatest `hi` of the leading bit; `mk` packs. A
magnitude below 2^lo before rounding gives a signed zero, one above the largest finite value after rounding an infinity. -/
def roundF (p : Nat) (lo hi : Int) (zero inf : Bool → Nat) (mk : Bool → Int → Nat → Nat) (m e : Int) : Nat :=
  let neg := decide (m < 0)
  let a := m.natAbs
  if a = 0 then zero neg
  else if (a.log2 : Int) + e < lo then zero neg
  else
    let (x, sig) := roundSig p a e
    if hi < x then inf neg else mk neg x sig

/-- RNE32: the exact value m·2^e rounded to FP32 (R97); `z` is the sign of an exact zero. -/
def rne32 (m e : Int) : Nat := roundF 24 (-126) 127 zero32 inf32 pack32 m e

/-- RNE32 of a decoded value. -/
def FV.to32 : FV → Nat
  | .nan => nan32
  | .inf n => inf32 n
  | .zero n => zero32 n
  | .num m e => rne32 m e

/-- BF16 and FP16 patterns of a value (Table 5-2). -/
def FV.toBf : FV → Nat
  | .nan => 0x7FC0
  | .inf n => if n then 0xFF80 else 0x7F80
  | .zero n => if n then 0x8000 else 0
  | .num m e => roundF 8 (-126) 127 (fun n => if n then 0x8000 else 0) (fun n => if n then 0xFF80 else 0x7F80)
      (fun n x s => (if n then 0x8000 else 0) + (x + 127).toNat * 128 + (s - 128)) m e
def FV.toHf : FV → Nat
  | .nan => 0x7E00
  | .inf n => if n then 0xFC00 else 0x7C00
  | .zero n => if n then 0x8000 else 0
  | .num m e => roundF 11 (-14) 15 (fun n => if n then 0x8000 else 0) (fun n => if n then 0xFC00 else 0x7C00)
      (fun n x s => (if n then 0x8000 else 0) + (x + 15).toNat * 1024 + (s - 1024)) m e

/-- The other sign. -/
def FV.neg : FV → FV
  | .nan => .nan
  | .inf n => .inf (!n)
  | .zero n => .zero (!n)
  | .num m e => .num (-m) e

/-- Exact product of two values. -/
def FV.mul : FV → FV → FV
  | .nan, _ => .nan
  | _, .nan => .nan
  | .inf _, .zero _ => .nan
  | .zero _, .inf _ => .nan
  | .inf a, .inf b => .inf (a != b)
  | .inf a, .num m _ => .inf (a != decide (m < 0))
  | .num m _, .inf b => .inf (b != decide (m < 0))
  | .zero a, .zero b => .zero (a != b)
  | .zero a, .num m _ => .zero (a != decide (m < 0))
  | .num m _, .zero b => .zero (b != decide (m < 0))
  | .num m e, .num n f => .num (m * n) (e + f)

/-- Exact sum of two values; an exact sum of 0 is +0 unless both terms are −0. -/
def FV.add : FV → FV → FV
  | .nan, _ => .nan
  | _, .nan => .nan
  | .inf a, .inf b => if a = b then .inf a else .nan
  | .inf a, _ => .inf a
  | _, .inf b => .inf b
  | .zero a, .zero b => .zero (a && b)
  | .zero _, .num n f => .num n f
  | .num m e, .zero _ => .num m e
  | .num m e, .num n f =>
    let g := if e ≤ f then e else f
    let s := m * 2 ^ (e - g).toNat + n * 2 ^ (f - g).toNat
    if s = 0 then .zero false else .num s g

/-- FP32 operations, each rounded once. -/
def fadd (a b : Nat) : Nat := ((of32 a).add (of32 b)).to32
def fsub (a b : Nat) : Nat := ((of32 a).add (of32 b).neg).to32
def fmul (a b : Nat) : Nat := ((of32 a).mul (of32 b)).to32
def ffma (a b c : Nat) : Nat := (((of32 a).mul (of32 b)).add (of32 c)).to32

/-- Is the value a NaN; is it a NaN or an infinity? -/
def isNan (a : Nat) : Bool := decide (of32 a = .nan)
def nonFinite (a : Nat) : Bool :=
  match of32 a with
  | .nan => true
  | .inf _ => true
  | _ => false

/-- Order of two values that are not NaN: a < b, with −0 before +0. -/
def FV.lt : FV → FV → Bool
  | .inf a, .inf b => a && !b
  | .inf a, _ => a
  | _, .inf b => !b
  | .zero a, .zero b => a && !b
  | .zero _, .num n _ => decide (0 < n)
  | .num m _, .zero _ => decide (m < 0)
  | .num m e, .num n f =>
    let g := if e ≤ f then e else f
    decide (m * 2 ^ (e - g).toNat < n * 2 ^ (f - g).toNat)
  | _, _ => false

/-- Larger and smaller of two; a NaN operand gives the canonical NaN. Subnormals count as zero. -/
def fmax (a b : Nat) : Nat :=
  if isNan a || isNan b then nan32 else if (of32 a).lt (of32 b) then (of32 b).to32 else (of32 a).to32
def fmin (a b : Nat) : Nat :=
  if isNan a || isNan b then nan32 else if (of32 b).lt (of32 a) then (of32 b).to32 else (of32 a).to32

/-- Magnitude; −0 becomes +0, a NaN the canonical NaN. -/
def fabs (a : Nat) : Nat :=
  match of32 a with
  | .nan => nan32
  | v => v.to32 % 2 ^ 31

/-- INT32 to FP32. -/
def ofInt (v : Int) : Nat := if v = 0 then 0 else rne32 v 0

/-- rhe of m·2^e. -/
def rheDy (m e : Int) : Int := if 0 ≤ e then m * 2 ^ e.toNat else rhe m (2 ^ (-e).toNat)

/-- FP32·2^n to an integer: rhe, saturated to `w` bits; NaN gives 0 (Table 5-2). -/
def toInt (w : Nat) (n : Int) (a : Nat) : Int :=
  match of32 a with
  | .nan => 0
  | .inf neg => if neg then -(2 ^ (w - 1) : Nat) else (2 ^ (w - 1) : Nat) - 1
  | .zero _ => 0
  | .num m e => satI w (rheDy m (e + n))

/-- FP32·2^n as an FP32; exact while no limit is passed. -/
def scale32 (n : Int) (a : Nat) : Nat :=
  match of32 a with
  | .num m e => rne32 m (e + n)
  | v => v.to32

/-- A positive rational a/b as m·2^e with a last bit that is set when the quotient was cut: enough for one rounding. -/
def ratio (a b : Nat) : Int × Int :=
  let n := a * 2 ^ 48
  ((2 * (n / b) + (if n % b = 0 then 0 else 1) : Nat), -49)

/-- RNE32(a/b). -/
def rneRatio (a b : Nat) : Nat := rne32 (ratio a b).1 (ratio a b).2

/-- Exponent and fraction fields of a finite, non-zero FP32. -/
def exp32 (a : Nat) : Int := ((a / 2 ^ 23 % 256 : Nat) : Int) - 127
def frac32 (a : Nat) : Nat := a % 2 ^ 23

/-- Reciprocal seed (Table 4-7); a zero, infinite or NaN input gives the IEEE 754 result. The second component says that the
Newton steps pass it unchanged. -/
def recipSeed (d : Nat) : Nat × Bool :=
  match of32 d with
  | .nan => (nan32, true)
  | .inf n => (zero32 n, true)
  | .zero n => (inf32 n, true)
  | .num m _ =>
    let i := frac32 d / 2 ^ 15
    let s := scale32 (-(exp32 d)) (rneRatio 512 (513 + 2 * i))
    (if m < 0 then ((of32 s).neg).to32 else s, false)

/-- The reciprocal of step 4 of R97. -/
def recip (d : Nat) : Nat :=
  let (y0, special) := recipSeed d
  if special then y0
  else
    let two : Nat := 0x40000000
    let y1 := fmul y0 (fsub two (fmul d y0))
    fmul y1 (fsub two (fmul d y1))

/-- RNE32 of the square root of a/b, by an integer square root with a sticky bit. -/
def rneSqrt (a b : Nat) : Nat :=
  let n := a * 2 ^ 100 / b
  let q := isqrt n
  rne32 ((2 * q + (if q * q * b = a * 2 ^ 100 then 0 else 1) : Nat)) (-51)

/-- Reciprocal square root seed (Table 4-7). -/
def rsqrtSeed (v : Nat) : Nat × Bool :=
  match of32 v with
  | .nan => (nan32, true)
  | .inf n => (if n then nan32 else 0, true)
  | .zero n => (inf32 n, true)
  | .num m _ =>
    if m < 0 then (nan32, true)
    else
      let e := exp32 v
      let j := 128 * (e % 2).toNat + frac32 v / 2 ^ 16
      (scale32 (-(e / 2)) (rneSqrt 256 ((257 + 2 * (j % 128)) * 2 ^ (j / 128))), false)

/-- The reciprocal square root of R98. -/
def rsqrt (v : Nat) : Nat :=
  let (z0, special) := rsqrtSeed v
  if special then z0
  else
    let h := fmul 0x3F000000 v
    let c : Nat := 0x3FC00000
    let z1 := fmul z0 (fsub c (fmul (fmul h z0) z0))
    fmul z1 (fsub c (fmul (fmul h z1) z1))

/-- ⌊x^(1/64)⌋ by trial of bits `n − 1` down, above `acc`. -/
def root64From (x : Nat) : Nat → Nat → Nat
  | 0, acc => acc
  | n + 1, acc => if (acc + 2 ^ n) ^ 64 ≤ x then root64From x n (acc + 2 ^ n) else root64From x n acc

/-- T[j] = RNE32(2^(j/64)) for j to 63; T[64] = 2.0 (R97). -/
def expT (j : Nat) : Nat :=
  if j = 0 then 0x3F800000
  else if 64 ≤ j then 0x40000000
  else rne32 (2 * (root64From (2 ^ (j + 64 * 25)) 26 0 : Nat) + 1 : Nat) (-26)

/-- D[j] = T[j+1] − T[j]; D[64] = 0 for a fraction that has rounded to 1. -/
def expD (j : Nat) : Nat := if 64 ≤ j then 0 else fsub (expT (j + 1)) (expT j)

/-- ⌊t⌋ of a finite FP32. -/
def floorF (a : Nat) : Int :=
  match of32 a with
  | .num m e => if 0 ≤ e then m * 2 ^ e.toNat else m / (2 ^ (-e).toNat : Nat)
  | _ => 0

end Sys2Proof.Machine
end

