-- ==== Sys2Proof/Machine/Protect.lean ====
section
/-!
DEFINITION. Sys2Proof/Machine/Protect.lean: the (144,128) protection code (09_memory_system.md R212, R213) and protected
memories. A memory holds its bytes and, for each 16-byte codeword, the pattern of bits inverted against their encoding; a
pattern decodes by its syndrome alone, since the code is linear.
-/

namespace Sys2Proof.Machine

/-- Multiplication by α in GF(16) under x⁴ + x + 1. -/
def gfx (a : Nat) : Nat := if a ≥ 8 then ((a * 2) % 16).xor 3 else a * 2

/-- Product in GF(16) (R212). -/
def gmul (a b : Nat) : Nat :=
  let t0 := if b.testBit 0 then a else 0
  let t1 := if b.testBit 1 then gfx a else 0
  let t2 := if b.testBit 2 then gfx (gfx a) else 0
  let t3 := if b.testBit 3 then gfx (gfx (gfx a)) else 0
  ((t0.xor t1).xor t2).xor t3

/-- A vector of four GF(16) elements: a column of the check matrix or a syndrome. -/
structure Col where
  c0 : Nat
  c1 : Nat
  c2 : Nat
  c3 : Nat
deriving DecidableEq, Repr

/-- The sum of two vectors. -/
def Col.add (a b : Col) : Col := ⟨a.c0.xor b.c0, a.c1.xor b.c1, a.c2.xor b.c2, a.c3.xor b.c3⟩

/-- A vector times an element. -/
def Col.scale (s : Nat) (a : Col) : Col := ⟨gmul s a.c0, gmul s a.c1, gmul s a.c2, gmul s a.c3⟩

/-- Column h_i of the check matrix (R212). -/
def hcol (i : Nat) : Col :=
  if i < 32 then
    let x := i % 16
    let y := if i < 16 then 2 else 4
    ⟨1, x, y, ((gmul x x).xor (gmul x y)).xor (gmul 8 (gmul y y))⟩
  else if i = 32 then ⟨1, 0, 0, 0⟩
  else if i = 33 then ⟨1, 1, 0, 1⟩
  else if i = 34 then ⟨1, 0, 1, 8⟩
  else ⟨0, 0, 0, 1⟩

/-- Symbol `i` of a 144-bit word. -/
def symOf (w i : Nat) : Nat := w / 16 ^ i % 16

/-- Σ s_i·h_i over symbols 0 to `n - 1`. -/
def symSum (w : Nat) : Nat → Col
  | 0 => ⟨0, 0, 0, 0⟩
  | n + 1 => (symSum w n).add ((hcol n).scale (symOf w n))

/-- The syndrome of a 144-bit word (R213). -/
def syndrome (w : Nat) : Col := symSum w 36

/-- The check field [143:128] of 128 data bits (R213). -/
def checkField (d : Nat) : Nat :=
  let D := symSum (d % 2 ^ 128) 32
  let s32 := (D.c0.xor D.c1).xor D.c2
  let s35 := (D.c3.xor D.c1).xor (gmul 8 D.c2)
  s32 + 16 * D.c1 + 256 * D.c2 + 4096 * s35

/-- The 144-bit encoding of 128 data bits. -/
def encode144 (d : Nat) : Nat := d % 2 ^ 128 + 2 ^ 128 * checkField d

/-- The pattern of a word written as poison: bits 128 and 132 inverted (R213). -/
def poisonPattern : Nat := 2 ^ 128 + 2 ^ 132

/-- Mark beside the pattern of a word that a decode core wrote as poison: above the 144 bits, no bit of the word (R11 note (a)). -/
def decodeMark : Nat := 2 ^ 144

/-- How a word decodes (R213): good, corrected in one symbol, poison, or uncorrectable. -/
inductive Dec where
  | good
  | corrected (sym val : Nat)
  | poison
  | uncorrectable
deriving DecidableEq, Repr

/-- The decoding rules of R213, in order, on a syndrome. -/
def decodeSyn (s : Col) : Dec :=
  if s = ⟨0, 0, 0, 0⟩ then .good
  else if s.c0 ≠ 0 then
    match (upto 35).find? (fun j => decide ((hcol j).scale s.c0 = s)) with
    | some j => .corrected j s.c0
    | none => .uncorrectable
  else if s.c1 = 0 ∧ s.c2 = 0 then .corrected 35 s.c3
  else if s = ⟨0, 1, 0, 1⟩ then .poison
  else .uncorrectable

/-- How a codeword with error pattern `e` decodes. -/
def decodePat (e : Nat) : Dec := if e = 0 then .good else decodeSyn (syndrome e)

/-- The pattern that remains after decoding: what the delivered data bits differ by. -/
def residual (e : Nat) : Nat :=
  match decodePat e with
  | .corrected j v => e.xor (v * 16 ^ j)
  | _ => e

/-- A codeword that is not delivered as data: poison or uncorrectable. -/
def badPat (e : Nat) : Bool :=
  match decodePat e with
  | .poison => true
  | .uncorrectable => true
  | _ => false

/-- ERR_LAST_SYNDROME (layout of the CLU_n pages): the four syndrome symbols in [15:0] and the corrected symbol in [21:16],
63 when none was corrected. -/
def synField (e : Nat) : Nat :=
  let s := syndrome e
  let j := match decodePat e with
    | .corrected j _ => j
    | _ => 63
  s.c0 + 16 * s.c1 + 256 * s.c2 + 4096 * s.c3 + 65536 * j

/-- The error pattern of codeword `w`. -/
def Mem.pat (m : Mem) (w : Nat) : Nat := tget 0 m.err w

/-- The byte delivered at address `a`: the stored byte with what decoding leaves of the error pattern. -/
def Mem.byte (m : Mem) (a : Nat) : Byte :=
  let b := tget 0 m.data a
  let e := m.pat (a / 16)
  if e = 0 then b else b ^^^ BitVec.ofNat 8 (residual e / 256 ^ (a % 16))

/-- The bytes delivered at `n` addresses. -/
def Mem.read (m : Mem) (a n : Nat) : List Byte := (rangeFrom a n).map m.byte

/-- Codewords touched by `n` bytes at `a`. -/
def wordsOf (a n : Nat) : List Nat := if n = 0 then [] else rangeFrom (a / 16) ((a + n - 1) / 16 + 1 - a / 16)

/-- Which of the codewords touched are bad. -/
def Mem.badWords (m : Mem) (a n : Nat) : List Bool := (wordsOf a n).map (fun w => badPat (m.pat w))

/-- What reading the codewords meets (R213, R216). -/
def Mem.info (m : Mem) (a n : Nat) : ReadInfo :=
  (wordsOf a n).foldl (fun r w =>
    let e := m.pat w
    match decodePat e with
    | .good => r
    | .corrected _ _ => { r with ce := r.ce + 1, lastAddr := some (16 * w), lastSyn := synField e }
    | .poison => { r with poison := r.poison + 1, decPoison := if r.ue + r.poison = 0 then e.testBit 144 else r.decPoison }
    | .uncorrectable => { r with ue := r.ue + 1, lastAddr := some (16 * w), lastSyn := synField e }) {}

/-- Write bytes: data stand, and each codeword touched holds a good word. -/
def Mem.write (m : Mem) (a : Nat) (b : List Byte) : Mem :=
  { data := tsetList 0 m.data a b, err := (wordsOf a b.length).foldl (fun t w => tset 0 t w 0) m.err }

/-- Store codewords as poison. -/
def Mem.poison (m : Mem) (a n : Nat) : Mem :=
  { m with err := (wordsOf a n).foldl (fun t w => tset 0 t w poisonPattern) m.err }

/-- Store codewords as poison that a decode core wrote. -/
def Mem.decPoison (m : Mem) (a n : Nat) : Mem :=
  { m with err := (wordsOf a n).foldl (fun t w => tset 0 t w (poisonPattern + decodeMark)) m.err }

/-- Invert bits of codeword `w` (a fault in the memory). -/
def Mem.flip (m : Mem) (w e : Nat) : Mem := { m with err := tset 0 m.err w ((m.pat w).xor e) }

/-- Write delivered bytes with their bad codewords as poison: a copy between 16-byte-aligned places. -/
def Mem.copyIn (m : Mem) (a : Nat) (b : List Byte) (bad : List Bool) : Mem :=
  (enumFrom 0 bad).foldl (fun t wb => if wb.2 then t.poison (a + 16 * wb.1) 16 else t) (m.write a b)

/-- Corrected codewords are written back; the others keep what they hold (R214, R215). -/
def Mem.writeBack (m : Mem) (a n : Nat) : Mem :=
  (wordsOf a n).foldl (fun t w =>
    match decodePat (t.pat w) with
    | .corrected _ _ => t.write (16 * w) (t.read (16 * w) 16)
    | _ => t) m

/-- The canonical form of a memory: bytes and patterns each in canonical form. -/
def Mem.wf (m : Mem) : Bool := twf 0 m.data && twf 0 m.err

/-- Does the report name data an item may not consume? -/
def ReadInfo.bad (r : ReadInfo) : Bool := decide (r.ue > 0) || decide (r.poison > 0) || r.dark

/-- Two read reports together. -/
def ReadInfo.join (a b : ReadInfo) : ReadInfo :=
  { ce := a.ce + b.ce, ue := a.ue + b.ue, poison := a.poison + b.poison, decPoison := a.decPoison || b.decPoison,
    dark := a.dark || b.dark, unwritten := a.unwritten + b.unwritten,
    lastAddr := b.lastAddr.or a.lastAddr, lastSyn := if b.lastAddr.isSome then b.lastSyn else a.lastSyn, gran := b.gran.or a.gran,
    hbm := b.hbm.or a.hbm }


end Sys2Proof.Machine
end

