-- ==== Sys2Proof/Machine/Pictures.lean ====
section
/-!
DEFINITION. Sys2Proof/Machine/Pictures.lean: sample planes and the picture formats of Table 2-9 as they lie in memory; the
picture a decode core writes: chroma reduced to 4:2:0 and missing areas concealed (02_streams_and_decoding.md R38, R43, R44).
-/

namespace Sys2Proof.Machine

/-! ## Planes -/

/-- A plane or a raw frame: lines of sample values. -/
abbrev Plane := List (List Nat)

/-- Sample at row `r`, column `c`. -/
def Plane.at (p : Plane) (r c : Nat) : Nat := nth 0 (nth [] p r) c

/-- A plane of `w` by `h` samples from a function. -/
def planeOf (w h : Nat) (f : Nat → Nat → Nat) : Plane := (upto h).map (fun r => (upto w).map (fun c => f r c))

/-! ## Formats (Table 2-9 FORMAT; log entry 29) -/

/-- A plane as it lies in memory: byte offset, bytes in a row, bytes of a sample position (two samples where planes are
interleaved), width, height. -/
structure MemPlane where
  off : Nat
  stride : Nat
  step : Nat
  w : Nat
  h : Nat
deriving DecidableEq, Repr

/-- A sample plane: its samples, the memory plane it lies in, and the axes on which it is subsampled by 2. -/
structure SPlane where
  px : Plane
  mem : Nat
  w : Nat
  h : Nat
  subX : Bool := false
  subY : Bool := false

/-- Memory planes of a picture: 0 NV12, 1 P010, 2 Y8, 3 planar RGB8, 4 NV16. -/
def memPlanes (fmt w h : Nat) : List MemPlane :=
  let cw := cdiv w 2
  match fmt with
  | 0 => [⟨0, w, 1, w, h⟩, ⟨w * h, 2 * cw, 2, cw, cdiv h 2⟩]
  | 1 => [⟨0, 2 * w, 2, w, h⟩, ⟨2 * w * h, 4 * cw, 4, cw, cdiv h 2⟩]
  | 2 => [⟨0, w, 1, w, h⟩]
  | 3 => [⟨0, w, 1, w, h⟩, ⟨w * h, w, 1, w, h⟩, ⟨2 * w * h, w, 1, w, h⟩]
  | _ => [⟨0, w, 1, w, h⟩, ⟨w * h, 2 * cw, 2, cw, h⟩]

/-- Bytes of a picture. -/
def picSize (fmt w h : Nat) : Nat := maxOf ((memPlanes fmt w h).map (fun m => m.off + m.stride * m.h))

/-- Bits of a sample. -/
def fmtBits (fmt : Nat) : Nat := if fmt = 1 then 10 else 8

/-- Cut a list in rows of `n`. -/
def rowsOf {α : Type} (n : Nat) : Nat → List α → List (List α)
  | 0, _ => []
  | k + 1, l => l.take n :: rowsOf n k (l.drop n)

/-- Samples of memory plane `m` of `z` bytes each, the `i`-th of those that stand together. P010 keeps its 10 bits on top. -/
def planeSamples (b : List Byte) (m : MemPlane) (z i : Nat) : Plane :=
  (rowsOf m.stride m.h (b.drop m.off)).map (fun r =>
    (rowsOf m.step m.w r).map (fun e => unle ((e.drop (z * i)).take z) / (if z = 2 then 64 else 1)))

/-- The sample planes of a picture's bytes. -/
def samplePlanes (fmt w h : Nat) (b : List Byte) : List SPlane :=
  let z := if fmt = 1 then 2 else 1
  match fmt, memPlanes fmt w h with
  | 3, ms => (enumFrom 0 ms).map (fun m => { px := planeSamples b m.2 1 0, mem := m.1, w := w, h := h })
  | _, [m] => [{ px := planeSamples b m z 0, mem := 0, w := w, h := h }]
  | f, [m, c] =>
    let cp (i : Nat) : SPlane := { px := planeSamples b c z i, mem := 1, w := c.w, h := c.h, subX := true, subY := decide (f ≠ 4) }
    [{ px := planeSamples b m z 0, mem := 0, w := w, h := h }, cp 0, cp 1]
  | _, _ => []

/-! ## Decoded pictures (R38, R43, R44) -/

/-- Mean of 2 samples with round-half-up. -/
def mean2 (a b : Nat) : Nat := (a + b + 1) / 2

/-- A plane halved in height, and in width: each group of 2 samples is averaged, the last sample standing for one beyond it. -/
def halfRows (w h : Nat) (p : Plane) : Plane :=
  planeOf w (cdiv h 2) (fun r c => mean2 (p.at (2 * r) c) (p.at (if 2 * r + 1 < h then 2 * r + 1 else 2 * r) c))
def halfCols (w h : Nat) (p : Plane) : Plane :=
  planeOf (cdiv w 2) h (fun r c => mean2 (p.at r (2 * c)) (p.at r (if 2 * c + 1 < w then 2 * c + 1 else 2 * c)))

/-- Mid-value of a sample: 128 in NV12, 512 in P010. -/
def midGrey (hibit : Bool) : Nat := if hibit then 512 else 128

/-- A chroma plane of a `w` by `h` picture reduced to 4:2:0. 4:4:4 is averaged in pairs along rows, then in pairs of rows (log
entry 118). -/
def Chroma.to420 (k : Chroma) (hibit : Bool) (w h : Nat) (p : Plane) : Plane :=
  match k with
  | .c400 => planeOf (cdiv w 2) (cdiv h 2) (fun _ _ => midGrey hibit)
  | .c420 => p
  | .c422 => halfRows (cdiv w 2) h p
  | .c444 => halfRows (cdiv w 2) h (halfCols w h p)

/-- Does the luma sample at row `r`, column `c` lie in a missing area? -/
def lacks (l : List Win) (r c : Nat) : Bool :=
  l.any (fun m => decide (m.x ≤ c) && decide (c < m.x + m.w) && decide (m.y ≤ r) && decide (r < m.y + m.h))

/-- Luma samples of a `w` by `h` picture that lie in missing areas. -/
def lackCount (l : List Win) (w h : Nat) : Nat :=
  sumN ((upto h).map (fun r => ((upto w).filter (fun c => lacks l r c)).length))

/-- A plane of a picture with its missing areas copied from the co-located area of the reference, or filled with mid-grey where
there is none; `k` luma samples stand for one of the plane on each axis. -/
def concealPlane (l : List Win) (k mid w h : Nat) (ref : Option Plane) (p : Plane) : Plane :=
  planeOf w h (fun r c =>
    if lacks l (k * r) (k * c) then
      match ref with
      | some q => q.at r c
      | none => mid
    else p.at r c)

/-- Bytes of a sample: one, or two with the 10 bits on top (P010). -/
def sampleBytes (hibit : Bool) (v : Nat) : List Byte := if hibit then le 2 (64 * v) else le 1 v

/-- The bytes of a picture: NV12, or P010 for a 10-bit stream: the luma plane, then the chroma samples interleaved. -/
def yuvBytes (hibit : Bool) (y u v : Plane) : List Byte :=
  y.flatten.flatMap (sampleBytes hibit) ++
    (u.flatten.zip v.flatten).flatMap (fun e => sampleBytes hibit e.1 ++ sampleBytes hibit e.2)

/-- The missing areas of a picture: all of it when the read of its access unit failed. -/
def Decoded.lost (d : Decoded) (readFailed : Bool) (w h : Nat) : List Win := if readFailed then [⟨0, 0, w, h⟩] else d.missing ++ d.broken

/-- The bytes of a decoded picture of `w` by `h` samples, given the planes of its first reference picture. -/
def Decoded.bytes (d : Decoded) (readFailed hibit : Bool) (w h : Nat) (ref : Option (List Plane)) : List Byte :=
  let l := d.lost readFailed w h
  let mid := midGrey hibit
  let at_ (i : Nat) : Option Plane := ref.map (fun ps => nth [] ps i)
  yuvBytes hibit (concealPlane l 1 mid w h (at_ 0) d.y)
    (concealPlane l 2 mid (cdiv w 2) (cdiv h 2) (at_ 1) (d.chroma.to420 hibit w h d.u))
    (concealPlane l 2 mid (cdiv w 2) (cdiv h 2) (at_ 2) (d.chroma.to420 hibit w h d.v))

end Sys2Proof.Machine
end

