-- ==== Sys2Proof/Config.lean ====
section
/-!
DEFINITION. Sys2Proof/Config.lean: what the spec leaves to a named standard, to the part, or open. Every constant here is
opaque: nothing can evaluate it, and a claim about the model holds whatever it is. The cryptographic functions are those
of the standards 14_security_and_sessions.md R331 names (log entry 11); a free value stands for a value the spec does not
state (log entry 6).
-/

namespace Sys2Proof.Config

open Sys2Proof.Machine

/-- A free value: what the spec leaves undefined or unstated, indexed by the counter `State.freeCtr` (log entry 6). -/
opaque freeValue : Nat → Nat

/-- KMAC256(key, data, output bits, customisation string) of NIST SP 800-185, as a number (R331). -/
opaque kmac256 : Nat → List Byte → Nat → String → Nat

/-- SHAKE256 of a byte string, with its output length in bits (R349, R351). -/
opaque shake256 : List Byte → Nat → Nat

/-- SHAKE256 over an installed plan image (R351, PLAN_DIGEST). -/
opaque planDigest : PlanImage → Nat

/-- The device root K_dev of this part (R331). -/
opaque deviceRoot : Nat

/-- The Service role key set at production (R333). -/
opaque serviceKey : Nat

/-- ML-KEM-1024 decapsulation under the device's key pair: a ciphertext gives a secret, and never fails (R333). -/
opaque mlkemDecap : Nat → List Byte → Nat

/-- AES-256-GCM: the ciphertext of key, IV, additional data and plaintext (R335, R300). -/
opaque gcmSeal : Nat → Nat → List Byte → List Byte → List Byte

/-- The payload bytes of a mailbox request, by command code and fields, where 14 gives the fields and no layout (log entry 15). -/
opaque mbPayload : Nat → List Nat → List Byte

/-- The payload bytes of a mailbox response, by command code and fields, where 14 gives the fields and no layout. -/
opaque mbReply : Nat → List Nat → List Byte

/-- SHAKE256 over every committed RWS field in page-base and offset order (14 Table 14-10 CFG_DIGEST): a function of the live
values that differ from their reset values. -/
opaque cfgDigest : List (Nat × Nat) → Nat

/-- The 32-byte header of a release in the evidence window: release number, plan ID, SEQ, bytes and GCM tag (14 R348 names the
fields and gives no layout). -/
opaque windowHeader : Nat → Nat → Nat → Nat → Nat → List Byte

/-- The 32-byte header of a relayed unit: SRC_CHIP, DST_CHIP, plan ID, launch Tally, entry index, BYTES (12 R300 names the fields
and gives no layout). -/
opaque relayHeader : Nat → Nat → Nat → Nat → Nat → Nat → List Byte

/-- Dword `j` of the header of the TLP that error `n` of those reported under AER was found in (16 R384): no command carries it. -/
opaque tlpHeader : Nat → Nat → Nat

/-- AES-256-GCM: the plaintext of key, IV, additional data and ciphertext. -/
opaque gcmOpen : Nat → Nat → List Byte → List Byte → List Byte

/-- AES-256-GCM: the tag of key, IV, additional data and ciphertext. -/
opaque gcmTag : Nat → Nat → List Byte → List Byte → Nat

/-- The GCM tag of a plan image under a model key (R345), over the image with its TAG field taken as 0. -/
opaque planTag : Nat → PlanImage → Nat

/-- The XMSS-SHAKE256_20_256 signature of the identity key, by leaf index, over a message (R351). -/
opaque xmssSign : Nat → List Byte → List Byte

/-- The identity certificate written at production, and its two public keys (R351). -/
opaque certificate : List Byte

/-- SHAKE256 of the XMSS public key and the ML-KEM public key, 256 bits (Table 14-10 DEVICE_ID). -/
opaque deviceId : Nat

/-- Slice `k` of the newest of a sequence of pictures as an encode core codes it (03 R76, R82): by the firmware version, and for each
picture since the encoder started the committed ENC fields and flags it is coded with and its input samples (log entry 13). -/
opaque encSlice : Nat → List (List Nat × List Byte) → Nat → List Byte

/-- Spare rows of each bank of the stack (10 R246: its mode registers report how many remain). -/
opaque spareRowsPerBank : Nat

/-- Windows of the box list that the track engine writes for a compressed slot: the most boxes and the margin in sixteenths.
R70 applies the window rule of R51, whose two fields stand on CSI pages only (log entry 22). -/
opaque roiListCount : Nat
opaque roiListMargin : Nat

end Sys2Proof.Config
end

