-- ==== Sys2Proof/Machine/State.lean ====
section
/-!
DEFINITION. Sys2Proof/Machine/State.lean: everything the spec gives the device, as plain data, with the queue of waiting
commands; the reasons a step can stop; and the state after reset.
-/

namespace Sys2Proof.Machine

/-- A pending snapshot of one writer's shadows on one page (18_register_map.md R417): the selector value its scope has, the
tag of the session that commits (0 for none), the tick it was taken, and the key and stored value of every staged field. -/
structure Snap where
  page : Nat
  fw : Bool
  sel : Nat
  session : Nat
  at_ : Nat
  vals : List (Nat × Nat)
deriving DecidableEq, Repr

/-- The register file (00_scope.md R7 and R9, 18_register_map.md R417): live values and shadows by field key, each held as
its difference from the field's reset value, so that a file at reset lists nothing; the holding copies of `_HI` halves; and
the pending snapshots. -/
structure RegFile where
  live : Tbl Nat := []
  shadow : Tbl Nat := []
  hold : Tbl Nat := []
  snaps : List Snap := []
deriving DecidableEq, Repr

/-- Streams (02_streams_and_decoding.md, 03_shaping_and_encoding.md): slots 0 to 75, the picture objects and box lists that
bindings name, decode cores, CSI-2 ports, record slots (by number 0 to 3) and encode cores. -/
structure StreamS where
  slots : Tbl SlotS := []
  pics : List Pic := []
  lists : List BoxList := []
  decs : Tbl DecS := []
  csi : Tbl CsiS := []
  recs : Tbl RecS := []
  encs : Tbl EncS := []
deriving DecidableEq, Repr

/-- Records on their way out (08_tracking_and_metadata.md R199 to R202): those not yet placed, and the rings. The orphan
journal (11 R273) stands in HBM, its indices in DISP_JOURNAL_WIDX and DISP_JOURNAL_RIDX. -/
structure OutS where
  recq : List Rec := []
  rings : Tbl RingS := []
deriving DecidableEq, Repr

/-- The state of the device. -/
structure State where
  /-- Commands waiting, first in, first out: the model's own queue. -/
  pending : List Instr := []
  /-- The Tally (12_determinism_and_fabric.md R283). -/
  tally : Tally := 0
  /-- The Tally counts: the base domain runs (17_power_clocks_and_reset.md R403). -/
  tallyRun : Bool := false
  /-- The model's own counter that indexes free values (log entry 6); no register of the device. -/
  freeCtr : Nat := 0
  /-- The part's grade: true for LK6424-SC (18_register_map.md SYS_STATUS.GRADE). -/
  gradeSC : Bool := false
  /-- The part's serial number (SYS_SERIAL). -/
  serial : Nat := 0
  rf : RegFile := {}
  power : PowerS := {}
  pcie : PcieS := {}
  strm : StreamS := {}
  shape : ShapeS := {}
  disp : DispS := {}
  plans : Tbl PlanS := []
  claims : List GranClaim := []
  ctxs : Tbl Ctx := []
  ctxCores : Tbl CoreS := []
  sems : Tbl Sem := []
  cores : Tbl CoreS := []
  clus : Tbl CluS := []
  hbm : HbmS := {}
  pools : Tbl PoolS := []
  trk : TrkS := {}
  out : OutS := {}
  reeve : Tbl ReeveP := []
  faults : FaultS := {}
  winnow : WinS := {}
  sec : SecS := {}
  mgmt : MgmtS := {}
  flash : FlashS := {}
  fab : FabS := {}
deriving DecidableEq, Repr

/-- Reasons the machine stops with a fault. There are none: the spec describes what the device does in every error case, and
every error case ends in a next state. -/
inductive Fault where
deriving DecidableEq, Repr

/-- Reasons a command has no meaning in the model. -/
inductive Refusal where
  /-- Raised by the dispatch table for a command whose meaning is not written yet. Safe: the machine stops. -/
  | notModelled (mnemonic : String)
  /-- Raised by TAP_INSTRUCTION for a debug instruction after JTAG_UNLOCK: 14_security_and_sessions.md R354 opens the debug
  instructions and says nothing of what they do. Safe: the machine stops where the hardware goes on. -/
  | debugInstruction
deriving DecidableEq, Repr

/-- The outcome type of every meaning. -/
abbrev Out := Host.Outcome State Fault Refusal

/-- The device after reset: VDD_AON has come up (17_power_clocks_and_reset.md R409) and PERST_N is still asserted (R401), so
the Tally does not count and every register holds its reset value. The Service key was set at production (14 R333). -/
def State.reset : State :=
  { sec := { roleKeys := [(4, some Config.serviceKey)], flashRole := [(4, some Config.serviceKey)] } }

end Sys2Proof.Machine
end

