-- ==== Sys2Proof/Machine/Ops.lean ====
section
/-!
DEFINITION. Sys2Proof/Machine/Ops.lean: the operations every command is written over: reading and writing register fields,
counters, 64-bit pairs, free values, the page map, interrupt causes and the event summary, MSI-X, writes to host memory
through the egress filter, FAULT_N.
-/

namespace Sys2Proof.Machine

/-! ## Time and liveness -/

/-- The present tick (12_determinism_and_fabric.md R283). -/
def State.now (s : State) : Nat := s.tally.toNat

/-- The base domain runs: VDD_AON in range, PERST_N released, no clock-loss hold (17 R402, R408, R409). -/
def State.live (s : State) : Bool := s.power.vddAon && !s.power.perst && !s.power.clkHold

/-- A meaning that acts only while the base domain runs; in reset a command reaches nothing (log entry 2). -/
def whenLive (s : State) (f : State → State) : State := if s.live then f s else s

/-- A command's effect only when its condition holds (log entry 2). -/
def guardOn (c : Bool) (s : State) (f : State → State) : State := if c then f s else s

/-- The next free value and the state with the counter advanced (log entry 6). -/
def fresh (s : State) : Nat × State := (Config.freeValue s.freeCtr, { s with freeCtr := s.freeCtr + 1 })

/-! ## Register fields -/

/-- Live value of a field: instance, selector value, array element. -/
def getF (s : State) (f : Fld) (inst sel idx : Nat) : Nat :=
  (tget 0 s.rf.live (f.key inst sel idx)).xor (f.reset inst idx)

/-- Shadow of a staged field (00_scope.md R9). -/
def getSh (s : State) (f : Fld) (inst sel idx : Nat) : Nat :=
  (tget 0 s.rf.shadow (f.key inst sel idx)).xor (f.reset inst idx)

/-- What the register file stores for value `v` of a field: its difference from the reset value, cut to the field's width. -/
def Fld.code (f : Fld) (inst idx v : Nat) : Nat := (v % 2 ^ f.width).xor (f.reset inst idx)

/-- The state with a field's live value replaced; bits beyond the field's width are dropped, so that every counter wraps. -/
def putF (s : State) (f : Fld) (inst sel idx v : Nat) : State :=
  { s with rf := { s.rf with live := tset 0 s.rf.live (f.key inst sel idx) (f.code inst idx v) } }

/-- The state with a staged field's shadow replaced. -/
def putSh (s : State) (f : Fld) (inst sel idx v : Nat) : State :=
  { s with rf := { s.rf with shadow := tset 0 s.rf.shadow (f.key inst sel idx) (f.code inst idx v) } }

/-- A change by the device of a field that software may also stage: live value and shadow together. -/
def putBoth (s : State) (f : Fld) (inst sel idx v : Nat) : State := putSh (putF s f inst sel idx v) f inst sel idx v

/-- Live value of a field of a single page without selector. -/
def reg (s : State) (f : Fld) : Nat := getF s f 0 0 0

/-- Live value on page instance `i`. -/
def regI (s : State) (f : Fld) (i : Nat) : Nat := getF s f i 0 0

/-- Live value behind selector value `n`. -/
def regS (s : State) (f : Fld) (n : Nat) : Nat := getF s f 0 n 0

/-- Live value of array element `k`. -/
def regX (s : State) (f : Fld) (k : Nat) : Nat := getF s f 0 0 k

/-- Is a one-bit field of a single page set? -/
def flag (s : State) (f : Fld) : Bool := reg s f ≠ 0

/-- The state with a field of a single page replaced. -/
def setR (s : State) (f : Fld) (v : Nat) : State := putF s f 0 0 0 v

/-- The state with a field of page instance `i` replaced. -/
def setI (s : State) (f : Fld) (i v : Nat) : State := putF s f i 0 0 v

/-- The state with the field behind selector value `n` replaced. -/
def setS (s : State) (f : Fld) (n v : Nat) : State := putF s f 0 n 0 v

/-- The state with array element `k` replaced. -/
def setX (s : State) (f : Fld) (k v : Nat) : State := putF s f 0 0 k v

/-- A counter of a single page raised by `n`, wrapping at its width. -/
def addR (s : State) (f : Fld) (n : Nat) : State := setR s f (reg s f + n)

/-- A counter of page instance `i` raised by `n`. -/
def addI (s : State) (f : Fld) (i n : Nat) : State := setI s f i (regI s f i + n)

/-- A counter behind selector value `n` raised by `k`. -/
def addS (s : State) (f : Fld) (n k : Nat) : State := setS s f n (regS s f n + k)

/-- A counter of array element `k` raised by `n`. -/
def addX (s : State) (f : Fld) (k n : Nat) : State := setX s f k (regX s f k + n)

/-- The 64-bit value of a `_LO`/`_HI` pair (00_scope.md R7). -/
def pairI (s : State) (lo hi : Fld) (i : Nat) : Nat := regI s lo i + 2 ^ 32 * regI s hi i

/-- The 64-bit value of a pair behind a selector value. -/
def pairS (s : State) (lo hi : Fld) (n : Nat) : Nat := regS s lo n + 2 ^ 32 * regS s hi n

/-- The state with a 64-bit pair replaced. -/
def setPairI (s : State) (lo hi : Fld) (i v : Nat) : State := setI (setI s lo i v) hi i (v / 2 ^ 32)

/-- A 64-bit counter raised by `n`, wrapping at 2^64. -/
def addPairI (s : State) (lo hi : Fld) (i n : Nat) : State := setPairI s lo hi i (pairI s lo hi i + n)

/-! ## Page map (18_register_map.md Table 18-1) -/

/-- BAR 0 offset of page `p`. -/
def pageBase (p : Nat) : Nat :=
  if p < 88 then p * 0x1000
  else if p < 96 then 0x60000 + (p - 88) * 0x1000
  else if p < 107 then 0x70000 + (p - 96) * 0x1000
  else if p < 116 then 0x80000 + (p - 107) * 0x1000
  else if p < 118 then 0x90000 + (p - 116) * 0x1000
  else if p < 135 then 0xA0000 + (p - 118) * 0x1000
  else 0xC0000 + (p - 135) * 0x1000

/-- The page at BAR 0 offset `a`, if any. -/
def pageAt (a : Nat) : Option Nat :=
  let x := a / 0x1000
  if x < 0x58 then some x
  else if 0x60 ≤ x ∧ x < 0x68 then some (88 + (x - 0x60))
  else if 0x70 ≤ x ∧ x < 0x7B then some (96 + (x - 0x70))
  else if 0x80 ≤ x ∧ x < 0x89 then some (107 + (x - 0x80))
  else if 0x90 ≤ x ∧ x < 0x92 then some (116 + (x - 0x90))
  else if 0xA0 ≤ x ∧ x < 0xB1 then some (118 + (x - 0xA0))
  else if 0xC0 ≤ x ∧ x < 0xC4 then some (135 + (x - 0xC0))
  else none

/-- Array element of field `f` at page offset `off`. -/
def Fld.at (f : Fld) (off : Nat) : Option Nat :=
  if f.off ≤ off ∧ (off - f.off) % f.stride = 0 ∧ (off - f.off) / f.stride < f.cnt
  then some ((off - f.off) / f.stride) else none

/-- The fields of the register at page `p`, offset `off`, with their array elements. -/
def fieldsAt (p off : Nat) : List (Fld × Nat) :=
  allFields.filterMap (fun f => if f.onPage p then (f.at off).map (fun i => (f, i)) else none)

/-- Page instance of field `f` on page `p`: its page in its block, the page itself for the common registers. -/
def Fld.inst (f : Fld) (p : Nat) : Nat := p - f.base

/-- Page `p` serves reads and writes: it is brought up, or is one of SYS and PCIE, which serve from link-up (16 R379). -/
def pageUp (s : State) (p : Nat) : Bool := p = 0 || p = 13 || regI s F.PAGE_STATUS_UP p ≠ 0

/-- Set the access-violation flag of page `p` (PAGE_STATUS). -/
def violation (s : State) (p : Nat) : State := setI s F.PAGE_STATUS_ACCESS_VIOLATION p 1

/-! ## Pins, messages and host memory -/

/-- Append to what the device sends. -/
def emit (s : State) (o : HostOut) : State := { s with pcie := { s.pcie with out := s.pcie.out ++ [o] } }

/-- The function is in D0 (16 R390). -/
def State.d0 (s : State) : Bool := reg s F.PCIE_POWER_DSTATE = 0

/-- The device may issue requests: Bus Master Enable is 1 (16 R382), and the function is in D0 with main power not being
turned off (16 R391, R393). -/
def State.canIssue (s : State) : Bool := s.pcie.bme && s.d0 && !s.pcie.turnedOff

/-- Set or clear a vector's pending bit. -/
def setPba (s : State) (v : Nat) (b : Bool) : State := { s with pcie := { s.pcie with pba := putBit s.pcie.pba v b } }

/-- The message of a vector is sent, pends, or is not sent at all (16 R382, R385). -/
def sendMsix (s : State) (v : Nat) : State :=
  if !s.pcie.msixEn then s
  else
    let e := tget ({} : MsixEnt) s.pcie.msix v
    if s.pcie.fnMask || e.mask || !s.canIssue then setPba s v true
    else emit s (.msix v e.addr e.data)

/-- Cut a write at Max_Payload_Size (16 R382): address, bytes, and fuel for the number of pieces. -/
def splitWrite (mps : Nat) : Nat → Nat → List Byte → List HostOut
  | 0, _, _ => []
  | n + 1, a, b => if b.length = 0 then [] else
      .write a (b.take mps) :: splitWrite mps n (a + mps) (b.drop mps)

/-- Ring `k` occupies these host bytes: base and length (08 R199). -/
def ringSpan (s : State) (k : Nat) : Nat × Nat :=
  (pairS s F.TRACK_RING_BASE_LO F.TRACK_RING_BASE_HI k, 2 ^ regS s F.TRACK_RING_CFG_SIZE k)

/-- The egress filter of 14 R347: every byte falls within an enabled ring, or is a ring's WIDX_ADDR or DISP_CIDX_ADDR. -/
def egressOk (s : State) (a n : Nat) : Bool :=
  (upto 16).any (fun k =>
    (regS s F.TRACK_RING_CFG_EN k ≠ 0 && decide ((ringSpan s k).1 ≤ a) &&
      decide (a + n ≤ (ringSpan s k).1 + (ringSpan s k).2)) ||
    (decide (n = 4) && decide (a = pairS s F.WIDX_ADDR_LO F.WIDX_ADDR_HI k))) ||
  (decide (n = 4) && decide (a = reg s F.DISP_CIDX_ADDR_LO + 2 ^ 32 * reg s F.DISP_CIDX_ADDR_HI))

/-- A device write to host memory (14 R347, 16 R382). -/
def hostWrite (s : State) (a : Nat) (b : List Byte) : State :=
  if egressOk s a b.length then
    { s with pcie := { s.pcie with out := s.pcie.out ++ splitWrite s.pcie.maxPayload (b.length + 1) a b } }
  else
    setPairI (addR s F.SEC_EGRESS_BLOCKS 1) F.SEC_EGRESS_LAST_LO F.SEC_EGRESS_LAST_HI 0 a

/-- The AER registers after an error: its status bit; the header of the first unmasked error of a received TLP; an advisory error's bit. -/
def PcieS.report (p : PcieS) (e : AerErr) : PcieS :=
  { p with
    aer := p.aer ++ [e]
    aerStatus := setBit p.aerStatus e.bit
    aerFirst := if p.aerFirst.isNone && e.ofTlp && !p.aerMask.testBit e.bit then some p.aer.length else p.aerFirst
    aerCor := if e.advisory && !p.aerSeverity.testBit e.bit then setBit p.aerCor 13 else p.aerCor }

/-- An AER report (16 R384). -/
def aer (s : State) (e : AerErr) : State := { s with pcie := s.pcie.report e }

/-! ## Interrupt causes and the event summary (16 R386, 18 R416) -/

/-- The summary bit of page `p`: INT_STATUS and INT_ENABLE share a set bit. -/
def summary (s : State) (p : Nat) : Bool := (regI s F.INT_STATUS p).land (regI s F.INT_ENABLE p) ≠ 0

/-- Word `k` of the event summary (PCIE_EVT_SUM_k). -/
def evtSum (s : State) (k : Nat) : Nat :=
  (upto 32).foldl (fun a j => if 32 * k + j < 139 ∧ summary s (32 * k + j) then setBit a j else a) 0

/-- The summary message once per tick in which a bit rises: `was` is the page's summary bit before the change. -/
def evtRise (s : State) (p : Nat) (was : Bool) : State :=
  if !was && summary s p && reg s F.PCIE_EVT_CFG_EN ≠ 0 && s.pcie.evtTick ≠ some s.now then
    { (sendMsix s (reg s F.PCIE_EVT_CFG_VECTOR)) with
      pcie := { (sendMsix s (reg s F.PCIE_EVT_CFG_VECTOR)).pcie with evtTick := some s.now } }
  else s

/-- Causes `bits` of page `p` are set. -/
def raiseInt (s : State) (p bits : Nat) : State :=
  evtRise (setI s F.INT_STATUS p ((regI s F.INT_STATUS p).lor bits)) p (summary s p)

/-- A write of INT_ENABLE takes effect at once; it may raise the summary bit. -/
def setIntEnable (s : State) (p v : Nat) : State := evtRise (setI s F.INT_ENABLE p v) p (summary s p)

/-! ## Phase, safe state, FAULT_N (07 R168, 13 R306 and R316) -/

/-- SYS_STATUS.PHASE: 0 START_UP, 1 SERVICE, 2 TEST, 3 RECOVERY. -/
def State.phase (s : State) : Nat := reg s F.SYS_STATUS_PHASE

/-- FAULT_N is asserted in every phase but SERVICE, and in SERVICE while a cause is held (R316). -/
def faultCause (s : State) : Bool :=
  flag s F.REEVE_FAULT_BREACH || flag s F.REEVE_FAULT_SAFE_STATE || flag s F.REEVE_FAULT_THERM_CRIT ||
  flag s F.REEVE_FAULT_LATENT_OVERDUE || flag s F.REEVE_FAULT_GOLDEN_MISMATCH || flag s F.REEVE_FAULT_FINDING ||
  flag s F.REEVE_FAULT_PHASE

/-- SMB_ALERT_N while THERM_WARN or FAULT_N is asserted: asserted when one of them rises, held until the Alert Response Address cycle
(19 R429). -/
def driveAlert (s : State) (rises : Bool) : State :=
  { s with power := { s.power with
    smbAlert := (s.power.smbAlert || rises) && (flag s F.THERM_STATE_WARN || flag s F.REEVE_FAULT_ASSERTED) } }

/-- FAULT_N follows its causes, and SMB_ALERT_N follows it. -/
def driveFault (s : State) : State :=
  let c := faultCause s
  driveAlert (setR s F.REEVE_FAULT_ASSERTED (bnat c)) (c && !flag s F.REEVE_FAULT_ASSERTED)

/-- The phase changes, and FAULT_N with it. -/
def setPhase (s : State) (p : Nat) : State :=
  driveFault (setR (setR s F.SYS_STATUS_PHASE p) F.REEVE_FAULT_PHASE (bnat (p ≠ 1)))

/-- A latched cause of FAULT_N is set. -/
def latchFault (s : State) (f : Fld) : State := driveFault (setR s f 1)

/-! ## Plan table (07 R161) -/

/-- Plan-table entry `i`. -/
def planAt (s : State) (i : Nat) : PlanS := tget {} s.plans i

/-- The state with plan-table entry `i` changed. -/
def modPlan (s : State) (i : Nat) (f : PlanS → PlanS) : State := { s with plans := tmod {} s.plans i f }

/-- Index of a plan ID. -/
def planIdx (id : Nat) : Nat := id % 256

/-- Plan ID of entry `i`: (generation << 8) | index (R161). -/
def planIdAt (s : State) (i : Nat) : Nat := 256 * (planAt s i).gen + i

end Sys2Proof.Machine
end

