-- ==== Sys2Proof/Machine/HbmMap.lean ====
section
/-!
DEFINITION. Sys2Proof/Machine/HbmMap.lean: the address map of the HBM controller (10_hbm_controller.md R232, Table 10-2), the rows that
errors make candidates for repair (R246), and the write-back queues (R240).
-/

namespace Sys2Proof.Machine

/-! ## Address map (R232, Table 10-2) -/

/-- Last device address of the stack plus one. -/
def hbmTop : Nat := 0x600000000

/-- Channel and channel-local address of device address `a`. -/
def hbmMap (s : State) (a : Nat) : Nat × Nat :=
  let g := reg s F.HBMC_MAP_GRAIN
  let c := bitsOf a (g + 3) g
  let c := if flag s F.HBMC_MAP_FOLD then
      ((c.xor (bitsOf a (g + 7) (g + 4))).xor (bitsOf a (g + 11) (g + 8))).xor (bitsOf a (g + 15) (g + 12))
    else c
  (c, a % 2 ^ g + a / 2 ^ (g + 4) * 2 ^ g)

/-- Pseudo-channel 2·c + PC of device address `a`. -/
def hbmPch (s : State) (a : Nat) : Nat := 2 * (hbmMap s a).1 + bitsOf (hbmMap s a).2 6 6

/-- Bank of a channel-local address: SID, bank group and bank, as one number 0 to 47. -/
def hbmBank (l : Nat) : Nat := l / 2 ^ 29 * 16 + bitsOf l 12 11 * 4 + bitsOf l 14 13

/-- Row of a channel-local address. -/
def hbmRow (l : Nat) : Nat := bitsOf l 28 15

/-- One number for a row of the stack: pseudo-channel, bank, row. -/
def rowId (pch bank row : Nat) : Nat := (pch * 64 + bank) * 16384 + row

/-- Row number of device address `a`. -/
def rowOf (s : State) (a : Nat) : Nat := rowId (hbmPch s a) (hbmBank (hbmMap s a).2) (hbmRow (hbmMap s a).2)

/-- Device address of granule `n` of pseudo-channel `pch` in ascending channel-local address (R242): the inverse of the map. -/
def pchAddr (s : State) (pch n : Nat) : Nat :=
  let g := reg s F.HBMC_MAP_GRAIN
  let l := (2 * n + pch % 2) * 64
  let up := l / 2 ^ g * 2 ^ (g + 4) + l % 2 ^ g
  let c := pch / 2
  let c := if flag s F.HBMC_MAP_FOLD then
      ((c.xor (bitsOf up (g + 7) (g + 4))).xor (bitsOf up (g + 11) (g + 8))).xor (bitsOf up (g + 15) (g + 12))
    else c
  up + c * 2 ^ g

/-- KiB of device addresses that hold a granule of a withheld row: they are kept out of every reservation (R246, 15 R375). -/
def withheldSpans (s : State) : List (Nat × Nat) :=
  s.hbm.withheld.flatMap (fun w =>
    let bank := w.2 / 16384 % 64
    (upto 16).map (fun col =>
      let a := pchAddr s w.1 (bank / 16 * 2 ^ 22 + w.2 % 16384 * 2 ^ 8 + bank % 4 * 2 ^ 6 + bank / 4 % 4 * 2 ^ 4 + col)
      (a / 1024 * 1024, a / 1024 * 1024 + 1024)))

/-- Page of channel `c`. -/
def chPage (c : Nat) : Nat := 119 + c

/-- A corrected codeword or an uncorrectable read makes a row a candidate for repair (R246). -/
def noteRow (s : State) (a ce ue : Nat) : State :=
  let r := rowOf s a
  let n := tget 0 s.hbm.rowCE r + ce
  let cand := (decide (ue > 0) || decide (n ≥ 8)) && !s.hbm.candidates.contains r
  { s with hbm := { s.hbm with rowCE := tset 0 s.hbm.rowCE r n,
                               candidates := if cand then s.hbm.candidates ++ [r] else s.hbm.candidates } }

/-- A corrected granule enters the channel's write-back queue of 16 (R240). -/
def queueWb (s : State) (a : Nat) : State :=
  let c := (hbmMap s a).1
  let q := tget [] s.hbm.wbq c
  if q.contains a then s
  else if q.length < 16 then { s with hbm := { s.hbm with wbq := tset [] s.hbm.wbq c (q ++ [a]) } }
  else addI s F.CH_WB_DROP c 1

/-- A write to granule `a` cancels a write-back of it that still waits (R240). -/
def cancelWb (s : State) (a : Nat) : State :=
  let c := (hbmMap s a).1
  let q := tget [] s.hbm.wbq c
  if q.contains a then
    addI { s with hbm := { s.hbm with wbq := tset [] s.hbm.wbq c (q.filter (fun x => decide (x ≠ a))) } } F.CH_WB_CANCELLED c 1
  else s

end Sys2Proof.Machine
end

