-- ==== Sys2Proof/Machine/RecFmt.lean ====
section
/-!
DEFINITION. Sys2Proof/Machine/RecFmt.lean: the records of 08_tracking_and_metadata.md R197 (Tables 8-3 to 8-11), handing a
record to the record writer, SAF records with their fault-journal entries (15 R373).
-/

namespace Sys2Proof.Machine

/-- Record header (Table 8-3). -/
def recHdr (ty len slot flags src : Nat) : List Byte :=
  le 1 ty ++ le 1 1 ++ le 2 len ++ le 2 slot ++ le 2 flags ++ le 8 src

/-- A record is handed to the record writer, behind every earlier one. -/
def pushRec (s : State) (r : Rec) : State := { s with out := { s.out with recq := s.out.recq ++ [r] } }

/-- EVT record (Table 8-6). -/
def evtBytes (slot src kind detail id a b : Nat) : List Byte :=
  recHdr 2 40 slot 0 src ++ le 2 kind ++ le 2 detail ++ le 4 id ++ le 8 a ++ le 8 b

/-- SAF record (Table 8-10). -/
def safBytes (code sev kind unit plan detect detail items src : Nat) : List Byte :=
  recHdr 6 48 0xFFFF 0 src ++ le 2 code ++ le 1 sev ++ le 1 kind ++ le 2 unit ++ le 2 plan ++ le 8 detect ++
    le 8 detail ++ le 4 items ++ le 4 0

/-- What a JOB record says (Table 8-9). -/
structure Job where
  seq : Nat := 0
  plan : Nat := 0
  status : Nat := 0
  batch : Nat := 0
  cls : Nat := 0
  reason : Nat := 0
  cores : Nat := 0
  launch : Nat := 0
  run : Nat := 0
  delay : Nat := 0
  session : Nat := 0
  spills : Nat := 0
  flags : Nat := 0
  src : Nat := 0
  ring : Nat := 0

/-- JOB record (Table 8-9); RUN and DELAY are cut to 32 bits, SPILLS saturates. -/
def jobBytes (j : Job) : List Byte :=
  recHdr 5 64 0xFFFF j.flags j.src ++ le 8 j.seq ++ le 2 j.plan ++ le 2 j.status ++ le 1 j.batch ++ le 1 j.cls ++
    le 1 j.reason ++ le 1 0 ++ le 8 j.cores ++ le 8 j.launch ++ le 4 j.run ++ le 4 j.delay ++ le 2 j.session ++
    le 2 (if j.spills < 0xFFFF then j.spills else 0xFFFF) ++ le 4 0

/-- A status of the done class (00_scope.md R10): DONE, DONE_LATE, DONE_EMPTY. -/
def isDone (status : Nat) : Bool := status / 256 = 0

/-- Hand a JOB record to the record writer: to the ring the entry names, ring 0 when it names none (R199); a done status
makes it a result (13 R314). -/
def pushJob (s : State) (j : Job) : State :=
  pushRec s { ring := if j.ring ≤ 15 then j.ring else 0, bytes := jobBytes j,
              result := if isDone j.status then some (j.plan, j.src) else none }

/-! ## Fault journal (15 R373) -/

/-- An entry enters the buffer of 256; when the buffer is full it is lost and counted. The first entry after a loss is
FJ_OVERFLOW with the lost count. -/
def fjPush (s : State) (e : FjEntry) : State :=
  let m := s.mgmt
  let stamp (n : Nat) (x : FjEntry) : FjEntry := { x with number := n, tally := s.now, boot := m.bootCount }
  let lost := { ({ code := 0x800B, detail := m.fjLost } : FjEntry) with severity := 0 }
  let new := if m.fjLost = 0 then [stamp m.fjNext e] else [stamp m.fjNext lost, stamp (m.fjNext + 1) e]
  if m.fjBuf.length + new.length ≤ 256 then
    { s with mgmt := { m with fjBuf := m.fjBuf ++ new, fjNext := m.fjNext + new.length, fjLost := 0 } }
  else
    addR { s with mgmt := { m with fjLost := m.fjLost + 1 } } F.MGMT_FJ_OVERFLOWS 1

/-- A firmware event (Table 15-9, codes 0x8001 and above). -/
def fwEvent (s : State) (code detail : Nat) : State := fjPush s { code := code, detail := detail }

/-- A SAF record is written and enters the fault journal (13 R326, 15 R373). -/
def saf (s : State) (code sev kind unit plan detail items src : Nat) : State :=
  fjPush
    (pushRec s { ring := reg s F.TRK_SAF, bytes := safBytes code sev kind unit plan s.now detail items src })
    { code := code, severity := sev, unitKind := kind, unit := unit, plan := plan, detail := detail }

/-- A SAF record whose SOURCE_TALLY is the detection tick (Table 8-4). -/
def safNow (s : State) (code sev kind unit plan detail items : Nat) : State :=
  saf s code sev kind unit plan detail items s.now

/-- A track EVT record to a slot's OBJ ring (R199). -/
def evtTrack (s : State) (slot src kind detail id a b : Nat) : State :=
  pushRec s { ring := regX s F.SLOT_ROUTE_OBJ_RING slot, bytes := evtBytes slot src kind detail id a b }

end Sys2Proof.Machine
end

