-- ==== Sys2Proof/Machine/Granary.lean ====
section
/-!
DEFINITION. Sys2Proof/Machine/Granary.lean: the Granaries (09_memory_system.md R206 to R223), the switched domains
(17_power_clocks_and_reset.md R398), and the commands of scrub, bank power and the spare-bank copy.
-/

namespace Sys2Proof.Machine

/-! ## Switched domains (17 R397, R398) -/

/-- Is domain `d` powered and usable (PWR_DOM_STATE)? -/
def domOn (s : State) (d : Nat) : Bool := (regX s F.PWR_DOM_STATE (d / 32)).testBit (d % 32)

/-- The state bit of a domain is made `b`. -/
def setDom (s : State) (d : Nat) (b : Bool) : State :=
  setX s F.PWR_DOM_STATE (d / 32) (putBit (regX s F.PWR_DOM_STATE (d / 32)) (d % 32) b)

/-- A domain's switch closes: usable 1,364 ticks later (R398). -/
def closeSwitch (s : State) (d : Nat) : State :=
  addR { s with power := { s.power with settling := s.power.settling ++ [(d, s.now + 1364)], lastOn := some s.now } }
    F.PWR_SWITCHES 1

/-- PWR_DOM_ON follows what firmware requests of a domain that PWR_DOM_ON switches (R397): live value and shadow. -/
def reqDom (s : State) (d : Nat) (b : Bool) : State :=
  if d < 72 ∨ (208 ≤ d ∧ d < 226) then
    let w := d / 32
    putSh (setX s F.PWR_DOM_ON w (putBit (regX s F.PWR_DOM_ON w) (d % 32) b)) F.PWR_DOM_ON 0 0 w
      (putBit (getSh s F.PWR_DOM_ON 0 0 w) (d % 32) b)
  else s

/-- A domain is requested on: its switch closes at once, or waits for the one-per-256-ticks limit (R398). -/
def switchOn (s : State) (d : Nat) : State :=
  let s := reqDom s d true
  if domOn s d || s.power.settling.any (fun e => e.1 = d) || s.power.deferred.contains d then s
  else
    let free := match s.power.lastOn with
      | none => true
      | some t => decide (t + 256 ≤ s.now)
    if free && s.power.deferred.isEmpty then closeSwitch s d
    else { s with power := { s.power with deferred := insertBy (fun a b => decide (a < b)) d s.power.deferred } }

/-- Cluster state accessors. -/
def clu (s : State) (k : Nat) : CluS := tget {} s.clus k

/-- The state with cluster `k` changed. -/
def modClu (s : State) (k : Nat) (f : CluS → CluS) : State := { s with clus := tmod {} s.clus k f }

/-- The core with physical number `c`. -/
def core (s : State) (c : Nat) : CoreS := tget {} s.cores c

/-- The state with core `c` changed. -/
def modCore (s : State) (c : Nat) (f : CoreS → CoreS) : State := { s with cores := tmod {} s.cores c f }

/-! ## Resident tags (04 R107) and the last step of a removal (07 R163) -/

/-- A removing entry whose claims are released is free once no core holds a resident tag of its plan; its generation stays (R163, R161). -/
def settleEntry (s : State) (i : Nat) : State :=
  if (planAt s i).st = .removing ∧ (planAt s i).released ∧
      (upto 72).all (fun p => decide (regI s F.CORE_RESIDENT_PLAN p ≠ planIdAt s i)) then
    addR (modPlan s i (fun p => { gen := p.gen })) F.PLAN_FREE 1
  else s

/-- Core `p` holds resident tag `tag` of plan `plan`; the entry of the plan it held until now may become free. -/
def setTag (s : State) (p tag plan : Nat) : State :=
  settleEntry (setI (setI s F.CORE_RESIDENT_TAG p tag) F.CORE_RESIDENT_PLAN p plan) (planIdx (regI s F.CORE_RESIDENT_PLAN p))

/-- The resident tag of core `p` is cleared (R107). -/
def clearTag (s : State) (p : Nat) : State := setTag (modCore s p (fun c => { c with resident := [] })) p 0 0

/-- A core between jobs gives up the resident tag of a plan whose claims have been released (R163). -/
def removedTag (s : State) (p : Nat) : State :=
  let id := regI s F.CORE_RESIDENT_PLAN p
  let e := planAt s (planIdx id)
  if e.st = .removing ∧ e.released ∧ id = planIdAt s (planIdx id) then clearTag s p else s

/-- What bank `p` of a cluster holds is lost. -/
def loseBank (s : State) (k p : Nat) : State :=
  modClu s k (fun c => { c with
    mem := { data := tfilter (fun a => a / 2 ^ 21 ≠ p) c.mem.data, err := tfilter (fun w => w / 2 ^ 17 ≠ p) c.mem.err },
    wbq := c.wbq.filter (fun e => e.1 ≠ p), wbIn := c.wbIn.filter (fun e => e.1 ≠ p), scrub := terase c.scrub p })

/-- A domain's state, contents and resident tags are lost when it is switched off (R398). -/
def loseDomain (s : State) (d : Nat) : State :=
  if d < 72 then
    setI (setTag { s with cores := terase s.cores d } d 0 0) F.CORE_STATE_STATE d 0
  else if d < 208 then
    modClu (loseBank s ((d - 72) / 17) ((d - 72) % 17)) ((d - 72) / 17)
      (fun c => { c with offBanks := setBit c.offBanks ((d - 72) % 17), zeroFrom := terase c.zeroFrom ((d - 72) % 17) })
  else if d < 217 then { s with strm := { s.strm with decs := terase s.strm.decs (d - 208) } }
  else if d < 219 then { s with strm := { s.strm with encs := terase s.strm.encs (d - 217) } }
  else if d = 219 then { s with shape := { s.shape with sickle := [] }, trk := {} }
  else if d < 224 then
    { s with strm := { s.strm with csi := terase (terase s.strm.csi (2 * (d - 220))) (2 * (d - 220) + 1) } }
  else if d < 226 then
    { s with fab := { s.fab with links := terase (terase s.fab.links (2 * (d - 224))) (2 * (d - 224) + 1) } }
  else if d = 226 then { s with hbm := { s.hbm with mem := {}, queues := [], waiting := [] } }
  else s

/-- A domain is switched off (R398): its outputs are clamped in this tick. -/
def switchOff (s : State) (d : Nat) : State :=
  let s := reqDom s d false
  loseDomain (setDom { s with power := { s.power with
    settling := s.power.settling.filter (fun e => e.1 ≠ d), deferred := s.power.deferred.filter (fun e => e ≠ d) } } d false) d

/-- DOMAIN_USABLE: a switched-on domain has settled for 1,300 ticks and been held in reset for 64; its isolation is released
(R398). A Granary bank then begins to zero-fill (09 R223). -/
def execDomainUsable (dom : Nat) (s : State) : Out :=
  .next (whenLive s fun s =>
    guardOn (s.power.settling.any (fun e => decide (e.1 = dom) && decide (e.2 ≤ s.now))) s fun s =>
      let s1 := setDom { s with power := { s.power with settling := s.power.settling.filter (fun e => e.1 ≠ dom) } } dom true
      if 72 ≤ dom ∧ dom < 208 then
        modClu s1 ((dom - 72) / 17) (fun c => { c with
          zeroFrom := tset 0 c.zeroFrom ((dom - 72) % 17) (s.now + 1) })
      else s1)

/-- DEFERRED_DOMAIN_SWITCH_ON: the lowest waiting domain closes its switch once 256 ticks have passed since the last (R398). -/
def execDeferredDomainSwitchOn (s : State) : Out :=
  .next (whenLive s fun s =>
    match s.power.deferred with
    | [] => s
    | d :: r =>
      let due := match s.power.lastOn with
        | none => true
        | some t => decide (t + 256 ≤ s.now)
      guardOn due s fun s => closeSwitch { s with power := { s.power with deferred := r } } d)

/-! ## Banks (R206, R218, R221 to R223) -/

/-- Physical bank of logical bank `b` (CLU_BANK_MAP). -/
def bankOf (s : State) (k b : Nat) : Nat :=
  let w := if b < 6 then regI s F.CLU_BANK_MAP_0 k else if b < 12 then regI s F.CLU_BANK_MAP_1 k
    else regI s F.CLU_BANK_MAP_2 k
  w / 32 ^ (b % 6) % 32

/-- Logical bank that maps to physical bank `p`, if any. -/
def logicalOf (s : State) (k p : Nat) : Option Nat := (upto 16).find? (fun b => decide (bankOf s k b = p))

/-- The spare: the one physical bank no logical bank maps to, unless it is retired. -/
def spareBank (s : State) (k : Nat) : Option Nat :=
  (upto 17).find? (fun p => (logicalOf s k p).isNone && !(clu s k).retiredBanks.testBit p)

/-- A bank is off or still zero-filling: a logical bank that maps to it is dark (R222, R223). -/
def bankDark (s : State) (k p : Nat) : Bool :=
  (clu s k).offBanks.testBit p || decide (tget 0 (clu s k).zeroFrom p ≠ 0)

/-- CLU_BANK_CAP_k.DARK follows the banks. -/
def refreshDark (s : State) (k : Nat) : State :=
  (upto 16).foldl (fun t b => putF t F.CLU_BANK_CAP_DARK k 0 b (bnat (bankDark t k (bankOf t k b)))) s

/-- Bytes in service of logical bank `b` (R218). -/
def bankCap (s : State) (k b : Nat) : Nat := getF s F.CLU_BANK_CAP_UNITS k 0 b * 65536

/-- Row units in service of physical bank `p`: none when it is retired and no spare is left to replace it (R218, CLU_BANK_CAP_k). -/
def bankUnits (s : State) (k p : Nat) : Nat :=
  if (clu s k).retiredBanks.testBit p ∧ (spareBank s k).isNone then 0
  else ((upto 32).filter (fun u => !(tget 0 (clu s k).retiredUnits p).testBit u)).length

/-- Physical memory address of offset `off` in bank `p`. -/
def physAddr (p off : Nat) : Nat := p * 2 ^ 21 + off

/-! ## Where firmware places its HBM reservations (log entry 14): the Cooper area first, then the rest. -/

/-- HBM device address of the Cooper area. -/
def cooperBase : Nat := 0

/-- HBM device address of the orphan journal's area, from the top: 24 GiB less 64 MiB. -/
def journalBase : Nat := 24 * 2 ^ 30 - 2 ^ 26

/-- HBM device address of the relay-out area: 4 MiB below the journal. -/
def relayBase : Nat := journalBase - 2 ^ 22

/-- HBM device address of Carter's cold store: 16,640 KiB below the relay-out area. -/
def coldBase : Nat := relayBase - 16640 * 1024

/-- HBM device address of the overflow areas, 6 MiB for each of the 8 clusters. -/
def overflowBase : Nat := coldBase - 8 * 6 * 2 ^ 20

/-- KiB of HBM below firmware's own reservations. -/
def hbmBelowKib : Nat := overflowBase / 1024

/-- Bytes of overflow area that a logical bank has: a sixteenth of its cluster's 6 MiB (R219; log entry 131). -/
def overflowPart : Nat := 384 * 1024

/-- Offset from which bank `b` is served from the overflow area for an owner whose space ends at `lim` (R219): the first that the bank no
longer has in service, or that the owner does not hold. -/
def spillFrom (s : State) (k b lim : Nat) : Nat := if bankCap s k b < lim then bankCap s k b else lim

/-- HBM device address of offset `off` of logical bank `b` in its cluster's overflow area. -/
def overflowAddr (s : State) (k b off lim : Nat) : Nat :=
  overflowBase + k * (6 * 2 ^ 20) + b * overflowPart + (off - spillFrom s k b lim) % overflowPart

/-! ## Reads and writes of one granule -/

/-- What a Granary read delivered: bytes, bad codewords, what it met, and whether it waited beyond the schedule. -/
structure GR where
  bytes : List Byte := []
  bad : List Bool := []
  info : ReadInfo := {}
  late : Bool := false

/-- Two reads in sequence. -/
def GR.join (a b : GR) : GR :=
  { bytes := a.bytes ++ b.bytes, bad := a.bad ++ b.bad, info := a.info.join b.info, late := a.late || b.late }

/-- ERR_ registers of page `p` after a read (R214, R216): corrected and uncorrectable counts, last failing address. -/
def noteErr (s : State) (p : Nat) (r : ReadInfo) (addr : Nat) : State :=
  let s1 := if r.ce = 0 then s else addI s F.ERR_COUNT_CE p r.ce
  let s2 := if r.ue = 0 then s1 else addI s1 F.ERR_COUNT_UE p r.ue
  if r.lastAddr.isSome then
    setI (setPairI s2 F.ERR_LAST_ADDR_LO F.ERR_LAST_ADDR_HI p addr) F.ERR_LAST_SYNDROME p r.lastSyn
  else s2

/-- ERR_ registers, row counts and the write-back queue after a granule was read (R240). -/
def noteHbm (s : State) (a : Nat) (i : ReadInfo) : State :=
  let s1 := noteErr s (chPage (hbmMap s a).1) i a
  let s2 := if i.ce = 0 ∧ i.ue = 0 then s1 else noteRow s1 a i.ce i.ue
  if i.ce = 0 then s2 else queueWb s2 a

/-- A corrected row enters the write-back queue of 8 (R214). -/
def queueRow (s : State) (k p row : Nat) : State :=
  let q := (clu s k).wbq
  if q.contains (p, row) then s
  else if q.length < 8 then modClu s k (fun c => { c with wbq := c.wbq ++ [(p, row)] })
  else addI s F.CLU_WB_DROP k 1

/-- A row that a read of this slot corrects enters the write-back queue at tick 10 (R214, Table 9-2). -/
def laterRow (s : State) (k p row : Nat) : State := modClu s k (fun c => { c with wbIn := c.wbIn ++ [(p, row, s.now + 10)] })

/-- The rows whose tick has come enter the write-back queue of cluster `k`, in order. -/
def enterRows (s : State) (k : Nat) : State :=
  ((clu s k).wbIn.filter (fun e => decide (e.2.2 ≤ s.now))).foldl (fun t e => queueRow t k e.1 e.2.1)
    (modClu s k (fun c => { c with wbIn := c.wbIn.filter (fun e => decide (s.now < e.2.2)) }))

/-- Read the granule at offset `off` of logical bank `b` of cluster `k` for an owner whose space ends at `lim` (R210, R214, R216, R219,
R222): one in the overflow area is late unless the owner's own space ended there (R26). -/
def granRead1 (s : State) (k b off lim : Nat) : State × GR :=
  let p := bankOf s k b
  if bankDark s k p then
    (addI s F.CLU_DARK_READS k 1,
      { bytes := List.replicate 64 0, bad := List.replicate 4 true, info := { dark := true } })
  else if spillFrom s k b lim ≤ off then
    let a := overflowAddr s k b off lim
    let m := s.hbm.mem
    let i := m.info a 64
    (noteHbm (addI s F.CLU_SPILLS k 1) a i,
      { bytes := m.read a 64, bad := m.badWords a 64, info := { i with hbm := if i.bad then some a else none },
        late := decide (bankCap s k b ≤ off) })
  else
    let a := physAddr p off
    let m := (clu s k).mem
    let i := m.info a 64
    let s1 := noteErr s (88 + k) i (physAddr b off)
    let s2 := if i.ce = 0 then s1 else laterRow s1 k p (off / 64)
    let s3 := if i.poison = 0 then s2 else addI s2 F.CLU_POISON_READS k 1
    (s3, { bytes := m.read a 64, bad := m.badWords a 64, info := i })

/-- A write to a queued row, or to the row in the scrub register, removes it (R214, R215). -/
def supersede (s : State) (k p row : Nat) : State :=
  let c := clu s k
  let s1 := if c.wbq.contains (p, row) then
      addI (modClu s k (fun c => { c with wbq := c.wbq.filter (fun e => e ≠ (p, row)) })) F.CLU_WB_SUPERSEDED k 1
    else s
  let r := tget {} c.scrub p
  if r.full ∧ r.row = row then
    addI (modClu s1 k (fun c => { c with scrub := terase c.scrub p })) F.CLU_WB_SUPERSEDED k 1
  else s1

/-- Write the granule at offset `off` of logical bank `b`, with its bad codewords as poison (R209, R219 to R222). The second
component says whether the write was dropped at a dark bank, the third whether it was late. -/
def granWrite1 (s : State) (k b off lim : Nat) (bytes : List Byte) (bad : List Bool) : State × Bool × Bool :=
  let p := bankOf s k b
  if bankDark s k p then (addI s F.CLU_DARK_WRITES k 1, true, false)
  else if spillFrom s k b lim ≤ off then
    let a := overflowAddr s k b off lim
    let s1 := cancelWb s a
    (addI { s1 with hbm := { s1.hbm with mem := s1.hbm.mem.copyIn a bytes bad } } F.CLU_SPILLS k 1, false,
      decide (bankCap s k b ≤ off))
  else
    let c := clu s k
    let copying := (c.copyRow.isSome || c.copyDone.isSome) &&
      decide (regI s F.CLU_BANK_STATE_COPY_SRC k = p)
    let s1 := supersede s k p (off / 64)
    let s2 := modClu s1 k (fun c => { c with
      mem := c.mem.copyIn (physAddr p off) bytes bad,
      inflight := (c.inflight.filter (fun e => decide (s.now < e.2.1))) ++ [(p, s.now + 8, none)] })
    let s3 := if copying then
        match spareBank s k with
        | some q => if bankDark s k q then s2 else
            modClu (supersede s2 k q (off / 64)) k (fun c => { c with mem := c.mem.copyIn (physAddr q off) bytes bad })
        | none => s2
      else s2
    (s3, false, false)

/-- The writes of this slot that no item is named for yet are those of item `key` (R222). -/
def nameWrites (s : State) (k key : Nat) : State :=
  modClu s k (fun c => { c with inflight := c.inflight.map (fun e =>
    if e.2.1 = s.now + 8 ∧ e.2.2 = none then (e.1, e.2.1, some key) else e) })

/-- Logical bank and offset of granule `g` of a transfer (R207). -/
def granuleAt (width bank start g : Nat) : Nat × Nat := (bank + g % width, start + 64 * (g / width))

/-- Read `n` granules of a stripe from granule `g` on. -/
def granReadN (k width bank start lim : Nat) : Nat → Nat → State → State × GR
  | 0, _, s => (s, {})
  | n + 1, g, s =>
    let (b, off) := granuleAt width bank start g
    let (s1, r) := granRead1 s k b off lim
    let (s2, rs) := granReadN k width bank start lim n (g + 1) s1
    (s2, r.join rs)

/-- Write bytes as granules of a stripe from granule `g` on: dropped at a dark bank, late. -/
def granWriteN (k width bank start lim : Nat) : Nat → Nat → List Byte → List Bool → State → State × Bool × Bool
  | 0, _, _, _, s => (s, false, false)
  | n + 1, g, bytes, bad, s =>
    let (b, off) := granuleAt width bank start g
    let (s1, d1, l1) := granWrite1 s k b off lim (padTo 0 64 (bytes.take 64)) (padTo false 4 (bad.take 4))
    let (s2, d2, l2) := granWriteN k width bank start lim n (g + 1) (bytes.drop 64) (bad.drop 4) s1
    (s2, d1 || d2, l1 || l2)

/-! ## Slots (R208, Table 9-1) -/

/-- Owners of the slots of a turn: the logical core of local index `q`, the HBM staging DMA, Carter, Sickle unit `u`, intake and codecs, the
track engine, scrub and maintenance. -/
inductive SlotOwner where
  | core (q : Nat) | staging | carter | sickle (u : Nat) | codecs | track | scrub
deriving DecidableEq, Repr

/-- The slots each owner holds in a turn, ascending. -/
def SlotOwner.slots : SlotOwner → List Nat
  | .core q => let a := nth 0 [0, 2, 3, 5, 7, 9, 11, 13] q
    [a, a + 16]
  | .staging => [1, 4, 8, 12, 17, 20, 24, 28]
  | .carter => [6, 22]
  | .sickle u => if u = 0 then [10] else [26]
  | .codecs => [14, 30]
  | .track => [15]
  | .scrub => [31]

/-- The first slot of an owner at or after tick `t`. -/
def SlotOwner.next (o : SlotOwner) (t : Nat) : Nat := t + ((upto 32).find? (fun d => o.slots.contains ((t + d) % 32))).getD 0

/-- The slot after `n` more. -/
def SlotOwner.after (o : SlotOwner) : Nat → Nat → Nat
  | 0, t => o.next t
  | n + 1, t => SlotOwner.after o n (o.next t + 1)

/-- The `n`-th slot of an owner from tick `t` on, counted from 0. -/
def SlotOwner.nth (o : SlotOwner) (t n : Nat) : Nat := o.after (n % o.slots.length) (t + 32 * (n / o.slots.length))

/-- Slots of an owner from tick `a` up to, but not with, tick `b`. -/
def SlotOwner.count (o : SlotOwner) (a b : Nat) : Nat :=
  (b - a) / 32 * o.slots.length + ((upto ((b - a) % 32)).filter (fun d => o.slots.contains ((a + d) % 32))).length

/-! ## Scrub (R215, R220) -/

/-- What a read of the scrub slot finds at address `a` of bank `p`: corrected and uncorrectable codewords and stored poison are counted,
what cannot be corrected is reported, and no item fails (R216). -/
def noteScrub (s : State) (k p a : Nat) (i : ReadInfo) : State :=
  let s1 := noteErr s (88 + k) i a
  let s2 := if i.ue = 0 then s1 else safNow s1 2 0 2 (17 * k + p) 0 a 0
  if i.poison = 0 then s2 else safNow (addI s2 F.CLU_POISON_READS k 1) 3 0 2 (17 * k + p) 0 a 0

/-- The copy of the spare moves one row (R220): a row uncorrectable in the old bank is copied as poison, and the newer data replace what
the spare had read for write-back. With either bank dark the copy ends. -/
def copyStep (s : State) (k : Nat) : State :=
  match (clu s k).copyRow, spareBank s k with
  | some row, some q =>
    let src := regI s F.CLU_BANK_STATE_COPY_SRC k
    let a := physAddr src (row * 64)
    if bankDark s k src || bankDark s k q then setI (modClu s k (fun c => { c with copyRow := none })) F.CLU_BANK_STATE_COPYING k 0
    else
      let i := (clu s k).mem.info a 64
      let s1 := noteScrub s k src a i
      let s2 := supersede (if i.ce = 0 then s1 else laterRow s1 k src row) k q row
      let m := (clu s2 k).mem
      let m1 := m.copyIn (physAddr q (row * 64)) (m.read a 64) (m.badWords a 64)
      if row + 1 < 32768 then modClu s2 k (fun c => { c with mem := m1, copyRow := some (row + 1) })
      else setI (modClu s2 k (fun c => { c with mem := m1, copyRow := none, copyDone := some src })) F.CLU_BANK_STATE_COPYING k 0
  | _, _ => s

/-- The banks that a running copy takes in a scrub slot of turn `turn`: on even turns the bank being replaced and the spare (R220). -/
def copyBanks (s : State) (k turn : Nat) : List Nat :=
  match (clu s k).copyRow, spareBank s k with
  | some _, some q => if turn % 2 = 0 then [regI s F.CLU_BANK_STATE_COPY_SRC k, q] else []
  | _, _ => []

/-- Patrol reads the next row of bank `p`: a correctable row goes to the scrub register, an uncorrectable one is counted and
reported and fails no item (R215, R216). -/
def patrolRow (s : State) (k p : Nat) : State :=
  let row := tget 0 (clu s k).sweep p % 32768
  let i := (clu s k).mem.info (physAddr p (row * 64)) 64
  let s2 := noteScrub s k p (physAddr p (row * 64)) i
  modClu s2 k (fun c => { c with
    sweep := tset 0 c.sweep p (tget 0 c.sweep p + 1),
    scrub := if i.ce = 0 then c.scrub else tset {} c.scrub p { row := row, full := true } })

/-- The GRANARY_CODE segment runs on cluster `k`, in the place of patrol (13 Table 13-6). -/
def codeTest (s : State) (k : Nat) : Bool := s.winnow.segs.any (fun g => decide (g.seg = 4) && decide (g.unit = k))

/-- What bank `p` does in a scrub slot in which the copy takes the banks `copying`: the first step of R215 that applies. -/
def scrubBank (turn k : Nat) (copying : List Nat) (s : State) (p : Nat) : State :=
  let c := clu s k
  if bankDark s k p || copying.contains p then s
  else
    let r := tget {} c.scrub p
    if r.full then
      modClu s k (fun c => { c with mem := c.mem.writeBack (physAddr p (r.row * 64)) 64, scrub := terase c.scrub p })
    else match c.wbq.find? (fun e => e.1 = p) with
      | some e => modClu s k (fun c => { c with
          wbq := c.wbq.filter (fun x => x ≠ e), scrub := tset {} c.scrub p { row := e.2, full := true } })
      | none =>
        if regI s F.CLU_SCRUB_PATROL_EN k ≠ 0 ∧ !codeTest s k ∧ turn % (regI s F.CLU_SCRUB_INTERVAL k + 1) = 0 then patrolRow s k p else s

/-- Whole sweeps finished by every bank in service of a cluster. -/
def sweepsOf (s : State) (k : Nat) : Nat :=
  let rows := (upto 17).filterMap (fun p => if bankDark s k p then none else some (tget 0 (clu s k).sweep p / 32768))
  match rows with
  | [] => 0
  | x :: xs => minOf x xs

/-- SCRUB_SLOT: the scrub slot of cluster `clu`, slot 31 of the turn (R208, R215, R220). -/
def execScrubSlot (clu : Nat) (s : State) : Out :=
  .next (whenLive s fun s =>
    guardOn (decide (SlotOwner.scrub.next s.now = s.now) && decide (clu < 8)) s fun s =>
      let turn := s.now / 32
      let s1 := if turn % 2 = 0 then copyStep s clu else s
      let s2 := (upto 17).foldl (scrubBank turn clu (copyBanks s clu turn)) s1
      let d := sweepsOf s2 clu - sweepsOf s clu
      if d = 0 then s2 else addI s2 F.CLU_SWEEPS clu d)

/-- SPARE_BANK_COPY_START: firmware starts copying logical bank `bank` to the spare; from then on writes to the old bank are
mirrored to the spare (R220). -/
def execSpareBankCopyStart (clu bank : Nat) (s : State) : Out :=
  .next (whenLive s fun s =>
    let c := Machine.clu s clu
    guardOn (decide (clu < 8) && decide (bank < 16) && c.copyRow.isNone && c.copyDone.isNone &&
      (match spareBank s clu with
       | some q => !bankDark s clu q
       | none => false)) s fun s =>
      let src := bankOf s clu bank
      setI (setI (modClu s clu (fun c => { c with copyRow := some 0 })) F.CLU_BANK_STATE_COPYING clu 1)
        F.CLU_BANK_STATE_COPY_SRC clu src)

/-- BANK_DRAIN_END: the in-flight write counter of a draining bank reads 0, and the bank switches off (R221). -/
def execBankDrainEnd (clu bank : Nat) (s : State) : Out :=
  .next (whenLive s fun s =>
    let st := regI s F.CLU_BANK_STATE_DRAINING clu
    guardOn (st.testBit bank && decide (bank < 17) && decide (clu < 8) &&
      (Machine.clu s clu).inflight.all (fun e => decide (e.1 ≠ bank) || decide (e.2.1 ≤ s.now))) s fun s =>
      refreshDark (switchOff (setI s F.CLU_BANK_STATE_DRAINING clu (clrBit st bank)) (72 + 17 * clu + bank)) clu)

/-- BANK_ZERO_FILL_DONE: a powered-up bank has zero-filled, one row per tick, and becomes usable (R223). -/
def execBankZeroFillDone (clu bank : Nat) (s : State) : Out :=
  .next (whenLive s fun s =>
    let z := tget 0 (Machine.clu s clu).zeroFrom bank
    guardOn (decide (z ≠ 0) && decide (z - 1 + 32768 ≤ s.now) && decide (clu < 8) && decide (bank < 17)) s fun s =>
      refreshDark (modClu s clu (fun c => { c with
        zeroFrom := terase c.zeroFrom bank, offBanks := clrBit c.offBanks bank })) clu)

end Sys2Proof.Machine
end

