-- ==== Sys2Proof/Machine/Cooper.lean ====
section
/-!
DEFINITION. Sys2Proof/Machine/Cooper.lean: the buffer pools of Cooper (09_memory_system.md R224 to R229) and their commands.
-/

namespace Sys2Proof.Machine

/-! ## Pools -/

/-- State of pool `p`. -/
def pool (s : State) (p : Nat) : PoolS := tget {} s.pools p

/-- The state with pool `p` changed. -/
def modPool (s : State) (p : Nat) (f : PoolS → PoolS) : State := { s with pools := tmod {} s.pools p f }

/-- Is the pool enabled? -/
def poolEn (s : State) (p : Nat) : Bool := regS s F.COOPER_POOL_CFG_EN p ≠ 0

/-- Buffers of the pool. -/
def poolCount (s : State) (p : Nat) : Nat := regS s F.COOPER_POOL_CFG_COUNT p

/-- Buffer size in bytes. -/
def poolSize (s : State) (p : Nat) : Nat := regS s F.COOPER_POOL_CFG_SIZE p * 4096

/-- HBM address of buffer `i` of pool `p` (R224). -/
def bufAddr (s : State) (p i : Nat) : Nat := cooperBase + regS s F.COOPER_POOL_BASE p * 1024 + i * poolSize s p

/-- The handle of a buffer (R224). -/
def handleOf (p i gen : Nat) : Nat := i % 2 ^ 11 + 2 ^ 11 * (p % 8) + 2 ^ 14 * (gen % 2 ^ 16)

/-- Pool named by a handle. -/
def handlePool (h : Nat) : Nat := h / 2 ^ 11 % 8

/-- Buffer index named by a handle. -/
def handleIdx (h : Nat) : Nat := h % 2 ^ 11

/-- Generation named by a handle. -/
def handleGen (h : Nat) : Nat := h / 2 ^ 14 % 2 ^ 16

/-- HBM address of the buffer a handle names. -/
def handleAddr (s : State) (h : Nat) : Nat := bufAddr s (handlePool h) (handleIdx h)

/-- The buffer of a pool. -/
def buf (s : State) (p i : Nat) : Buf := tget {} (pool s p).bufs i

/-- h_o: buffers owner `o` holds in pool `p` (R225). -/
def holds (s : State) (p o : Nat) : Nat := ((pool s p).bufs.filter (fun e => e.2.owner = some o)).length

/-- Buffers held in pool `p`. -/
def heldIn (s : State) (p : Nat) : Nat := ((pool s p).bufs.filter (fun e => e.2.owner.isSome)).length

/-- F: free buffers (R225). -/
def poolFree (s : State) (p : Nat) : Nat := poolCount s p - heldIn s p

/-- U: Σ max(0, min_o − h_o) (R225). -/
def poolUnmet (s : State) (p : Nat) : Nat := sumN ((pool s p).minima.map (fun e => e.2 - holds s p e.1))

/-- Owner `o` may take a buffer of pool `p`: below its minimum, or F − U ≥ 1 (R225). -/
def mayTake (s : State) (p o : Nat) : Bool :=
  decide (poolFree s p ≥ 1) &&
    (decide (holds s p o < tget 0 (pool s p).minima o) || decide (poolUnmet s p + 1 ≤ poolFree s p))

/-- A new minimum `m` for owner `o` is accepted: F − U − m ≥ 0, at most 128 owners (R225). -/
def canReserve (s : State) (p m : Nat) : Bool :=
  poolEn s p && decide (poolUnmet s p + m ≤ poolFree s p) && decide ((pool s p).minima.length < 128)

/-- Set, or with 0 withdraw, an owner's minimum. -/
def setMin (s : State) (p o m : Nat) : State := modPool s p (fun q => { q with minima := tset 0 q.minima o m })

/-- Withdraw an owner's minima in every pool. -/
def dropMinima (s : State) (o : Nat) : State := (upto 8).foldl (fun t p => setMin t p o 0) s

/-- The list link stored in a free buffer: the address of the next one, all ones at the end (R228). -/
def linkWord (s : State) (p : Nat) (next : Option Nat) : List Byte :=
  match next with
  | some j => le 8 (bufAddr s p j)
  | none => List.replicate 8 255

/-- Granules of `n` bytes at address `a`. -/
def granulesIn (a n : Nat) : List Nat := if n = 0 then [] else (rangeFrom (a / 64) ((a + n - 1) / 64 + 1 - a / 64)).map (fun g => 64 * g)

/-- Write bytes to HBM (a client's write that is admitted now, behind every request admitted before it): write-backs that wait for its
granules are cancelled (10 R235, R240). -/
def hbmPut (s : State) (a : Nat) (b : List Byte) : State :=
  let s1 := if s.hbm.wbq.isEmpty then s else (granulesIn a b.length).foldl cancelWb s
  { s1 with hbm := { s1.hbm with mem := s1.hbm.mem.write a b } }

/-- COOPER_POOL_HEAD follows the list head. -/
def putHead (s : State) (p : Nat) (h : Option Nat) : State :=
  let a := match h with
    | some i => bufAddr s p i
    | none => 2 ^ 64 - 1
  setS (setS (modPool s p (fun q => { q with head := h })) F.COOPER_POOL_HEAD_LO p a) F.COOPER_POOL_HEAD_HI p (a / 2 ^ 32)

/-- A pool is enabled: its free buffers stand in ascending index, and in list mode each holds its link (R227, R228). -/
def enablePool (s : State) (p : Nat) : State :=
  let n := poolCount s p
  let s1 := setS { s with pools := tset {} s.pools p { free := upto n } } F.COOPER_POOL_BROKEN p 0
  if regS s F.COOPER_POOL_CFG_LIST p = 0 then s1
  else
    putHead ((upto n).foldl (fun t i => hbmPut t (bufAddr t p i) (linkWord t p (if i + 1 < n then some (i + 1) else none))) s1)
      p (if n = 0 then none else some 0)

/-- The link of the head that pool `p` has just allocated is read: it names the next head, or the pool becomes broken (R228). Nothing is
done where no link is to be read. -/
def readLink (s : State) (p : Nat) : State :=
  match (pool s p).link with
  | none => s
  | some i =>
    let a := bufAddr s p i
    let bad := (s.hbm.mem.badWords a 8).any id
    let v := unle (s.hbm.mem.read a 8)
    let base := bufAddr s p 0
    let sz := poolSize s p
    let s1 := modPool s p (fun q => { q with link := none })
    if !bad && decide (v = 2 ^ 64 - 1) then putHead s1 p none
    else if !bad && decide (base ≤ v) && decide (v < base + poolCount s p * sz) && decide ((v - base) % sz = 0) then
      putHead s1 p (some ((v - base) / sz))
    else raiseInt (setS s1 F.COOPER_POOL_BROKEN p 1) 4 1

/-- Links still to be read in the pools of a mask are read before a request or a free that needs them (R228; log entry 138). -/
def readLinks (s : State) (mask : Nat) : State := ((upto 8).filter (fun p => mask.testBit p)).foldl readLink s

/-- Pool `p` serves requests: enabled and not broken. -/
def poolReady (s : State) (p : Nat) : Bool := poolEn s p && decide (regS s F.COOPER_POOL_BROKEN p = 0)

/-- The pools of a mask whose buffers are large enough, in ascending buffer size, ties to the lower number (R226). -/
def poolsFor (s : State) (bytes mask : Nat) : List Nat :=
  sortBy (fun a b => decide (poolSize s a < poolSize s b))
    ((upto 8).filter (fun p => mask.testBit p && poolReady s p && decide (bytes ≤ poolSize s p)))

/-- Take a buffer of pool `p`: the oldest free one in ring mode, the head in list mode, whose link is then to be read. -/
def takeFrom (s : State) (p o : Nat) (item : Option Nat) : State × Option Nat :=
  let q := pool s p
  let give (s : State) (i : Nat) : State × Option Nat :=
    (addR (modPool s p (fun q => { q with bufs := tset {} q.bufs i { (tget {} q.bufs i) with owner := some o, item := item } }))
      F.COOPER_ALLOCS 1, some (handleOf p i (buf s p i).gen))
  if regS s F.COOPER_POOL_CFG_LIST p = 0 then
    match q.free with
    | [] => (s, none)
    | i :: r => give (modPool s p (fun q => { q with free := r, cached := q.cached - 1 })) i
  else
    match q.head with
    | none => (s, none)
    | some i => give (modPool s p (fun q => { q with link := some i })) i

/-- A request for a buffer (R226): the first pool of the mask in which R225 allows one, or a counted failure. -/
def cooperAlloc (s0 : State) (o bytes mask : Nat) (item : Option Nat) : State × Option Nat :=
  let s := readLinks s0 mask
  match (poolsFor s bytes mask).find? (fun p => mayTake s p o) with
  | some p =>
    match takeFrom s p o item with
    | (t, some h) => (t, some h)
    | (_, none) => (addR s F.COOPER_CAPACITY_FAIL 1, none)
  | none => (addR s F.COOPER_CAPACITY_FAIL 1, none)

/-- A buffer returns to its pool and its generation rises (R224, R227, R228). -/
def giveBack (s0 : State) (p i : Nat) : State :=
  let s := readLink s0 p
  let s1 := modPool s p (fun q => { q with
    bufs := tset {} q.bufs i { owner := none, item := none, gen := ((tget {} q.bufs i).gen + 1) % 2 ^ 16 } })
  if regS s F.COOPER_POOL_CFG_LIST p = 0 then modPool s1 p (fun q => { q with free := q.free ++ [i] })
  else putHead (hbmPut s1 (bufAddr s p i) (linkWord s p (pool s p).head)) p (some i)

/-- A free names a handle; a stale handle or a buffer already free is ignored and counted (R229). -/
def cooperFree (s : State) (h : Nat) : State :=
  let p := handlePool h
  let b := buf s p (handleIdx h)
  if poolEn s p && decide (handleIdx h < poolCount s p) && b.owner.isSome && decide (b.gen = handleGen h) &&
      decide (h < 2 ^ 30)
  then giveBack s p (handleIdx h)
  else addR s F.COOPER_BAD_FREES 1

/-- An owner's buffers are freed in ascending index (R229). -/
def freeOwner (s : State) (o : Nat) : State :=
  (upto 8).foldl (fun t p =>
    ((pool t p).bufs.filter (fun e => e.2.owner = some o)).foldl (fun u e => giveBack u p e.1) t) s

/-- The buffers an item holds are freed in ascending index (R229). -/
def freeItem (s : State) (k : Nat) : State :=
  (upto 8).foldl (fun t p =>
    ((pool t p).bufs.filter (fun e => e.2.item = some k)).foldl (fun u e => giveBack u p e.1) t) s

/-- COOPER_ALLOCATION: a buffer request of `bytes` for `owner` under a pool mask (R226). -/
def execCooperAllocation (owner bytes mask : Nat) (s : State) : Out :=
  .next (whenLive s fun s => (cooperAlloc s owner bytes mask none).1)

/-- COOPER_FREE: a free returns a buffer to its pool, or is ignored as a bad free (R229). -/
def execCooperFree (handle : Nat) (s : State) : Out := .next (whenLive s fun s => cooperFree s handle)

/-- COOPER_REFILL: the cache of a ring-mode pool that holds fewer than 16 entries takes 32 handles from the free ring (R227). -/
def execCooperRefill (pool : Nat) (s : State) : Out :=
  .next (whenLive s fun s =>
    let q := Machine.pool s pool
    guardOn (poolEn s pool && decide (regS s F.COOPER_POOL_CFG_LIST pool = 0) && decide (q.cached < 16) &&
      decide (q.cached < q.free.length)) s fun s =>
      addR (modPool s pool (fun q => { q with
        cached := if q.cached + 32 ≤ q.free.length then q.cached + 32 else q.free.length })) F.COOPER_REFILLS 1)

/-- LIST_LINK_READ: the link of the head just allocated is read (R228). -/
def execListLinkRead (pool : Nat) (s : State) : Out := .next (whenLive s fun s => readLink s pool)

end Sys2Proof.Machine
end

