-- ==== Sys2Proof/Machine/Items.lean ====
section
/-!
DEFINITION. Sys2Proof/Machine/Items.lean: items and what they touch (11_dispatch_preemption_and_paging.md): the placement
map, plan-table entries, bindings with their shapes, ending an item with its JOB record, picture buffers, the safe state of
13_functional_safety.md R306.
-/

namespace Sys2Proof.Machine

/-! ## Placement (01 R14, R15; 18 SYS_PLACE_ACT) -/

/-- The active placement field of logical core `l`. -/
def placeFld (l : Nat) : Fld :=
  match l % 4 with
  | 0 => F.SYS_PLACE_ACT_PHYS_0
  | 1 => F.SYS_PLACE_ACT_PHYS_1
  | 2 => F.SYS_PLACE_ACT_PHYS_2
  | _ => F.SYS_PLACE_ACT_PHYS_3

/-- The staged placement field of logical core `l` (SYS_PLACE_k). -/
def placeStagedFld (l : Nat) : Fld :=
  match l % 4 with
  | 0 => F.SYS_PLACE_PHYS_0
  | 1 => F.SYS_PLACE_PHYS_1
  | 2 => F.SYS_PLACE_PHYS_2
  | _ => F.SYS_PLACE_PHYS_3

/-- Physical core of logical core `l` in the active map, if it is in service. -/
def physOf (s : State) (l : Nat) : Option Nat :=
  let v := getF s (placeFld l) 0 0 (l / 4)
  if l < 64 ∧ v < 72 then some v else none

/-- A spare is being put in logical core `l`'s place (13 Table 13-4). -/
def beingReplaced (s : State) (l : Nat) : Bool :=
  s.faults.reactions.any (fun e => match e.2 with
    | some r => decide (r.logical = some l) && r.spare.isSome
    | none => false)

/-- The logical core that physical core `p` stands for, if any. -/
def logicalCore (s : State) (p : Nat) : Option Nat := (upto 64).find? (fun l => decide (physOf s l = some p))

/-- The active map names physical core `v` for logical core `l` (127 for none); the core's own page follows. -/
def setPlace (s : State) (l v : Nat) : State :=
  let s1 := match physOf s l with
    | some p => setI s F.CORE_STATE_LOGICAL p 127
    | none => s
  let s2 := putF s1 (placeFld l) 0 0 (l / 4) v
  if v < 72 then setI s2 F.CORE_STATE_LOGICAL v l else s2

/-- In-service logical cores of cluster `k`. -/
def inService (s : State) (k : Nat) : Nat := ((rangeFrom (8 * k) 8).filter (fun l => (physOf s l).isSome)).length

/-- Plan ID `id` is that of an installed plan (R161). -/
def planInstalled (s : State) (id : Nat) : Bool :=
  decide ((planAt s (planIdx id)).st = .installed) && decide (planIdAt s (planIdx id) = id) && decide (id ≠ 0)

/-- Image flags (Table 7-1). -/
def PlanHdr.wholeTile (h : PlanHdr) : Bool := h.flags.testBit 0
def PlanHdr.autonomous (h : PlanHdr) : Bool := h.flags.testBit 1 && decide (h.cls = 1)
def PlanHdr.fabricPlan (h : PlanHdr) : Bool := h.flags.testBit 2
def PlanHdr.oneCluster (h : PlanHdr) : Bool := h.flags.testBit 3

/-- WCET(b) of entry `i` in ticks (R164); 0 beyond MAX_BATCH. -/
def wcetOf (s : State) (i b : Nat) : Nat := if b = 0 then 0 else nth 0 (planAt s i).wcet (b - 1)

/-- WCET(MAX_BATCH). -/
def wcetMax (s : State) (i : Nat) : Nat := wcetOf s i (planAt s i).img.hdr.maxBatch

/-- The image of an item's plan. -/
def imgOf (s : State) (e : Entry) : PlanImage := (planAt s (planIdx e.plan)).img

/-! ## Items -/

/-- The item with key `k`. -/
def item? (s : State) (k : Nat) : Option Item := s.disp.items.find? (fun i => i.key = k)

/-- The state with item `k` changed. -/
def modItem (s : State) (k : Nat) (f : Item → Item) : State :=
  { s with disp := { s.disp with items := s.disp.items.map (fun i => if i.key = k then f i else i) } }

/-- A new item enters at the end of the list, with the next key. -/
def addItem (s : State) (i : Item) : State :=
  { s with disp := { s.disp with items := s.disp.items ++ [{ i with key := s.disp.nextKey }],
                                 nextKey := s.disp.nextKey + 1 } }

/-- Is the item pinned? -/
def Item.isPinned (i : Item) : Bool := decide (i.e.cls = 1)

/-- Has it been launched and not ended? -/
def Item.launched (i : Item) : Bool :=
  match i.st with
  | .running => true
  | .saving => true
  | .out => true
  | .restoring => true
  | _ => false

/-! ## Bindings (R253, Table 11-2) -/

/-- A binding word decoded. -/
inductive Bind where
  | none
  | picture (slot seq : Nat)
  | live (port win frame : Nat)
  | host (d : Nat)
  | boxlist (slot : Nat) (detect : Bool) (seq : Nat)
  | region (idx out seq : Nat)
  | bad
deriving DecidableEq, Repr

/-- Table 11-2. -/
def bindOf (w : Nat) : Bind :=
  match w % 16 with
  | 0 => .none
  | 1 => .picture (bitsOf w 10 4) (bitsOf w 31 11)
  | 2 => .live (bitsOf w 6 4) (bitsOf w 11 7) (bitsOf w 31 16)
  | 3 => .host (bitsOf w 7 4)
  | 4 => .boxlist (bitsOf w 10 4) (w.testBit 11) (bitsOf w 31 16)
  | 5 => .region (bitsOf w 11 4) (bitsOf w 15 12) (bitsOf w 31 16)
  | _ => .bad

/-- Slot a binding names, for PICTURE, LIVE (slots 64 to 71) and BOXLIST. -/
def Bind.slot : Bind → Option Nat
  | .picture n _ => some n
  | .live p _ _ => some (64 + p)
  | .boxlist n _ _ => some n
  | _ => Option.none

/-- A stream slot. -/
def slotAt (s : State) (n : Nat) : SlotS := tget {} s.strm.slots n

/-- The state with a slot changed. -/
def modSlot (s : State) (n : Nat) (f : SlotS → SlotS) : State :=
  { s with strm := { s.strm with slots := tmod {} s.strm.slots n f } }

/-- The slot's state bit: open, and not closing (SLOT_STATE.STATE 1). -/
def slotOpen (s : State) (n : Nat) : Bool := (slotAt s n).isOpen && !(slotAt s n).closing

/-- Does binding `b` name picture object `p`? -/
def Bind.names (b : Bind) (p : Pic) : Bool :=
  match b, p.kind with
  | .picture n q, .decoded => decide (p.slot = n) && decide (p.seq % 2 ^ 21 = q)
  | .live n w f, .live v => decide (p.slot = 64 + n) && decide (v = w) && decide (p.seq % 2 ^ 16 = f)
  | _, _ => false

/-- The newest picture object a binding names. -/
def picOf (s : State) (b : Bind) : Option Pic := s.strm.pics.reverse.find? (fun p => b.names p)

/-- The newest box list a binding names. -/
def listOf (s : State) (b : Bind) : Option BoxList :=
  match b with
  | .boxlist n d q =>
    s.strm.lists.reverse.find? (fun l => decide (l.slot = n) && decide (l.detect = d) && decide (l.seq % 2 ^ 16 = q))
  | _ => Option.none

/-- How a binding stands: ready with its shape, still to wait for, or never to become ready. -/
inductive Ready where
  | ready (dims : List Nat)
  | wait
  | never
deriving DecidableEq, Repr

/-- Dimensions DIM[0] to DIM[3] of input-block descriptor `d`. -/
def hostDims (b : List Byte) (d : Nat) : List Nat :=
  (upto 4).map (fun i => unle ((b.drop (32 * d + 8 + 4 * i)).take 4))

/-- R253: is binding word `w` of item `it` ready, and with which shape? A PICTURE or LIVE binding of a repeat is named at its
launch Tally only (R272). -/
def bindReady (s : State) (it : Item) (w : Nat) : Ready :=
  let open? (n : Nat) (r : Ready) : Ready := if (slotAt s n).isOpen then r else .never
  match bindOf w with
  | .none => .ready []
  | .picture n q =>
    if it.isRepeat then open? n .wait else
    open? n (match picOf s (.picture n q) with
      | some p => if p.dead then .never else if p.ready then .ready [p.w, p.h] else .wait
      | Option.none => .wait)
  | .live n v f =>
    if it.isRepeat then open? (64 + n) .wait else
    open? (64 + n) (match picOf s (.live n v f) with
      | some p => if p.dead then .never else if p.ready then .ready [p.w, p.h] else .wait
      | Option.none => .wait)
  | .host d =>
    if it.e.input = 0 then .never
    else match it.inputF with
      | .done => .ready (hostDims it.inputB d)
      | .failed => .never
      | _ => .wait
  | .boxlist n d q =>
    open? n (match listOf s (.boxlist n d q) with
      | some l => .ready [l.boxes.length]
      | Option.none => .wait)
  | .region i o q =>
    if (planAt s i).st ≠ .installed then .never
    else match s.disp.outcomes.reverse.find? (fun x => decide (x.idx = i) && decide (x.seq = q)) with
      | some x => if x.isDone then .ready (nth [] x.dims o) else .never
      | Option.none => .wait
  | .bad => .never

/-- The states of every binding the plan uses, in order. -/
def bindStates (s : State) (it : Item) : List Ready := if it.golden then [] else it.e.bind.map (bindReady s it)

/-- Some binding can never become ready. -/
def anyNever (s : State) (it : Item) : Bool := (bindStates s it).any (fun r => decide (r = .never))

/-- Every binding is ready, and the perturbation table is read: a table that cannot be read fails the item (R73, R253; log entry
117). -/
def allReady (s : State) (it : Item) : Bool :=
  (bindStates s it).all (fun r => decide (r ≠ .wait) && decide (r ≠ .never)) && decide (it.perturbF ≠ .pending)

/-- The declaration of binding `i`. -/
def declOf (img : PlanImage) (i : Nat) : BindDecl := nth {} img.binds i

/-- Compare a shape with its maxima, dimension by dimension (R176); equal when the plan is WHOLE_TILE (R169). -/
def dimsOk (whole : Bool) : List Nat → List Nat → Bool
  | [], _ => true
  | _, [] => true
  | d :: ds, m :: ms => (if whole then decide (d = m) else decide (d ≤ m)) && dimsOk whole ds ms

/-- What the shape checks say of an item. -/
inductive ShapeRes where
  | ok | refused | empty
deriving DecidableEq, Repr

/-- R176 then R177 over the bindings with the given indices that are ready, and the batch. -/
def shapeCheck (s : State) (it : Item) (idxs : List Nat) : ShapeRes :=
  let img := imgOf s it.e
  let shapes := idxs.filterMap (fun i => match bindReady s it (nth 0 it.e.bind i) with
    | .ready d => some (i, d)
    | _ => Option.none)
  if img.hdr.maxBatch < it.e.batch || shapes.any (fun p => !dimsOk img.hdr.wholeTile p.2 (declOf img p.1).dims) then .refused
  else if it.e.batch = 0 || shapes.any (fun p => (declOf img p.1).primary && p.2.any (fun d => decide (d = 0))) then .empty
  else .ok

/-- Source Tally of the object a binding names, if it has one. -/
def bindSrc (s : State) (b : Bind) : Option Nat :=
  match b with
  | .picture _ _ => (picOf s b).map (fun p => p.src)
  | .live _ _ _ => (picOf s b).map (fun p => p.src)
  | .boxlist _ _ _ => (listOf s b).map (fun l => l.t)
  | _ => Option.none

/-- The PRIMARY bindings of an item, in ascending index. -/
def primaries (s : State) (it : Item) : List Bind :=
  (enumFrom 0 it.e.bind).filterMap (fun p => if (declOf (imgOf s it.e) p.1).primary then some (bindOf p.2) else Option.none)

/-- SOURCE_TALLY of the item's JOB record (Table 8-4). -/
def jobSrc (s : State) (it : Item) : Nat :=
  match (primaries s it).findSome? (bindSrc s) with
  | some t => t
  | Option.none => if it.decision ≠ 0 then it.decision else it.arrival

/-! ## Pictures in use (02 R41; log entry 16) -/

/-- Does any item, or one waiting for its relaunch (13 R312), bind the picture? -/
def picBound (s : State) (p : Pic) : Bool :=
  let uses (i : Item) : Bool := i.e.bind.any (fun w => (bindOf w).names p)
  s.disp.items.any uses ||
    s.faults.reactions.any (fun r => match r.2 with
      | some x => x.items.any uses
      | Option.none => false)

/-- Pictures that neither the slot nor an item holds free their buffers; from then on they can never become ready. -/
def sweepPics (s : State) : State :=
  let gone := s.strm.pics.filter (fun p => p.ready && !p.held && !p.dead && !picBound s p)
  let s1 := gone.foldl (fun t p => if p.handle < 2 ^ 30 then cooperFree t p.handle else t) s
  { s1 with strm := { s1.strm with pics := s1.strm.pics.map (fun p =>
      if p.ready && !p.held && !p.dead && gone.contains p then { p with dead := true } else p) } }

/-! ## Ending an item -/

/-- Cycles with an item running are counted when the core's part of it ends (CORE_BUSY; two cycles in a tick). -/
def countBusy (s : State) (p : Nat) : State :=
  if (core s p).item.isSome ∧ regI s F.CORE_STATE_STATE p ≠ 3 then
    addPairI s F.CORE_BUSY_LO F.CORE_BUSY_HI p (2 * (s.now - (core s p).busyFrom)) else s

/-- A core has no item: the loop engine is empty and the page says idle. Bins and table store stay, and the resident tag but that of a plan
whose claims have been released (R163). -/
def clearCore (s : State) (p : Nat) : State :=
  removedTag (setI (setI (modCore (countBusy s p) p (fun c => { c with
    item := none, loops := [], tokens := 0, tokAt := [], pc := 0, issueAt := 0, blocked := none, preempt := none, atBnd := none,
    stopped := false, credits := 0, flights := [], arrayTail := none, drain := [], scratch := [], vregs := [] })) F.CORE_STATE_STATE p 0) F.CORE_STATE_PINNED p 0) p

/-- The cores of an item become free (those it still holds). -/
def freeCores (s : State) (k : Nat) (ls : List Nat) : State :=
  ls.foldl (fun t l => match physOf t l with
    | some p => if (core t p).item = some k then clearCore t p else t
    | Option.none => t) s

/-- CARTER_STATE counts of the context table. -/
def refreshCtx (s : State) : State :=
  setR (setR s F.CARTER_STATE_FREE (1024 - (s.ctxs.filter (fun e => decide (e.2.st ≠ .free))).length))
    F.CARTER_STATE_COLD (s.ctxs.filter (fun e => decide (e.2.st = .cold) || decide (e.2.place = .cold))).length

/-- The contexts of an item are discarded. -/
def dropCtxs (s : State) (k : Nat) : State :=
  let gone := s.ctxs.filter (fun e => decide (e.2.item = k))
  refreshCtx { s with ctxs := s.ctxs.filter (fun e => decide (e.2.item ≠ k)),
                      ctxCores := gone.foldl (fun t e => terase t e.1) s.ctxCores }

/-- The claims of a plan that is being removed are released, and its buffers and recorded outcomes go (R163, 09 R229); the resident tags
are cleared at once on cores with no item, on the others when their items end. -/
def releasePlan (s : State) (i : Nat) : State :=
  let s1 := modPlan s i (fun p => { p with released := true, claim := none })
  let s2 := { s1 with claims := s1.claims.filter (fun c => decide (c.owner ≠ i)),
                      disp := { s1.disp with outcomes := s1.disp.outcomes.filter (fun x => decide (x.idx ≠ i)),
                                             repeats := s1.disp.repeats.filter (fun x => decide (x.idx ≠ i)) } }
  let s3 := addR (dropMinima (freeOwner s2 (256 + i)) (256 + i)) F.PLAN_FREE_HBM (planAt s i).img.hdr.hbmKib
  settleEntry ((upto 72).foldl (fun t p => if (core t p).item.isNone then removedTag t p else t) s3) i

/-- A removing entry whose last launched item has ended releases its claims (R163). -/
def settlePlan (s : State) (i : Nat) : State :=
  if (planAt s i).st = .removing ∧ (planAt s i).running = 0 ∧ !(planAt s i).released then releasePlan s i else s

/-- PLAN counters at an item's end (07, PLAN_n counters). -/
def countEnd (s : State) (i status : Nat) : State :=
  if status = 1 then addS s F.PLAN_LATE i 1
  else if status = 2 then addS s F.PLAN_EMPTY i 1
  else if status = 0x201 then addS s F.PLAN_REFUSED i 1
  else s

/-- What the item's JOB record says. -/
def jobOf (s : State) (it : Item) (status reason : Nat) : Job :=
  { seq := it.e.seq, plan := it.e.plan, status := status, batch := it.e.batch, cls := it.e.cls, reason := reason,
    cores := it.ranMask, launch := it.launchT, run := if it.launched then s.now - it.launchT else 0,
    delay := it.delay + (match it.stopAt with
      | some t => s.now - t
      | Option.none => 0),
    session := it.e.session, spills := it.spills, flags := it.flags, src := jobSrc s it, ring := it.e.ring }

/-- In D3hot without watch mode, once the last item has ended, the Granary banks are switched off (16 R391). -/
def d3Settle (s : State) : State :=
  if s.d0 || flag s F.PCIE_POWER_WATCH || s.disp.items.any (fun i => i.launched) then s
  else (upto 8).foldl (fun t k => refreshDark ((upto 17).foldl (fun u p =>
      if (clu u k).offBanks.testBit p then u else switchOff u (72 + 17 * k + p)) t) k) s

/-- The busy ticks of Sickle stages that end with their item. -/
def countSickle (s : State) (k : Nat) : State :=
  (upto 2).foldl (fun t u => match (tget ({} : SickleS) s.shape.sickle u).stage with
    | some g => if g.item = k then addI t F.SICKLE_BUSY u (s.now - g.start) else t
    | Option.none => t) s

/-- What an item held is given back. A refused pinned item's cores stay held to the end of its window, those of one that
ended are free (R257). `keep` leaves the Cooper buffers bound for a relaunch (13 R312). -/
def releaseItem (s : State) (it : Item) (status : Nat) (keep : Bool) : State :=
  let k := it.key
  let s1 := freeCores (countSickle s k) k it.cores
  let hi := ((s.disp.resv.filter (fun r => decide (r.item = k))).map (fun r => r.hi))
  let s2 := { s1 with disp := { s1.disp with
    items := s1.disp.items.filter (fun i => decide (i.key ≠ k)),
    holds := if status / 256 = 2 ∧ it.st = ItemSt.decided then
        s1.disp.holds.map (fun (h : Hold) => if h.item = k then { h with until_ := some (maxOf hi) } else h)
      else s1.disp.holds.filter (fun h => decide (h.item ≠ k)) } }
  let s3 := { s2 with
    shape := { s2.shape with
      done := s2.shape.done.filter (fun d => decide (d.1 ≠ k)),
      crops := s2.shape.crops.filter (fun c => decide (c.item ≠ k)),
      scaler := s2.shape.scaler.filter (fun g => decide (g.item ≠ k)),
      sickle := s2.shape.sickle.filter (fun u => (u.2.stage.map (fun (g : StageS) => decide (g.item ≠ k))).getD true) },
    fab := { s2.fab with
      units := s2.fab.units.filter (fun (u : XUnit) => decide (u.item ≠ k)),
      started := s2.fab.started.filter (fun x => decide (x.1 ≠ k)) } }
  let s4 := dropCtxs s3 k
  let s5 := if keep then s4 else freeItem s4 k
  let i := planIdx it.e.plan
  let s6 := if it.launched then settlePlan (modPlan s5 i (fun p => { p with running := p.running - 1 })) i else s5
  d3Settle (sweepPics s6)

/-- An item ends with `status` (R255): one JOB record, unless it is a golden item, which is no ledger entry (13 R320); how it
ended stands for REGION bindings with the shapes `dims` of its outputs; everything it held is released. -/
def closeItem (s : State) (k status reason : Nat) (dims : List (List Nat)) (keep : Bool) : State :=
  match item? s k with
  | Option.none => s
  | some it =>
    let s1 := if it.golden then s else pushJob s (jobOf s it status reason)
    let i := planIdx it.e.plan
    let s2 := if it.golden then s1 else
      { s1 with disp := { s1.disp with
        outcomes := s1.disp.outcomes.filter (fun x => !(decide (x.idx = i) && decide (x.seq = it.e.seq % 2 ^ 16))) ++
          [{ idx := i, seq := it.e.seq % 2 ^ 16, isDone := isDone status, dims := dims }] } }
    let s3 := if it.golden then s2 else countEnd s2 i status
    let s4 := if status / 256 = 2 then addR s3 F.DISP_REFUSED 1 else s3
    releaseItem s4 it status keep

/-- Where the waiting items stand after something has become ready or can never become so: an item with a binding that can
never become ready is refused at once (R253), one whose table or input block could not be read fails (R253, R73), and the
tick at which the last binding became ready is kept (R260). -/
def settleItems : Nat → State → State
  | 0, s => s
  | n + 1, s =>
    let waits (i : Item) : Bool := !i.launched && !i.golden
    match s.disp.items.find? (fun i => waits i && (decide (i.inputF = .failed) || decide (i.perturbF = .failed))) with
    | some i => settleItems n (closeItem s i.key 0x303 0 [] false)
    | Option.none =>
      match s.disp.items.find? (fun i => waits i && anyNever s i) with
      | some i => settleItems n (closeItem s i.key 0x206 0 [] false)
      | Option.none =>
        { s with disp := { s.disp with items := s.disp.items.map (fun (i : Item) =>
          if i.ready.isNone ∧ waits i ∧ allReady s i then { i with ready := some s.now } else i) } }

/-- Let the items settle. -/
def settle (s : State) : State := settleItems (s.disp.items.length + 1) s

/-- An item ends, and the items that wait for it settle. -/
def endItemWith (s : State) (k status reason : Nat) (dims : List (List Nat)) (keep : Bool) : State :=
  settle (closeItem s k status reason dims keep)

/-- An item ends without outputs. -/
def endItem (s : State) (k status : Nat) : State := endItemWith s k status 0 [] false

/-- Every item for which `p` holds ends with `status`, in order; then the others settle. -/
def endItems (s : State) (p : Item → Bool) (status : Nat) : State :=
  settle ((s.disp.items.filter p).foldl (fun t i => closeItem t i.key status 0 [] false) s)

/-! ## Journal full (R274) and the safe state (13 R306) -/

/-- The device is in journal full. -/
def State.journalFull (s : State) : Bool := flag s F.SYS_STATUS_JOURNAL_FULL

/-- The device is in the safe state. -/
def State.inSafe (s : State) : Bool := flag s F.SYS_STATUS_SAFE

/-- The dispatcher launches nothing: journal full, the safe state, main power being turned off, or HBM in self-refresh
(R274, R306, 16 R391, R393). -/
def State.noLaunch (s : State) : Bool :=
  s.journalFull || s.inSafe || s.pcie.turnedOff

/-- Entry into the safe state (13 R306): running items end FAILED_CORE, queued items REFUSED_CAPACITY, a SAF record gives the
cause code, whose numbers the spec does not state (a free value), FAULT_N is asserted. SERVICE is left (07 Table 7-4), for RECOVERY, in which the
safe state ends (log entry 136). -/
def enterSafe (s : State) : State :=
  if s.inSafe then s
  else
    let cause := (fresh s).1
    let s := (fresh s).2
    let n := (s.disp.items.filter (fun i => i.launched)).length
    let s1 := (s.disp.items.filter (fun i => i.launched)).foldl (fun t i => closeItem t i.key 0x301 0 [] false) s
    let s2 := endItems s1 (fun _ => true) 0x202
    let s3 := setR (if s2.phase = 1 then setPhase s2 3 else { s2 with sec := { s2.sec with testFrom := 3 } }) F.SYS_STATUS_SAFE 1
    latchFault (safNow s3 0x15 2 0 0 0 cause n) F.REEVE_FAULT_SAFE_STATE

end Sys2Proof.Machine
end

