-- ==== Sys2Proof/Machine/Records.lean ====
section
/-!
DEFINITION. Sys2Proof/Machine/Records.lean: the record writer (08_tracking_and_metadata.md R199 to R202), the orphan journal
(11_dispatch_preemption_and_paging.md R273, R274), Reeve (13_functional_safety.md R314 to R316) and wake events (16 R392).
-/

namespace Sys2Proof.Machine

/-! ## Reeve -/

/-- State of pipeline `p`. -/
def pipe (s : State) (p : Nat) : ReeveP := tget {} s.reeve p

/-- A breach of pipeline `p` (R315): `src` is the SAF record's SOURCE_TALLY, that of the late result or the detection tick (Table
8-4). -/
def breach (s : State) (p code detail src : Nat) (cnt : Fld) : State :=
  let s1 := saf (addR s cnt 1) code 1 8 p (regS s F.REEVE_CFG_PLAN p) detail 0 src
  let w := if p < 32 then F.REEVE_BREACH_LO else F.REEVE_BREACH_HI
  let s2 := setR s1 w (setBit (reg s1 w) (p % 32))
  let s3 := if regS s2 F.REEVE_CFG_FAULT p ≠ 0 then latchFault s2 F.REEVE_FAULT_BREACH else s2
  if regS s3 F.REEVE_CFG_SAFE p ≠ 0 then enterSafe s3 else s3

/-- A result of plan `plan` with source Tally `src` is taken: each pipeline of the plan measures its age (R314). -/
def reeveResult (s : State) (plan src : Nat) : State :=
  (upto 64).foldl (fun t p =>
    if regS t F.REEVE_CFG_EN p ≠ 0 ∧ regS t F.REEVE_CFG_PLAN p = plan then
      let age := t.now - src
      let old := regS t F.REEVE_AGE p ≠ 0 ∧ regS t F.REEVE_AGE p < age
      let t1 := putF (addR t F.REEVE_RESULTS 1) F.REEVE_LAST_AGE 0 0 p age
      let t2 := { t1 with reeve := tset {} t1.reeve p { since := t1.now, last := t1.now, live := true, bad := false } }
      if old then breach t2 p 8 age src F.REEVE_AGE_BREACHES else t2
    else t) s

/-- PERIOD_BREACH: REEVE_PERIOD ticks have passed since the later of the last result, the last breach and the enable
(R314). -/
def execPeriodBreach (pipe : Nat) (s : State) : Out :=
  .next (whenLive s fun s =>
    let r := Machine.pipe s pipe
    let per := regS s F.REEVE_PERIOD pipe
    guardOn (decide (pipe < 64) && decide (regS s F.REEVE_CFG_EN pipe ≠ 0) && decide (per ≠ 0) && r.live &&
      decide (s.now ≥ r.since + per)) s fun s =>
      breach { s with reeve := tset {} s.reeve pipe { r with since := r.since + per, bad := true } } pipe 9 (s.now - r.last) s.now
        F.REEVE_PERIOD_BREACHES)

/-- R316: latched causes whose condition has ended are released. An age breach ends with the result that raised it, a period breach
with the next result (log entry 114); the other latched causes end when nothing they stand for is open. -/
def clearFaults (s : State) : State :=
  let badPipe := (upto 64).any (fun p => (pipe s p).bad && decide (regS s F.REEVE_CFG_EN p ≠ 0) &&
    decide (regS s F.REEVE_CFG_FAULT p ≠ 0))
  let off (s : State) (f : Fld) (c : Bool) : State := if c then s else setR s f 0
  let s1 := off s F.REEVE_FAULT_BREACH badPipe
  let s2 := (upto 64).foldl (fun t p =>
    if (pipe s p).bad then t else
      let w := if p < 32 then F.REEVE_BREACH_LO else F.REEVE_BREACH_HI
      setR t w (clrBit (reg t w) (p % 32))) s1
  let s3 := off s2 F.REEVE_FAULT_LATENT_OVERDUE (!s.winnow.overdueOpen.isEmpty)
  let s4 := off s3 F.REEVE_FAULT_GOLDEN_MISMATCH (!s.winnow.goldenBad.isEmpty)
  driveFault (off s4 F.REEVE_FAULT_FINDING (!s.winnow.findings.isEmpty))

/-! ## Wake events (16 R392) -/

/-- Type, EVT kind and SAF severity of a record's bytes. -/
def recType (b : List Byte) : Nat := (nth 0 b 0).toNat
def recKind (b : List Byte) : Nat := unle ((b.drop 16).take 2)
def recSev (b : List Byte) : Nat := (nth 0 b 18).toNat

/-- Does a record match a source of PCIE_WATCH? -/
def isWake (s : State) (b : List Byte) : Bool :=
  (decide (recType b = 6) && flag s F.PCIE_WATCH_SAF && decide (reg s F.PCIE_WATCH_SAF_MIN ≤ recSev b)) ||
  (decide (recType b = 2) &&
    ((decide (recKind b = 1) && flag s F.PCIE_WATCH_CONFIRMED) || (decide (recKind b = 2) && flag s F.PCIE_WATCH_LOST) ||
      (decide (256 ≤ recKind b) && flag s F.PCIE_WATCH_PLAN_EVT)))

/-- A wake event. -/
def wake (s : State) : State :=
  let s1 := addR { s with pcie := { s.pcie with pmeStatus := true } } F.PCIE_WAKES 1
  let s2 := if s1.pcie.pmeEn then emit s1 .pmPme else s1
  if flag s2 F.PCIE_WATCH_PIN then setR { s2 with power := { s2.power with wakeN := true } } F.PCIE_POWER_WAKE 1 else s2

/-! ## Byte rings -/

/-- Bytes a record takes: a multiple of 16 (R197). -/
def recSpan (n : Nat) : Nat := cdiv n 16 * 16

/-- Where a record of `n` bytes goes in a byte ring of `size` bytes at write index `w`: the PAD before it and the index at
which it starts (R199). -/
def place (size w n : Nat) : Nat × Nat :=
  let pos := w % size
  if pos + n ≤ size then (0, w) else (size - pos, w + (size - pos))

/-- Free space of a byte ring (R200): size − (write − read), mod 2^32. -/
def freeIn (size w r : Nat) : Nat := size - (w + 2 ^ 32 - r) % 2 ^ 32

/-- PAD record to the end of the ring. -/
def padBytes (n : Nat) : List Byte := recHdr 0 n 0xFFFF 0 0 ++ List.replicate (n - 16) 0

/-- A record of `n` bytes fits the free space, PAD included. -/
def fits (size w r n : Nat) : Bool := decide ((place size w n).1 + recSpan n ≤ freeIn size w r)

/-! ## Orphan journal -/

/-- The journal's size in bytes. -/
def journalSize (s : State) : Nat := reg s F.DISP_JOURNAL_SIZE * 1024

/-- Free journal space. -/
def journalFree (s : State) : Nat := freeIn (journalSize s) (reg s F.DISP_JOURNAL_WIDX) (reg s F.DISP_JOURNAL_RIDX)

/-- The journal takes a record of `n` bytes. -/
def journalFits (s : State) (n : Nat) : Bool :=
  fits (journalSize s) (reg s F.DISP_JOURNAL_WIDX) (reg s F.DISP_JOURNAL_RIDX) n

/-- A record of ring `k` is written to the journal; RING_ORPHANED counts it; below 1 MiB the device enters journal full
(R273, R274, R201). -/
def journalPut (s : State) (k : Nat) (b : List Byte) : State :=
  let sz := journalSize s
  let w := reg s F.DISP_JOURNAL_WIDX
  let (pad, at_) := place sz w b.length
  let s1 := if pad = 0 then s else hbmPut s (journalBase + w % sz) (padBytes pad)
  let s2 := hbmPut s1 (journalBase + at_ % sz) b
  let s3 := addR (setR s2 F.DISP_JOURNAL_WIDX (at_ + recSpan b.length)) F.RING_ORPHANED 1
  let s4 := { s3 with out := { s3.out with rings := tmod {} s3.out.rings k (fun (r : RingS) => { r with
      diverted := r.diverted + 1,
      firstTick := if r.diverted = 0 then s.now else r.firstTick,
      firstIdx := if r.diverted = 0 then at_ % 2 ^ 32 else r.firstIdx,
      lastIdx := at_ % 2 ^ 32 }) } }
  if journalFree s4 < 2 ^ 20 ∧ ¬ s4.journalFull then raiseInt (setR s4 F.SYS_STATUS_JOURNAL_FULL 1) 2 4 else s4

/-! ## Result rings -/

/-- A ring's own state. -/
def ringAt (s : State) (k : Nat) : RingS := tget {} s.out.rings k

/-- The state with ring `k` changed. -/
def modRing (s : State) (k : Nat) (f : RingS → RingS) : State :=
  { s with out := { s.out with rings := tmod {} s.out.rings k f } }

/-- Is the ring enabled? -/
def ringEn (s : State) (k : Nat) : Bool := regS s F.TRACK_RING_CFG_EN k ≠ 0

/-- The ring has room for a record of `n` bytes, and the device may write. -/
def ringFits (s : State) (k n : Nat) : Bool :=
  ringEn s k && s.canIssue && fits (ringSpan s k).2 (regX s F.RING_WIDX k) (regX s F.RING_RIDX k) n

/-- Bytes in an overflow queue. -/
def ovfBytes (l : List Rec) : Nat := sumN (l.map (fun r => recSpan r.bytes.length))

/-- A ring's overflow queue is replaced; RING_STATE.OVF_BYTES follows, in 16-byte units (log entry 115). -/
def setOvf (s : State) (k : Nat) (l : List Rec) : State :=
  setS (modRing s k (fun r => { r with ovf := l })) F.RING_STATE_OVF_BYTES k (ovfBytes l / 16)

/-- A message of ring `k` is one of every ring that shares its vector: none of their records still waits for a message (R202). -/
def vectorRings (s : State) (k : Nat) : State :=
  ((upto 16).filter (fun j => decide (regS s F.RING_IRQ_VECTOR j = regS s F.RING_IRQ_VECTOR k))).foldl (fun t j =>
    modRing t j (fun r => { r with unsig := 0, firstUnsig := 0, safUnsig := false })) s

/-- The ring's message is sent when one of the conditions of R202 holds. -/
def ringSignal (s : State) (k : Nat) : State :=
  let r := ringAt s k
  let c := regS s F.RING_IRQ_COUNT k
  let t := regS s F.RING_IRQ_TIMER k
  if r.unsig ≠ 0 ∧ c ≠ 0 ∧ s.pcie.msixEn ∧ (c ≤ r.unsig ∨ t = 0 ∨ r.safUnsig ∨ r.firstUnsig + 256 * t ≤ s.now) then
    sendMsix (vectorRings s k) (regS s F.RING_IRQ_VECTOR k)
  else s

/-- A record is written to its ring, with a PAD record where it would wrap, then the write index, then the message (R28,
R199, R202). -/
def ringWrite (s : State) (k : Nat) (b : List Byte) : State :=
  let base := (ringSpan s k).1
  let sz := (ringSpan s k).2
  let w := regX s F.RING_WIDX k
  let (pad, at_) := place sz w b.length
  let s1 := if pad = 0 then s else hostWrite s (base + w % sz) (padBytes pad)
  let s2 := hostWrite s1 (base + at_ % sz) b
  let s3 := setX s2 F.RING_WIDX k (at_ + recSpan b.length)
  let s4 := hostWrite s3 (pairS s3 F.WIDX_ADDR_LO F.WIDX_ADDR_HI k) (le 4 (regX s3 F.RING_WIDX k))
  let s5 := modRing s4 k (fun r => { r with
    unsig := r.unsig + 1, firstUnsig := if r.unsig = 0 then s.now else r.firstUnsig,
    safUnsig := r.safUnsig || decide (recType b = 6) })
  ringSignal s5 k

/-- A record enters the ring, or the overflow queue of 256 KiB behind earlier ones; `none` when neither takes it. -/
def ringTake (s : State) (k : Nat) (r : Rec) : Option State :=
  let q := (ringAt s k).ovf
  if q.isEmpty && ringFits s k r.bytes.length then some (ringWrite s k r.bytes)
  else if ovfBytes q + recSpan r.bytes.length ≤ 262144 then
    some (setOvf (addR s F.RING_OVERFLOWS 1) k (q ++ [r]))
  else none

/-- The ORPHANED record of a ring (Table 8-7 kind 9, Table 8-4). -/
def orphanRec (k : Nat) (r : RingS) : Rec :=
  { ring := k, bytes := evtBytes 0xFFFF r.firstTick 9 0 0 r.diverted (r.firstIdx + 2 ^ 32 * r.lastIdx) }

/-- Before any later record of a ring that is enabled, the ORPHANED record is placed, once there is room (R201). -/
def tellOrphans (s : State) (k : Nat) : State :=
  let r := ringAt s k
  if r.diverted = 0 ∨ ¬ ringEn s k ∨ ¬ s.d0 then s
  else match ringTake s k (orphanRec k r) with
    | some t => modRing t k (fun r => { r with diverted := 0, firstTick := 0, firstIdx := 0, lastIdx := 0 })
    | none => s

/-- The overflow queue drains into the ring in order while there is room (R201). -/
def drainRing (k : Nat) : Nat → State → State
  | 0, s => s
  | n + 1, s =>
    match (ringAt s k).ovf with
    | [] => tellOrphans s k
    | r :: rest =>
      if ringFits s k r.bytes.length then drainRing k n (setOvf (ringWrite s k r.bytes) k rest) else s

/-- Drain ring `k` as far as there is room. -/
def drain (s : State) (k : Nat) : State := drainRing k ((ringAt s k).ovf.length + 1) s

/-- The head record goes to the journal, or stays at the head when the journal has no space for it (R274). Encoder output is never
written to the journal (03 R81): a CLIP record is dropped (log entry 130). -/
def toJournal (s : State) (r : Rec) : Option State :=
  if recType r.bytes = 7 then some s
  else if journalFits s r.bytes.length then some (journalPut s r.ring r.bytes) else none

/-- Where the head record goes (R201; 16 R391 in D3hot). -/
def takeRec (s : State) (r : Rec) : Option State :=
  if r.orphan || !ringEn s r.ring || !s.d0 then toJournal s r
  else
    let s1 := tellOrphans s r.ring
    if (ringAt s1 r.ring).diverted ≠ 0 then toJournal s1 r
    else match ringTake s1 r.ring r with
      | some t => some t
      | none => toJournal s1 r

/-- What a taken record sets off: Reeve's check of a result, a wake event in watch mode. -/
def afterTake (s : State) (r : Rec) : State :=
  let s1 := match r.result with
    | some (plan, src) => reeveResult s plan src
    | none => s
  if !s1.d0 && flag s1 F.PCIE_POWER_WATCH && isWake s1 r.bytes then wake s1 else s1

/-- RECORD_WRITE: the record writer takes the oldest record not yet placed (R199 to R201). -/
def execRecordWrite (s : State) : Out :=
  .next (whenLive s fun s =>
    match s.out.recq with
    | [] => s
    | r :: rest =>
      match takeRec { s with out := { s.out with recq := rest } } r with
      | some t => afterTake t r
      | none => s)

/-- RING_IRQ_TIMER: TIMER × 256 ticks have passed since the first unsignalled record (R202). -/
def execRingIrqTimer (ring : Nat) (s : State) : Out :=
  .next (whenLive s fun s => guardOn (decide (ring < 16)) s fun s => ringSignal s ring)

/-- A host write of RING_k_RIDX (R200). -/
def writeRidx (s : State) (k v : Nat) : State :=
  let v := v % 2 ^ 32
  if (regX s F.RING_WIDX k + 2 ^ 32 - v) % 2 ^ 32 ≤ (ringSpan s k).2 then drain (setX s F.RING_RIDX k v) k
  else setS s F.RING_STATE_RIDX_ERR k 1

/-- RING_RIDX_WRITE: consumed bytes free ring space and drain the overflow queue, or the write is ignored (R200, R201). -/
def execRingRidxWrite (ring idx : Nat) (s : State) : Out :=
  .next (whenLive s fun s => guardOn (decide (ring < 16) && pageUp s 15) s fun s => writeRidx s ring idx)

/-- A host write of DISP_JOURNAL_RIDX (R273); above 2 MiB free, journal full ends (R274). -/
def writeJournalRidx (s : State) (v : Nat) : State :=
  let v := v % 2 ^ 32
  if (reg s F.DISP_JOURNAL_WIDX + 2 ^ 32 - v) % 2 ^ 32 ≤ journalSize s then
    let s1 := setR s F.DISP_JOURNAL_RIDX v
    if 2 ^ 21 < journalFree s1 then setR s1 F.SYS_STATUS_JOURNAL_FULL 0 else s1
  else raiseInt s 2 8

/-- DISP_JOURNAL_RIDX_WRITE (R273). -/
def execDispJournalRidxWrite (idx : Nat) (s : State) : Out :=
  .next (whenLive s fun s => guardOn (pageUp s 2) s fun s => writeJournalRidx s idx)

/-- The records waiting in the overflow queue of a ring that is disabled go to the journal in order; those that find no space
stay ahead of every later record (R201). -/
def orphanQueue (s : State) (k : Nat) : State :=
  let q := (ringAt s k).ovf
  let s1 := setOvf s k []
  let s2 := { s1 with out := { s1.out with
    recq := q.map (fun (r : Rec) => { r with orphan := true }) ++ s1.out.recq } }
  (q.foldl (fun (a : State × Bool) _ =>
    if a.2 then a else
      match a.1.out.recq with
      | [] => a
      | r :: rest =>
        match toJournal { a.1 with out := { a.1.out with recq := rest } } r with
        | some t => (t, false)
        | none => (a.1, true)) (s2, false)).1

/-- The device disables a ring: EN reads 0, and the overflow queue goes to the journal (R201, 11 R271, 16 R388). -/
def disableRing (s : State) (k : Nat) : State := orphanQueue (putBoth s F.TRACK_RING_CFG_EN 0 k 0 0) k

/-- A ring is enabled: both indices become 0, and 0 is written to WIDX_ADDR before any record (R200). The ring starts empty, so no
record of it waits for its message (R202), and has room for the ORPHANED record that is due (R201). -/
def enableRing (s : State) (k : Nat) : State :=
  let s1 := setX (setX (modRing s k (fun r => { r with unsig := 0, firstUnsig := 0, safUnsig := false })) F.RING_WIDX k 0)
    F.RING_RIDX k 0
  tellOrphans (hostWrite s1 (pairS s1 F.WIDX_ADDR_LO F.WIDX_ADDR_HI k) (le 4 0)) k

end Sys2Proof.Machine
end

