-- ==== Sys2Proof/Machine/Cores.lean ====
section
/-!
DEFINITION. Sys2Proof/Machine/Cores.lean: a core at the launch of an item (04_compute_core.md R102, R103), launching an item
on its cores, resident tags, retiring a core, relaunch (13_functional_safety.md R311).
-/

namespace Sys2Proof.Machine

/-! ## Bins (Table 4-9) -/

/-- Bytes of a row. -/
def Bin.row : Bin → Nat
  | .weight => 128
  | .act => 256
  | .psum => 512

/-- Rows of a bin. -/
def Bin.rows : Bin → Nat
  | .weight => 1024
  | .act => 768
  | .psum => 128

/-- Number of a bin in keys. -/
def Bin.num : Bin → Nat
  | .weight => 0
  | .act => 1
  | .psum => 2

/-- Memory of a bin. -/
def CoreS.bin (c : CoreS) : Bin → Mem
  | .weight => c.wbin
  | .act => c.abin
  | .psum => c.pbin

/-- The core with a bin's memory replaced. -/
def CoreS.setBin (c : CoreS) (b : Bin) (m : Mem) : CoreS :=
  match b with
  | .weight => { c with wbin := m }
  | .act => { c with abin := m }
  | .psum => { c with pbin := m }

/-- Key of a row's written bit. -/
def rowKey (b : Bin) (row : Nat) : Nat := b.num * 4096 + row

/-- Is row `r` of the weight bin inside a resident region? -/
def CoreS.isResident (c : CoreS) (r : Nat) : Bool := c.resident.any (fun x => decide (x.1 ≤ r) && decide (r < x.1 + x.2))

/-! ## Launch -/

/-- The loop engine starts an item: written bits outside resident regions are cleared, nothing else survives but residents
and the tables of the same plan (R102, R103); the first instruction issues at L + 48 (07 R164). -/
def CoreS.start (c : CoreS) (key rank plan mask l : Nat) : CoreS :=
  { wbin := c.wbin, abin := c.abin, pbin := c.pbin,
    written := tfilter (fun k => decide (k < 4096) && c.isResident k) c.written,
    resident := c.resident, wbq := c.wbq, wbAt := c.wbAt,
    tstore := if c.tstorePlan = plan then c.tstore else [], tstorePlan := plan,
    item := some key, rank := rank, launched := l, busyFrom := l, issueAt := l + 48, psumMask := mask }

/-- Core `p` starts item `it` as rank `r` at Tally `l`. -/
def startCore (s : State) (p : Nat) (it : Item) (r l : Nat) : State :=
  let s1 := modCore s p (fun c => c.start it.key r it.e.plan (regI s F.CORE_PSUM_MASK p) l)
  let s2 := setI (setI s1 F.CORE_STATE_STATE p 1) F.CORE_STATE_PINNED p (bnat it.isPinned)
  setI (setI s2 F.CORE_STATE_PLAN p it.e.plan) F.CORE_ITEM p it.e.seq

/-- Cores per cluster of a set of logical cores. -/
def clusterCount (ls : List Nat) : List (Nat × Nat) :=
  (upto 8).filterMap (fun k =>
    let n := (ls.filter (fun l => decide (l / 8 = k))).length
    if n = 0 then none else some (k, n))

/-- Bit mask of a set of logical cores. -/
def maskOf (ls : List Nat) : Nat := ls.foldl setBit 0

/-- Item `k` is launched on logical cores `ls` (ascending) at Tally `l`. -/
def launchItem (s : State) (k : Nat) (ls : List Nat) (l : Nat) : State :=
  match item? s k with
  | none => s
  | some it =>
    let i := planIdx it.e.plan
    let s1 := modItem s k (fun x => { x with
      st := .running, launchT := l, cores := ls, ranMask := x.ranMask.lor (maskOf ls), clusterSet := clusterCount ls,
      stopAt := none })
    let s2 := modPlan s1 i (fun p => { p with running := p.running + 1 })
    let s3 := if it.golden then s2 else
      addR (addS s2 F.PLAN_LAUNCHES i 1) (if it.isPinned then F.DISP_LAUNCH_PINNED else F.DISP_LAUNCH_POOLED) 1
    (enumFrom 0 ls).foldl (fun t rl => match physOf t rl.2 with
      | some p => startCore t p it rl.1 l
      | none => t) s3

/-! ## Relaunch (R311) -/

/-- The pipeline that watches a plan, if any. -/
def pipeOf (s : State) (plan : Nat) : Option Nat :=
  (upto 64).find? (fun p => decide (regS s F.REEVE_CFG_EN p ≠ 0) && decide (regS s F.REEVE_CFG_PLAN p = plan))

/-- Two windows overlap. -/
def overlap (a b c d : Nat) : Bool := decide (a < d) && decide (c < b)

/-- A reservation of another pinned item meets [lo, hi) on one of the cores; golden windows never block. -/
def resvMeets (s : State) (k : Nat) (ls : List Nat) (lo hi : Nat) : Bool :=
  s.disp.resv.any (fun r => decide (r.item ≠ k) && r.cores.any (fun l => ls.contains l) && overlap r.lo r.hi lo hi &&
    !(((item? s r.item).map (fun i => i.golden)).getD false))

/-- RELAUNCH_SKIPPED, with the SOURCE_TALLY of the faulted item (Table 8-4); the pipeline's number is a free value when no pipeline watches the plan. -/
def relaunchSkipped (s : State) (it : Item) : State :=
  match pipeOf s it.e.plan with
  | some p => saf s 0xF 0 8 p it.e.plan it.e.seq 0 (jobSrc s it)
  | none => saf (fresh s).2 0xF 0 8 ((fresh s).1 % 2 ^ 16) it.e.plan it.e.seq 0 (jobSrc s it)

/-- The relaunch of an ended pinned item at `r`: an item made by the device, with the same entry, inputs and cores, or a
RELAUNCH_SKIPPED record. Cooper buffers still held for it pass to the new item, or are freed (R312). -/
def relaunch (s : State) (it : Item) (r : Nat) : State :=
  let s0 := { s with disp := { s.disp with holds := s.disp.holds.filter (fun h => decide (h.item ≠ it.key)) } }
  let ok := it.cores.all (fun l => (physOf s0 l).isSome) &&
    !resvMeets s0 it.key it.cores r (r + wcetOf s0 (planIdx it.e.plan) it.e.batch) && planInstalled s0 it.e.plan && !s0.inSafe
  if ok then
    let k := s0.disp.nextKey
    let s1 := addItem s0 { it with e := { it.e with launch := r }, st := .decided, flags := setBit it.flags 5, spills := 0,
                                   late := false, nonEmpty := false, ended := [], relaunched := true, decision := r,
                                   ranMask := 0, delay := 0, stopAt := none }
    let s2 := { s1 with pools := s1.pools.map (fun (p : Nat × PoolS) =>
      (p.1, { p.2 with bufs := p.2.bufs.map (fun (b : Nat × Buf) =>
        if b.2.item = some it.key then (b.1, { b.2 with item := some k }) else b) })) }
    launchItem s2 k it.cores r
  else sweepPics (freeItem (relaunchSkipped s0 it) it.key)

/-- A pinned item that may be relaunched once (R311). -/
def mayRelaunch (it : Item) (status : Nat) : Bool :=
  it.isPinned && !it.relaunched && !it.golden && it.launched && (decide (status = 0x301) || decide (status = 0x302))

/-- The item can be relaunched at `r` with logical core `gone`, if any, left without a physical core: every logical core of its
set has one, and no reservation of another pinned item meets its window on them (R311). -/
def canRelaunch (s : State) (status r : Nat) (gone : Option Nat) (it : Item) : Bool :=
  mayRelaunch it status && it.cores.all (fun l => decide (gone ≠ some l) && (physOf s l).isSome) &&
    !resvMeets s it.key it.cores r (r + wcetOf s (planIdx it.e.plan) it.e.batch) && planInstalled s it.e.plan && !s.inSafe

/-- The affected items end with `status`; those of `again` are to be relaunched: they keep their inputs, their cores stay held,
and the JOB record of the failed item carries RELAUNCHED. -/
def failItems (s : State) (ks : List Nat) (status : Nat) (again : List Nat) : State :=
  ks.foldl (fun t k => match item? t k with
    | none => t
    | some it =>
      if again.contains k then
        let t1 := endItemWith (modItem t k (fun x => { x with flags := setBit x.flags 5 })) k status 0 [] true
        { t1 with disp := { t1.disp with
          holds := t1.disp.holds ++ it.cores.map (fun l => { core := l, item := k, until_ := none }) } }
      else endItem t k status) s

/-- The items of `ks` that will be relaunched at `r`. -/
def relaunchable (s : State) (ks : List Nat) (status r : Nat) (gone : Option Nat) : List Item :=
  (ks.filterMap (item? s)).filter (canRelaunch s status r gone)

/-- The items of `ks` that R311 would relaunch and whose relaunch is not made. -/
def passedOver (s : State) (ks again : List Nat) (status : Nat) : List Item :=
  (ks.filterMap (item? s)).filter (fun it => mayRelaunch it status && !again.contains it.key)

/-- A RELAUNCH_SKIPPED record for each. -/
def skipAll (s : State) (l : List Item) : State := l.foldl relaunchSkipped s

/-! ## Retiring a core -/

/-- The number of core `p` within its cluster. -/
def coreIdx (p : Nat) : Nat := p % 9

/-- The spare of cluster `k`, as a physical core. -/
def spareOf (s : State) (k : Nat) : Option Nat :=
  let v := getF s F.WINNOW_CLU_SPARE 0 0 k
  if v < 9 then some (9 * k + v) else none

/-- Set the spare of cluster `k` and its state (0 warm, 1 handover, 2 testing, 3 none). -/
def setSpare (s : State) (k : Nat) (p : Option Nat) (st : Nat) : State :=
  match p with
  | some p => putF (putF s F.WINNOW_CLU_SPARE 0 0 k (coreIdx p)) F.WINNOW_CLU_STATE 0 0 k st
  | none => putF (putF s F.WINNOW_CLU_SPARE 0 0 k 15) F.WINNOW_CLU_STATE 0 0 k 3

/-- The register values that a commit of the placement map changes: the active map and its generation, the state and logical
number of each core, the spare of each cluster. -/
def mapKeys : List Nat :=
  (upto 64).map (fun l => (placeFld l).key 0 0 (l / 4)) ++
    (upto 72).flatMap (fun p => [F.CORE_STATE_STATE.key p 0 0, F.CORE_STATE_LOGICAL.key p 0 0]) ++
    (upto 8).flatMap (fun k => [F.WINNOW_CLU_SPARE.key 0 0 k, F.WINNOW_CLU_STATE.key 0 0 k]) ++ [F.SYS_PLACE_GEN.key 0 0 0]

/-- A commit of the map turns `s` into `c`; what it replaces is kept for its own tick (01 R15). -/
def keepMap (s c : State) (fw : Bool) : State :=
  { c with faults := { c.faults with mapUndo := some {
      tick := s.now, fw := fw, vals := mapKeys.map (fun k => (k, tget 0 s.rf.live k)), handovers := s.winnow.handovers } } }

/-- A hardware substitution stands over a commit of the map in its own tick: the map before the commit is whole again, and the commit
reads refused with SUPERSEDED (01 R15, 18 R421). -/
def supersedeMap (s : State) : State :=
  match s.faults.mapUndo with
  | none => s
  | some u =>
    if u.tick = s.now then
      let s1 := { s with
        rf := { s.rf with live := u.vals.foldl (fun t kv => tset 0 t kv.1 kv.2) s.rf.live }
        winnow := { s.winnow with handovers := u.handovers }
        faults := { s.faults with mapUndo := none } }
      let s2 := setI (addI s1 F.PAGE_COMMIT_STATUS_REFUSALS 0 1)
        (if u.fw then F.PAGE_COMMIT_STATUS_FW_STATE else F.PAGE_COMMIT_STATUS_HOST_STATE) 0 3
      setI (setI s2 F.PAGE_COMMIT_STATUS_REASON 0 1) F.PAGE_COMMIT_STATUS_WHO 0 (bnat u.fw)
    else { s with faults := { s.faults with mapUndo := none } }

/-- Core `p` is retired. -/
def retireCore (s : State) (p : Nat) : State :=
  let s1 := match logicalCore s p with
    | some l => setPlace s l 127
    | none => s
  setI (setI (clearTag (clearCore s1 p) p) F.CORE_STATE_LOGICAL p 127) F.CORE_STATE_STATE p 6

/-- A cluster that would run fewer than 7 cores goes out of service (15 R375): its logical cores have no physical core,
items with a rank in it end FAILED_CORE, its cores and banks are switched off, and the event CLUSTER_OUT is logged. -/
def clusterOut (s : State) (k : Nat) : State :=
  if (clu s k).outOfService then s
  else
    let ks := (s.disp.items.filter (fun i => i.launched && i.cores.any (fun l => decide (l / 8 = k)))).map (fun i => i.key)
    let s2 := skipAll (failItems s ks 0x301 []) (passedOver s ks [] 0x301)
    let s3 := safNow s2 0xE 1 1 (9 * k) 0 k ks.length
    let s4 := (rangeFrom (8 * k) 8).foldl (fun t l => setPlace t l 127) s3
    let s5 := (rangeFrom (9 * k) 9).foldl (fun t p => switchOff t p) s4
    let s6 := (upto 17).foldl (fun t b => switchOff t (72 + 17 * k + b)) s5
    let s7 := setR s6 F.MGMT_SERVICE_CLUSTER (clrBit (reg s6 F.MGMT_SERVICE_CLUSTER) k)
    fwEvent (refreshDark (modClu s7 k (fun c => { c with outOfService := true })) k) 0x800A k

/-- After a retirement: is the cluster still in service? -/
def checkCluster (s : State) (k : Nat) : State := if inService s k < 7 then clusterOut s k else s

end Sys2Proof.Machine
end

