-- ==== Sys2Proof/Machine/Reaction.lean ====
section
/-!
DEFINITION. Sys2Proof/Machine/Reaction.lean: the fault collector and the hardware fault reaction
(13_functional_safety.md R308 to R313, R323), as shared operations; and the commands of both.
-/

namespace Sys2Proof.Machine

/-- SOURCE_TALLY of a SAF record about faulted items: that of the first of them, else the detection tick (Table 8-4). -/
def safSrc (s : State) (ks : List Nat) : Nat :=
  match ks.filterMap (item? s) with
  | it :: _ => jobSrc s it
  | [] => s.now

/-- Plan ID of the first faulted item, 0 for none. -/
def planOf (s : State) (ks : List Nat) : Nat :=
  match ks.filterMap (item? s) with
  | it :: _ => it.e.plan
  | [] => 0

/-- Items with a rank on one of the given physical cores. -/
def itemsOn (s : State) (ps : List Nat) : List Nat :=
  (s.disp.items.filter (fun i => i.launched && ps.any (fun p => decide ((core s p).item = some i.key)))).map (fun i => i.key)

/-- Relaunch each item at `r`, in order. -/
def relaunchAll (s : State) (l : List Item) (r : Nat) : State := l.foldl (fun t it => relaunch t it r) s

/-- Memory class (R308): the items end FAILED_UNCORRECTABLE, or FAILED_DECODE where the poison came from a decode core's own
memory; the resident tag of each core that read it is cleared; one SAF record; pinned items relaunch in the next tick. -/
def memoryFault (s : State) (kind unit addr : Nat) (poison decPoison : Bool) (ps ks : List Nat) : State :=
  let status := if decPoison then 0x304 else 0x302
  let again := relaunchable s ks status (s.now + 1) none
  let keys := again.map (fun i => i.key)
  let src := safSrc s ks
  let plan := planOf s ks
  let s1 := failItems s ks status keys
  let s2 := saf s1 (if poison then 3 else 2) 0 kind unit plan addr ks.length src
  relaunchAll (skipAll (ps.foldl clearTag s2) (passedOver s ks keys status)) again (s.now + 1)

/-- An item consumed uncorrectable or poisoned HBM data: the report of R240 to the fault collector, unit kind HBM channel; `dec`
tells that a decode core wrote the poison. -/
def hbmFault (s : State) (a : Nat) (poison dec : Bool) (item : Option Nat) : State :=
  let ks := item.toList.filter (fun k => ((item? s k).map (fun i => i.launched)).getD false)
  memoryFault s 6 (hbmMap s a).1 a poison dec [] ks

/-- Dark bank (R222, R308): the items end FAILED_DARK_BANK; the notice names the bank. -/
def darkFault (s : State) (k b : Nat) (ks : List Nat) : State :=
  let src := safSrc s ks
  let plan := planOf s ks
  saf (failItems s ks 0x305 []) 4 0 2 (17 * k + b) plan k ks.length src

/-- Link class (R308, 12 R293): the affected items end FAILED_LINK. -/
def linkFault (s : State) (port cause : Nat) (ks : List Nat) : State :=
  let src := safSrc s ks
  let plan := planOf s ks
  saf (failItems s ks 0x307 []) 5 1 5 port plan cause ks.length src

/-- Step 3 and 4 of R309 for logical core `l` of cluster `k`: with no spare the cluster runs on with 7 cores (R310, R282). -/
def noSpare (s : State) (k p : Nat) (items : List Item) : State :=
  let s1 := safNow (setSpare s k none 3) 0xE 1 1 p 0 k 0
  checkCluster (relaunchAll s1 items (s1.now + 1)) k

/-- Ticks from a core's retirement to the substitution of a spare that is not under test: its state reset and check, and the
placement map (Table 13-4). -/
def spareTicks : Nat := 117001

/-- A core-class fault on core `p` (R309): its items end FAILED_CORE, the core is retired, and the cluster's spare, stopped where it is under
test (Table 13-4), starts its state reset, or the cluster runs 7 cores. `detail` is [5:0] column, [8] adder. -/
def coreReact (s : State) (p detail : Nat) : State :=
  let k := p / 9
  let ks := itemsOn s [p]
  let l := logicalCore s p
  let wasSpare := decide (spareOf s k = some p)
  let heir := !wasSpare && (spareOf s k).isSome
  let again := relaunchable s ks 0x301 (if heir then s.now + spareTicks else s.now + 1) (if heir then none else l)
  let keys := again.map (fun i => i.key)
  let src := safSrc s ks
  let plan := planOf s ks
  let s0 := { s with winnow := { s.winnow with
    handovers := terase s.winnow.handovers k, segs := s.winnow.segs.filter (fun g => decide (g.unitKind ≠ 1) || decide (g.unit ≠ p)) } }
  let s1 := skipAll (saf (failItems s0 ks 0x301 keys) 1 1 1 p plan detail ks.length src) (passedOver s ks keys 0x301)
  let s2 := retireCore s1 p
  if wasSpare then checkCluster (relaunchAll (safNow (setSpare s2 k none 3) 0xE 1 1 p 0 k 0) again (s.now + 1)) k
  else match l, spareOf s2 k with
    | some l, some q =>
      { s2 with
        faults := { s2.faults with
          reactions := tset none s2.faults.reactions k (some { core := p, logical := some l, spare := some q, items := again, since := s.now }) }
        winnow := { s2.winnow with
          testing := tset none s2.winnow.testing k none,
          segs := s2.winnow.segs.filter (fun g => decide (g.unitKind ≠ 1) || decide (g.unit ≠ q)) } }
    | some _, none => noSpare s2 k p again
    | none, _ => checkCluster (relaunchAll s2 again (s.now + 1)) k

/-- A core-class report: faults of one cluster are handled one at a time, in order of detection (R309). The core stops at
once either way (04 R110). -/
def coreFault (s : State) (p detail : Nat) : State :=
  if regI s F.CORE_STATE_STATE p = 6 then s
  else if (tget none s.faults.reactions (p / 9)).isSome then
    modCore { s with faults := { s.faults with queue := s.faults.queue ++ [(p, detail)] } } p
      (fun c => { c with stopped := true })
  else coreReact s p detail

/-- The next waiting report of cluster `k`. -/
def nextReport (s : State) (k : Nat) : State :=
  match s.faults.queue.find? (fun e => decide (e.1 / 9 = k)) with
  | none => s
  | some e => coreFault { s with faults := { s.faults with queue := s.faults.queue.filter (fun x => decide (x ≠ e)) } } e.1 e.2

/-- SPARE_RESET_CHECK_DONE: the spare's state has been reset and checked, in 117,000 ticks (Table 13-4); it is substituted, or it is retired and the cluster
runs 7 cores; then the relaunches follow (R309 to R311). A commit of the map in the same tick is superseded (01 R15). -/
def execSpareResetCheckDone (clu : Nat) (ok : Bool) (s : State) : Out :=
  .next (whenLive s fun s =>
    match tget none s.faults.reactions clu with
    | none => s
    | some r => guardOn (decide (r.since + 117000 ≤ s.now)) s fun s =>
      let s1 := { s with faults := { s.faults with reactions := tset none s.faults.reactions clu none } }
      match r.logical, r.spare with
      | some l, some q =>
        if ok then
          let s2 := setI (modCore (setSpare (setPlace (supersedeMap s1) l q) clu none 3) q (fun _ => {})) F.CORE_STATE_STATE q 0
          let s3 := addR (clearTag s2 q) F.SYS_PLACE_GEN 1
          nextReport (relaunchAll s3 r.items s3.now) clu
        else nextReport (noSpare (retireCore s1 q) clu q r.items) clu
      | _, _ => nextReport s1 clu)

/-- A management pair is put in reset (15 R358): MGMT_RESET with its cause. -/
def resetPair (s : State) (pair cause : Nat) : State :=
  let (st, cnt) := if pair = 0 then (F.MGMT_STATE_PAIR_A, F.MGMT_RESETS_A) else (F.MGMT_STATE_PAIR_B, F.MGMT_RESETS_B)
  let s1 := addR (setR s st 2) cnt 1
  let s2 := { s1 with mgmt := { s1.mgmt with resetAt := tset none s1.mgmt.resetAt pair (some s1.now) } }
  safNow s2 0x11 0 7 pair 0 cause 0

/-- Pair `p` is in reset. -/
def pairDown (s : State) (p : Nat) : Bool := (tget none s.mgmt.resetAt p).isSome

end Sys2Proof.Machine
end

