-- ==== Sys2Proof/Machine/Reads.lean ====
section
/-!
DEFINITION. Sys2Proof/Machine/Reads.lean: device reads of host memory (16_host_interface.md R382, R383, R434): splitting into
requests, tags, issue. What a read's end does stands in HostIf.lean.
-/

namespace Sys2Proof.Machine

/-- Length of the next request at address `a` with `n` bytes left: no more than Max_Read_Request_Size, not across 4 KiB. -/
def reqLen (mrrs a n : Nat) : Nat :=
  let b := if n ≤ mrrs then n else mrrs
  let c := 4096 - a % 4096
  if b ≤ c then b else c

/-- Tags in use: those of requests without data, and those of dropped reads whose completions have not come yet. -/
def tagsUsed (s : State) : List Nat :=
  s.pcie.dropTags ++ s.pcie.reads.flatMap (fun r => (r.reqs.filter (fun q => q.data.isNone)).map (fun q => q.tag))

/-- The lowest free tag of 256 (R382). -/
def freeTag (s : State) : Option Nat :=
  let u := tagsUsed s
  (upto 256).find? (fun t => !u.contains t)

/-- Issue requests of read `id` while tags are free; fuel bounds the number of requests. -/
def issueRead (id : Nat) : Nat → State → State
  | 0, s => s
  | n + 1, s =>
    match s.pcie.reads.find? (fun r => decide (r.id = id)), freeTag s with
    | some r, some t =>
      if r.next < r.len then
        let l := reqLen s.pcie.maxRead (r.addr + r.next) (r.len - r.next)
        let q : Req := { tag := t, off := r.next, len := l, issued := s.now, data := none }
        let s1 := { s with pcie := { s.pcie with reads := s.pcie.reads.map (fun (x : HostRead) =>
          if x.id = id then { x with next := x.next + l, reqs := x.reqs ++ [q] } else x) } }
        issueRead id n (emit s1 (.readReq t (r.addr + r.next) l))
      else s
    | _, _ => s

/-- The device may read host memory: it may issue requests, and the lease has not expired (R382, 11 R271, 16 R391). -/
def State.mayRead (s : State) : Bool := s.canIssue && !flag s F.DISP_LEASE_EXPIRED

/-- A read begins; `none` when it ends as a failed completion at once (R382). -/
def startRead (s : State) (kind : ReadKind) (addr len : Nat) (keep : Bool) : Option State :=
  if s.mayRead then
    let id := s.pcie.readId
    let r : HostRead := { id := id, kind := kind, addr := addr, len := len, next := 0, reqs := [], keep := keep }
    some (issueRead id 257 { s with pcie := { s.pcie with reads := s.pcie.reads ++ [r], readId := id + 1 } })
  else none

/-- A read of this kind is outstanding. -/
def reading (s : State) (k : ReadKind) : Bool := s.pcie.reads.any (fun r => decide (r.kind = k))

/-- Reads for which `p` holds are dropped: their completions are discarded. -/
def dropReads (s : State) (p : ReadKind → Bool) : State :=
  { s with pcie := { s.pcie with
    reads := s.pcie.reads.filter (fun r => !p r.kind),
    dropTags := s.pcie.dropTags ++ (s.pcie.reads.filter (fun r => p r.kind)).flatMap (fun r =>
      (r.reqs.filter (fun q => q.data.isNone)).map (fun q => q.tag)) } }

end Sys2Proof.Machine
end

