-- ==== Sys2Proof/Machine/TrackBase.lean ====
section
/-!
DEFINITION. Sys2Proof/Machine/TrackBase.lean: the track ledger as other blocks see it (08_tracking_and_metadata.md R191, R193):
live tracks of a slot, their counts, and their retirement when the slot closes or its tracking plan is disabled.
-/

namespace Sys2Proof.Machine

/-- A slot's part in tracking. -/
def trkSlot (s : State) (n : Nat) : TrkSlot := tget {} s.trk.slots n

/-- The state with a slot's part in tracking changed. -/
def modTrkSlot (s : State) (n : Nat) (f : TrkSlot → TrkSlot) : State :=
  { s with trk := { s.trk with slots := tmod {} s.trk.slots n f } }

/-- The step of slot `n`, if one is running or waiting. -/
def stepOf (s : State) (n : Nat) : Option TrkStep := s.trk.steps.find? (fun x => decide (x.slot = n))

/-- Ledger entries of slot `n` in ascending track ID. -/
def liveOf (s : State) (n : Nat) : List (Nat × Track) :=
  sortBy (fun a b => decide (a.2.id < b.2.id)) (s.trk.tracks.filter (fun e => decide (e.2.slot = n) && decide (e.2.st ≠ .free)))

/-- LEDGER_LIVE and TRK_SLOT_STATE follow the ledger. -/
def refreshTrk (s : State) (n : Nat) : State :=
  setS (setS (setR s F.LEDGER_LIVE s.trk.tracks.length) F.TRK_SLOT_STATE_LIVE n (liveOf s n).length) F.TRK_SLOT_STATE_STEPPING n
    (bnat (stepOf s n).isSome)

/-- A ledger entry is freed, with its embedding. -/
def freeTrack (s : State) (e : Nat) : State :=
  { s with trk := { s.trk with tracks := terase s.trk.tracks e, embs := terase s.trk.embs e } }

/-- Every track of slot `n` is retired: EVT RETIRED, detail CLOSED (Table 8-1). The record's source Tally is the present tick. -/
def retireAll (s : State) (n : Nat) : State :=
  refreshTrk ((liveOf s n).foldl (fun t e =>
    addR (freeTrack (evtTrack t n t.now 4 2 e.2.id 0 0) e.1) F.TRK_RETIRED 1) s) n

/-- The slot closes, or its tracking plan is disabled: hand-offs still queued are discarded; its tracks are retired at once, or,
when a step of the slot runs, after its records (Table 8-12). -/
def closeTracks (s : State) (n : Nat) : State :=
  let gone := (s.trk.handoffs.filter (fun h => decide (h.slot = n))).length
  let s1 := if gone = 0 then s else addR s F.TRK_NO_SLOT gone
  let s2 := { s1 with trk := { s1.trk with handoffs := s1.trk.handoffs.filter (fun h => decide (h.slot ≠ n)),
                                           embHands := s1.trk.embHands.filter (fun h => decide (h.1 ≠ n)) } }
  if (stepOf s2 n).isSome then modTrkSlot s2 n (fun x => { x with closing := true }) else retireAll s2 n

end Sys2Proof.Machine
end

