-- ==== Sys2Proof/Machine/Streams.lean ====
section
/-!
DEFINITION. Sys2Proof/Machine/Streams.lean: stream slots, intake and decoding (02_streams_and_decoding.md R30 to R46, R53 to
R56), and their commands.
-/

namespace Sys2Proof.Machine

/-! ## Admission record (R30, R33, R34) -/

/-- Owner number of a slot in Cooper: the slot's number. -/
def admCodec (s : State) (n : Nat) : Nat := regS s F.ADM_CODEC_CODEC n

/-- Coding block of a codec (R33). -/
def codingBlock (codec : Nat) : Nat := if codec = 1 ∨ codec = 4 then 16 else 64

/-- `v` rounded up to a multiple of `b`. -/
def roundUp (v b : Nat) : Nat := cdiv v b * b

/-- The rounded admitted area A (R33). -/
def areaOf (codec w h : Nat) : Nat := roundUp w (codingBlock codec) * roundUp h (codingBlock codec)

/-- Admitted pixel rate P of a slot's committed record, pixel/s (R33). -/
def rateOf (s : State) (n : Nat) : Nat :=
  areaOf (admCodec s n) (regS s F.ADM_DIMS_WIDTH n) (regS s F.ADM_DIMS_HEIGHT n) * regS s F.ADM_DPB_RATE_FPS n

/-- Bytes of a picture buffer (R34). -/
def picBytes (codec w h : Nat) (hibit : Bool) : Nat :=
  if hibit then areaOf codec w h * 3 else areaOf codec w h * 3 / 2

/-- Sum of P over the open compressed slots; a slot that is closing counts with its committed fields, those of the close (R33;
log entry 119). -/
def loadSum (s : State) : Nat := sumN ((upto 64).map (fun n => if (slotAt s n).isOpen then rateOf s n else 0))

/-- INTAKE_LOAD follows the sum, in Mpixel/s rounded up. -/
def refreshLoad (s : State) : State := setR s F.INTAKE_LOAD (cdiv (loadSum s) 1000000)

/-- Is the slot a record slot? -/
def isRecordSlot (n : Nat) : Bool := decide (72 ≤ n) && decide (n < 76)

/-! ## PIC records (R55) -/

/-- The first 0x28 bytes of a PIC record: all but DONE_TALLY and USER. -/
def picHead (slot src flags outcome cause conc seq w h cycles handle cores wins fmt : Nat) : List Byte :=
  recHdr 4 56 slot flags src ++ le 1 outcome ++ le 1 cause ++ le 2 conc ++ le 4 seq ++ le 2 w ++ le 2 h ++ le 4 cycles ++
    le 4 handle ++ le 2 cores ++ le 1 wins ++ le 1 fmt

/-- A PIC record goes to the slot's PIC ring (08 R199), with the present tick as DONE_TALLY. -/
def pushPic (s : State) (slot : Nat) (head : List Byte) (user : Nat) : State :=
  pushRec s { ring := regX s F.SLOT_ROUTE_PIC_RING slot, bytes := head ++ le 8 s.now ++ le 8 user }

/-- PIC header flags of an access unit: RAP and DISCONTINUITY from its descriptor or headers. -/
def auFlags (d : Desc) (rap grain : Bool) : Nat :=
  (if rap then 2 else 0) + (if grain then 4 else 0) + (if d.flags.testBit 2 then 16 else 0)

/-- An access unit ends without a picture: its PIC record, its bitstream buffer freed. -/
def refuseAu (s : State) (slot : Nat) (au : AU) (outcome cause w h cycles cores : Nat) (rap : Bool) : State :=
  let s1 := pushPic s slot (picHead slot au.arrival (auFlags au.d rap false) outcome cause 0 au.d.seq w h cycles
    0xFFFFFFFF cores 0 (regS s F.ADM_CODEC_HIBIT slot)) au.d.user
  let p : Pic := { slot := slot, seq := au.d.seq, kind := .decoded, w := w, h := h, format := 0, base := 0, handle := 2 ^ 32,
                   src := au.arrival, ready := false, dead := true, outcome := outcome, held := false }
  let s2 := { s1 with strm := { s1.strm with pics := s1.strm.pics ++ [p] } }
  settle (if au.handle < 2 ^ 30 then cooperFree s2 au.handle else s2)

/-! ## Encoders of a slot (03 R81, R83) -/

/-- An encoder. -/
def enc_ (s : State) (i : Nat) : EncS := tget {} s.strm.encs i

/-- The state with an encoder changed. -/
def modEnc (s : State) (i : Nat) (f : EncS → EncS) : State := { s with strm := { s.strm with encs := tmod {} s.strm.encs i f } }

/-- An encoder stops at once (R81): its pictures and unemitted slices are discarded and counted; EN reads 0. -/
def stopEncoder (s : State) (i : Nat) : State :=
  if regI s F.ENC_CTRL_EN i = 0 then s
  else
    let s1 := addI s F.ENC_DISCARDED i (enc_ s i).queue.length
    putBoth { s1 with strm := { s1.strm with encs := terase s1.strm.encs i } } F.ENC_CTRL_EN i 0 0 0

/-- Encoders whose session and source slot satisfy `p` stop. -/
def stopEncoders (s : State) (p : Nat → Nat → Bool) : State :=
  (upto 2).foldl (fun t i => if p (enc_ t i).session (regI t F.ENC_SRC_SLOT i) then stopEncoder t i else t) s

/-! ## Closing a slot (R31, Table 2-12, 09 R229) -/

/-- Decoded pictures that the output process has not released get their PIC records at the close (R55; log entry 120). -/
def flushPics (s : State) (n : Nat) : State :=
  (s.strm.pics.filter (fun p => decide (p.slot = n) && decide (p.kind = .decoded) && !p.ready && !p.dead)).foldl
    (fun t p => pushPic t n p.recHead p.user) s

/-- A live frame in capture when its slot closes: its lines still missing count as filled, nothing is delivered, and it gets
its PIC record (R55; log entry 120). -/
def flushFrame (s : State) (n : Nat) : State :=
  let c := tget {} s.strm.csi (n - 64)
  let w := regI s F.CSI_FRAME_SIZE_WIDTH (n - 64)
  let h := regI s F.CSI_FRAME_SIZE_HEIGHT (n - 64)
  if 64 ≤ n ∧ n < 72 ∧ c.busy then
    let filled := c.filled + (h - c.lines.length) * w
    let conc := if w * h = 0 then 0 else cdiv (1024 * filled) (w * h)
    let cause := if conc = 0 then 0 else if c.cause = 0 then 13 else c.cause
    pushPic s n (picHead n c.s (bnat c.stale) (bnat (decide (conc ≠ 0))) cause conc c.seq w h 0 0xFFFFFFFF 0 0
      (regI s F.CSI_CFG_OUT (n - 64) + 2)) 0
  else s

/-- A slot is closed: its objects can never become ready, its buffers are freed, its minima withdrawn, its tracks retired (08
R191). CIDX keeps its last value. -/
def finishClose (s : State) (n : Nat) : State :=
  let s0 := flushFrame (flushPics s n) n
  let s1 := { s0 with strm := { s0.strm with
    slots := tset {} s0.strm.slots n { cidx := (slotAt s0 n).cidx },
    pics := s0.strm.pics.filter (fun p => decide (p.slot ≠ n)),
    lists := s0.strm.lists.filter (fun l => decide (l.slot ≠ n)),
    recs := if isRecordSlot n then terase s0.strm.recs (n - 72) else s0.strm.recs,
    csi := if 64 ≤ n ∧ n < 72 then terase s0.strm.csi (n - 64) else s0.strm.csi } }
  let s2 := closeTracks (dropMinima (freeOwner s1 n) n) n
  settle (refreshLoad (setS s2 F.SLOT_STATE_STATE n 0))

/-- A close: an encoder that takes the slot's pictures stops (03 R83); while a picture is in decode the slot is closing, and access
units not yet decoded are discarded. -/
def closeSlot (s : State) (n : Nat) : State :=
  let sl := slotAt s n
  if !sl.isOpen then s
  else
    let s0 := dropReads (stopEncoders s (fun _ m => decide (m = n))) (fun k => decide (k = .intakePidx n) || decide (k = .auBytes n) ||
      (match k with
       | .intakeDesc m _ => decide (m = n)
       | _ => false))
    if sl.decoding then
      setS (modSlot s0 n (fun x => { x with
        closing := true, aus := [], fetched := [], copying := none, copyRes := none,
        pidxPending := false, descPending := 0 })) F.SLOT_STATE_STATE n 2
    else finishClose s0 n

/-! ## Intake (R35, R36) -/

/-- Base of a slot's intake ring in host memory, and its entries. -/
def intakeBase (s : State) (n : Nat) : Nat := pairS s F.INTAKE_RING_BASE_LO F.INTAKE_RING_BASE_HI n
def intakeEntries (s : State) (n : Nat) : Nat := regS s F.INTAKE_RING_CFG n

/-- Intake may read: the device may, D0, no journal full (R391, R274). -/
def intakeMay (s : State) : Bool := s.mayRead && !s.journalFull

/-- Slot `n` waits for a bitstream buffer of its pool: the descriptor in hand has one to fill, and none is free (R35). -/
def waitsBuffer (s : State) (n : Nat) : Bool :=
  let sl := slotAt s n
  let p := regS s F.ADM_POOL_POOL n
  match sl.copying, sl.fetched with
  | none, d :: _ =>
    !(d.len = 0 || decide (16777216 < d.len) || decide (poolSize s p < d.len)) &&
      (cooperAlloc s n d.len (2 ^ p) none).2.isNone
  | _, _ => false

/-- Intake reads the producer index of slot `n`, also while it copies, unless a read of that slot is still under way or it
waits for a buffer. A read that fails at once leaves everything for the next period. -/
def pollSlot (s : State) (n : Nat) : State :=
  let sl := slotAt s n
  if !sl.isOpen || sl.closing || sl.pidxPending || decide (sl.descPending ≠ 0) || waitsBuffer s n then s
  else match startRead s (.intakePidx n) (pairS s F.PIDX_ADDR_LO F.PIDX_ADDR_HI n) 4 true with
    | some t => modSlot t n (fun x => { x with pidxPending := true })
    | none => addR s F.PCIE_READ_FAILS 1

/-- INTAKE_POLL: every INTAKE_PERIOD ticks the producer index of each open slot is read, record slots first, then the
compressed slots in ascending order (R35). The period's phase is the model's choice: ticks whose Tally is a multiple of it (log
entry 119). -/
def execIntakePoll (s : State) : Out :=
  .next (whenLive s fun s =>
    guardOn (decide (s.now % (if reg s F.INTAKE_PERIOD < 256 then 256 else reg s F.INTAKE_PERIOD) = 0) && s.d0 &&
      !flag s F.DISP_LEASE_EXPIRED && !s.journalFull) s fun s =>
      (rangeFrom 72 4 ++ upto 64).foldl pollSlot s)

/-- Descriptors `cidx + k` on are read in ring order; a read stops at the ring's end and the rest follows it. -/
def readDescs (s : State) (n first cnt : Nat) : State :=
  let e := intakeEntries s n
  let pos := if e = 0 then 0 else first % e
  let m := if pos + cnt ≤ e then cnt else e - pos
  if cnt = 0 ∨ e = 0 then modSlot s n (fun x => { x with descPending := 0 })
  else match startRead s (.intakeDesc n m) (intakeBase s n + 32 * pos) (32 * m) true with
    | some t => modSlot t n (fun x => { x with descPending := cnt })
    | none => addR (modSlot s n (fun x => { x with descPending := 0 })) F.PCIE_READ_FAILS 1

/-- The producer index of slot `n` has arrived (R35). -/
def gotIntakePidx (s : State) (n prod : Nat) : State :=
  let sl := slotAt s n
  let s1 := modSlot s n (fun x => { x with pidxPending := false })
  let d := (prod + 2 ^ 32 - sl.cidx) % 2 ^ 32
  if intakeEntries s n < d then raiseInt s1 14 1
  else
    let inHand := (if sl.copying.isSome then 1 else 0) + sl.fetched.length
    readDescs s1 n (sl.cidx + inHand) (d - inHand)

/-- A descriptor from its 32 bytes (Table 2-2). -/
def descOf (b : List Byte) : Desc :=
  { addr := unle (b.take 8), len := unle ((b.drop 8).take 4), seq := unle ((b.drop 12).take 4),
    flags := unle ((b.drop 16).take 2), user := unle ((b.drop 24).take 8) }

/-- Descriptors from the bytes of a read. -/
def descsOf : Nat → List Byte → List Desc
  | 0, _ => []
  | n + 1, b => descOf (b.take 32) :: descsOf n (b.drop 32)

/-- `m` descriptors of slot `n` have arrived. -/
def gotDescs (s : State) (n m : Nat) (b : List Byte) : State :=
  let sl := slotAt s n
  let s1 := modSlot s n (fun x => { x with fetched := x.fetched ++ descsOf m b })
  let inHand := if sl.copying.isSome then 1 else 0
  readDescs s1 n (sl.cidx + inHand + sl.fetched.length + m) (sl.descPending - m)

/-- The consumer index of a slot passes a descriptor. -/
def consume (s : State) (n : Nat) : State :=
  let s1 := modSlot s n (fun x => { x with cidx := (x.cidx + 1) % 2 ^ 32 })
  setS s1 F.SLOT_STATE_CIDX n ((slotAt s1 n).cidx)

/-- A record-slot descriptor or item is skipped (R53). -/
def recDrop (s : State) (n : Nat) : State := raiseInt (addX s F.REC_DROPS (n - 72) 1) 115 1

/-- Marks at the head of the queue, of access units not copied, make the slot skip to its next random-access point. -/
def dropMarks : Nat → SlotS → SlotS
  | 0, x => x
  | k + 1, x =>
    match x.aus with
    | a :: r => if a.kind = .notCopied ∧ ¬ x.decoding then dropMarks k { x with aus := r, skip := .outcome 2 4 } else x
    | [] => x

/-- Marks of slot `n` that have come to the head take effect. -/
def settleMarks (s : State) (n : Nat) : State := modSlot s n (fun x => dropMarks (x.aus.length) x)

/-- An access unit that is not copied (R36): on a record slot a skipped item, on a compressed slot a PIC record with cause
AU_LENGTH; the slot continues at the next random-access point. -/
def notCopied (s : State) (n : Nat) (d : Desc) : State :=
  if isRecordSlot n then recDrop (consume s n) n
  else
    let au : AU := { d := d, arrival := s.now, handle := 2 ^ 32, kind := .notCopied }
    let s1 := refuseAu (consume s n) n au 2 4 0 0 0 0 (d.flags.testBit 0)
    settleMarks (modSlot s1 n (fun x => { x with aus := x.aus ++ [au], arrivals := x.arrivals ++ [s.now] })) n

/-- DESCRIPTOR_READ: the next descriptor of slot `slot` is taken in ring order and the copy of its access unit starts, once
the copy before it is complete and a bitstream buffer is free; a request that finds none is counted (R35, R36, 09 R226). -/
def execDescriptorRead (slot : Nat) (s : State) : Out :=
  .next (whenLive s fun s =>
    let sl := slotAt s slot
    match sl.fetched with
    | [] => s
    | d :: rest =>
      guardOn (sl.isOpen && !sl.closing && sl.copying.isNone && intakeMay s) s fun s =>
        let p := regS s F.ADM_POOL_POOL slot
        if d.len = 0 ∨ 16777216 < d.len ∨ poolSize s p < d.len then
          notCopied (modSlot s slot (fun x => { x with fetched := rest })) slot d
        else match cooperAlloc s slot d.len (2 ^ p) none with
          | (t, none) => t
          | (s2, some h) =>
            let s3 := modSlot s2 slot (fun x => { x with fetched := rest, copying := some (d, h) })
            match startRead s3 (.auBytes slot) d.addr d.len true with
            | some t => t
            | none => addR (modSlot s3 slot (fun x => { x with copyRes := some (true, []) })) F.PCIE_READ_FAILS 1)

/-- The bytes of a copy have arrived, or its read has failed. -/
def gotAu (s : State) (n : Nat) (failed : Bool) (b : List Byte) : State :=
  match (slotAt s n).copying with
  | none => s
  | some (_, h) =>
    let s1 := if failed then s else hbmPut s (handleAddr s h) b
    modSlot s1 n (fun x => { x with copyRes := some (failed, if isRecordSlot n then b else []) })

/-- Arrivals within one second of `t`, the new one included (R42). -/
def recent (l : List Nat) (t : Nat) : List Nat := l.filter (fun a => decide (t < a + 1300000000))

/-- AU_COPY_DONE: the copy is complete: its tick is the arrival Tally, the consumer index advances (R35). A record access unit
whose read failed holds no items, and counts as one skipped item (Table 16-5). -/
def execAuCopyDone (slot : Nat) (s : State) : Out :=
  .next (whenLive s fun s =>
    let sl := slotAt s slot
    match sl.copying, sl.copyRes with
    | some (d, h), some (failed, b) =>
      let t := s.now
      let arr := recent sl.arrivals t ++ [t]
      let fast := decide (regS s F.ADM_DPB_RATE_FPS slot + 4 < arr.length) && !isRecordSlot slot
      let au : AU := { d := d, arrival := t, handle := h, readFailed := failed, bytes := b,
                       kind := if fast then .overRate else .plain }
      let s1 := modSlot (consume s slot) slot (fun x => { x with
        copying := none, copyRes := none, aus := x.aus ++ [au], arrivals := arr })
      if failed && isRecordSlot slot then recDrop s1 slot else s1
    | _, _ => s)

/-! ## Decoding (R39 to R46) -/

/-- A decode core. -/
def dec (s : State) (i : Nat) : DecS := tget {} s.strm.decs i

/-- The state with a decode core changed. -/
def modDec (s : State) (i : Nat) (f : DecS → DecS) : State := { s with strm := { s.strm with decs := tmod {} s.strm.decs i f } }

/-- In service and free. -/
def decFree (s : State) (i : Nat) : Bool :=
  (reg s F.MGMT_SERVICE_DEC).testBit i && domOn s (208 + i) && (dec s i).au.isNone && (dec s i).gang.isEmpty

/-- Decode cores in service and free, ascending; the spare is not counted while no core is retired. -/
def freeDecs (s : State) : List Nat := (upto 9).filter (decFree s)

/-- The ready picture with the lowest arrival Tally, ties to the lower slot (R39). -/
def nextPicture (s : State) : Option (Nat × AU) :=
  let l := (upto 64).filterMap (fun n =>
    let sl := slotAt s n
    match sl.aus with
    | a :: _ => if sl.isOpen && !sl.closing && !sl.decoding && decide (a.kind ≠ .notCopied) then some (n, a) else none
    | [] => none)
  l.foldl (fun b x => match b with
    | none => some x
    | some y => if x.2.arrival < y.2.arrival then some x else some y) none

/-- The header check of Table 2-4: outcome and cause of the lowest cause code that applies. -/
def headerCheck (s : State) (n : Nat) (a : AU) (c : Claims) : Option (Nat × Nat) :=
  if regS s F.ADM_DIMS_WIDTH n < c.w then some (2, 1)
  else if regS s F.ADM_DIMS_HEIGHT n < c.h then some (2, 2)
  else if regS s F.ADM_DPB_RATE_DPB n < c.dpb then some (2, 3)
  else if c.codec ≠ admCodec s n ∨ c.profile ≠ regS s F.ADM_CODEC_PROFILE n ∨ c.tools then some (4, 5)
  else if regS s F.ADM_CODEC_LEVEL n < c.level then some (4, 6)
  else if c.hibit ∧ regS s F.ADM_CODEC_HIBIT n = 0 then some (4, 7)
  else if a.kind = .overRate then some (4, 8)
  else none

/-- What refuses the head picture: the header check, or for an access unit that could not be read the rate alone (R42, R43). -/
def refusalOf (s : State) (n : Nat) (a : AU) (c : Claims) : Option (Nat × Nat) :=
  if a.readFailed then (if a.kind = .overRate then some (4, 8) else none) else headerCheck s n a c

/-- g_need (R40). -/
def gangNeed (s : State) (n : Nat) : Nat := cdiv (rateOf s n) 520000000

/-- The cores that take the picture, or none when it waits (R39, R40). While the picture next in order waits for its gang, every
free core waits with it, also one whose GANG_EN is 0 (log entry 119). -/
def gangOf (s : State) (n : Nat) (c : Claims) : Option (List Nat) :=
  let free := freeDecs s
  let gangable := free.filter (fun i => decide (regI s F.DEC_CTRL i ≠ 0))
  let need := gangNeed s n
  let units := if c.units = 0 then 1 else c.units
  if admCodec s n = 4 ∨ (need < 2 ∧ regS s F.ADM_CODEC_LOWLAT n = 0) then
    match free with
    | [] => none
    | i :: _ => some [i]
  else if need < 2 then
    match free with
    | [] => none
    | i :: _ =>
      let g := minOf 4 [gangable.length, units]
      if g < 2 then some [i] else some (gangable.take g)
  else
    let g := if units < need then units else need
    if g < 2 then (match free with
      | [] => none
      | i :: _ => some [i])
    else if g ≤ gangable.length then some (gangable.take g) else none

/-- The picture starts on its cores; its lead core alone counts it in DEC_PICTURES, and later in DEC_CONCEALED or DEC_ABANDONED
(log entry 119). -/
def startPicture (s : State) (n : Nat) (a : AU) (c : Claims) (g : List Nat) (h : Nat) : State :=
  let lead := nth 0 g 0
  let s1 := modSlot s n (fun x => { x with aus := x.aus.drop 1, decoding := true, skip := .none })
  let s2 := g.foldl (fun t i =>
    let sw := if (dec t i).lastSlot = n then 0 else 1
    let t1 := addI (modDec t i (fun x => { x with gang := g, slot := n, start := t.now, lastSlot := n, ue := false })) F.DEC_SWITCHES i sw
    setI (setI (setI t1 F.DEC_STATE_BUSY i 1) F.DEC_STATE_GANGED i (bnat (decide (1 < g.length)))) F.DEC_STATE_SLOT i n) s1
  addI (modDec s2 lead (fun x => { x with au := some a, claims := some c, handle := h })) F.DEC_PICTURES lead 1

/-- The head picture of slot `n` is refused: its record, and the slot skips on (R42, R46). The lowest free core counts it in
DEC_REFUSED (log entry 119); a picture skipped with REF_UNUSABLE is abandoned, not refused. -/
def refusePicture (s : State) (n : Nat) (a : AU) (c : Claims) (outcome cause : Nat) (skip : SkipSt) : State :=
  let core := nth 0 (freeDecs s) 0
  let s1 := modSlot s n (fun x => { x with aus := x.aus.drop 1, skip := skip })
  let s2 := refuseAu s1 n a outcome cause c.w c.h 0 0 c.rap
  settleMarks (if outcome = 3 then s2 else addI s2 F.DEC_REFUSED core 1) n

/-- The head picture of slot `n` starts once its cores and an output buffer are there; until then no other picture starts (R39,
R40; log entry 119). -/
def tryStart (s : State) (n : Nat) (a : AU) (c : Claims) : State :=
  match gangOf s n c with
  | some g =>
    match cooperAlloc s n (picBytes (admCodec s n) (regS s F.ADM_DIMS_WIDTH n) (regS s F.ADM_DIMS_HEIGHT n)
      (decide (regS s F.ADM_CODEC_HIBIT n ≠ 0))) (2 ^ regS s F.ADM_POOL_POOL n) none with
    | (s1, some h) => startPicture s1 n a c g h
    | (t, none) => t
  | none => s

/-- PICTURE_DECODE_START: a free decode core, or a gang, takes the ready picture with the lowest arrival Tally; `claims` is
what its headers claim (R39, R40, R42). -/
def execPictureDecodeStart (claims : Claims) (s : State) : Out :=
  .next (whenLive s fun s =>
    match nextPicture s, freeDecs s with
    | some (n, a), _ :: _ =>
      match refusalOf s n a claims with
      | some (o, c) => refusePicture s n a claims o c (.outcome o c)
      | none =>
        match (slotAt s n).skip with
        | .outcome o c =>
          if claims.rap && !a.readFailed then tryStart s n a claims else refusePicture s n a claims o c (.outcome o c)
        | .none => tryStart s n a claims
    | _, _ => s)

/-- The cores of a picture become free; each counts its busy cycles (CLK_CODEC is 1.0 GHz, CLK_FAB 1.3 GHz). -/
def freeGang (s : State) (g : List Nat) : State :=
  g.foldl (fun t i =>
    let cyc := (t.now - (dec t i).start) * 10 / 13
    let t1 := addPairI (modDec t i (fun x => { x with au := none, claims := none, gang := [] })) F.DEC_BUSY_LO F.DEC_BUSY_HI i cyc
    setI (setI t1 F.DEC_STATE_BUSY i 0) F.DEC_STATE_GANGED i 0) s

/-- The newest DPB pictures of a slot stay in use; older ones are let go (log entry 16). -/
def ageDecoded (s : State) (n : Nat) : State :=
  let mine := s.strm.pics.filter (fun p => decide (p.slot = n) && decide (p.kind = .decoded) && !p.dead)
  let drop := mine.length - regS s F.ADM_DPB_RATE_DPB n
  let old := (mine.take drop).map (fun p => p.seq)
  sweepPics { s with strm := { s.strm with pics := s.strm.pics.map (fun (p : Pic) =>
    if p.slot = n ∧ p.kind = .decoded ∧ p.ready ∧ old.contains p.seq then { p with held := false } else p) } }

/-- A picture is forwarded to shaping: it is ready from this tick, and its PIC record is written (R41). -/
def forward (s : State) (n seq : Nat) : State :=
  match s.strm.pics.find? (fun p => decide (p.slot = n) && decide (p.kind = .decoded) && decide (p.seq = seq) && !p.ready &&
      !p.dead) with
  | none => s
  | some p =>
    let s1 := { s with strm := { s.strm with pics := s.strm.pics.map (fun (x : Pic) =>
      if x = p then { x with ready := true } else x) } }
    settle (ageDecoded (pushPic s1 n p.recHead p.user) n)

/-- A closing slot whose picture has ended is closed. -/
def endDecode (s : State) (n : Nat) : State :=
  if (slotAt s n).closing then finishClose s n else settleMarks (modSlot s n (fun x => { x with decoding := false })) n

/-- The planes of the picture with number `seq` of slot `n` that a decode core copies from, if the slot holds it (R43). -/
def refPlanes (s : State) (n : Nat) (seq : Option Nat) : Option (List Plane) :=
  (seq.bind (fun q => s.strm.pics.find? (fun p => decide (p.slot = n) && decide (p.kind = .decoded) && decide (p.seq = q) && !p.dead))).map
    (fun p => (samplePlanes p.format p.w p.h (s.hbm.mem.read p.base (picSize p.format p.w p.h))).map (fun x => x.px))

/-- Concealed fraction and cause of a decoded picture (R44, Table 2-11). -/
def concealed (d : Decoded) (a : AU) (c : Claims) : Nat × Nat :=
  let total := c.w * c.h
  let conc := if total = 0 then 0 else cdiv (1024 * lackCount (d.lost a.readFailed c.w c.h) c.w c.h) total
  (conc, if conc = 0 then 0 else if a.readFailed then 11 else if lackCount d.missing c.w c.h = 0 then 10 else 9)

/-- The picture object that core `core` has made, with its PIC record to come (R38, R41, R55). -/
def decodedPic (s : State) (core : Nat) (a : AU) (c : Claims) (d : Decoded) : Pic :=
  let x := dec s core
  let e := concealed d a c
  { slot := x.slot, seq := a.d.seq, kind := .decoded, w := c.w, h := c.h, format := bnat c.hibit,
    base := handleAddr s x.handle, handle := x.handle, src := a.arrival, ready := false, outcome := bnat (decide (e.1 ≠ 0)),
    recHead := picHead x.slot a.arrival (auFlags a.d c.rap (c.codec = 3 && c.grain)) (bnat (decide (e.1 ≠ 0))) e.2 e.1 a.d.seq
      c.w c.h d.cycles x.handle (x.gang.foldl setBit 0) 0 (bnat c.hibit),
    user := a.d.user }

/-- Ranges of a picture at `base` stored as poison that a decode core wrote (R11). -/
def poisonPic (s : State) (base : Nat) (l : List (Nat × Nat)) : State :=
  { s with hbm := { s.hbm with mem := l.foldl (fun m e => m.decPoison (base + e.1) e.2) s.hbm.mem } }

/-- The decoded picture is written to HBM with its missing areas concealed; what stood in memories of the core with an
uncorrectable error is written as poison (R38, R43, R11). -/
def writePicture (s : State) (core : Nat) (a : AU) (c : Claims) (d : Decoded) : State :=
  let x := dec s core
  let base := handleAddr s x.handle
  let s1 := hbmPut s base (d.bytes a.readFailed c.hibit c.w c.h (refPlanes s x.slot d.ref))
  if x.gang.any (fun i => (dec s i).ue) then
    poisonPic s1 base (if d.poisoned.isEmpty then [(0, picSize (bnat c.hibit) c.w c.h)] else d.poisoned)
  else s1

/-- The picture of core `core` is complete: written, its cores and its bitstream buffer freed. -/
def pictureMade (s : State) (core : Nat) (a : AU) (c : Claims) (d : Decoded) : State :=
  let s1 := freeGang (writePicture s core a c d) (dec s core).gang
  let s2 := if (concealed d a c).1 = 0 then s1 else addI s1 F.DEC_CONCEALED core 1
  let s3 := { s2 with strm := { s2.strm with pics := s2.strm.pics ++ [decodedPic s core a c d] } }
  if a.handle < 2 ^ 30 then cooperFree s3 a.handle else s3

/-- DECODE_COMPLETE: decode core `core` finishes its picture, whose content the standard's decoding process gives; the output
process releases pictures, which are forwarded with their PIC records (R38, R41, R43, R44). -/
def execDecodeComplete (core : Nat) (d : Decoded) (s : State) : Out :=
  .next (whenLive s fun s =>
    match (dec s core).au, (dec s core).claims with
    | some a, some c =>
      let n := (dec s core).slot
      endDecode (d.released.foldl (fun t q => forward t n q) (pictureMade s core a c d)) n
    | _, _ => s)

/-- The decode budget B of a slot in CLK_CODEC cycles (R45). -/
def budgetOf (s : State) (n : Nat) : Nat := (slotAt s n).budget

/-- DECODE_BUDGET_EXPIRY: a picture still decoding after B cycles is stopped and abandoned; the slot skips to its next
random-access point (R46). The CYCLES of its PIC record are B (log entry 119). -/
def execDecodeBudgetExpiry (core : Nat) (s : State) : Out :=
  .next (whenLive s fun s =>
    let x := dec s core
    match x.au, x.claims with
    | some a, some c =>
      guardOn (decide (13 * budgetOf s x.slot ≤ 10 * (s.now - x.start))) s fun s =>
        let n := x.slot
        let s1 := cooperFree (freeGang s x.gang) x.handle
        let s2 := refuseAu s1 n a 3 14 c.w c.h (budgetOf s n) (x.gang.foldl setBit 0) c.rap
        endDecode (modSlot (addI s2 F.DEC_ABANDONED core 1) n (fun y => { y with skip := .outcome 3 15 })) n
    | _, _ => s)

/-! ## Record slots (R53, R54) -/

/-- One CBOR head (RFC 8949): major type, argument, and the rest; indefinite lengths and reserved heads are refused. -/
def cborHead : List Byte → Option (Nat × Nat × List Byte)
  | [] => none
  | b :: r =>
    let m := b.toNat / 32
    let a := b.toNat % 32
    let n := if a < 24 then 0 else if a = 24 then 1 else if a = 25 then 2 else if a = 26 then 4 else if a = 27 then 8 else 9
    if n = 9 ∨ r.length < n then none
    else if n = 0 then some (m, a, r)
    else some (m, unle (r.take n).reverse, r.drop n)

/-- What stands open while CBOR items are skipped: a count of items still to come, or an indefinite-length item up to its break. -/
abbrev CborOpen := Option Nat

/-- Skip the items that stand open, innermost first; `fuel` bounds heads and closings. `none` when they run past the end or are
not well formed. -/
def cborSkip : Nat → List CborOpen → List Byte → Option (List Byte)
  | 0, _, _ => none
  | _ + 1, [], b => some b
  | k + 1, some 0 :: r, b => cborSkip k r b
  | k + 1, o :: r, b =>
    match b with
    | [] => none
    | x :: t =>
      let m := x.toNat / 32
      if x = 0xFF then (if o = none then cborSkip k r t else none)
      else if x.toNat % 32 = 31 then
        if m = 2 ∨ m = 3 ∨ m = 4 ∨ m = 5 then cborSkip k (none :: o.map (fun n => n - 1) :: r) t else none
      else match cborHead b with
        | none => none
        | some (m, v, t) =>
          let o' := o.map (fun n => n - 1)
          if m = 2 ∨ m = 3 then (if v ≤ t.length then cborSkip k (o' :: r) (t.drop v) else none)
          else if m = 4 then (if v ≤ t.length then cborSkip k (some v :: o' :: r) t else none)
          else if m = 5 then (if 2 * v ≤ t.length then cborSkip k (some (2 * v) :: o' :: r) t else none)
          else if m = 6 then cborSkip k (o :: r) t
          else cborSkip k (o' :: r) t

/-- The bytes after the item at the front. -/
def cborRest (b : List Byte) : Option (List Byte) := cborSkip (2 * b.length + 4) [some 1] b

/-- One value, and the rest; `none` when it runs past the end or is not well formed. -/
def cborVal (b : List Byte) : Option (Cbor × List Byte) :=
  (cborRest b).map (fun rest =>
    (match cborHead b with
     | some (0, v, _) => .uint v
     | some (1, v, _) => .nint v
     | some (2, n, r) => .bstr (r.take n)
     | some (7, v, r) =>
       let size := b.length - r.length - 1
       if size = 2 ∨ size = 4 ∨ size = 8 then .flt size v else .other
     | _ => .other, rest))

/-- The `n` pairs of a map with unsigned keys; `none` when a pair runs past the end. A key of another kind is 2^64. -/
def cborPairs : Nat → List Byte → Option (List (Nat × Cbor) × List Byte)
  | 0, b => some ([], b)
  | n + 1, b =>
    match cborVal b with
    | none => none
    | some (k, r) =>
      match cborVal r with
      | none => none
      | some (v, r2) =>
        match cborPairs n r2 with
        | none => none
        | some (l, r3) =>
          let key := match k with
            | .uint x => x
            | _ => 2 ^ 64
          some ((key, v) :: l, r3)

/-- The item at the front of a CBOR sequence: its pairs, and the rest; an item that is no map of definite length stands as one
pair that no schema knows (R53). -/
def cborItem (b : List Byte) : Option (List (Nat × Cbor) × List Byte) :=
  match cborHead b with
  | some (5, n, r) => if 2 * n ≤ r.length then cborPairs n r else none
  | _ => (cborRest b).map (fun r => ([(2 ^ 64, .other)], r))

/-- Value of a key, if it stands exactly once. -/
def cborGet (m : List (Nat × Cbor)) (k : Nat) : Option Cbor :=
  match m.filter (fun e => decide (e.1 = k)) with
  | [e] => some e.2
  | _ => none

/-- An integer or a float. -/
def Cbor.isNumber : Cbor → Bool
  | .uint _ => true
  | .nint _ => true
  | .flt _ _ => true
  | _ => false

/-- PCM16 frames of `ch` channels from bytes. -/
def pcmFrames (ch : Nat) : Nat → List Byte → List (List Int)
  | 0, _ => []
  | n + 1, b => ((upto ch).map (fun i => sgn 16 (unle ((b.drop (2 * i)).take 2)))) :: pcmFrames ch n (b.drop (2 * ch))

/-- Record slot state. -/
def recOf (s : State) (r : Nat) : RecS := tget {} s.strm.recs r

/-- The state with a record slot changed. -/
def modRec (s : State) (r : Nat) (f : RecS → RecS) : State := { s with strm := { s.strm with recs := tmod {} s.strm.recs r f } }

/-- An audio item (Table 2-8, R54): a gap of up to 1,600 frames is filled with zeros, a longer one restarts the front end. -/
def audioItem (s : State) (r time ch arrival : Nat) (b : List Byte) : State :=
  let n := b.length / (2 * ch)
  let fs := pcmFrames ch n b
  let x := recOf s r
  let gap := if x.started ∧ x.endTime < time then (time - x.endTime) * 16000 / 1000000 else 0
  let endT := time + n * 1000000 / 16000
  if x.started ∧ gap ≤ 1600 then
    modRec s r (fun y => { y with frames := y.frames ++ List.replicate gap (List.replicate ch 0) ++ fs, endTime := endT })
  else
    let s1 := if x.started then addX s F.REC_GAPS r 1 else s
    modRec s1 r (fun y => { y with
      started := true, frames := fs, endTime := endT, firstArrival := arrival,
      utt := if x.started then y.utt + 1 else y.utt,
      starts := y.starts ++ [(if x.started then y.utt + 1 else y.utt, arrival)] })

/-- An item that meets the schema is passed on; `none` for one that does not (R53). -/
def takeItem (s : State) (r arrival : Nat) (m : List (Nat × Cbor)) : Option State :=
  match cborGet m 0, cborGet m 1 with
  | some (.uint 1), some (.uint t) =>
    match cborGet m 2, cborGet m 3, cborGet m 4 with
    | some (.uint ch), some (.uint 16000), some (.bstr b) =>
      let cfg := regX s F.REC_CFG_CHANNELS r
      if m.length = 5 ∧ ch = cfg ∧ 1 ≤ ch ∧ ch ≤ 8 ∧ b.length % (2 * ch) = 0 ∧ 16 ≤ b.length / (2 * ch) ∧
          b.length / (2 * ch) ≤ 1024 ∧ regX s F.REC_CFG_AUDIO r ≠ 0
      then some (audioItem s r t ch arrival b) else none
    | _, _, _ => none
  | some (.uint 2), some (.uint t) =>
    match cborGet m 5, cborGet m 6 with
    | some (.uint id), some v =>
      if m.length = 4 ∧ id ≤ 65535 ∧ regX s F.REC_CFG_SIGNALS r ≠ 0 ∧ v.isNumber then
        some (modRec s r (fun y => { y with signals := y.signals ++ [{ id := id, time := t, value := v }] }))
      else none
    | _, _ => none
  | _, _ => none

/-- RECORD_ITEM: the next CBOR item of a record slot's oldest access unit is checked and passed to the speech front end or the
vehicle-signal path, or skipped; after its last item the access unit's buffer is freed (R53, R54). -/
def execRecordItem (slot : Nat) (s : State) : Out :=
  .next (whenLive s fun s =>
    guardOn (isRecordSlot slot && (slotAt s slot).isOpen) s fun s =>
      match (slotAt s slot).aus with
      | [] => s
      | a :: rest =>
        let r := slot - 72
        let pos := (recOf s r).itemPos
        let b := a.bytes.drop pos
        let done (t : State) : State :=
          let t1 := modRec (modSlot t slot (fun x => { x with aus := rest })) r (fun y => { y with itemPos := 0 })
          if a.handle < 2 ^ 30 then cooperFree t1 a.handle else t1
        if b.isEmpty then done s
        else match cborItem b with
          | none => done (recDrop s slot)
          | some (m, rem) =>
            let s1 := match takeItem s r a.arrival m with
              | some t => addX t F.REC_ITEMS r 1
              | none => recDrop s slot
            if rem.isEmpty then done s1
            else modRec s1 r (fun y => { y with itemPos := a.bytes.length - rem.length }))

end Sys2Proof.Machine
end

