-- ==== Sys2Proof/Machine/Csi.lean ====
section
/-!
DEFINITION. Sys2Proof/Machine/Csi.lean: live ports (02_streams_and_decoding.md R29, R47 to R52): conditioning, the full field and
the windows, faults of a live port, and the commands CSI_PACKET, FRAME_END and FRAME_END_TIMEOUT. FRAME_START, which applies a
commit, stands in Commit.lean.
-/

namespace Sys2Proof.Machine

/-- Bit depth of a RAW data type; 8 for YUV422. -/
def depthOf (dt : Nat) : Nat := if dt = 0x2B then 10 else if dt = 0x2C then 12 else 8

/-- CFA channel (R48): 0 R, 1 G of an R row, 2 G of a B row, 3 B; always 0 for a mono sensor. The spec numbers the channels but
does not say which colours the numbers name: the order here is the model's choice (log entry 119). -/
def cfaChan (mono : Bool) (cfa r c : Nat) : Nat := if mono then 0 else (2 * (r % 2) + c % 2).xor cfa

/-- BLACK and GAIN of a channel. -/
def blackOf (s : State) (p c : Nat) : Nat :=
  match c with
  | 0 => regI s F.CSI_BLACK_01_CH_EVEN p
  | 1 => regI s F.CSI_BLACK_01_CH_ODD p
  | 2 => regI s F.CSI_BLACK_23_CH_EVEN p
  | _ => regI s F.CSI_BLACK_23_CH_ODD p
def gainOf (s : State) (p c : Nat) : Nat :=
  match c with
  | 0 => regI s F.CSI_GAIN_01_CH_EVEN p
  | 1 => regI s F.CSI_GAIN_01_CH_ODD p
  | 2 => regI s F.CSI_GAIN_23_CH_EVEN p
  | _ => regI s F.CSI_GAIN_23_CH_ODD p

/-- Step 2 of Table 2-6 at one pixel: `d` is the neighbour distance, `t` the threshold. -/
def defect (v : Plane) (w h d t r c : Nat) : Nat :=
  let x := v.at r c
  if r < d ∨ c < d ∨ h ≤ r + d ∨ w ≤ c + d then x
  else
    let n := sortBy (fun a b => decide (a < b)) [v.at r (c - d), v.at r (c + d), v.at (r - d) c, v.at (r + d) c]
    let lo := nth 0 n 0
    let hi := nth 0 n 3
    if hi + t < x ∨ x + t < lo then (nth 0 n 1 + nth 0 n 2 + 1) / 2 else x

/-- A neighbour index at an edge: the sample of the same parity inside the frame (edge samples replicate). -/
def edge (n : Nat) (i : Int) : Nat := if i < 0 then 1 else if (n : Int) ≤ i then n - 2 else i.toNat

/-- Mean of 4 samples with round-half-up. -/
def mean4 (a b c d : Nat) : Nat := (a + b + c + d + 2) / 4

/-- Step 4 of Table 2-6: colour `k` (0 R, 1 G, 2 B) at a pixel of a Bayer frame. -/
def demosaic (v : Plane) (w h cfa k r c : Nat) : Nat :=
  let ch := cfaChan false cfa r c
  let own := if ch = 0 then 0 else if ch = 3 then 2 else 1
  let l := edge w ((c : Int) - 1)
  let rt := edge w ((c : Int) + 1)
  let u := edge h ((r : Int) - 1)
  let d := edge h ((r : Int) + 1)
  if k = own then v.at r c
  else if own ≠ 1 then
    if k = 1 then mean4 (v.at r l) (v.at r rt) (v.at u c) (v.at d c)
    else mean4 (v.at u l) (v.at u rt) (v.at d l) (v.at d rt)
  else if (ch = 1 ∧ k = 0) ∨ (ch = 2 ∧ k = 2) then mean2 (v.at r l) (v.at r rt)
  else mean2 (v.at u c) (v.at d c)

/-- Step 5: reduce to 8 bits. -/
def to8 (b v : Nat) : Nat :=
  let y := if b = 8 then v else (v + 2 ^ (b - 9)) / 2 ^ (b - 8)
  if y < 255 then y else 255

/-- The planes of a conditioned frame (R48): one for Y8, three for RGB8, Y then U and V of half width for NV16. YUV422 data
arrive as U Y V Y. -/
def condition (s : State) (p w h : Nat) (raw : Plane) : List Plane :=
  let out := regI s F.CSI_CFG_OUT p
  if out = 2 then
    [planeOf w h (fun r c => raw.at r (2 * c + 1)), planeOf (w / 2) h (fun r c => raw.at r (4 * c)),
     planeOf (w / 2) h (fun r c => raw.at r (4 * c + 2))]
  else
    let b := depthOf (regI s F.CSI_CFG_DT p)
    let mono := decide (out = 0)
    let cfa := regI s F.CSI_CFG_CFA p
    let v1 := planeOf w h (fun r c => raw.at r c - blackOf s p (cfaChan mono cfa r c))
    let v2 := if regI s F.CSI_CFG_DEFECT p = 0 then v1
      else planeOf w h (defect v1 w h (if mono then 1 else 2) (regI s F.CSI_DEFECT_THR p))
    let m := 2 ^ b - 1
    let v3 := planeOf w h (fun r c =>
      let g := (v2.at r c * gainOf s p (cfaChan mono cfa r c) + 128) / 256
      if g < m then g else m)
    if mono then [planeOf w h (fun r c => to8 b (v3.at r c))]
    else (upto 3).map (fun k => planeOf w h (fun r c => to8 b (demosaic v3 w h cfa k r c)))

/-- A plane downscaled by `k` = 2 or 4 (R49). -/
def shrink (k w h : Nat) (p : Plane) : Plane :=
  planeOf (w / k) (h / k) (fun r c =>
    (sumN ((upto k).flatMap (fun i => (upto k).map (fun j => p.at (k * r + i) (k * c + j)))) + k * k / 2) / (k * k))

/-- Samples of a plane from (x, y), `w` by `h`. -/
def crop (x y w h : Nat) (p : Plane) : Plane := planeOf w h (fun r c => p.at (y + r) (x + c))

/-- The bytes of planes in memory: plane after plane; for NV16 the Y plane, then U and V interleaved. -/
def planeBytes (out : Nat) (ps : List Plane) : List Byte :=
  let b (v : Nat) : Byte := BitVec.ofNat 8 v
  if out = 2 then
    match ps with
    | [y, u, v] => (y.flatten).map b ++ ((u.flatten.zip v.flatten).flatMap (fun e => [b e.1, b e.2]))
    | _ => []
  else (ps.map (fun p => p.flatten.map b)).flatten

/-- A live port. -/
def csi (s : State) (p : Nat) : CsiS := tget {} s.strm.csi p

/-- The state with a port changed. -/
def modCsi (s : State) (p : Nat) (f : CsiS → CsiS) : State := { s with strm := { s.strm with csi := tmod {} s.strm.csi p f } }

/-- Frame width and height of port `p`. -/
def csiW (s : State) (p : Nat) : Nat := regI s F.CSI_FRAME_SIZE_WIDTH p
def csiH (s : State) (p : Nat) : Nat := regI s F.CSI_FRAME_SIZE_HEIGHT p

/-- Values per line: two per pixel for YUV422. -/
def lineLen (s : State) (p : Nat) : Nat := if regI s F.CSI_CFG_OUT p = 2 then 2 * csiW s p else csiW s p

/-- The line that replaces a bad one at row `r`: the last good line of the same row parity, or 128 throughout (R52). The
128 stands in the place of the raw values, before conditioning, as a line of the last good frame does (log entry 119). -/
def replacement (s : State) (p r : Nat) : List Nat :=
  let l := tget [] (csi s p).lastGood (r % 2)
  if l.isEmpty then List.replicate (lineLen s p) 128 else l

/-- The lower of two cause codes, 0 meaning none. -/
def lowCause (a b : Nat) : Nat := if a = 0 then b else if b = 0 then a else if a < b then a else b

/-- Append a replaced line. -/
def badLine (s : State) (p cause : Nat) : State :=
  let c := csi s p
  modCsi s p (fun x => { x with
    lines := x.lines ++ [replacement s p c.lines.length], filled := x.filled + csiW s p, cause := lowCause x.cause cause })

/-- Fill every missing line of the frame. -/
def fillLines (p cause : Nat) : Nat → State → State
  | 0, s => s
  | n + 1, s => if (csi s p).lines.length < csiH s p then fillLines p cause n (badLine s p cause) else s

/-- A window clipped to the frame; `none` when wholly outside (R49). -/
def clipWin (w h : Nat) (v : Win) : Option Win :=
  if w ≤ v.x ∨ h ≤ v.y then none
  else some { v with w := if v.x + v.w ≤ w then v.w else w - v.x, h := if v.y + v.h ≤ h then v.h else h - v.y }

/-- The newest two frames of a live slot stay in use; older ones are let go (log entry 16). -/
def ageLive (s : State) (p : Nat) : State :=
  sweepPics { s with strm := { s.strm with pics := s.strm.pics.map (fun (x : Pic) =>
    if x.slot = 64 + p ∧ x.seq + 2 ≤ (csi s p).seq then { x with held := false } else x) } }

/-- One delivered object of a frame: a Cooper buffer is taken and written. A window that finds no buffer is delivered as an empty one,
which the last component tells (09 R226). -/
def putObject (s : State) (p : Nat) (win w h : Nat) (ps : List Plane) : State × Nat × Bool :=
  let c := csi s p
  let n := 64 + p
  let out := regI s F.CSI_CFG_OUT p
  let bytes := planeBytes out ps
  let obj (s : State) (w h handle base : Nat) (dead : Bool) : State :=
    let o : Pic := { slot := n, seq := c.seq, kind := .live win, w := w, h := h, format := out + 2, base := base,
                     handle := handle, src := c.s, ready := true, dead := dead }
    { s with strm := { s.strm with pics := s.strm.pics ++ [o] } }
  if w = 0 ∨ h = 0 then (obj s w h (2 ^ 32) 0 false, 0xFFFFFFFF, false)
  else match cooperAlloc s n bytes.length (2 ^ regS s F.ADM_POOL_POOL n) none with
    | (s1, some a) => (obj (hbmPut s1 (handleAddr s1 a) bytes) w h a (handleAddr s1 a) false, a, false)
    | (s1, none) =>
      if win = 0 then (obj s1 w h (2 ^ 32) 0 true, 0xFFFFFFFF, false) else (obj s1 0 0 (2 ^ 32) 0 false, 0xFFFFFFFF, true)

/-- A received line of `k` values brought to the frame's width `w`: a short one repeats its last pixel, a long one is cut (R52);
and the pixels that were missing. A YUV422 pixel is its Y with the U and V of its pair, or the V of the pair before where the
line ends between (log entry 121). -/
def fitLine (yuv : Bool) (w : Nat) (px : List Nat) : List Nat × Nat :=
  let k := px.length
  if yuv then
    let m := k / 2
    if w ≤ m then (px.take (2 * w), 0)
    else
      let j := (m - 1) / 2
      let y := nth 0 px (2 * m - 1)
      let u := nth 0 px (4 * j)
      let v := if 4 * j + 2 < k then nth 0 px (4 * j + 2) else if j = 0 then u else nth 0 px (4 * j - 2)
      (px.take (2 * m) ++ (rangeFrom (2 * m) (2 * w - 2 * m)).map (fun i => if i % 2 = 1 then y else if i % 4 = 0 then u else v), w - m)
  else if w ≤ k then (px.take w, 0)
  else (px ++ List.replicate (w - k) (nth 0 px (k - 1)), w - k)

/-- Values of one pixel on port `p`. -/
def isYuv (s : State) (p : Nat) : Bool := decide (regI s F.CSI_CFG_OUT p = 2)

/-- A packet whose payload holds no whole pixel. -/
def noPixel (s : State) (p : Nat) (px : List Nat) : Bool := decide (px.length < (if isYuv s p then 2 else 1))

/-- The frame is closed: its missing lines are filled with `cause`; the full field and the windows are delivered, and the PIC
record is written (R49, R52, R55). In journal full nothing is delivered and the frame is counted (11 R274), once, also where it
was closed by a timeout or an early start, which have counted it. -/
def closeFrame (s : State) (p cause : Nat) : State :=
  let s0 := fillLines p cause (csiH s p) s
  let c := csi s0 p
  let idle (t : State) : State := modCsi t p (fun x => { x with
    busy := false, lines := [], filled := 0, cause := 0, stale := false })
  if s0.journalFull then idle (if cause = 13 then s0 else addI s0 F.CSI_FE_TIMEOUTS p 1)
  else
    let w := csiW s0 p
    let h := csiH s0 p
    let out := regI s0 F.CSI_CFG_OUT p
    let ps := condition s0 p w h c.lines
    let k := if regI s0 F.CSI_CFG_SCALE p = 2 then 4 else 2
    let half (i x : Nat) : Nat := if out = 2 ∧ i ≠ 0 then x / 2 else x
    let s1 := ageLive s0 p
    let full := (enumFrom 0 ps).map (fun e => shrink k (half e.1 w) h e.2)
    let (s2, hd, _) := putObject s1 p 0 (w / k) (h / k) full
    let (s3, anyEmpty) := (enumFrom 0 c.wins).foldl (fun (a : State × Bool) e => match clipWin w h e.2 with
      | some v =>
        let (t, _, none_) := putObject a.1 p (e.1 + 1) v.w v.h
          ((enumFrom 0 ps).map (fun q => crop (half q.1 v.x) v.y (half q.1 v.w) v.h q.2))
        (t, a.2 || none_)
      | none => ((putObject a.1 p (e.1 + 1) 0 0 []).1, true)) (s2, false)
    let conc := if w * h = 0 then 0 else cdiv (1024 * c.filled) (w * h)
    let flags := (if c.stale then 1 else 0) + (if anyEmpty then 8 else 0)
    let s4 := pushPic s3 (64 + p) (picHead (64 + p) c.s flags (bnat (decide (conc ≠ 0))) (if conc = 0 then 0 else c.cause) conc
      c.seq w h 0 hd 0 c.wins.length (out + 2)) 0
    settle (idle (addI (if c.stale then addI s4 F.CSI_ROI_STALE p 1 else s4) F.CSI_FRAMES p 1))

/-- The port captures frames: its live slot is open, its domain on, and the device delivers them (16 R391). -/
def csiRuns (s : State) (p : Nat) : Bool :=
  decide (p < 8) && slotOpen s (64 + p) && domOn s (220 + p / 2) && (s.d0 || flag s F.PCIE_POWER_WATCH)

/-- CSI_PACKET: the header and payload checks of a packet, and its line (R47, R52). -/
def execCsiPacket (port : Nat) (pkt : CsiPkt) (s : State) : Out :=
  .next (whenLive s fun s =>
    guardOn (csiRuns s port && (csi s port).busy) s fun s =>
      if 2 ≤ pkt.hdrErr then
        let s1 := addI s F.CSI_CRC_ERR port 1
        if (csi s1 port).lines.length < csiH s1 port then badLine s1 port 12 else s1
      else
        let s1 := if pkt.hdrErr = 1 then addI s F.CSI_ECC_CORR port 1 else s
        if pkt.vc ≠ regI s1 F.CSI_CFG_VC port ∨ pkt.dt ≠ regI s1 F.CSI_CFG_DT port then s1
        else
          let r := (csi s1 port).lines.length
          if csiH s1 port ≤ r then addI s1 F.CSI_CRC_ERR port 1
          else if !pkt.crcOk then badLine (addI s1 F.CSI_CRC_ERR port 1) port 12
          else if noPixel s1 port pkt.px then badLine s1 port 12
          else
            let (l, miss) := fitLine (isYuv s1 port) (csiW s1 port) pkt.px
            let s2 := if lineLen s1 port < pkt.px.length then addI s1 F.CSI_CRC_ERR port 1 else s1
            modCsi s2 port (fun x => { x with
              lines := x.lines ++ [l], filled := x.filled + miss,
              cause := if miss = 0 then x.cause else lowCause x.cause 12,
              lastGood := tset [] x.lastGood (r % 2) l }))

/-- FRAME_END: the frame is delivered; lines that never came are filled (R49, R52). -/
def execFrameEnd (port : Nat) (s : State) : Out :=
  .next (whenLive s fun s =>
    guardOn (csiRuns s port && (csi s port).busy) s fun s => closeFrame s port 12)

/-- FRAME_END_TIMEOUT: CSI_FE_TIMEOUT × 65,536 ticks have passed since the frame start (R52). -/
def execFrameEndTimeout (port : Nat) (s : State) : Out :=
  .next (whenLive s fun s =>
    guardOn (csiRuns s port && (csi s port).busy &&
      decide ((csi s port).s + regI s F.CSI_FE_TIMEOUT port * 65536 ≤ s.now)) s fun s =>
      let s1 := modCsi (addI s F.CSI_FE_TIMEOUTS port 1) port (fun x => { x with cause := lowCause x.cause 13 })
      closeFrame s1 port 13)

/-- The windows of port `p` for the frame that begins (R51); a COUNT above 16 stands for 16 (log entry 122). -/
def roiList (s : State) (p : Nat) : List Win :=
  if regI s F.ROI_CTRL_SRC p = 0 then
    (upto (minOf 16 [regI s F.ROI_CTRL_COUNT p])).map (fun k =>
      { x := getF s F.ROI_POS_X p 0 k, y := getF s F.ROI_POS_Y p 0 k, w := getF s F.ROI_SIZE_W p 0 k,
        h := getF s F.ROI_SIZE_H p 0 k })
  else if regS s F.TRK_CTRL_EN (64 + p) = 0 then [] else (csi s p).trkWins

/-- A window list in the ROI_k fields of port `p`: live, or staged (R29, R51). -/
def putWins (live : Bool) (s : State) (p : Nat) (l : List Win) : State :=
  (enumFrom 0 (l.take 16)).foldl (fun t e =>
    [(F.ROI_POS_X, e.2.x), (F.ROI_POS_Y, e.2.y), (F.ROI_SIZE_W, e.2.w), (F.ROI_SIZE_H, e.2.h)].foldl (fun u x =>
      if live then putF u x.1 p 0 e.1 x.2 else putSh u x.1 p 0 e.1 x.2) t) s

/-- A frame begins on port `p` (R52): a frame that lacked its frame end is closed first; S is stamped and the windows of the
frame are fixed. The track engine's list becomes live. -/
def beginFrame (s : State) (p : Nat) : State :=
  let s1 := match (csi s p).trkNext with
    | some l => putWins true s p l
    | none => s
  let s2 := modCsi s1 p (fun x => { x with
    busy := true, s := s.now, seq := (x.seq + 1) % 2 ^ 32, lines := [], filled := 0, cause := 0, stale := false,
    trkWins := x.trkNext.getD x.trkWins, trkNext := none })
  modCsi s2 p (fun x => { x with wins := roiList s2 p })

/-- A frame start before the frame end of the frame before (R52). -/
def earlyStart (s : State) (p : Nat) : State :=
  if (csi s p).busy then
    closeFrame (modCsi (addI s F.CSI_FE_TIMEOUTS p 1) p (fun x => { x with cause := lowCause x.cause 13 })) p 13
  else s

end Sys2Proof.Machine
end

