-- ==== Sys2Proof/Machine/Sessions.lean ====
section
/-!
DEFINITION. Sys2Proof/Machine/Sessions.lean: session slots as other blocks see them (14_security_and_sessions.md R338 to R340,
R348): which tag is open, closing a session, withdrawing unlocks, stopping encoders (03 R81).
-/

namespace Sys2Proof.Machine

/-- Session slot `i`. -/
def sess (s : State) (i : Nat) : Sess := tget {} s.sec.sess i

/-- Tag of slot `i`: s + 16·g (R338). -/
def tagOf (s : State) (i : Nat) : Nat := i + 16 * (sess s i).gen

/-- Tag `t` is that of an open session; its role is `role` where one is asked for. -/
def tagOpen (s : State) (t : Nat) (role : Option Nat) : Bool :=
  let x := sess s (t % 16)
  decide (t ≠ 0) && x.isOpen && decide (tagOf s (t % 16) = t) &&
    (match role with
     | some r => decide (x.role = r)
     | none => true)

/-- SEC_UNLOCK_k follow the stream unlocks. -/
def refreshUnlocks (s : State) : State :=
  let w (k : Nat) : Nat := s.sec.streamUnlocks.foldl (fun a u => if u.2 / 32 = k then setBit a (u.2 % 32) else a) 0
  setR (setR (setR s F.SEC_UNLOCK_0 (w 0)) F.SEC_UNLOCK_1 (w 1)) F.SEC_UNLOCK_2 (w 2)

/-- Stream unlocks for which `p session slot` holds are withdrawn; their encoders stop (R348, R81). -/
def withdrawStreams (s : State) (p : Nat → Nat → Bool) : State :=
  let gone := s.sec.streamUnlocks.filter (fun u => p u.1 u.2)
  let s1 := refreshUnlocks { s with sec := { s.sec with streamUnlocks := s.sec.streamUnlocks.filter (fun u => !p u.1 u.2) } }
  stopEncoders s1 (fun t n => gone.any (fun u => decide (u.1 = t) && decide (u.2 = n)))

/-- The next waiting release enters the empty window (R348). -/
def nextRelease (s : State) : State :=
  match s.sec.window, s.sec.waiting with
  | none, r :: rest => addR { s with sec := { s.sec with window := some r, waiting := rest } } F.SEC_RELEASES 1
  | _, _ => s

/-- Tensor unlocks for which `p session plan` holds are withdrawn: releases that wait are abandoned and counted, and the window
reads 0 (R348). -/
def withdrawTensors (s : State) (p : Nat → Nat → Bool) : State :=
  let n := (s.sec.waiting.filter (fun r => p r.session r.plan)).length
  nextRelease (addR { s with sec := { s.sec with
    tensorUnlocks := s.sec.tensorUnlocks.filter (fun u => !p u.session u.plan),
    window := s.sec.window.filter (fun r => !p r.session r.plan),
    waiting := s.sec.waiting.filter (fun r => !p r.session r.plan) } } F.SEC_RELEASE_SKIPS n)

/-- SEC_SESS view registers of slot `i` and the count of open sessions. -/
def refreshSess (s : State) (i : Nat) : State :=
  let x := sess s i
  let used := x.isOpen || x.pending
  let s1 := setS (setS (setS s F.SEC_SESS_TAG i (if used then tagOf s i else 0)) F.SEC_SESS_ROLE i (if used then x.role else 0))
    F.SEC_SESS_OPEN i (bnat x.isOpen)
  let s2 := setS (setS (setS s1 F.SEC_SESS_PENDING i (bnat x.pending)) F.SEC_SESS_RESTRICTED i (bnat x.restricted))
    F.SEC_SESS_BAD_RUN i x.badRun
  setR s2 F.SEC_STATE_OPEN ((upto 16).filter (fun k => (sess s2 k).isOpen)).length

/-- Session slot `i` is replaced. -/
def putSess (s : State) (i : Nat) (x : Sess) : State :=
  refreshSess { s with sec := { s.sec with sess := tset {} s.sec.sess i x } } i

/-- TEST is entered for session `t` (07 R168, Table 7-4); the phase it is entered from is kept. -/
def enterTest (s : State) (t : Nat) : State :=
  setPhase { s with sec := { s.sec with testBy := some t, testFrom := if s.phase = 2 then s.sec.testFrom else s.phase } } 2

/-- TEST is left for the phase it was entered from (log entry 135). -/
def leaveTest (s : State) : State :=
  setPhase { s with sec := { s.sec with testBy := none, testFrom := 1 } } s.sec.testFrom

/-- The session or pending challenge in slot `i` ends: its unlocks are withdrawn; a Service session that enabled test mode
ends it (07 R168, Table 7-4). The generation stays. -/
def closeSession (s : State) (i : Nat) : State :=
  let x := sess s i
  if !x.isOpen && !x.pending then s
  else
    let t := tagOf s i
    let s1 := putSess s i { gen := x.gen }
    let s2 := withdrawTensors (withdrawStreams s1 (fun u _ => decide (u = t))) (fun u _ => decide (u = t))
    if x.isOpen ∧ x.role = 4 ∧ s2.phase = 2 ∧ s2.sec.testBy = some t then
      leaveTest s2 else s2

/-- Every session and pending challenge ends (R340). -/
def closeAll (s : State) : State := (upto 16).foldl closeSession s

end Sys2Proof.Machine
end

