-- ==== Sys2Proof/Machine/Bins.lean ====
section
/-!
DEFINITION. Sys2Proof/Machine/Bins.lean: reading and writing a core's bins (04_compute_core.md R100 to R102), the write-back
queue of corrected rows, and what consuming bad data does to an item (R101, 13_functional_safety.md R308).
-/

namespace Sys2Proof.Machine

/-- What a read of a bin delivered: the bytes, and what it met. -/
structure BR where
  bytes : List Byte := []
  info : ReadInfo := {}

/-- Two reads in sequence. -/
def BR.join (a b : BR) : BR := { bytes := a.bytes ++ b.bytes, info := a.info.join b.info }

/-- Has row `row` of the bin been written since the launch (R102)? -/
def CoreS.isWritten (c : CoreS) (b : Bin) (row : Nat) : Bool := tget false c.written (rowKey b row)

/-- Page of physical core `p`. -/
def corePage (p : Nat) : Nat := 16 + p

/-- A corrected row enters the write-back queue of four, or is counted as dropped (R101). -/
def queueBin (s : State) (p : Nat) (b : Bin) (row : Nat) : State :=
  let q := (core s p).wbq
  if q.contains (b, row) then s
  else if q.length < 4 then modCore s p (fun c => { c with wbq := c.wbq ++ [(b, row)] })
  else addI s F.CORE_WB_DROP p 1

/-- The four phases of the rotation by which the engines share every port (R100): array feeder 0, vector unit 1, loader 2, Carter 3.
Cycle c has phase c mod 4. -/
inductive PortUser where
  | feeder | vector | loader | carter
deriving DecidableEq, Repr

/-- The phase of a user. -/
def PortUser.phase : PortUser → Nat
  | .feeder => 0
  | .vector => 1
  | .loader => 2
  | .carter => 3

/-- The first cycle at or after `c` that belongs to a user. -/
def PortUser.next (u : PortUser) (c : Nat) : Nat := c + (u.phase + 4 - c % 4) % 4

/-- Cycles of a user after cycle `a`, up to cycle `b`. -/
def PortUser.count (u : PortUser) (a b : Nat) : Nat := (b + 4 - u.phase) / 4 - (a + 4 - u.phase) / 4

/-- `n` phase-3 cycles of core `p` go to Carter or to the write-back queue: a handover copy from the core loses them (R101, R322). -/
def usePhase3 (s : State) (p n : Nat) : State :=
  match tget none s.winnow.handovers (p / 9) with
  | some h => if h.phys = p then
      { s with winnow := { s.winnow with handovers := tset none s.winnow.handovers (p / 9) (some { h with start := h.start + 2 * n }) } }
    else s
  | none => s

/-- The core with the first `n` rows of its write-back queue written back. -/
def CoreS.writeBackRows (c : CoreS) (n : Nat) : CoreS :=
  { ((c.wbq.take n).foldl (fun (x : CoreS) e => x.setBin e.1 ((x.bin e.1).writeBack (e.2 * e.1.row) e.1.row)) c) with
    wbq := c.wbq.drop n }

/-- Rows waiting for write-back are written back, one in each phase 3 since the queue was served that Carter has not used; a core that
Carter saves or restores gives none (R101). -/
def flushBins (s : State) (p : Nat) : State :=
  let c := core s p
  let n := if regI s F.CORE_STATE_STATE p = 1 then PortUser.carter.count c.wbAt (2 * s.now) else 0
  let m := if n < c.wbq.length then n else c.wbq.length
  modCore (usePhase3 s p m) p (fun c => { (c.writeBackRows m) with wbAt := 2 * s.now })

/-- Read `n` bytes at byte address `a` inside one row: corrected, as poison, or zeros of an unwritten row (R101, R102). -/
def binRow (s : State) (p : Nat) (b : Bin) (a n : Nat) : State × BR :=
  let row := a / b.row
  let c := core s p
  if c.isWritten b row then
    let m := c.bin b
    let i := m.info (row * b.row) b.row
    let s1 := noteErr s (corePage p) i row
    (if i.ce = 0 then s1 else queueBin s1 p b row, { bytes := m.read a n, info := { i with lastAddr := i.lastAddr.map (fun _ => row) } })
  else (addI s F.CORE_UNWRITTEN p 1, { bytes := List.replicate n 0, info := { unwritten := 1 } })

/-- Read `n` bytes at byte address `a`, row by row; the first argument bounds the rows. -/
def binRead (p : Nat) (b : Bin) : Nat → Nat → Nat → State → State × BR
  | 0, _, _, s => (s, {})
  | f + 1, a, n, s =>
    if n = 0 then (s, {})
    else
      let l := if n ≤ b.row - a % b.row then n else b.row - a % b.row
      let (s1, r) := binRow s p b a l
      let (s2, rs) := binRead p b f (a + l) (n - l) s1
      (s2, r.join rs)

/-- Read `n` bytes of a bin at byte address `a`. -/
def readBin (s : State) (p : Nat) (b : Bin) (a n : Nat) : State × BR := binRead p b (n / b.row + 2) a n s

/-- Rows touched by `n` bytes at `a`. -/
def Bin.rowsOf (b : Bin) (a n : Nat) : List Nat := if n = 0 then [] else rangeFrom (a / b.row) ((a + n - 1) / b.row + 1 - a / b.row)

/-- A write that falls in a resident region clears the core's resident tag, unless the item that writes has named that tag last
(R107). -/
def breakResident (s : State) (p : Nat) (b : Bin) (a n : Nat) : State :=
  if b = .weight ∧ (b.rowsOf a n).any (core s p).isResident ∧ regI s F.CORE_RESIDENT_TAG p ≠ (core s p).itemTag then clearTag s p
  else s

/-- Rows of a bin that are not written hold zeros before part of them is written: what a read of them returns (R102). -/
def CoreS.zeroRows (c : CoreS) (b : Bin) (rows : List Nat) : CoreS :=
  (rows.filter (fun r => !c.isWritten b r)).foldl (fun (x : CoreS) r =>
    x.setBin b ((x.bin b).write (r * b.row) (List.replicate b.row 0))) c

/-- Write bytes to a bin, codewords marked in `bad` as poison: the rows touched are written from now on (R102). Bytes beyond the
bin are not written. -/
def writeBin (s : State) (p : Nat) (b : Bin) (a : Nat) (bytes : List Byte) (bad : List Bool) : State :=
  let bytes := bytes.take (b.rows * b.row - a)
  let s1 := breakResident s p b a bytes.length
  modCore s1 p (fun c0 =>
    let c := c0.zeroRows b (b.rowsOf a bytes.length)
    { (c.setBin b ((c.bin b).copyIn a bytes bad)) with
      written := (b.rowsOf a bytes.length).foldl (fun t r => tset false t (rowKey b r) true) c.written,
      wbq := c.wbq.filter (fun e => !(decide (e.1 = b) && (b.rowsOf a bytes.length).contains e.2)) })

/-- Set a flag of an item's JOB record (Table 8-9). -/
def flagItem (s : State) (k bit : Nat) : State := modItem s k (fun i => { i with flags := setBit i.flags bit })

/-- What an item's reads from the bins of core `p` mean for it: UNWRITTEN in its JOB record, or its end (R101, R102). The second
component tells whether the item goes on. An operand that came from a spill area may have met a dark or bad granule there. -/
def afterBins (s : State) (p k : Nat) (i : ReadInfo) : State × Bool :=
  let s1 := if i.unwritten = 0 then s else flagItem s k 0
  if i.dark then (darkFault s1 (p / 9) ((i.gran.map (fun g => g.1 % 17)).getD 0) [k], false)
  else if let some a := i.hbm then (hbmFault s1 a (decide (i.ue = 0)) i.decPoison (some k), false)
  else if let some (u, a) := i.gran then (memoryFault s1 2 u a (decide (i.ue = 0)) i.decPoison [p] [k], false)
  else if i.ue > 0 ∨ i.poison > 0 then
    (memoryFault s1 1 p (i.lastAddr.getD 0) (decide (i.ue = 0)) false [p] [k], false)
  else (s1, true)

end Sys2Proof.Machine
end

