-- ==== Sys2Proof/Machine/Spill.lean ====
section
/-!
DEFINITION. Sys2Proof/Machine/Spill.lean: partial-sum tiles in service and those held in a core's Granary spill area
(04_compute_core.md R105, R106; 07_plans_tiling_and_mapping.md R174), and what reading or writing Granary granules means for an item
(09_memory_system.md R214, R216, R222).
-/

namespace Sys2Proof.Machine

/-! ## Tiles in service (R105) -/

/-- Retired partial-sum tiles of the core at its launch; tiles in service. -/
def CoreS.psumTiles (c : CoreS) : Nat := ((upto 16).filter (fun t => !c.psumMask.testBit t)).length

/-- The physical tile of tile index `t`: the tiles in service, densely renumbered (R105); none beyond them. -/
def CoreS.physTile (c : CoreS) (t : Nat) : Option Nat := ((upto 16).filter (fun t => !c.psumMask.testBit t))[t]?

/-! ## Granules of a transfer (R207, R211) -/

/-- The claim of an item's plan. -/
def claimOf (s : State) (it : Item) : Option GranClaim := (planAt s (planIdx it.e.plan)).claim

/-- First offset of the item's claim in each bank. -/
def claimStart (s : State) (it : Item) : Nat := ((claimOf s it).map (fun c => c.start)).getD 0

/-- The offset at which the item's claim ends in each bank. -/
def claimEnd (s : State) (it : Item) : Nat := ((claimOf s it).map (fun c => c.start + c.perBank)).getD (2 ^ 21)

/-- A Granary operand resolved on a core: width, bank, start, the region with its capacity in granules, the
granule at which the transfer begins, the slots the schedule waits, and the offset at which the owner's space ends. -/
structure GranSpan where
  width : Nat
  bank : Nat
  start : Nat
  circ : Option (Nat × Nat)
  from_ : Nat := 0
  slack : Nat := 0
  lim : Nat := 2 ^ 21
deriving DecidableEq, Repr

/-- Bank and offset of granule `i` of a transfer. -/
def GranSpan.granule (g : GranSpan) (i : Nat) : Nat × Nat :=
  granuleAt g.width g.bank g.start (match g.circ with
    | some (_, cap) => (g.from_ + i) % (if cap = 0 then 1 else cap)
    | none => g.from_ + i)

/-- Logical bank and offset of the first of `n` granules of a span for which `q` holds of its physical bank and address. -/
def findGranule (s : State) (k : Nat) (g : GranSpan) (n : Nat) (q : Nat → Nat → Bool) : Option (Nat × Nat) :=
  ((upto n).map g.granule).find? (fun x => q (bankOf s k x.1) (physAddr (bankOf s k x.1) x.2))

/-- Physical bank of the first dark granule of a span. -/
def darkBankOf (s : State) (k : Nat) (g : GranSpan) (n : Nat) : Nat :=
  ((findGranule s k g n (fun p _ => bankDark s k p)).map (fun x => bankOf s k x.1)).getD 0

/-- Physical bank, and bank-local address, of the first granule of a span that cannot be delivered. -/
def badGranule (s : State) (k : Nat) (g : GranSpan) (n : Nat) : Nat × Nat :=
  match findGranule s k g n (fun _ a => ((clu s k).mem.badWords a 64).any id) with
  | some x => (bankOf s k x.1, physAddr x.1 x.2)
  | none => (bankOf s k g.bank, physAddr g.bank g.start)

/-- What reading `n` granules of a span means for item `k` on core `p` of cluster `c`: its end (R214, R216, R222), or lateness
(R219). The second component tells whether the item goes on. -/
def afterGran (s : State) (p k c : Nat) (g : GranSpan) (n : Nat) (r : GR) : State × Bool :=
  if r.info.dark then (darkFault s c (darkBankOf s c g n) [k], false)
  else if let some a := r.info.hbm then (hbmFault s a (decide (r.info.ue = 0)) r.info.decPoison (some k), false)
  else if r.info.ue > 0 ∨ r.info.poison > 0 then
    let (b, a) := badGranule s c g n
    (memoryFault s 2 (17 * c + b) a (decide (r.info.ue = 0)) r.info.decPoison [p] [k], false)
  else (if r.late then modItem s k (fun i => { i with late := true }) else s, true)

/-! ## The spill area (R106, R174) -/

/-- Does tile index `t` spill: at or above min(PSUM_TILES, PSUM_ASSUMED)? -/
def spills (s : State) (p : Nat) (it : Item) (t : Nat) : Bool :=
  let a := (imgOf s it.e).hdr.psumAssumed
  let n := (core s p).psumTiles
  decide ((if n < a then n else a) ≤ t)

/-- Where tile index `t` of core `p` spills to: the core's base area of firmware, then the plan's part (log entry 24). -/
def spillSpan (s : State) (p : Nat) (it : Item) (t : Nat) : GranSpan :=
  let l := regI s F.CORE_STATE_LOGICAL p
  let i := t - 12
  let h := (imgOf s it.e).hdr
  let j := (it.cores.filter (fun x => decide (x / 8 = l / 8) && decide (x < l))).length
  let start := if i < 16 then 4096 * (l % 8) + 256 * i
    else claimStart s it + h.granKib * 64 + j * ((h.spillKib - 64) * 64) + 256 * (i - 16)
  { width := 16, bank := 0, start := start, circ := none }

/-- Read `n` bytes from byte `o` on of spilled tile `t`; a granule that cannot be delivered is named, a late one makes the item late. -/
def readSpill (s : State) (p : Nat) (it : Item) (t o n : Nat) : State × BR :=
  let k := p / 9
  let g := spillSpan s p it t
  let m := cdiv (o % 64 + n) 64
  let (s1, r) := granReadN k g.width g.bank g.start g.lim m (o / 64) s
  let bad := ((rangeFrom (o / 64) m).map g.granule).find? (fun x =>
    bankDark s k (bankOf s k x.1) || ((clu s k).mem.badWords (physAddr (bankOf s k x.1) x.2) 64).any id)
  let info := { r.info with gran := if r.info.bad then bad.map (fun x => (17 * k + bankOf s k x.1, physAddr x.1 x.2)) else none }
  (if r.late then modItem s1 it.key (fun i => { i with late := true }) else s1, { bytes := (r.bytes.drop (o % 64)).take n, info := info })

/-- Write bytes from byte `o` on of spilled tile `t`, the rest of a granule staying; the second component tells whether a dark bank
dropped some. -/
def writeSpill (s : State) (p : Nat) (it : Item) (t o : Nat) (bytes : List Byte) : State × Bool :=
  let k := p / 9
  let g := spillSpan s p it t
  let m := cdiv (o % 64 + bytes.length) 64
  let (s1, r) := if o % 64 = 0 ∧ bytes.length % 64 = 0 then (s, ({} : GR)) else granReadN k g.width g.bank g.start g.lim m (o / 64) s
  let all := r.bytes.take (o % 64) ++ bytes ++ r.bytes.drop (o % 64 + bytes.length)
  let (s3, dropped, late) := granWriteN k g.width g.bank g.start g.lim m (o / 64) all [] s1
  let s2 := nameWrites s3 k it.key
  (if late || r.late then modItem s2 it.key (fun i => { i with late := true }) else s2, dropped)

/-- Physical bank of the first dark granule of spilled tile `t`, if any. -/
def darkTile (s : State) (p : Nat) (it : Item) (t : Nat) : Option Nat :=
  let k := p / 9
  (findGranule s k (spillSpan s p it t) 64 (fun q _ => bankDark s k q)).map (fun x => bankOf s k x.1)

end Sys2Proof.Machine
end

