-- ==== Sys2Proof/Machine/Carter.lean ====
section
/-!
DEFINITION. Sys2Proof/Machine/Carter.lean: pre-emption, contexts, Carter's stores, semaphores and credits as the dispatcher sees
them (11_dispatch_preemption_and_paging.md R261 to R269; 04_compute_core.md R108, R109), and their commands.
-/

namespace Sys2Proof.Machine

/-! ## Requests and boundaries (R261, R108) -/

/-- Is item `k` pooled and on cores? -/
def Item.onCores (i : Item) : Bool := decide (i.st = .running) || decide (i.st = .restoring)

/-- Pre-emption of pooled item `k` is requested: the request reaches each of its cores in 2 ticks (R261). -/
def requestPreempt (s : State) (k : Nat) : State :=
  match item? s k with
  | none => s
  | some it =>
    if it.isPinned || !it.onCores then s
    else it.cores.foldl (fun t l => match physOf t l with
      | some p => if (core t p).item = some k ∧ (core t p).preempt.isNone then
          modCore t p (fun c => { c with preempt := some (t.now + 2) }) else t
      | none => t) s

/-- Pooled items on cores that hold one of the logical cores `ls`. -/
def pooledOn (s : State) (ls : List Nat) : List Nat :=
  (s.disp.items.filter (fun i => !i.isPinned && i.onCores && i.cores.any (fun l => ls.contains l))).map (fun i => i.key)

/-- Pre-emption of every pooled item that holds one of the chosen cores. -/
def preemptOn (s : State) (ls : List Nat) : State := (pooledOn s ls).foldl requestPreempt s

/-- The first of the item's cores stops: from this tick the item is pre-empted, or evicted. -/
def markStop (s : State) (k : Nat) : State :=
  match item? s k with
  | none => s
  | some it =>
    if it.st = .running then
      let s1 := modItem s k (fun i => { i with
        st := .saving, stopAt := some s.now, flags := if it.evicted then i.flags else setBit i.flags 4 })
      if it.evicted then addR s1 F.CARTER_EVICTIONS 1 else addR s1 F.DISP_PREEMPTS 1
    else s

/-- Core `p` stops issuing at its boundary, where `live` names the live regions (R108). -/
def stopCore (s : State) (p : Nat) (live : List (Bin × Nat)) : State :=
  match (core s p).item with
  | none => s
  | some k => addI (markStop (modCore s p (fun c => { c with stopped := true, stopT := s.now, atBnd := some live })) k)
      F.CORE_PREEMPTS p 1

/-- A restore is abandoned (R261): the rows restored are discarded, the contexts stay where they were, the cores are free from the next
tick on. -/
def abandonRestore (s : State) (k : Nat) : State :=
  match item? s k with
  | none => s
  | some it =>
    let s1 := it.cores.foldl (fun t l => match physOf t l with
      | some p => modCore t p (fun c => { c with issueAt := t.now + 1 })
      | none => t) (freeCores s k it.cores)
    let s2 := modItem s1 k (fun i => { i with st := .out, cores := [] })
    refreshCtx { s2 with ctxs := s2.ctxs.map (fun (e : Nat × Ctx) =>
      if e.2.item = k then (e.1, { e.2 with st := e.2.place, place := .free, restored := false }) else e) }

/-- The core stands at the boundary it has just issued, at a WAIT behind one, or at its END (R108, R262). -/
def atBoundary (s : State) (p : Nat) : Option (List (Bin × Nat)) :=
  let c := core s p
  let ended := match c.item.bind (item? s) with
    | some it => it.ended.contains c.rank
    | none => false
  if ended then some []
  else match c.atBnd with
    | some live => if c.blocked.isSome || decide (s.now < c.issueAt) then some live else none
    | none => none

/-- PREEMPTION_ARRIVAL: a request reaches core `core`, which stops where it stands at a boundary and otherwise at its next BND;
a restore is abandoned (R261, R108). -/
def execPreemptionArrival (core : Nat) (s : State) : Out :=
  .next (whenLive s fun s =>
    let c := Machine.core s core
    match c.item, c.preempt with
    | some k, some t =>
      guardOn (decide (t ≤ s.now) && !c.stopped) s fun s =>
        match item? s k with
        | none => s
        | some it =>
          if it.st = .restoring then abandonRestore s k
          else match atBoundary s core with
            | some live => stopCore s core live
            | none => s
    | _, _ => s)

/-! ## Saves (R263, R109) -/

/-- Rows of the live regions of a boundary, with their bins. -/
def liveRows (c : CoreS) (live : List (Bin × Nat)) : List (Bin × Nat) :=
  live.flatMap (fun x =>
    let r := tget ({} : Region) c.regions (x.1.num * 8 + x.2)
    (rangeFrom r.base r.len).map (fun n => (x.1, n)))

/-- A row as a context holds it: bin, row by the program's numbering (a partial-sum row by tile index), bytes. -/
structure SavedRow where
  bin : Bin
  row : Nat
  bytes : List Byte

/-- What a context holds (R109; log entry 19): the loop engine's position, loops and tokens, region pointers, the codebook, and
the rows of the live regions, which Carter has read. -/
def contextOf (c : CoreS) (rows : List SavedRow) : CoreS :=
  let x : CoreS := {
    regions := c.regions, tokens := c.tokens, loops := c.loops, pc := c.pc, codebook := c.codebook, itemTag := c.itemTag,
    resident := c.resident, item := c.item, rank := c.rank, launched := c.launched, modeOf := c.modeOf, blocked := c.blocked }
  rows.foldl (fun x r =>
    let y := x.setBin r.bin ((x.bin r.bin).write (r.row * r.bin.row) r.bytes)
    { y with written := tset false y.written (rowKey r.bin r.row) true }) x

/-- Engines of the core are idle; their times count CLK_ARITH cycles, two in a tick. -/
def enginesIdle (s : State) (p : Nat) : Bool :=
  let c := core s p
  c.flights.all (fun f => f.2.isNone) && decide (c.arrayFree ≤ 2 * s.now + 1) && decide (c.vecFree ≤ 2 * s.now + 1) && decide (c.loadFree ≤ 2 * s.now + 1)

/-- Core `p` waits for its context to be saved: stopped for a pre-empted or evicted item, credits returned (R269). -/
def wantsSave (s : State) (p : Nat) : Bool :=
  let c := core s p
  c.stopped && decide (regI s F.CORE_STATE_STATE p = 1) && decide (c.credits = 0) &&
    (match c.item.bind (item? s) with
     | some it => decide (it.st = .saving)
     | none => false)

/-- A save of cluster `k` is running. -/
def saveRuns (s : State) (k : Nat) : Bool := (rangeFrom (9 * k) 9).any (fun p => decide (regI s F.CORE_STATE_STATE p = 2))

/-- No other core of the cluster is ahead of `p`: saves go in order of boundary ticks, ties to the lower logical core (R263). -/
def saveFirst (s : State) (p : Nat) : Bool :=
  (rangeFrom (9 * (p / 9)) 9).all (fun q => decide (q = p) || !wantsSave s q ||
    decide ((core s p).stopT < (core s q).stopT) ||
    (decide ((core s p).stopT = (core s q).stopT) && decide (regI s F.CORE_STATE_LOGICAL p < regI s F.CORE_STATE_LOGICAL q)))

/-- The lowest free context-table entry. -/
def freeCtx (s : State) : Option Nat := (upto 1024).find? (fun i => decide ((tget {} s.ctxs i).st = .free))

/-- Free context-table entries. -/
def ctxFree (s : State) : Nat := 1024 - s.ctxs.length

/-- Where row `row` of a bin stands, by the program's numbering: the row itself, or the row of the physical tile in service that a
partial-sum tile index names; none for a tile held in the spill area (R105, R106). -/
def rowPlace (s : State) (p : Nat) (it : Item) (b : Bin) (row : Nat) : Option Nat :=
  if b = .psum then
    if spills s p it (row / 8) then none else ((core s p).physTile (row / 8)).map (fun t => 8 * t + row % 8)
  else some row

/-- Carter reads the rows of a context that are written, or stand in the spill area (R101, R109): the rows, and what it met. -/
def readRows (s : State) (p : Nat) (it : Item) (rows : List (Bin × Nat)) : State × List SavedRow × ReadInfo :=
  rows.foldl (fun (a : State × List SavedRow × ReadInfo) x =>
    match rowPlace a.1 p it x.1 x.2 with
    | some r =>
      if (core a.1 p).isWritten x.1 r then
        let (t, b) := binRow a.1 p x.1 (r * x.1.row) x.1.row
        (t, a.2.1 ++ [⟨x.1, x.2, b.bytes⟩], a.2.2.join b.info)
      else a
    | none =>
      let (t, b) := readSpill a.1 p it (x.2 / 8) (x.2 % 8 * 512) 512
      (t, a.2.1 ++ [⟨x.1, x.2, b.bytes⟩], a.2.2.join b.info)) (s, [], {})

/-- Carter writes the rows of a context to a core: to its bins, or to the spill area of a tile that the core holds there. -/
def writeRows (s : State) (p : Nat) (it : Item) (rows : List SavedRow) : State :=
  rows.foldl (fun t r => match rowPlace t p it r.bin r.row with
    | some n => modCore t p (fun c => { (c.setBin r.bin ((c.bin r.bin).write (n * r.bin.row) r.bytes)) with
        written := tset false c.written (rowKey r.bin n) true })
    | none => (writeSpill t p it (r.row / 8) (r.row % 8 * 512) r.bytes).1) s

/-- The rows a context holds. -/
def CoreS.savedRows (x : CoreS) : List SavedRow :=
  x.written.map (fun e =>
    let b : Bin := if e.1 < 4096 then .weight else if e.1 < 8192 then .act else .psum
    ⟨b, e.1 % 4096, (x.bin b).read (e.1 % 4096 * b.row) b.row⟩)

/-- Granules of a context: its state record of 256 bytes and its rows (R263). -/
def ctxGranules (rows : List SavedRow) : Nat := 4 + sumN (rows.map (fun r => cdiv r.bytes.length 64))

/-- The tick of Carter's last slot in cluster `k` for a context of `n` granules that it takes up at tick `t`: 16 in a slot, after the context
before it (R263, 09 R208). -/
def carterSlot (s : State) (k t n : Nat) : Nat :=
  let a := (clu s k).carterAt
  SlotOwner.carter.nth (if a < t then t else a) (cdiv n 16 - 1)

/-- Carter's slots of cluster `k` are used up to tick `t`. -/
def useCarter (s : State) (k t : Nat) : State := modClu s k (fun c => { c with carterAt := t + 1 })

/-- CONTEXT_SAVE: Carter writes the context of core `core` into its save frame, once its engines are idle and no save of the
cluster stands before it (R263, R109). An uncorrectable row fails the item (Table 11-5). -/
def execContextSave (core : Nat) (s : State) : Out :=
  .next (whenLive s fun s =>
    let c := Machine.core s core
    match c.item, c.atBnd, freeCtx s with
    | some k, some live, some e =>
      guardOn (wantsSave s core && enginesIdle s core && !saveRuns s (core / 9) && saveFirst s core) s fun s =>
        let it := (item? s k).getD {}
        let (s0, rows, i) := readRows s core it (liveRows c live)
        let s1 := useCarter (usePhase3 s0 core rows.length) (core / 9) (carterSlot s (core / 9) s.now (ctxGranules rows))
        if i.bad then (afterBins s1 core k i).1
        else
          let x : Ctx := { st := .save, blocked := c.blocked.isSome, rank := c.rank, cluster := core / 9,
                           core := regI s F.CORE_STATE_LOGICAL core, item := k,
                           tag := regI s F.CORE_RESIDENT_TAG core, tagPlan := regI s F.CORE_RESIDENT_PLAN core }
          let s2 := { s1 with ctxs := tset {} s1.ctxs e x, ctxCores := tset {} s1.ctxCores e (contextOf (Machine.core s1 core) rows) }
          refreshCtx (addR (setI s2 F.CORE_STATE_STATE core 2) F.CARTER_SAVES 1)
    | _, _, _ => s)

/-- CONTEXT_SAVE_LANDED: the last byte of the context has landed, 8 ticks after its last slot, and core `core` is free; once no core holds the item its
contexts wait for a resumption (R261, R263). -/
def execContextSaveLanded (core : Nat) (s : State) : Out :=
  .next (whenLive s fun s =>
    match (Machine.core s core).item with
    | some k => guardOn (decide (regI s F.CORE_STATE_STATE core = 2) && decide ((clu s (core / 9)).carterAt + 7 ≤ s.now)) s fun s =>
        let s1 := clearCore s core
        if (upto 72).any (fun p => decide ((Machine.core s1 p).item = some k)) then s1
        else modItem s1 k (fun i => { i with st := .out, cores := [] })
    | none => s)

/-! ## Moves (R264) -/

/-- The context stands in a frame of the warm store, or moves to one. -/
def Ctx.inWarm (c : Ctx) : Bool :=
  decide (c.st = .warm) || decide (c.place = .warm) || (decide (c.st = .moving) && !c.toCold)

/-- The context occupies the save frame of its core. -/
def Ctx.inSave (c : Ctx) : Bool := decide (c.st = .save) || decide (c.st = .moving) || decide (c.place = .save)

/-- The lowest free warm frame of cluster `k`; the first 8 are the save frames. -/
def warmFrame (s : State) (k : Nat) : Option Nat :=
  (rangeFrom 8 (reg s F.CARTER_WARM - 8)).find? (fun f =>
    s.ctxs.all (fun e => decide (e.2.cluster ≠ k) || decide (e.2.frame ≠ f) || !e.2.inWarm))

/-- CONTEXT_MOVE: a context leaves its save frame for the lowest free warm frame of its cluster, or for its cold frame
(R264). -/
def execContextMove (ctx : Nat) (s : State) : Out :=
  .next (whenLive s fun s =>
    let c := tget {} s.ctxs ctx
    let landed := (upto 72).all (fun p => decide ((core s p).item ≠ some c.item) || decide ((core s p).rank ≠ c.rank))
    guardOn (decide (c.st = .save) && landed) s fun s =>
      match warmFrame s c.cluster with
      | some f => { s with ctxs := tset {} s.ctxs ctx { c with st := .moving, frame := f, toCold := false } }
      | none => { s with ctxs := tset {} s.ctxs ctx { c with st := .moving, frame := ctx, toCold := true } })

/-- CONTEXT_MOVE_DONE: the move is complete and the save frame is free; a move to cold counts in DEMOTIONS (R264). -/
def execContextMoveDone (ctx : Nat) (s : State) : Out :=
  .next (whenLive s fun s =>
    let c := tget {} s.ctxs ctx
    guardOn (decide (c.st = .moving)) s fun s =>
      refreshCtx (addR { s with ctxs := tset {} s.ctxs ctx { c with st := if c.toCold then .cold else .warm } }
        F.CARTER_DEMOTIONS (bnat c.toCold)))

/-! ## Restores (R265, R109) -/

/-- A core with a context's parts back in it but for its live rows: the bins as they are, only residents written, the core's own tiles
in service. -/
def CoreS.restore (c x : CoreS) (plan mask : Nat) (resident : List (Nat × Nat)) : CoreS :=
  { x with
    wbin := c.wbin, abin := c.abin, pbin := c.pbin,
    written := tfilter (fun k => decide (k < 4096) && c.isResident k) c.written,
    tstore := if c.tstorePlan = plan then c.tstore else [], tstorePlan := plan, wbq := c.wbq, wbAt := c.wbAt, psumMask := mask,
    resident := resident }

/-- Every row of a context's resident regions is among its live rows. -/
def CoreS.residentLive (x : CoreS) : Bool :=
  x.resident.all (fun g => (rangeFrom g.1 g.2).all (fun r => x.isWritten .weight r))

/-- The resident tag of core `p` once context `x`, saved with tag `tag` of plan `plan`, is back on it (R107, R112): the context's where
its regions were named live or stand on the core as they were; else the core's own, cleared when the restore overwrites its region. -/
def restoreTag (s : State) (p : Nat) (x : CoreS) (tag plan : Nat) : State × List (Nat × Nat) :=
  if tag ≠ 0 ∧ x.residentLive then (setTag s p tag plan, x.resident)
  else if x.written.any (fun r => decide (r.1 < 4096) && (core s p).isResident r.1) then (clearTag s p, [])
  else (s, (core s p).resident)

/-- A save or a restore of an earlier-placed item holds the Carter slots of cluster `k` (R263). -/
def restoreWaits (s : State) (k : Nat) (it : Item) : Bool :=
  saveRuns s k || (rangeFrom (9 * k) 9).any (wantsSave s) ||
    s.disp.items.any (fun i => decide (i.key ≠ it.key) && decide (i.st = .restoring) && decide (i.decision < it.decision) &&
      s.ctxs.any (fun e => decide (e.2.item = i.key) && !e.2.restored) && i.cores.any (fun l => decide (l / 8 = k)))

/-- The item's ranks are all restored: its contexts are free and it resumes in the next tick (R265). -/
def resumeItem (s : State) (k : Nat) : State :=
  match item? s k with
  | none => s
  | some it =>
    let s1 := dropCtxs s k
    let s2 := modItem s1 k (fun i => { i with
      st := .running, evicted := false, ranMask := i.ranMask.lor (maskOf it.cores),
      delay := i.delay + (match i.stopAt with
        | some t => s.now + 1 - t
        | none => 0),
      stopAt := none })
    it.cores.foldl (fun t l => match physOf t l with
      | some p => setI (modCore t p (fun c => { c with issueAt := t.now + 1, busyFrom := t.now })) F.CORE_STATE_STATE p 1
      | none => t) s2

/-- The contexts of an item in ascending rank. -/
def ctxsOf (s : State) (k : Nat) : List (Nat × Ctx) :=
  sortBy (fun a b => decide (a.2.rank < b.2.rank)) (s.ctxs.filter (fun e => decide (e.2.item = k)))

/-- CONTEXT_RESTORE: Carter restores the next rank of item `item`, in ascending rank, to the core of that rank in the new set
(R265, R170, R109), once its slots and 14 ticks have passed (R263, 09 R210). -/
def execContextRestore (item : Nat) (s : State) : Out :=
  .next (whenLive s fun s =>
    match item? s item, (ctxsOf s item).find? (fun e => !e.2.restored) with
    | some it, some (e, x) =>
      match physOf s (nth 64 it.cores x.rank) with
      | none => s
      | some p =>
        let snap := tget {} s.ctxCores e
        let due := carterSlot s (p / 9) it.decision (ctxGranules snap.savedRows)
        guardOn (decide (it.st = .restoring) && !restoreWaits s (p / 9) it && decide (due + 14 ≤ s.now)) s fun s0 =>
          let s := useCarter s0 (p / 9) due
          let (s0, res) := restoreTag s p snap x.tag x.tagPlan
          let s1 := modCore s0 p (fun c => { (c.restore snap it.e.plan (regI s F.CORE_PSUM_MASK p) res) with
            item := some item, rank := x.rank, preempt := c.preempt, stopped := false, atBnd := none, blocked := none })
          let s2 := usePhase3 (writeRows s1 p it snap.savedRows) p snap.written.length
          let s3 := addR { s2 with ctxs := tset {} s2.ctxs e { x with restored := true } } F.CARTER_RESTORES 1
          let s4 := if x.place = .cold then addR s3 F.CARTER_COLD_RESTORES 1 else s3
          if (ctxsOf s4 item).all (fun y => y.2.restored) then resumeItem s4 item else s4
    | _, _ => s)

/-! ## Credits (R269) -/

/-- CREDIT_RETURN_TIMEOUT: a credit held by core `core` has not returned within 2,600 ticks of the pre-emption request: a link
fault; its item fails with FAILED_LINK and its cores become free at once (R269). The cause code is a free value. -/
def execCreditReturnTimeout (core : Nat) (s : State) : Out :=
  .next (whenLive s fun s =>
    let c := Machine.core s core
    match c.item, c.preempt with
    | some k, some t =>
      guardOn (decide (c.credits ≠ 0) && decide (t + 2598 ≤ s.now)) s fun s =>
        let port := match item? s k with
          | some it => (((imgOf s it.e).fabric.map FabSec.xfers).getD []).findSome? (fun (x : FabXfer) => if x.relay then none else some x.port)
          | none => none
        linkFault (fresh s).2 (port.getD 0) (fresh s).1 [k]
    | _, _ => s)

end Sys2Proof.Machine
end

