-- ==== Sys2Proof/Machine/Ledger.lean ====
section
/-!
DEFINITION. Sys2Proof/Machine/Ledger.lean: the work ledger (11_dispatch_preemption_and_paging.md R251 to R256, R270): polls, the
checks of an entry at arrival, the consumer index; LEDGER_POLL and LEDGER_ENTRY_ARRIVAL.
-/

namespace Sys2Proof.Machine

/-! ## Entries (Table 11-1) -/

/-- Field of `n` bytes at offset `o`. -/
def fieldAt (b : List Byte) (o n : Nat) : Nat := unle ((b.drop o).take n)

/-- A work-ledger entry from its 128 bytes. -/
def entryOf (b : List Byte) : Entry :=
  { seq := fieldAt b 0 8, plan := fieldAt b 8 2, session := fieldAt b 10 2, cls := fieldAt b 12 1, prio := fieldAt b 13 1,
    batch := fieldAt b 14 1, ring := fieldAt b 15 1, launch := fieldAt b 0x10 8, deadline := fieldAt b 0x18 8,
    perturb := fieldAt b 0x20 8, input := fieldAt b 0x28 8, bind := (upto 16).map (fun i => fieldAt b (0x40 + 4 * i) 4) }

/-- Entries of the ledger. -/
def ledgerSize (s : State) : Nat := 2 ^ reg s F.DISP_LEDGER_CFG_LOG2

/-- The lease runs: polling is enabled, the lease has neither expired nor been suspended (R271, 16 R391). -/
def leaseRuns (s : State) : Bool :=
  flag s F.DISP_LEDGER_CFG_EN && s.disp.leaseEnd.isSome && !s.disp.leaseSuspended && !flag s F.DISP_LEASE_EXPIRED

/-- The consumer index is written to DISP_CIDX_ADDR, or held until the device may write (R252, 16 R382). -/
def writeCidx (s : State) : State :=
  if s.canIssue then
    hostWrite { s with disp := { s.disp with cidxHeld := false } } (reg s F.DISP_CIDX_ADDR_LO + 2 ^ 32 * reg s F.DISP_CIDX_ADDR_HI)
      (le 4 (reg s F.DISP_LEDGER_CIDX))
  else { s with disp := { s.disp with cidxHeld := true } }

/-- LEDGER_POLL: at each multiple of DISP_PERIOD the producer index is read, unless the poll before is still fetching; the
relay-in ring's producer index is read with it (R252, 12 R300). -/
def execLedgerPoll (s : State) : Out :=
  .next (whenLive s fun s =>
    guardOn (decide (s.now % (if reg s F.DISP_PERIOD = 0 then 8192 else reg s F.DISP_PERIOD) = 0) && leaseRuns s && s.d0) s fun s =>
      let s1 :=
        if s.disp.poll.isSome then addR s F.DISP_POLL_SKIPS 1
        else match startRead s .ledgerPidx (reg s F.DISP_PIDX_ADDR_LO + 2 ^ 32 * reg s F.DISP_PIDX_ADDR_HI) 4 true with
          | some t => { t with disp := { t.disp with poll := some {} } }
          | none => addR (addR s F.DISP_FETCH_TIMEOUTS 1) F.PCIE_READ_FAILS 1
      if flag s1 F.RELAY_CFG_EN && !s1.pcie.reads.any (fun r => match r.kind with
          | .relayPidx => true
          | .relayDesc _ => true
          | _ => false) then
        match startRead s1 .relayPidx (reg s1 F.RELAY_IN_PIDX_ADDR_LO + 2 ^ 32 * reg s1 F.RELAY_IN_PIDX_ADDR_HI) 4 true with
        | some t => t
        | none => addR (addR s1 F.DISP_FETCH_TIMEOUTS 1) F.PCIE_READ_FAILS 1
      else s1)

/-- The poll is over. -/
def endPoll (s : State) : State :=
  { dropReads s (fun k => match k with
      | .ledgerEntries _ _ => true
      | _ => false) with disp := { s.disp with poll := none } }

/-- The JOB record of an entry that was not read (R254): position `pos` of the poll. -/
def notRead (s : State) (tick n : Nat) : State :=
  let seq := match s.disp.lastSeq with
    | some q => q + 1 + n
    | none => n
  pushJob s { seq := seq % 2 ^ 64, status := 0x303, src := tick }

/-- Once every fetched entry has been queued or refused, and those not read have their records, the consumer index moves
(R252, R254). -/
def settlePoll (s : State) : State :=
  match s.disp.poll with
  | none => s
  | some p =>
    let upTo := match p.failedFrom with
      | some (f, _) => f
      | none => p.count
    if p.pidxPending ∨ p.checked < upTo then s
    else
      let s1 := match p.failedFrom with
        | some (f, t) => (upto (p.count - f)).foldl (fun u n => notRead u t n) s
        | none => s
      let s2 := match p.failedFrom, s.disp.lastSeq with
        | some (f, _), some q => { s1 with disp := { s1.disp with lastSeq := some ((q + (p.count - f)) % 2 ^ 64) } }
        | some (f, _), none => { s1 with disp := { s1.disp with lastSeq := if p.count = f then none else some (p.count - f - 1) } }
        | none, _ => s1
      writeCidx (setR (endPoll s2) F.DISP_LEDGER_CIDX (reg s2 F.DISP_LEDGER_CIDX + p.count))

/-- The producer index has arrived (R252). -/
def gotLedgerPidx (s : State) (prod : Nat) : State :=
  let n := ledgerSize s
  let c := reg s F.DISP_LEDGER_CIDX
  let d := (prod + 2 ^ 32 - c) % 2 ^ 32
  if n < d then raiseInt (endPoll s) 2 1
  else if d = 0 then endPoll s
  else
    let cnt := if d < 256 then d else 256
    let pos := c % n
    let first := if pos + cnt ≤ n then cnt else n - pos
    let base := reg s F.DISP_LEDGER_BASE_LO + 2 ^ 32 * reg s F.DISP_LEDGER_BASE_HI
    let s0 := { s with disp := { s.disp with poll := some { pidxPending := false, count := cnt } } }
    let fetch (s : State) (from_ m addr : Nat) : State :=
      match startRead s (.ledgerEntries from_ m) addr (128 * m) true with
      | some t => t
      | none =>
        let s1 := addR (addR s F.DISP_FETCH_TIMEOUTS 1) F.PCIE_READ_FAILS 1
        { s1 with disp := { s1.disp with poll := s1.disp.poll.map (fun (p : Poll) =>
          { p with failedFrom := some (from_, s1.now) }) } }
    let s1 := fetch s0 0 first (base + 128 * pos)
    settlePoll (if first < cnt then fetch s1 first (cnt - first) base else s1)

/-- A read of entries has ended: with their bytes, or as failed (R254). -/
def gotEntries (s : State) (first n : Nat) (data : Option (List Byte)) : State :=
  match s.disp.poll with
  | none => s
  | some p =>
    match data with
    | some b => { s with disp := { s.disp with poll := some { p with
        got := (upto n).foldl (fun t i => tset [] t (first + i) ((b.drop (128 * i)).take 128)) p.got } } }
    | none =>
      let f := match p.failedFrom with
        | some (g, t) => if g ≤ first then (g, t) else (first, s.now)
        | none => (first, s.now)
      settlePoll (addR { s with disp := { s.disp with poll := some { p with failedFrom := some f } } } F.DISP_FETCH_TIMEOUTS 1)

/-! ## Checks at arrival (Table 11-3, 1 to 6) -/

/-- The timeline of a plan. -/
def timelineOf (s : State) (i : Nat) : Timeline := (planAt s i).img.timeline.getD { period := 0, offsets := [] }

/-- Waiting pooled entries, pre-empted ones included. -/
def waitingPooled (s : State) : Nat :=
  (s.disp.items.filter (fun i => !i.isPinned &&
    (decide (i.st = .pooled) || decide (i.st = .saving) || decide (i.st = .out)))).length

/-- Waiting pinned entries. -/
def waitingPinned (s : State) : Nat :=
  (s.disp.items.filter (fun i => i.isPinned && !i.golden && (decide (i.st = .pinned) || decide (i.st = .decided)))).length

/-- The chip is out of step (12 R287). -/
def State.outOfStep (s : State) : Bool := decide (reg s F.TALLY_STATE_STATE = 3)

/-- Check 4: the bindings of an entry that name slots name open ones owned by its session. -/
def slotsOk (s : State) (e : Entry) : Bool :=
  e.bind.all (fun w => match (bindOf w).slot with
    | some n => (slotAt s n).isOpen && decide (regS s F.ADM_POOL_SESSION n = e.session)
    | none => true)

/-- The first check at arrival that fails: status and reason. -/
def arrivalCheck (s : State) (e : Entry) : Option (Nat × Nat) :=
  let i := planIdx e.plan
  let img := (planAt s i).img
  let tl := timelineOf s i
  if !tagOpen s e.session (some 0) then some (0x204, 0)
  else if !planInstalled s e.plan then some (0x205, 0)
  else if img.hdr.fabricPlan && s.outOfStep then some (0x205, 19)
  else if 15 < e.ring ∨ (e.cls = 0 ∧ 3 < e.prio) then some (0x201, 0)
  else if e.cls ≠ img.hdr.cls then some (0x205, 17)
  else if e.cls = 1 ∧ ¬ (tl.period ≠ 0 ∧ tl.offsets.contains (e.launch % tl.period)) then some (0x205, 17)
  else if !slotsOk s e then some (0x203, 0)
  else if e.cls = 0 ∧ (flag s F.THERM_STATE_WARN ∨ reg s F.DISP_QUEUE ≤ waitingPooled s) then some (0x202, 0)
  else if e.cls = 1 ∧ 256 ≤ waitingPinned s then some (0x202, 0)
  else if e.cls = 1 ∧ e.launch < s.now + 5200 then some (0x206, 0)
  else if e.cls = 1 ∧ s.disp.items.any (fun x => decide (planIdx x.e.plan = i) && decide (x.e.launch = e.launch) && !x.golden &&
      !x.relaunched) then some (0x202, 0)
  else none

/-- The highest descriptor of the input block that a HOST binding names, plus one; 0 for none. -/
def hostDescs (e : Entry) : Nat :=
  maxOf (e.bind.map (fun w => match bindOf w with
    | .host d => d + 1
    | _ => 0))

/-- A read an item depends on begins, or has failed at once. -/
def fetchFor (s : State) (k : Nat) (kind : ReadKind) (addr len : Nat) (mark : Fetch → Item → Item) : State :=
  match startRead s kind addr len true with
  | some t => modItem t k (mark .pending)
  | none => addR (modItem s k (mark .failed)) F.PCIE_READ_FAILS 1

/-- An item enters its queue; its input block and perturbation table are read with it (R253, R73). -/
def enqueue (s : State) (it : Item) : State :=
  let k := s.disp.nextKey
  let e := it.e
  let s1 := addItem s it
  let nd := hostDescs e
  let s2 := if nd = 0 ∨ e.input = 0 then s1
    else fetchFor s1 k (.inputBlock k) e.input (32 * nd) (fun f i => { i with inputF := f })
  let s3 := if e.perturb = 0 ∨ e.batch = 0 then s2
    else fetchFor s2 k (.perturb k) e.perturb (32 * e.batch) (fun f i => { i with perturbF := f })
  settle s3

/-- The last entry fetched for an item offset of an AUTONOMOUS plan is kept for its repeats (R272). -/
def keepRepeat (s : State) (e : Entry) : State :=
  let i := planIdx e.plan
  if e.cls = 1 ∧ (planAt s i).img.hdr.autonomous then
    let o := e.launch % (timelineOf s i).period
    { s with disp := { s.disp with
      repeats := s.disp.repeats.filter (fun r => !(decide (r.idx = i) && decide (r.offset = o))) ++
        [{ idx := i, offset := o, e := e, count := 0, lastLaunch := e.launch }] } }
  else s

/-- An entry is refused at arrival: its record carries the arrival tick (R256). -/
def refuseEntry (s : State) (e : Entry) (status reason : Nat) : State :=
  let s1 := pushJob s { seq := e.seq, plan := e.plan, status := status, batch := e.batch, cls := e.cls, reason := reason,
                        session := e.session, src := s.now, ring := e.ring }
  let s2 := addR s1 F.DISP_REFUSED 1
  let s3 := if (planAt s (planIdx e.plan)).st = .installed ∧ planIdAt s (planIdx e.plan) = e.plan then
      { (countEnd s2 (planIdx e.plan) status) with disp := { s2.disp with
        outcomes := s2.disp.outcomes.filter (fun x => !(decide (x.idx = planIdx e.plan) && decide (x.seq = e.seq % 2 ^ 16))) ++
          [{ idx := planIdx e.plan, seq := e.seq % 2 ^ 16, isDone := false, dims := [] }] } }
    else s2
  settle s3

/-- LEDGER_ENTRY_ARRIVAL: the next fetched entry is checked and queued or refused; after the last one the consumer index is
written back (R252, R255, R256). -/
def execLedgerEntryArrival (s : State) : Out :=
  .next (whenLive s fun s =>
    match s.disp.poll with
    | none => s
    | some p =>
      let b := tget [] p.got p.checked
      let covered := match p.failedFrom with
        | some (f, _) => decide (p.checked < f)
        | none => true
      guardOn (!b.isEmpty && covered && decide (p.checked < p.count)) s fun s =>
        let e := entryOf b
        let s1 := addR { s with disp := { s.disp with
          lastSeq := some e.seq, poll := some { p with checked := p.checked + 1, got := terase p.got p.checked } } } F.DISP_FETCHED 1
        let s2 := match arrivalCheck s1 e with
          | some (st, r) => refuseEntry s1 e st r
          | none => keepRepeat (enqueue s1 { e := e, st := if e.cls = 1 then .pinned else .pooled, arrival := s.now }) e
        settlePoll s2)

end Sys2Proof.Machine
end

