-- ==== Sys2Proof/Machine/Sched.lean ====
section
/-!
DEFINITION. Sys2Proof/Machine/Sched.lean: launch decisions (11_dispatch_preemption_and_paging.md R256 to R260, R266, R268, R270,
R272; golden windows of 13_functional_safety.md R320), and their commands.
-/

namespace Sys2Proof.Machine

/-! ## The checks of a launch decision (Table 11-3, 7 and 9) -/

/-- The phase allows the plan (07 R168). -/
def phaseOk (s : State) (img : PlanImage) : Bool := decide (s.phase = 1) || img.hdr.wholeTile

/-- The ratio of output to input lies within ¼ and 8 (03 R62). -/
def ratioOk (inN outN : Nat) : Bool := decide (inN ≤ 4 * outN) && decide (outN ≤ 8 * inN)

/-- A stage's own limits (03 R62, R65, R73): the scaler's ratio for each picture bound, the COUNT of the list bound and, where
samples are perturbed, at most BATCH of them; a list in memory is judged when its stage reads it. Sizes of 0 are left to the
emptiness rule. -/
def stageBad (s : State) (it : Item) (g : ShapeStage) : Bool :=
  match g.unit with
  | .scaler =>
    (decide (it.e.perturb ≠ 0) && decide (it.e.batch < g.more.length + 1)) ||
      (g.binding :: g.more).any (fun b => match bindReady s it (nth 0 it.e.bind b) with
        | .ready (w :: h :: _) =>
          let (rw, rh) := if g.desc.rot % 2 = 1 then (h, w) else (w, h)
          decide (w ≠ 0) && decide (h ≠ 0) && !(ratioOk rw g.desc.outW && ratioOk rh g.desc.outH)
        | _ => false)
  | _ =>
    match g.hdr with
    | none => false
    | some h => g.listAt.isNone && g.listHbm.isNone &&
      let count := match bindReady s it (nth 0 it.e.bind g.listBinding) with
        | .ready (n :: _) => n
        | _ => h.count
      decide (4096 < count) || (h.mode.testBit 2 && decide (it.e.batch < count))

/-- An operator that reads one of the bindings `idxs` straight from the item's entry cannot take so large a picture (06 R134). -/
def operTooLarge (s : State) (it : Item) (idxs : List Nat) (d : OpDesc) : Bool :=
  d.from_.isNone && idxs.contains d.binding && (match bindReady s it (nth 0 it.e.bind d.binding) with
    | .ready (w :: h :: _) => decide (d.wMax < w) || decide (d.hMax < h)
    | _ => false)

/-- Checks of phase and shape over the bindings `idxs`: the status and reason with which the item ends. -/
def shapeStatus (s : State) (it : Item) (idxs : List Nat) : Option (Nat × Nat) :=
  match shapeCheck s it idxs with
  | .refused => some (0x201, 0)
  | .empty => some (2, 0)
  | .ok =>
    if (imgOf s it.e).shaping.any (stageBad s it) || (imgOf s it.e).ops.any (operTooLarge s it idxs) then some (0x201, 0) else none

/-- Bytes of a scaler stage's output for one picture: OUT_W × OUT_H × C. -/
def scalerBytes (d : ShapeDesc) : Nat := d.outW * d.outH * (if d.outFmt = 2 then 1 else 3)

/-- Bytes of a scaler stage's output: those of its pictures one after the other. -/
def ShapeStage.outBytes (g : ShapeStage) : Nat := (g.more.length + 1) * scalerBytes g.desc

/-- Check 9: Cooper supplies a buffer for each scaler stage (03 R58), from the plan's pools; `none` when it cannot. -/
def takeBuffers (s : State) (it : Item) : Option State :=
  let img := imgOf s it.e
  (img.shaping.filter (fun g => decide (g.unit = .scaler))).foldl (fun a g => match a with
    | none => none
    | some t =>
      match cooperAlloc t (256 + planIdx it.e.plan) g.outBytes img.hdr.pools (some it.key) with
      | (u, some h) => some (modItem u it.key (fun x => { x with bufs := x.bufs ++ [h] }))
      | (_, none) => none) (some s)

/-- Numbers of the bindings of an item. -/
def bindIdxs (it : Item) : List Nat := upto it.e.bind.length

/-! ## Pinned decisions (R257) -/

/-- Reservations and holds whose window has passed are dropped. -/
def pruneResv (s : State) : State :=
  { s with disp := { s.disp with
    resv := s.disp.resv.filter (fun r => decide (s.now < r.hi)),
    holds := s.disp.holds.filter (fun h => match h.until_ with
      | some t => decide (s.now < t)
      | none => true) } }

/-- Logical core `l` is free for a decision at launch Tally `t`: in service, or its spare being put in (07 Table 7-11; log entry
145), in no reservation that contains `t`. -/
def freeAt (s : State) (t l : Nat) : Bool :=
  ((physOf s l).isSome || beingReplaced s l) && !s.disp.resv.any (fun r => r.cores.contains l && decide (r.lo ≤ t) && decide (t < r.hi))

/-- The `n` lowest of a list of cores; for a ONE_CLUSTER plan those of the lowest-numbered cluster that has `n`. -/
def pickCores (n : Nat) (one : Bool) (free : List Nat) : Option (List Nat) :=
  if one then
    ((upto 8).map (fun k => free.filter (fun l => decide (l / 8 = k)))).findSome? (fun f =>
      if n ≤ f.length then some (f.take n) else none)
  else if n ≤ free.length then some (free.take n) else none

/-- The window of a decision: [L, L + WCET(MAX_BATCH)), or the golden window. -/
def windowLen (s : State) (it : Item) : Nat :=
  if it.golden then ((timelineOf s (planIdx it.e.plan)).golden.map (fun g => g.length)).getD 0 else wcetMax s (planIdx it.e.plan)

/-- DETAIL of a PINNED_SHORT record (Table 13-8). -/
def shortDetail (s : State) (free n : Nat) : Nat :=
  (upto 8).foldl (fun a k => if inService s k < 8 then setBit a k else a) 0 + 2 ^ 8 * free + 2 ^ 16 * n

/-- The decision takes its cores: reserved, held, pooled work on them pre-empted. -/
def takeCores (s : State) (k : Nat) (ls : List Nat) (lo hi : Nat) : State :=
  let s1 := { s with disp := { s.disp with
    resv := s.disp.resv ++ [{ item := k, cores := ls, lo := lo, hi := hi }],
    holds := s.disp.holds ++ ls.map (fun l => { core := l, item := k, until_ := none }) } }
  preemptOn (modItem s1 k (fun i => { i with st := .decided, decision := s.now, cores := ls })) ls

/-- The checks that fall at the decision of a pinned item, its cores taken (R257). -/
def decideChecks (s : State) (k : Nat) : State :=
  match item? s k with
  | none => s
  | some it =>
    let ready := (bindIdxs it).filter (fun i => match bindReady s it (nth 0 it.e.bind i) with
      | .ready _ => true
      | _ => false)
    let rest := (bindIdxs it).filter (fun i => !ready.contains i)
    if !phaseOk s (imgOf s it.e) then endItemWith s k 0x205 13 [] false
    else match shapeStatus s it ready with
      | some (st, r) => endItemWith s k st r [] false
      | none =>
        match takeBuffers s it with
        | none => endItem s k 0x202
        | some t => modItem t k (fun i => { i with lateBinds := rest })

/-- The decision of item `it`, which stands in the list of items. -/
def decidePinned (s : State) (it : Item) : State :=
  let s1 := pruneResv s
  let h := (imgOf s1 it.e).hdr
  let free := (upto 64).filter (freeAt s1 it.e.launch)
  match pickCores h.cores h.oneCluster free with
  | some ls =>
    let s2 := takeCores s1 it.key ls it.e.launch (it.e.launch + windowLen s1 it)
    if it.golden then s2 else decideChecks s2 it.key
  | none =>
    if it.golden then addR (endItem s1 it.key 0) F.WINNOW_GOLDEN_DEFERRED 1
    else endItem (modItem (safNow s1 0x10 1 0 0 it.e.plan (shortDetail s1 free.length h.cores) 0) it.key
      (fun i => { i with decision := s1.now })) it.key 0x202

/-- No pinned item still to be decided stands before launch `l` of plan-table index `i` (R257). -/
def firstDecision (s : State) (k l i : Nat) : Bool :=
  s.disp.items.all (fun x => decide (x.key = k) || decide (x.st ≠ .pinned) || decide (l < x.e.launch) ||
    (decide (l = x.e.launch) && decide (i < planIdx x.e.plan)))

/-- The start of the golden window of plan `i` whose decision is due (R320). -/
def goldenDue (s : State) (i : Nat) : Option Nat :=
  let tl := timelineOf s i
  match tl.golden with
  | none => none
  | some g =>
    let per := tl.period * g.every
    if per = 0 ∨ s.now + 5200 < g.offset then none
    else
      let w := g.offset + (s.now + 5200 - g.offset) / per * per
      if s.now < w ∧ tget 0 s.winnow.goldenRun i ≠ w + 1 then some w else none

/-- No golden window whose decision is due comes before launch `l` of plan-table index `i`: within one plan items go first (R257). -/
def goldenAfter (s : State) (l i : Nat) : Bool :=
  !flag s F.WINNOW_CTRL_EN || s.plans.all (fun e => !(decide (e.2.st = .installed) && decide (e.2.img.hdr.cls = 1)) ||
    (match goldenDue s e.1 with
     | some w => decide (l < w) || (decide (l = w) && decide (i ≤ e.1))
     | none => true))

/-- Item number that names the golden window of plan-table index `i` in PINNED_LAUNCH_DECISION: 2^40 + i (log entry 20). -/
def goldenBase : Nat := 2 ^ 40

/-- PINNED_LAUNCH_DECISION: at L − 5,200 a pinned item, or a golden window, takes its cores and its decision checks (R257,
R320). -/
def execPinnedLaunchDecision (item : Nat) (s : State) : Out :=
  .next (whenLive s fun s =>
    if goldenBase ≤ item then
      let i := item - goldenBase
      let p := planAt s i
      match goldenDue s i with
      | some w =>
        guardOn (flag s F.WINNOW_CTRL_EN && decide (p.st = .installed) && decide (p.img.hdr.cls = 1) &&
          s.disp.items.all (fun x => decide (x.st ≠ .pinned) || decide (w < x.e.launch) ||
            (decide (w = x.e.launch) && decide (i < planIdx x.e.plan))) && goldenAfter s w i) s fun s =>
          let k := s.disp.nextKey
          let g : Item := { e := { plan := planIdAt s i, cls := 1, batch := 1, launch := w }, st := .pinned, arrival := s.now,
                            golden := true }
          let s1 := addItem { s with winnow := { s.winnow with goldenRun := tset 0 s.winnow.goldenRun i (w + 1) } } g
          decidePinned s1 { g with key := k }
      | none => s
    else
      match item? s item with
      | none => s
      | some it =>
        guardOn (decide (it.st = .pinned) && decide (it.e.launch ≤ s.now + 5200) &&
          firstDecision s item it.e.launch (planIdx it.e.plan) && goldenAfter s it.e.launch (planIdx it.e.plan)) s fun s => decidePinned s it)

/-! ## Pinned launches (R258) -/

/-- Logical core `l` runs nothing; one that an abandoned restore has freed in this tick is free in the next (R261). -/
def coreIdle (s : State) (l : Nat) : Bool :=
  match physOf s l with
  | some p => (core s p).item.isNone && decide (regI s F.CORE_STATE_STATE p = 0) && decide ((core s p).issueAt ≤ s.now)
  | none => false

/-- A chosen core has no physical core and no substitution is under way (log entry 21). -/
def coreGone (s : State) (l : Nat) : Bool := (physOf s l).isNone && (tget none s.faults.reactions (l / 8)).isNone

/-- The newest complete frame, or forwarded picture, that binding word `w` of a repeat stands for (R272). -/
def newestBind (s : State) (w : Nat) : Nat :=
  let good (p : Pic) : Bool := p.ready && !p.dead
  match bindOf w with
  | .picture n _ =>
    match s.strm.pics.reverse.find? (fun p => good p && decide (p.slot = n) && decide (p.kind = .decoded)) with
    | some p => w % 2 ^ 11 + 2 ^ 11 * (p.seq % 2 ^ 21)
    | none => w
  | .live n v _ =>
    match s.strm.pics.reverse.find? (fun p => good p && decide (p.slot = 64 + n) && decide (p.kind = .live v)) with
    | some p => w % 2 ^ 16 + 2 ^ 16 * (p.seq % 2 ^ 16)
    | none => w
  | _ => w

/-- PINNED_LAUNCH: at L the item is launched, waits for a core that is not free, or is refused (R258; golden windows R320). -/
def execPinnedLaunch (item : Nat) (s : State) : Out :=
  .next (whenLive s fun s =>
    match item? s item with
    | none => s
    | some it =>
      guardOn (decide (it.st = .decided) && decide (it.e.launch ≤ s.now)) s fun s =>
        let idle := it.cores.all (coreIdle s)
        let defer (s : State) : State := addR (endItem s item 0) F.WINNOW_GOLDEN_DEFERRED 1
        let launchLate (s : State) : State :=
          if it.cores.any (coreGone s) then endItem s item 0x301
          else if idle then
            launchItem (modItem s item (fun i => { i with delay := i.delay + (s.now - it.e.launch) })) item it.cores s.now
          else modItem s item (fun i => { i with late := true })
        if it.golden then (if s.noLaunch || !idle then defer s else launchItem s item it.cores it.e.launch)
        else if it.late then (if s.noLaunch then s else launchLate s)
        else if s.noLaunch then endItem s item 0x202
        else
          let s1 := if it.isRepeat then modItem s item (fun i => { i with
            isRepeat := false, e := { i.e with bind := i.e.bind.map (newestBind s) } }) else s
          match item? s1 item with
          | none => s1
          | some x =>
            if !allReady s1 x then endItem s1 item 0x206
            else match shapeStatus s1 x x.lateBinds with
              | some (st, r) => endItemWith s1 item st r [] false
              | none => if idle then launchItem s1 item x.cores x.e.launch else launchLate s1)

/-! ## Pooled placement (R259, R268) -/

/-- A checker segment runs on core `p` (13 R318). -/
def segOn (s : State) (p : Nat) : Bool := s.winnow.segs.any (fun g => decide (g.unitKind = 1) && decide (g.unit = p))

/-- Logical core `l` is free for pooled item `k`: it runs nothing and is not held for another item. -/
def freeFor (s : State) (k l : Nat) : Bool :=
  match physOf s l with
  | some p => coreIdle s l && domOn s p && !segOn s p &&
      s.disp.holds.all (fun h => decide (h.core ≠ l) || decide (h.item = k) ||
        (match h.until_ with
         | some t => decide (t ≤ s.now)
         | none => false))
  | none => false

/-- Another item of the plan occupies its regions in cluster `c`. -/
def planBusy (s : State) (it : Item) (c : Nat) : Bool :=
  s.disp.items.any (fun x => decide (x.key ≠ it.key) && decide (x.e.plan = it.e.plan) && x.launched &&
    x.clusterSet.any (fun y => decide (y.1 = c)))

/-- The save frame of logical core `l` is empty or holds a context of the item. -/
def saveFrameOk (s : State) (k l : Nat) : Bool :=
  s.ctxs.all (fun e => decide (e.2.core ≠ l) || !e.2.inSave || decide (e.2.item = k))

/-- The cores a pooled item takes, out of those that satisfy `ok` (R259). -/
def pooledPick (s : State) (it : Item) (ok : Nat → Bool) : Option (List Nat) :=
  let h := (imgOf s it.e).hdr
  let free := (upto 64).filter (fun l => ok l && !planBusy s it (l / 8) && !(clu s (l / 8)).outOfService)
  if it.clusterSet.isEmpty then pickCores h.cores h.oneCluster free
  else
    it.clusterSet.foldl (fun a x => match a with
      | none => none
      | some ls =>
        let f := free.filter (fun l => decide (l / 8 = x.1))
        if x.2 ≤ f.length then some (ls ++ f.take x.2) else none) (some [])

/-- The cores on which the item can be placed now. -/
def placeable (s : State) (it : Item) : Option (List Nat) :=
  pooledPick s it (fun l => freeFor s it.key l && saveFrameOk s it.key l)

/-- An evicted item becomes placeable once the semaphores its contexts wait for can be taken (R266). -/
def canTake (s : State) (it : Item) : Bool :=
  (ctxsOf s it.key).all (fun e => !e.2.blocked || (
    let c := tget {} s.ctxCores e.1
    match (c.blocked.bind (fun b => b.sem)) with
    | some n => decide ((tget {} s.sems n).val ≠ 0)
    | none => true))

/-- A waiting pooled item is considered as a head: its bindings are ready, or it has run before. -/
def headReady (s : State) (it : Item) : Bool :=
  match it.st with
  | .pooled => allReady s it
  | .saving => true
  | .out => !it.evicted || canTake s it
  | _ => false

/-- The pooled items that wait, in their levels' order. -/
def waitingAt (s : State) (p : Nat) : List Item :=
  s.disp.items.filter (fun i => !i.isPinned && !i.inherit && decide (i.e.prio = p) &&
    (decide (i.st = .pooled) || decide (i.st = .saving) || decide (i.st = .out)))

/-- R270: a ready item can no longer end by its DEADLINE. -/
def pastDeadline (s : State) (it : Item) : Bool :=
  decide (it.e.deadline ≠ 0) && decide (it.e.deadline < s.now + 48 + wcetOf s (planIdx it.e.plan) it.e.batch)

/-- Holds for an item that is placed are given back. -/
def dropHolds (s : State) (k : Nat) : State :=
  { s with disp := { s.disp with holds := s.disp.holds.filter (fun h => decide (h.item ≠ k)) } }

/-- The item's cores are given to it for a restore: a move of one of its contexts that is still running is abandoned (R265). -/
def startRestore (s : State) (it : Item) (ls : List Nat) : State :=
  let s1 := modItem s it.key (fun i => { i with st := .restoring, cores := ls, decision := s.now })
  let s2 := { s1 with ctxs := s1.ctxs.map (fun (e : Nat × Ctx) =>
    if e.2.item = it.key then
      (e.1, { e.2 with st := .restoring, place := if e.2.st = .moving then .save else e.2.st, restored := false })
    else e) }
  let s3 := (enumFrom 0 ls).foldl (fun t rl => match physOf t rl.2 with
    | some p => setI (setI (setI (setI (modCore t p (fun c => { c with item := some it.key, rank := rl.1, preempt := none }))
        F.CORE_STATE_STATE p 3) F.CORE_STATE_PINNED p 0) F.CORE_STATE_PLAN p it.e.plan) F.CORE_ITEM p it.e.seq
    | none => t) s2
  addR (refreshCtx (dropHolds s3 it.key)) F.DISP_LAUNCH_POOLED 1

/-- A pooled item is launched or refused at its decision (Table 11-3, 7 and 9); DELAY runs from the later of its arrival and
the tick its last binding became ready (R260). -/
def launchPooled (s : State) (it : Item) (ls : List Nat) : State :=
  let k := it.key
  let s1 := modItem s k (fun i => { i with decision := s.now })
  if !phaseOk s1 (imgOf s1 it.e) then endItemWith s1 k 0x205 13 [] false
  else match shapeStatus s1 it (bindIdxs it) with
    | some (st, r) => endItemWith s1 k st r [] false
    | none =>
      match takeBuffers s1 it with
      | none => endItem s1 k 0x202
      | some t =>
        let from_ := match it.ready with
          | some r => if r < it.arrival then it.arrival else r
          | none => it.arrival
        launchItem (dropHolds (modItem t k (fun i => { i with delay := i.delay + (t.now - from_) })) k) k ls t.now

/-- Try to place a head; `none` when it cannot be placed. -/
def tryHead (s : State) (it : Item) : Option State :=
  match it.st with
  | .pooled =>
    if pastDeadline s it then some (addR (endItem s it.key 0x202) F.DISP_DEADLINE_REFUSALS 1)
    else if ctxFree s < 64 then none
    else (placeable s it).map (launchPooled s it)
  | .out =>
    if it.clusterSet.any (fun c => (clu s c.1).outOfService) then some (endItem s it.key 0x301)
    else (placeable s it).map (startRestore s it)
  | _ => none

/-- A launch held only by a save frame that is still occupied is counted once (CARTER MOVE_WAITS). -/
def noteMoveWait (s : State) (it : Item) : State :=
  if !it.moveWait && (it.st = .pooled || it.st = .out) && (placeable s it).isNone &&
      (pooledPick s it (freeFor s it.key)).isSome then
    addR (modItem s it.key (fun i => { i with moveWait := true })) F.CARTER_MOVE_WAITS 1
  else s

/-- The heads of the levels, level 0 first: the first one that can be placed is; one that cannot blocks its level and every
lower one (R259). -/
def placeLevels : List Nat → State → State
  | [], s => s
  | p :: ps, s =>
    match (waitingAt s p).find? (headReady s) with
    | none => placeLevels ps s
    | some it =>
      match tryHead s it with
      | some t => t
      | none => noteMoveWait s it

/-- Cores are taken for an inheriting holder as by a pinned launch at the present tick: pooled items on the lowest cores it may
use, which no pinned item runs on or is held for, are pre-empted (R268). -/
def claimFor (s : State) (it : Item) : State :=
  if s.disp.holds.any (fun h => decide (h.item = it.key)) then s
  else
    let ok (l : Nat) : Bool :=
      match physOf s l with
      | some p =>
        (match (core s p).item.bind (item? s) with
         | some x => !x.isPinned && decide (x.key ≠ it.key)
         | none => decide (regI s F.CORE_STATE_STATE p = 0)) &&
        s.disp.holds.all (fun h => decide (h.core ≠ l) || (match h.until_ with
          | some t => decide (t ≤ s.now)
          | none => false)) && freeAt s s.now l
      | none => false
    match pooledPick s it ok with
    | some ls => preemptOn { s with disp := { s.disp with
        holds := s.disp.holds ++ ls.map (fun l => { core := l, item := it.key, until_ := none }) } } ls
    | none => s

/-- The inheriting holders that wait, before every level (R268). -/
def placeHolders : List Item → State → Option State
  | [], _ => none
  | it :: rest, s =>
    if headReady s it then
      match tryHead s it with
      | some t => some t
      | none => if it.st = .saving then placeHolders rest s else some (claimFor s it)
    else placeHolders rest s

/-- POOLED_PLACEMENT: the head whose conditions hold is placed and launched or resumed (R259, R268; not while THERM_WARN is
held, 17 R411, or while nothing is launched). -/
def execPooledPlacement (s : State) : Out :=
  .next (whenLive s fun s =>
    guardOn (!s.noLaunch && !flag s F.THERM_STATE_WARN) s fun s =>
      let hs := s.disp.items.filter (fun i => !i.isPinned && i.inherit &&
        (decide (i.st = .pooled) || decide (i.st = .saving) || decide (i.st = .out)))
      match placeHolders hs s with
      | some t => t
      | none => placeLevels [0, 1, 2, 3] s)

/-- DEADLINE_REFUSAL: a waiting pooled item that can no longer end by its DEADLINE, or is not ready at it (R270). -/
def execDeadlineRefusal (item : Nat) (s : State) : Out :=
  .next (whenLive s fun s =>
    match item? s item with
    | none => s
    | some it =>
      guardOn (decide (it.st = .pooled) && decide (it.e.deadline ≠ 0)) s fun s =>
        if allReady s it then
          (if pastDeadline s it then addR (endItem s item 0x202) F.DISP_DEADLINE_REFUSALS 1 else s)
        else if it.e.deadline ≤ s.now then endItem s item 0x206
        else s)

/-! ## Eviction (R266) -/

/-- The head that blocks the pooled levels, if one does. -/
def blockedHead (s : State) : List Nat → Option Item
  | [] => none
  | p :: ps =>
    match (waitingAt s p).find? (headReady s) with
    | none => blockedHead s ps
    | some it => if (tryHead s it).isNone then some it else none

/-- Physical cores that run pooled items. -/
def pooledCores (s : State) : List Nat :=
  (upto 72).filter (fun p => match (core s p).item.bind (item? s) with
    | some it => !it.isPinned && !it.ended.contains (core s p).rank
    | none => false)

/-- The item whose core has been blocked longest, ties to the lower logical core. -/
def longestBlocked (s : State) : Option Nat :=
  let l := (pooledCores s).filterMap (fun p => match (core s p).blocked, (core s p).item with
    | some b, some k => some (b.since, regI s F.CORE_STATE_LOGICAL p, k)
    | _, _ => none)
  (l.foldl (fun (a : Option (Nat × Nat × Nat)) x => match a with
    | none => some x
    | some y => if x.1 < y.1 ∨ (x.1 = y.1 ∧ x.2.1 < y.2.1) then some x else some y) none).map (fun x => x.2.2)

/-- EVICTION: a head is blocked, every core that runs pooled work is blocked at a WAIT and no core is free: the item that has
waited longest is evicted; its contexts are saved as for a pre-emption. It goes on, one item at a time, until that head can be placed
(R266). -/
def execEviction (s : State) : Out :=
  .next (whenLive s fun s =>
    match blockedHead s [0, 1, 2, 3], longestBlocked s with
    | some h, some k =>
      guardOn ((pooledCores s).all (fun p => (core s p).blocked.isSome && !(core s p).stopped) &&
        (decide (s.disp.evictFor = some h.key) || !(upto 64).any (freeFor s h.key)) && !s.noLaunch) s fun s =>
        match item? s k with
        | none => s
        | some it =>
          let s1 := modItem { s with disp := { s.disp with evictFor := some h.key } } k (fun i => { i with evicted := true })
          it.cores.foldl (fun t l => match physOf t l with
            | some p => stopCore t p ((core t p).atBnd.getD [])
            | none => t) s1
    | _, _ => s)

/-! ## Repeats (R272) -/

/-- The launch Tally of the next repeat: T after the last, and late enough for its decision. -/
def nextRepeat (s : State) (r : Repeat) (t : Nat) : Nat :=
  let n := r.lastLaunch + t
  if s.now + 5200 ≤ n ∨ t = 0 then n else n + cdiv (s.now + 5200 - n) t * t

/-- AUTONOMOUS_REPEAT: after the lease has expired, or in watch mode, the dispatcher makes the next entry of an item offset of an
AUTONOMOUS plan from the last one fetched (R272, 16 R391). `plan` is the plan-table index. -/
def execAutonomousRepeat (plan offset : Nat) (s : State) : Out :=
  .next (whenLive s fun s =>
    match s.disp.repeats.find? (fun r => decide (r.idx = plan) && decide (r.offset = offset)) with
    | none => s
    | some r =>
      guardOn ((flag s F.DISP_LEASE_EXPIRED || (!s.d0 && flag s F.PCIE_POWER_WATCH)) && decide ((planAt s plan).st = .installed)) s fun s =>
        let t := (timelineOf s plan).period
        let l := nextRepeat s r t
        let e := { r.e with launch := l, seq := 2 ^ 63 + r.count + 1, perturb := 0, input := 0 }
        let s1 := { s with disp := { s.disp with repeats := s.disp.repeats.map (fun (x : Repeat) =>
          if x.idx = plan ∧ x.offset = offset then { x with count := x.count + 1, lastLaunch := l } else x) } }
        settle (addItem s1 { e := e, st := .pinned, arrival := s.now, isRepeat := true }))

end Sys2Proof.Machine
end

