-- ==== Sys2Proof/Machine/Track.lean ====
section
/-!
DEFINITION. Sys2Proof/Machine/Track.lean: the track engine (08_tracking_and_metadata.md R180 to R196): hand-offs, suppression,
association, the Kalman filter, the lifecycle, ROI lists; and the commands of a step.
-/

namespace Sys2Proof.Machine

/-! ## Boxes (R183) -/

/-- A coordinate clamped to −2^23 to 2^23 − 1. -/
def clampC (v : Int) : Int := sat (-8388608) 8388607 v

/-- A box clamped for comparison. -/
def Box.clamped (b : Box) : Box := ⟨clampC b.x0, clampC b.y0, clampC b.x1, clampC b.y1⟩

/-- Area of a clamped box. -/
def Box.area (b : Box) : Int := (b.x1 - b.x0) * (b.y1 - b.y0)

/-- The smaller and the larger of two integers. -/
def iMin (a b : Int) : Int := if a ≤ b then a else b
def iMax (a b : Int) : Int := if a ≤ b then b else a

/-- Intersection of two clamped boxes. -/
def interOf (a b : Box) : Int :=
  iMax 0 (iMin a.x1 b.x1 - iMax a.x0 b.x0) * iMax 0 (iMin a.y1 b.y1 - iMax a.y0 b.y0)

/-- Intersection and union of two boxes. -/
def overlapOf (a b : Box) : Int × Int :=
  let a := a.clamped
  let b := b.clamped
  (interOf a b, a.area + b.area - interOf a b)

/-- iou_q, from 0 to 1,024; 0 where the union is empty. -/
def iouQ (a b : Box) : Int :=
  let (i, u) := overlapOf a b
  if u ≤ 0 then 0 else 1024 * i / u

/-- "IoU above T": 1,024·inter > T·union. -/
def iouAbove (a b : Box) (t : Nat) : Bool :=
  let (i, u) := overlapOf a b
  decide ((t : Int) * u < 1024 * i)

/-- Box of a candidate. -/
def Cand.box (c : Cand) : Box := ⟨c.x0, c.y0, c.x1, c.y1⟩

/-! ## Suppression (R184) -/

/-- Keep a candidate, in order: the kept ones so far and the rest. -/
def keepCands (agn : Bool) (t cap : Nat) : List Cand → List Cand → List Cand
  | kept, [] => kept
  | kept, c :: cs =>
    if cap ≤ kept.length then kept
    else if kept.any (fun k => (agn || decide (k.cls = c.cls)) && iouAbove k.box c.box t) then keepCands agn t cap kept cs
    else keepCands agn t cap (kept ++ [c]) cs

/-- The detections of a hand-off. -/
def suppress (agn : Bool) (t cap : Nat) (l : List Cand) : List Cand :=
  let ok := l.filter (fun c => decide (clampC c.x0 < clampC c.x1) && decide (clampC c.y0 < clampC c.y1))
  keepCands agn t cap [] (sortBy (fun a b => decide (b.score < a.score)) ok)

/-- Most detections kept: 0 reads 2,048. -/
def maxKeep (s : State) (n : Nat) : Nat :=
  let v := regS s F.TRK_NMS_MAX_KEEP n
  if v = 0 ∨ 2048 < v then 2048 else v

/-! ## Kalman filter (R189, R190) -/

/-- Predict one coordinate. -/
def Coord.predict (c : Coord) : Coord := { c with p := satI 32 (c.p + c.v) }

/-- A covariance saturated to its fields, its diagonal at least 0. -/
def Cov.fix (a b c : Int) : Cov := { p11 := iMax 0 (satI 32 a), p12 := satI 32 b, p22 := iMax 0 (satI 32 c) }

/-- Predict a group's covariance. -/
def Cov.predict (c : Cov) (qp qv : Nat) : Cov := Cov.fix (c.p11 + 2 * c.p12 + c.p22 + qp) (c.p12 + c.p22) (c.p22 + qv)

/-- The gains k1 and k2 of a group. -/
def Cov.gains (c : Cov) (r : Nat) : Int × Int :=
  let d := (c.p11 + r).toNat
  (rhe (c.p11 * 65536) d, rhe (c.p12 * 65536) d)

/-- Update one coordinate by its measurement. -/
def Coord.update (c : Coord) (k1 k2 z : Int) : Coord :=
  { p := satI 32 (c.p + rhe (k1 * (z - c.p)) 65536), v := satI 16 (c.v + rhe (k2 * (z - c.p)) 65536) }

/-- Update a group's covariance. -/
def Cov.update (c : Cov) (k1 k2 : Int) : Cov :=
  Cov.fix (c.p11 - rhe (k1 * c.p11) 65536) (c.p12 - rhe (k1 * c.p12) 65536) (c.p22 - rhe (k2 * c.p12) 65536)

/-- The noises of a slot: position and velocity noise of both groups, both measurement noises, velocity variance at birth. -/
structure Noise where
  qpP : Nat
  qvP : Nat
  qpS : Nat
  qvS : Nat
  rP : Nat
  rS : Nat
  v0 : Nat
deriving DecidableEq, Repr

/-- The noises committed for slot `n`. -/
def noiseOf (s : State) (n : Nat) : Noise :=
  { qpP := regS s F.TRK_KF_POS_Q_P n, qvP := regS s F.TRK_KF_POS_Q_V n, qpS := regS s F.TRK_KF_SIZE_Q_P n,
    qvS := regS s F.TRK_KF_SIZE_Q_V n, rP := regS s F.TRK_KF_R_R_POS n, rS := regS s F.TRK_KF_R_R_SIZE n,
    v0 := regS s F.TRK_KF_V0 n }

/-- Predict a track. -/
def Track.predict (t : Track) (q : Noise) : Track :=
  { t with cx := t.cx.predict, cy := t.cy.predict, w := t.w.predict, h := t.h.predict,
           pc := t.pc.predict q.qpP q.qvP, ps := t.ps.predict q.qpS q.qvS }

/-- The measurements of a detection: cx, cy, w, h. -/
def Cand.zcx (c : Cand) : Int := 8 * (c.x0 + c.x1)
def Cand.zcy (c : Cand) : Int := 8 * (c.y0 + c.y1)
def Cand.zw (c : Cand) : Int := 16 * (c.x1 - c.x0)
def Cand.zh (c : Cand) : Int := 16 * (c.y1 - c.y0)

/-- Update a track by a detection. -/
def Track.measure (t : Track) (q : Noise) (d : Cand) : Track :=
  let (a1, a2) := t.pc.gains q.rP
  let (b1, b2) := t.ps.gains q.rS
  { t with cx := t.cx.update a1 a2 d.zcx, cy := t.cy.update a1 a2 d.zcy, w := t.w.update b1 b2 d.zw,
           h := t.h.update b1 b2 d.zh, pc := t.pc.update a1 a2, ps := t.ps.update b1 b2 }

/-- A track at birth. -/
def Track.born (q : Noise) (d : Cand) (slot id step : Nat) : Track :=
  let at_ (z : Int) : Coord := { p := satI 32 z, v := 0 }
  { id := id, slot := slot, st := .tentative, cls := d.cls, hits := 1, misses := 0, score := d.score,
    cx := at_ d.zcx, cy := at_ d.zcy, w := at_ d.zw, h := at_ d.zh,
    pc := { p11 := q.rP, p12 := 0, p22 := q.v0 }, ps := { p11 := q.rS, p12 := 0, p22 := q.v0 }, step := step }

/-- One axis of a track's box (R190). -/
def axisOf (c w : Int) : Int × Int :=
  let c16 := rhe c 16
  let w16 := iMax 1 (rhe w 16)
  (c16 - w16 / 2, c16 - w16 / 2 + w16)

/-- A track's box in 1/16 pixel (R190). -/
def Track.box (t : Track) : Box :=
  let (x0, x1) := axisOf t.cx.p t.w.p
  let (y0, y1) := axisOf t.cy.p t.h.p
  ⟨x0, y0, x1, y1⟩

/-! ## Association (R185 to R187) -/

/-- Σ a_i·b_i. -/
def dotI : List Int → List Int → Int
  | a :: as, b :: bs => a * b + dotI as bs
  | _, _ => 0

/-- d_app of two embeddings, from 0 to 2,048. -/
def dApp (a d : List Int) : Int :=
  let s := isqrt ((dotI a a * dotI d d).toNat)
  let cos := if s = 0 then 0 else sat (-1024) 1024 (1024 * dotI a d / (s : Int))
  1024 - cos

/-- A pair that may match: cost, track ID, detection index. -/
structure Pair where
  cost : Int
  id : Nat
  det : Nat
deriving DecidableEq, Repr

/-- The order of pairs in a greedy stage. -/
def Pair.before (a b : Pair) : Bool :=
  decide (a.cost < b.cost) || (decide (a.cost = b.cost) && (decide (a.id < b.id) || (decide (a.id = b.id) && decide (a.det < b.det))))

/-- The gated-in pair of a track and a detection, if it is one; `emb` are both embeddings where they are scored. -/
def pairOf (t : Track) (d : Nat × Cand) (emb : Option (List Int × List Int)) (iouMin cosMax w : Nat) : Option Pair :=
  if t.cls ≠ d.2.cls then none
  else
    let q := iouQ t.box d.2.box
    if q < iouMin then none
    else match emb with
      | none => some ⟨1024 - q, t.id, d.1⟩
      | some (a, e) =>
        let da := dApp a e
        if (cosMax : Int) < da then none
        else some ⟨((256 - (w : Int)) * (1024 - q) + (w : Int) * (da / 2) + 128) / 256, t.id, d.1⟩

/-- A greedy stage over sorted pairs: the matches (track ID, detection). -/
def greedy : List Pair → List (Nat × Nat) → List (Nat × Nat)
  | [], m => m
  | p :: ps, m => if m.any (fun x => decide (x.1 = p.id) || decide (x.2 = p.det)) then greedy ps m else greedy ps (m ++ [(p.id, p.det)])

/-- The matches of a step: track ID, detection index, matched in stage 2. `embOf` gives both embeddings of a pair. -/
def associate (s : State) (n : Nat) (live : List Track) (dets : List (Nat × Cand))
    (embOf : Track → Nat → Option (List Int × List Int)) : List (Nat × Nat × Bool) :=
  let iouMin := regS s F.TRK_GATE_IOU_MIN n
  let cosMax := regS s F.TRK_GATE_COS_MAX n
  let w := regS s F.TRK_EMB_W_APP n
  let stage (ts : List Track) (ds : List (Nat × Cand)) (e : Track → Nat → Option (List Int × List Int)) : List (Nat × Nat) :=
    greedy (sortBy Pair.before (ts.flatMap (fun t => ds.filterMap (fun d => pairOf t d (e t d.1) iouMin cosMax w)))) []
  if regS s F.TRK_CTRL_MODE n = 0 then (stage live dets embOf).map (fun x => (x.1, x.2, false))
  else
    let m1 := stage (live.filter (fun t => decide (t.st = .confirmed))) dets embOf
    let m2 := stage (live.filter (fun t => decide (t.st ≠ .confirmed))) (dets.filter (fun d => !m1.any (fun x => decide (x.2 = d.1))))
      (fun _ _ => none)
    m1.map (fun x => (x.1, x.2, false)) ++ m2.map (fun x => (x.1, x.2, true))

/-! ## Lifecycle (R191, R194) -/

/-- What the lifecycle makes of a track: the track, or its retirement, the EVT kind and detail, whether it matched. -/
structure LifeRes where
  entry : Nat
  track : Track
  retired : Bool := false
  evt : Option (Nat × Nat) := none
  det : Option Nat := none
  stage2 : Bool := false
  isNew : Bool := false

/-- The embedding of a track after a match (R194). -/
def mixEmb (alpha : Nat) (e d : List Int) : List Int :=
  (e.zip d).map (fun x => satI 8 (rhe (x.1 * (256 - (alpha : Int)) + x.2 * alpha) 256))

/-- Saturating count of 8 bits. -/
def sat8 (n : Nat) : Nat := if n < 255 then n else 255

/-- The transition of one predicted track (Table 8-1). -/
def lifeOf (s : State) (n step : Nat) (dets : List Cand) (m : List (Nat × Nat × Bool)) (e : Nat) (t : Track) : LifeRes :=
  if t.ue then { entry := e, track := t, retired := true, evt := some (4, 3) }
  else match m.find? (fun x => decide (x.1 = t.id)) with
    | some (_, d, s2) =>
      let c := nth ⟨0, 0, 0, 0, 0, 0⟩ dets d
      let u := { (t.measure (noiseOf s n) c) with hits := sat8 (t.hits + 1), misses := 0, score := c.score, step := step }
      let (st, ev) : TrackSt × Option (Nat × Nat) :=
        match t.st with
        | .tentative => if regS s F.TRK_LIFE_N_CONFIRM n ≤ u.hits then (.confirmed, some (1, 0)) else (.tentative, none)
        | .lost => (.confirmed, some (3, 0))
        | x => (x, none)
      { entry := e, track := { u with st := st }, evt := ev, det := some d, stage2 := s2 }
    | none =>
      let u := { t with misses := sat8 (t.misses + 1) }
      match t.st with
      | .tentative => { entry := e, track := u, retired := true, evt := some (4, 1) }
      | .confirmed =>
        if regS s F.TRK_LIFE_N_LOST n ≤ u.misses then { entry := e, track := { u with st := .lost, misses := 0 }, evt := some (2, 0) }
        else { entry := e, track := u }
      | _ =>
        if regS s F.TRK_LIFE_N_RETIRE n ≤ u.misses then { entry := e, track := u, retired := true, evt := some (4, 1) }
        else { entry := e, track := u }

/-- The lowest ledger entry that `used` does not hold. -/
def freeEntry (used : List Nat) : Nat := ((upto (used.length + 1)).find? (fun i => !used.contains i)).getD 0

/-- Births in ascending detection index: the new tracks, those denied, the next track ID (R191, R195). Entries retired in this
step are held to its end. -/
def births (q : Noise) (slot step quota : Nat) (minScore : Int) (confirm : Bool) :
    List (Nat × Cand) → List Nat → Nat → Nat → List LifeRes → List LifeRes × Nat × Nat
  | [], _, _, id, acc => (acc, 0, id)
  | (i, d) :: ds, used, held, id, acc =>
    if d.score < minScore then births q slot step quota minScore confirm ds used held id acc
    else if quota ≤ held then
      let (a, den, id') := births q slot step quota minScore confirm ds used held id acc
      (a, den + 1, id')
    else
      let e := freeEntry used
      let t := Track.born q d slot id step
      let r : LifeRes := { entry := e, track := if confirm then { t with st := .confirmed } else t, det := some i, isNew := true }
      births q slot step quota minScore confirm ds (e :: used) (held + 1) (if id = 2 ^ 32 - 1 then 1 else id + 1) (acc ++ [r])

/-! ## Records and lists (R192, R51, R70) -/

/-- Number of a state in records. -/
def TrackSt.num : TrackSt → Nat
  | .free => 0
  | .tentative => 1
  | .confirmed => 2
  | .lost => 3

/-- OBJ record (Table 8-5). -/
def objBytes (slot src flags : Nat) (t : Track) (det : Nat) : List Byte :=
  let b := t.box
  recHdr 1 48 slot flags src ++ le 4 t.id ++ le 1 t.cls ++ le 1 t.st.num ++ leI 2 t.score ++ leI 4 b.x0 ++ leI 4 b.y0 ++
    leI 4 b.x1 ++ leI 4 b.y1 ++ leI 2 t.cx.v ++ leI 2 t.cy.v ++ le 1 t.hits ++ le 1 t.misses ++ le 2 det

/-- One axis of a window in live frames: grown, rounded outward to even pixels, its size clamped to 32 to 1,024, and what lies
before the frame cut off (R51, R49): position and size, size 0 when nothing is left. A size brought to the limits keeps the left
or top edge (log entry 119). -/
def roiAxis (lo hi : Int) (m : Nat) : Nat × Nat :=
  let w := hi - lo
  let a := (16 * lo - m * w) / 512 * 2
  let b := -((-(16 * hi + m * w)) / 512) * 2
  let n := sat 32 1024 (b - a)
  if a < 0 then (0, (n + a).toNat) else (a.toNat, n.toNat)

/-- The window of a track's box on a live port. -/
def roiWin (b : Box) (m : Nat) : Win :=
  let (x, w) := roiAxis b.x0 b.x1 m
  let (y, h) := roiAxis b.y0 b.y1 m
  if w = 0 ∨ h = 0 then { x := 65535, y := 65535, w := 0, h := 0 } else { x := x, y := y, w := w, h := h }

/-- One axis of a box of a compressed slot's list: in 1/16 pixel, without rounding to even (R70), clipped to `n` pixels. -/
def listAxis (lo hi : Int) (m n : Nat) : Int × Int :=
  let w := hi - lo
  let a := (16 * lo - m * w) / 16
  let b := -((-(16 * hi + m * w)) / 16)
  let e := a + sat 512 16384 (b - a)
  let top := 16 * (n : Int)
  (sat 0 top a, sat 0 top e)

/-- The picture size of slot `n` for clipping: that of the picture, else the admitted one. -/
def clipSize (s : State) (n seq : Nat) : Nat × Nat :=
  match s.strm.pics.reverse.find? (fun p => decide (p.slot = n) && decide (p.seq = seq) && decide (p.kind = .decoded)) with
  | some p => (p.w, p.h)
  | none => (regS s F.ADM_DIMS_WIDTH n, regS s F.ADM_DIMS_HEIGHT n)

/-- The ROI list of a finished step (R51, R70): the boxes of the confirmed tracks, predicted for the next picture. -/
def putRoi (s : State) (n seq src : Nat) : State :=
  if regS s F.TRK_CTRL_ROI n = 0 ∨ ¬ (slotAt s n).isOpen then s
  else
    let boxes := ((liveOf s n).filter (fun e => decide (e.2.st = .confirmed))).map (fun e => (e.2.predict (noiseOf s n)).box)
    if 64 ≤ n then
      let p := n - 64
      if regI s F.ROI_CTRL_SRC p = 0 then s
      else
        let wins := (boxes.take (regI s F.ROI_CTRL_COUNT p)).map (fun b => roiWin b (regI s F.ROI_CTRL_MARGIN p))
        modCsi (putWins false s p wins) p (fun x => { x with trkNext := some wins, stale := x.stale || x.busy })
    else
      let (w, h) := clipSize s n seq
      let one (b : Box) : Box :=
        let (x0, x1) := listAxis b.x0 b.x1 Config.roiListMargin w
        let (y0, y1) := listAxis b.y0 b.y1 Config.roiListMargin h
        ⟨x0, y0, x1, y1⟩
      settle { s with strm := { s.strm with lists := s.strm.lists ++
        [{ slot := n, detect := false, seq := seq, boxes := (boxes.take Config.roiListCount).map one, t := src }] } }

/-! ## Hand-offs (R181, R182, R188, R196) -/

/-- Candidates of a list in memory (Table 4-8); at most 2,048 are taken (R195). -/
def candsOf (b : List Byte) : List Cand :=
  let n := unle (b.take 2)
  (upto (if n < 2048 then n else 2048)).map (fun i =>
    let e := b.drop (16 + 24 * i)
    let f (k : Nat) : Int := sgn 32 (unle ((e.drop k).take 4))
    { x0 := f 0, y0 := f 4, x1 := f 8, y1 := f 12, score := sgn 16 (unle ((e.drop 16).take 2)),
      cls := unle ((e.drop 18).take 2) % 256 })

/-- A detection hand-off of item `k` of plan `plan`, tied to the picture that binding `b` names. -/
def detectHandOff (s : State) (k plan : Nat) (b : Bind) (cands : List Cand) : State :=
  match picOf s b with
  | none => addR s F.TRK_NO_SLOT 1
  | some p =>
    let n := p.slot
    if 72 ≤ n ∨ regS s F.TRK_CTRL_EN n = 0 ∨ regS s F.TRK_DET n ≠ plan then addR s F.TRK_NO_SLOT 1
    else
      let x := trkSlot s n
      if x.hasStep ∧ p.src ≤ x.lastSrc then addR (evtTrack s n p.src 6 0 0 p.seq 0) F.TRK_STALE 1
      else if 256 ≤ s.trk.handoffs.length then
        flagItem (addR (evtTrack s n p.src 7 0 0 p.seq 0) F.TRK_DROPS 1) k 3
      else
        let s1 := modTrkSlot s n (fun y => { y with hasStep := true, lastSrc := p.src })
        { s1 with trk := { s1.trk with handoffs := s1.trk.handoffs ++
          [{ tick := s.now, slot := n, seq := p.seq, src := p.src, cands := cands }] } }

/-- The embeddings of `n` detections in memory: 128 INT8 elements each. -/
def embsOf (n : Nat) (b : List Byte) : List (List Int) :=
  (upto n).map (fun i => ((b.drop (128 * i)).take 128).map (fun x => sgn 8 x.toNat))

/-- A step is in the engine. -/
def engineBusy (s : State) : Bool := s.trk.steps.any (fun x => decide (x.phase = .active))

/-- The engine, when it is free, goes on with the step whose wait for embeddings has ended, the one that started first ahead of others;
its wait runs to this tick (R188, R196; log entry 137). -/
def resumeStep (s : State) : State :=
  if engineBusy s then s
  else match s.trk.steps.find? (fun x => decide (x.phase = .ready)) with
    | none => s
    | some x => { s with trk := { s.trk with steps := s.trk.steps.map (fun (y : TrkStep) =>
        if y.slot = x.slot then { y with phase := .active, waited := s.now - y.waitFrom } else y) } }

/-- An embedding hand-off for the step of slot `n` and picture `seq`: it resumes the step that waits for it, is kept for a step
still to start, or comes late. -/
def embedHandOff (s : State) (plan n seq : Nat) (bytes : List Byte) : State :=
  if 72 ≤ n ∨ regS s F.TRK_CTRL_EN n = 0 ∨ regS s F.TRK_CTRL_EMB n = 0 ∨ regS s F.TRK_EMB_PLAN n ≠ plan then
    addR s F.TRK_EMB_LATE 1
  else match stepOf s n with
    | some x =>
      if x.phase = .waiting ∧ x.seq = seq then
        resumeStep { s with trk := { s.trk with steps := s.trk.steps.map (fun (y : TrkStep) =>
          if y.slot = n then { y with phase := .ready, embs := some (embsOf y.dets.length bytes) } else y) } }
      else addR s F.TRK_EMB_LATE 1
    | none =>
      match s.trk.handoffs.find? (fun h => decide (h.slot = n) && decide (h.seq = seq)) with
      | some h => { s with trk := { s.trk with embHands := s.trk.embHands ++ [(n, seq, embsOf h.cands.length bytes)] } }
      | none => addR s F.TRK_EMB_LATE 1

/-! ## Steps (R196) -/

/-- The hand-off whose step starts next: the oldest, ties to the lower slot, of a slot with no step under way. -/
def nextHandOff (s : State) : Option HandOff :=
  (s.trk.handoffs.filter (fun h => (stepOf s h.slot).isNone)).foldl (fun (a : Option HandOff) h => match a with
    | none => some h
    | some b => if h.tick < b.tick ∨ (h.tick = b.tick ∧ h.slot < b.slot) then some h else a) none

/-- TRACK_STEP_START: the engine takes the next hand-off: suppression, and the wait for embeddings where they are used (R184,
R188, R196). -/
def execTrackStepStart (s : State) : Out :=
  .next (whenLive s fun s =>
    match nextHandOff s with
    | none => s
    | some h => guardOn (!engineBusy s && domOn s 219) s fun s =>
      let n := h.slot
      let dets := suppress (decide (regS s F.TRK_CTRL_NMS_AGNOSTIC n ≠ 0)) (regS s F.TRK_NMS_IOU_T n) (maxKeep s n) h.cands
      let emb := decide (regS s F.TRK_CTRL_EMB n ≠ 0)
      let early := s.trk.embHands.find? (fun e => decide (e.1 = n) && decide (e.2.1 = h.seq))
      let phase := if emb then (if early.isSome then StepPhase.active else .waiting) else .active
      let x : TrkStep := { slot := n, seq := h.seq, src := h.src, phase := phase, start := s.now, waitFrom := s.now, waited := 0,
                           n := h.cands.length, m := (liveOf s n).length, dets := dets,
                           embs := early.map (fun e => e.2.2), late := false }
      let s1 := { s with trk := { s.trk with
        handoffs := s.trk.handoffs.filter (fun y => decide (y ≠ h)), steps := s.trk.steps ++ [x],
        embHands := s.trk.embHands.filter (fun e => !(decide (e.1 = n) && decide (e.2.1 = h.seq))) } }
      let s2 := refreshTrk (addR s1 F.TRK_SUPPRESSED (h.cands.length - dets.length)) n
      if emb then
        settle { s2 with strm := { s2.strm with lists := s2.strm.lists ++
          [{ slot := n, detect := true, seq := h.seq, boxes := dets.map Cand.box, t := h.src }] } }
      else s2)

/-- EMB_WAIT_EXPIRY: a step that has waited TRK_EMB_WAIT.UNITS × 256 ticks goes on without embeddings (R188). -/
def execEmbWaitExpiry (slot : Nat) (s : State) : Out :=
  .next (whenLive s fun s =>
    match stepOf s slot with
    | none => s
    | some x =>
      guardOn (decide (x.phase = .waiting) && decide (x.waitFrom + regS s F.TRK_EMB_WAIT_UNITS slot * 256 ≤ s.now)) s fun s =>
        let s1 := { s with trk := { s.trk with steps := s.trk.steps.map (fun (y : TrkStep) =>
          if y.slot = slot then { y with phase := .ready, late := true } else y) } }
        resumeStep (evtTrack s1 slot x.src 8 0 0 x.seq 0))

/-- What a step comes to: the results for its tracks and births, matches, births denied, the next track ID. -/
structure StepRes where
  res : List LifeRes
  matched : Nat
  denied : Nat
  nextId : Nat

/-- Association, filters and lifecycle of a step, from the ledger. -/
def stepRes (s : State) (x : TrkStep) : StepRes :=
  let n := x.slot
  let q := noiseOf s n
  let no := ((trkSlot s n).stepNo + 1) % 2 ^ 32
  let live := (liveOf s n).map (fun e => (e.1, if e.2.ue then e.2 else e.2.predict q))
  let dets := enumFrom 0 x.dets
  let entryOf (id : Nat) : Nat := ((live.find? (fun e => decide (e.2.id = id))).map (fun e => e.1)).getD 0
  let embOf (t : Track) (d : Nat) : Option (List Int × List Int) :=
    match x.embs with
    | some l => if t.embValid && decide (d < l.length) then some (tget [] s.trk.embs (entryOf t.id), nth [] l d) else none
    | none => none
  let m := associate s n ((live.filter (fun e => !e.2.ue)).map (fun e => e.2)) dets embOf
  let old := live.map (fun e => lifeOf s n no x.dets m e.1 e.2)
  let un := dets.filter (fun d => !m.any (fun y => decide (y.2.1 = d.1)))
  let (new, den, id) := births q n no (regS s F.TRK_QUOTA_QUOTA n) (sgn 16 (regS s F.TRK_QUOTA_BIRTH_SCORE n))
    (decide (regS s F.TRK_LIFE_N_CONFIRM n = 1)) un (s.trk.tracks.map (fun e => e.1)) live.length (trkSlot s n).nextId []
  { res := old ++ new, matched := m.length, denied := den, nextId := id }

/-- The results that stay in the ledger and have an OBJ record, in ascending track ID (R192). -/
def objsOf (s : State) (n : Nat) (r : StepRes) : List LifeRes :=
  sortBy (fun a b => decide (a.track.id < b.track.id))
    (r.res.filter (fun y => !y.retired && (decide (y.track.st = .confirmed) || decide (regS s F.TRK_CTRL_OBJ_ALL n ≠ 0))))

/-- T_step (R196). -/
def stepTicks (x : TrkStep) (records : Nat) : Nat :=
  let k := x.dets.length
  160 + 4 * x.n + cdiv (x.n * (x.n - 1)) 32 + (if x.embs.isSome then 5 else 1) * cdiv (k * x.m) 16 + 12 * (k + x.m) + 2 * records

/-- Records of a step. -/
def stepRecords (s : State) (x : TrkStep) (r : StepRes) : Nat :=
  (objsOf s x.slot r).length + (r.res.filter (fun y => y.evt.isSome)).length + 1 + bnat x.late

/-- A result enters the ledger and the embedding store (R193, R194). -/
def putLife (alpha : Nat) (embs : Option (List (List Int))) (s : State) (y : LifeRes) : State :=
  let e := y.entry
  if y.retired then s
  else
    let d := match embs, y.det with
      | some l, some i => if i < l.length then some (nth [] l i) else none
      | _, _ => none
    match d with
    | some d =>
      let old := tget [] s.trk.embs e
      let new := if y.track.embValid then mixEmb alpha old d else d
      { s with trk := { s.trk with tracks := tset {} s.trk.tracks e { y.track with embValid := true },
                                   embs := tset [] s.trk.embs e new } }
    | none => { s with trk := { s.trk with tracks := tset {} s.trk.tracks e y.track } }

/-- Flags of an OBJ record. -/
def objFlags (late : Bool) (y : LifeRes) : Nat :=
  bnat y.det.isSome + 2 * bnat late + 4 * bnat y.stage2 + 8 * bnat y.isNew

/-- The end of a step: the ledger, its records, its ROI list; a track whose entry could not be read has a SAF record TRACK_UNCORRECTABLE
beside its EVT record (R191, 13 Table 13-8). -/
def endStep (s : State) (x : TrkStep) (r : StepRes) : State :=
  let n := x.slot
  let gone := r.res.filter (fun y => y.retired)
  let born := (r.res.filter (fun y => y.isNew)).length
  let s1 := gone.foldl (fun t y => freeTrack t y.entry) (r.res.foldl (putLife (regS s F.TRK_EMB_WAIT_ALPHA n) x.embs) s)
  let s2 := (objsOf s n r).foldl (fun t y =>
    let b := objBytes n x.src (objFlags x.late y) y.track (y.det.getD 0xFFFF)
    pushRec t { ring := regX s F.SLOT_ROUTE_OBJ_RING n, bytes := b }) s1
  let s3 := r.res.foldl (fun t y => match y.evt with
    | some (kind, det) =>
      let u := evtTrack t n x.src kind det y.track.id 0 0
      if y.track.ue then safNow u 0x13 0 0 0 0 y.track.id 0 else u
    | none => t) s2
  let live := (liveOf s3 n).length
  let a := x.n % 65536 + 65536 * (x.dets.length % 65536) + 2 ^ 32 * (r.matched % 65536) + 2 ^ 48 * (born % 65536)
  let b := r.denied % 65536 + 65536 * (gone.length % 65536) + 2 ^ 32 * (live % 65536)
  let s4 := evtTrack s3 n x.src 5 (bnat x.embs.isSome) 0 a b
  let s5 := addR (addR (addR (addR s4 F.TRK_STEPS 1) F.TRK_BIRTHS born) F.TRK_DENIED r.denied) F.TRK_RETIRED gone.length
  let s6 := modTrkSlot { s5 with trk := { s5.trk with steps := s5.trk.steps.filter (fun y => decide (y.slot ≠ n)) } } n
    (fun y => { y with stepNo := (y.stepNo + 1) % 2 ^ 32, nextId := r.nextId, closing := false })
  let s7 := putRoi (refreshTrk s6 n) n x.seq x.src
  resumeStep (if (trkSlot s n).closing then retireAll s7 n else s7)

/-- TRACK_STEP_END: T_step ticks after its start, its wait apart, a step associates, updates filters and lifecycles, and writes
its records (R185 to R196). -/
def execTrackStepEnd (slot : Nat) (s : State) : Out :=
  .next (whenLive s fun s =>
    match stepOf s slot with
    | none => s
    | some x =>
      let r := stepRes s x
      guardOn (decide (x.phase = .active) && decide (x.start + x.waited + stepTicks x (stepRecords s x r) ≤ s.now)) s fun s =>
        endStep s x r)

end Sys2Proof.Machine
end

