-- ==== Sys2Proof/Machine/TileBase.lean ====
section
/-!
DEFINITION. Sys2Proof/Machine/TileBase.lean: how a tile-program instruction issues (04_compute_core.md R104 to R107), operands in
bins and Granary (09_memory_system.md R207, R211), Granary slots (R208), spilled partial-sum tiles (R106, R174).
-/

namespace Sys2Proof.Machine

/-! ## Modes of the array (Table 4-2, Table 4-4) -/

/-- Constants of a mode (Table 4-4 notes). -/
structure ModeC where
  kt : Nat
  nt : Nat
  mt : Nat
  r : Nat
  lw : Nat
  la : Nat
  tail : Nat
  d : Nat

/-- The constants of each mode. -/
def Mode.consts : Mode → ModeC
  | .i8 => ⟨32, 32, 32, 1, 32, 16, 63, 32⟩
  | .l4 => ⟨64, 32, 32, 2, 32, 0, 65, 32⟩
  | .l3 => ⟨64, 32, 32, 2, 24, 0, 65, 32⟩
  | .b16 => ⟨16, 16, 16, 1, 16, 8, 47, 8⟩
  | .c16 => ⟨16, 16, 16, 1, 32, 0, 47, 16⟩

/-! ## The program -/

/-- The program of core `p`'s rank. -/
def progOf (s : State) (p : Nat) (it : Item) : List TileCmd :=
  (((imgOf s it.e).progs.find? (fun x => decide (x.1 = (core s p).rank))).map (fun x => x.2)).getD []

/-- The four engines an instruction may run on (Table 4-11). -/
inductive Engine where
  | array | vector | loader | loop
deriving DecidableEq, Repr

/-- Number of an engine, by which a core holds what is in flight on it. -/
def Engine.num : Engine → Nat
  | .array => 0
  | .vector => 1
  | .loader => 2
  | .loop => 3

/-- What is in flight on an engine. -/
def CoreS.flight (c : CoreS) (e : Engine) : Option Flight := tget none c.flights e.num

/-- Cycles by which an instruction may issue before the array is free: the first weight-tile load of an MM overlaps the tail of the MM
of the same dataflow before it (R94). -/
def CoreS.overlap (c : CoreS) (cmd : TileCmd) : Nat :=
  match cmd.ins, c.arrayTail with
  | .mm o, some (f, tail) =>
    if o.flow = f ∧ f = .ws then (let l := o.mode.consts.lw; if l < tail then l else tail) else 0
  | _, _ => 0

/-- The cycle at which an engine becomes free. -/
def CoreS.freeAt (c : CoreS) : Engine → Nat
  | .array => c.arrayFree
  | .vector => c.vecFree
  | .loader => c.loadFree
  | .loop => 0

/-- The core with an engine busy up to cycle `t`. -/
def CoreS.busy (c : CoreS) (e : Engine) (t : Nat) : CoreS :=
  match e with
  | .array => { c with arrayFree := t }
  | .vector => { c with vecFree := t }
  | .loader => { c with loadFree := t }
  | .loop => c

/-- Token `t` is set at cycle `now2`: an instruction that sets it has issued and completed. -/
def CoreS.tokenSet (c : CoreS) (now2 t : Nat) : Bool := c.tokens.testBit t && decide (tget 0 c.tokAt t ≤ now2)

/-- Does core `p` issue `cmd` now: it runs its item, `cmd` is the instruction at its program counter, its engine is free, with nothing
in flight, and the tokens it names are set (R107)? -/
def issueOk (s : State) (p k : Nat) (cmd : TileCmd) (e : Engine) : Bool :=
  match item? s k with
  | none => false
  | some it =>
    let c := core s p
    decide (it.st = .running) && decide (regI s F.CORE_STATE_STATE p = 1) && !c.stopped && !it.ended.contains c.rank &&
      decide ((progOf s p it)[c.pc]? = some cmd) && decide (c.issueAt ≤ s.now) && decide (c.freeAt e ≤ 2 * s.now + c.overlap cmd) &&
      (c.flight e).isNone &&
      cmd.tok.waits.all (c.tokenSet (2 * s.now))

/-- An instruction has issued: its engine is busy for `cycles`, its token will be set at their end. -/
def issued (s : State) (p : Nat) (cmd : TileCmd) (e : Engine) (cycles : Nat) : State :=
  let t := 2 * s.now + cycles
  modCore s p (fun c =>
    let c := c.busy e t
    { c with
      pc := c.pc + 1, issueAt := s.now + 1, atBnd := none, blocked := none,
      tokens := (match cmd.tok.sets with
        | some n => setBit c.tokens n
        | none => c.tokens),
      tokAt := (match cmd.tok.sets with
        | some n => tset 0 c.tokAt n t
        | none => c.tokAt) })

/-- An instruction of core `p`: when it issues, rows waiting for write-back are written, and `eff` is its effect for item `k`. -/
def runTile (s : State) (p : Nat) (cmd : TileCmd) (e : Engine) (cycles : Nat) (eff : Nat → State → State) : State :=
  match (core s p).item with
  | none => s
  | some k => if issueOk s p k cmd e then eff k (issued (flushBins s p) p cmd e cycles) else s

/-! ## Operands in bins (R104) -/

/-- Region `r` of a bin. -/
def CoreS.region (c : CoreS) (b : Bin) (r : Nat) : Region := tget {} c.regions (b.num * 8 + r)

/-- What the loop strides add to an operand. -/
def strideSum (c : CoreS) (l : List (Nat × Nat)) : Int :=
  sumI (l.map (fun x => match c.loops[x.1]? with
    | some f => nth 0 f.strides x.2 * f.iter
    | none => 0))

/-- Byte offset of an operand in its region. -/
def BinRef.offset (r : BinRef) (c : CoreS) : Nat := ((r.off : Int) + strideSum c r.strides).toNat

/-- A piece of a transfer: byte address in the bin and bytes; where a spilled partial-sum tile holds it, the tile and the byte in it. -/
structure Piece where
  addr : Nat
  len : Nat
  spill : Option (Nat × Nat) := none
deriving DecidableEq, Repr

/-- Cut `n` bytes at `a` of a circular run of `size` bytes placed at `base`. -/
def circPieces (base size : Nat) : Nat → Nat → Nat → List Piece
  | 0, _, _ => []
  | f + 1, a, n =>
    if n = 0 ∨ size = 0 then []
    else
      let x := a % size
      let l := if n ≤ size - x then n else size - x
      ⟨base + x, l, none⟩ :: circPieces base size f (a + l) (n - l)

/-- Cut a piece of the partial-sum bin at its tiles and move it to the physical ones, or to the spill area of the tiles at or above
`top` (R105, R106). -/
def tilePieces (c : CoreS) (top : Nat) : Nat → Nat → Nat → List Piece
  | 0, _, _ => []
  | f + 1, a, n =>
    if n = 0 then []
    else
      let l := if n ≤ 4096 - a % 4096 then n else 4096 - a % 4096
      let x : Piece := match decide (a / 4096 < top), c.physTile (a / 4096) with
        | true, some t => ⟨t * 4096 + a % 4096, l, none⟩
        | _, _ => ⟨0, l, some (a / 4096, a % 4096)⟩
      x :: tilePieces c top f (a + l) (n - l)

/-- The item on core `p`. -/
def itemOn (s : State) (p : Nat) : Option Item := (core s p).item.bind (item? s)

/-- The lowest tile index that core `p` holds in its spill area for the item on it (R174). -/
def spillTop (s : State) (p : Nat) : Nat :=
  let a := ((itemOn s p).map (fun it => (imgOf s it.e).hdr.psumAssumed)).getD 16
  let n := (core s p).psumTiles
  if n < a then n else a

/-- The pieces of `n` bytes of an operand of core `p`, `row0` rows after the region's base in a circular region. -/
def piecesOf (s : State) (p : Nat) (r : BinRef) (row0 n : Nat) : List Piece :=
  let c := core s p
  let g := c.region r.bin r.reg
  let w := r.bin.row
  let o := r.offset c
  let l := if g.circ then circPieces (g.base * w) (g.len * w) 3 (row0 * w + o) n else [⟨g.base * w + o, n, none⟩]
  if r.bin = .psum then l.flatMap (fun x => tilePieces c (spillTop s p) (x.len / 4096 + 2) x.addr x.len) else l

/-- Rows an operand of `n` bytes touches. -/
def rowsTouched (c : CoreS) (r : BinRef) (n : Nat) : Nat := if n = 0 then 0 else cdiv (r.offset c % r.bin.row + n) r.bin.row

/-- A reader of a circular region finds its rows at once (Table 4-10, empty read). -/
def canRead (s : State) (p : Nat) (r : BinRef) (n : Nat) : Bool :=
  let c := core s p
  let g := c.region r.bin r.reg
  !g.circ || (decide (g.tail + rowsTouched c r n ≤ g.head) && decide (g.wrAt ≤ 2 * s.now))

/-- A writer of a circular region finds room at once: a region is full when head + 1 = tail (Table 4-10, full write). -/
def canWrite (s : State) (p : Nat) (r : BinRef) (n : Nat) : Bool :=
  let c := core s p
  let g := c.region r.bin r.reg
  !g.circ || (decide (g.head + rowsTouched c r n + 1 ≤ g.tail + g.len) && decide (g.rdAt ≤ 2 * s.now))

/-- Change a region of a core. -/
def modRegion (s : State) (p : Nat) (r : BinRef) (f : Region → Region) : State :=
  modCore s p (fun c => { c with regions := tmod {} c.regions (r.bin.num * 8 + r.reg) f })

/-- A piece is read: from the bin, or from the spill area. -/
def readPiece (s : State) (p : Nat) (b : Bin) (x : Piece) : State × BR :=
  match x.spill, itemOn s p with
  | some (t, o), some it => readSpill s p it t o x.len
  | some _, none => (s, { bytes := List.replicate x.len 0 })
  | none, _ => readBin s p b x.addr x.len

/-- A piece is written: to the bin, or to the spill area. -/
def writePiece (s : State) (p : Nat) (b : Bin) (x : Piece) (bytes : List Byte) : State :=
  match x.spill, itemOn s p with
  | some (t, o), some it => (writeSpill s p it t o bytes).1
  | some _, none => s
  | none, _ => writeBin s p b x.addr bytes []

/-- A write met a dark bank in the spill area of the tiles of some pieces: it ends the item (09 R222). -/
def darkPieces (s : State) (p : Nat) (l : List Piece) : State :=
  match itemOn s p with
  | none => s
  | some it =>
    match l.findSome? (fun x => x.spill.bind (fun t => darkTile s p it t.1)) with
    | some b => darkFault s (p / 9) b [it.key]
    | none => s

/-- Read `n` bytes of an operand; the tail of a circular region advances by the rows read, one in each of the reader's phases. -/
def readRef (s : State) (p : Nat) (r : BinRef) (n : Nat) : State × BR :=
  let c := core s p
  let g := c.region r.bin r.reg
  let (s1, b) := (piecesOf s p r g.tail n).foldl (fun (a : State × BR) x =>
    let (t, b) := readPiece a.1 p r.bin x
    (t, a.2.join b)) (s, {})
  (if g.circ then modRegion s1 p r (fun y => { y with
    tail := y.tail + rowsTouched c r n, rdAt := 2 * s.now + 4 * rowsTouched c r n }) else s1, b)

/-- Write bytes to an operand, which stand there at cycle `t`; the head of a circular region advances by the rows written. -/
def writeRef (s : State) (p : Nat) (r : BinRef) (bytes : List Byte) (t : Nat) : State :=
  let c := core s p
  let g := c.region r.bin r.reg
  let l := piecesOf s p r g.head bytes.length
  let s1 := darkPieces (l.foldl (fun (a : State × List Byte) x =>
    (writePiece a.1 p r.bin x (a.2.take x.len), a.2.drop x.len)) (s, bytes)).1 p l
  if g.circ then modRegion s1 p r (fun y => { y with head := y.head + rowsTouched c r bytes.length, wrAt := t }) else s1

/-! ## Operands in the Granary (R207, R211) -/

/-- Where a Granary operand of item `it` stands: offsets count from the plan's claim (log entry 23). -/
def granSpan (s : State) (p : Nat) (it : Item) (g : GranRef) : GranSpan :=
  { width := if g.width = 0 then 1 else g.width, bank := g.bank,
    start := claimStart s it + ((g.start : Int) + strideSum (core s p) g.strides).toNat,
    circ := g.circ.map (fun x => (x.1, x.2 * (if g.width = 0 then 1 else g.width))), slack := g.slack,
    lim := claimEnd s it }

/-- Granule numbers of a transfer of `n` granules that starts at granule `a` of a circular region. -/
def granPieces (cap : Nat) : Nat → Nat → Nat → List (Nat × Nat)
  | 0, _, _ => []
  | f + 1, a, n =>
    if n = 0 ∨ cap = 0 then []
    else
      let x := a % cap
      let l := if n ≤ cap - x then n else cap - x
      (x, l) :: granPieces cap f (a + l) (n - l)

/-- A cluster's Granary circular region. -/
def granCirc (s : State) (k i : Nat) : GranCirc := tget {} (clu s k).circ i

/-- A span at the granule its reader, or its writer, has reached. -/
def GranSpan.toRead (g : GranSpan) (s : State) (k : Nat) : GranSpan :=
  { g with from_ := (g.circ.map (fun c => (granCirc s k c.1).tail)).getD g.from_ }
def GranSpan.toWrite (g : GranSpan) (s : State) (k : Nat) : GranSpan :=
  { g with from_ := (g.circ.map (fun c => (granCirc s k c.1).head)).getD g.from_ }

/-- Granules that a reader finds in a Granary circular region, and room that a writer finds, of `n`. -/
def granReady (s : State) (k : Nat) (g : GranSpan) (n : Nat) : Nat :=
  match g.circ with
  | none => n
  | some (i, _) => let m := (granCirc s k i).head - (granCirc s k i).tail
    if m < n then m else n
def granRoom (s : State) (k : Nat) (g : GranSpan) (n : Nat) : Nat :=
  match g.circ with
  | none => n
  | some (i, cap) => let m := (granCirc s k i).tail + cap - (granCirc s k i).head
    if m < n then m else n

/-- All of a transfer's granules, or all its room, are there at once. -/
def granCanRead (s : State) (k : Nat) (g : GranSpan) (n : Nat) : Bool :=
  decide (granReady s k g n = n) && (g.circ.all (fun c => decide ((granCirc s k c.1).wrAt ≤ 2 * s.now)))
def granCanWrite (s : State) (k : Nat) (g : GranSpan) (n : Nat) : Bool :=
  decide (granRoom s k g n = n) && (g.circ.all (fun c => decide ((granCirc s k c.1).rdAt ≤ 2 * s.now)))

/-- Change a Granary circular region. -/
def modCirc (s : State) (k i : Nat) (f : GranCirc → GranCirc) : State := modClu s k (fun c => { c with circ := tmod {} c.circ i f })

/-- Read `n` granules of a span in cluster `k`. -/
def granGet (s : State) (k : Nat) (g : GranSpan) (n : Nat) : State × GR :=
  match g.circ with
  | none => granReadN k g.width g.bank g.start g.lim n g.from_ s
  | some (i, cap) =>
    let (s1, r) := (granPieces cap 3 (granCirc s k i).tail n).foldl (fun (a : State × GR) x =>
      let (t, b) := granReadN k g.width g.bank g.start g.lim x.2 x.1 a.1
      (t, a.2.join b)) (s, {})
    (modCirc s1 k i (fun c => { c with tail := c.tail + n, rdAt := 2 * s.now + 2 }), r)

/-- Write bytes as granules of a span: dropped at a dark bank, late. -/
def granPut (s : State) (k : Nat) (g : GranSpan) (bytes : List Byte) : State × Bool × Bool :=
  let n := cdiv bytes.length 64
  match g.circ with
  | none => granWriteN k g.width g.bank g.start g.lim n g.from_ bytes [] s
  | some (i, cap) =>
    let (s1, d, l, _) := (granPieces cap 3 (granCirc s k i).head n).foldl (fun (a : State × Bool × Bool × List Byte) x =>
      let (t, d, l) := granWriteN k g.width g.bank g.start g.lim x.2 x.1 (a.2.2.2.take (64 * x.2)) [] a.1
      (t, a.2.1 || d, a.2.2.1 || l, a.2.2.2.drop (64 * x.2))) (s, false, false, bytes)
    (modCirc s1 k i (fun c => { c with head := c.head + n, wrAt := 2 * s.now + 2 }), d, l)

/-! ## Granary slots (R208, R210, R25) -/

/-- The tick of the first slot of core `q` at or after tick `t`. -/
def nextSlot (q t : Nat) : Nat := (SlotOwner.core q).next t

/-- The tick of the last slot of a transfer of `n` granules over `w` banks that starts at tick `t`. -/
def lastSlot (q t w n : Nat) : Nat := (SlotOwner.core q).nth t (cdiv n w - 1)

/-- Local index of physical core `p`'s logical core. -/
def localIdx (s : State) (p : Nat) : Nat := regI s F.CORE_STATE_LOGICAL p % 8

/-- Cycles of a load of `bytes` bytes: its slots, 14 ticks to the core, then one loader phase per row of the last slot (R100). -/
def loadCycles (s : State) (p : Nat) (w bytes row : Nat) : Nat :=
  let last := lastSlot (localIdx s p) s.now w (cdiv bytes 64)
  let rows := cdiv (if bytes ≤ 64 * w then bytes else 64 * w) row
  PortUser.loader.next (2 * (last + 14)) + 4 * (rows - 1) + 1 - 2 * s.now

/-- Cycles of a store: its slots, and 8 ticks to the bank array (R210). -/
def storeCycles (s : State) (p : Nat) (w bytes : Nat) : Nat :=
  2 * (lastSlot (localIdx s p) s.now w (cdiv bytes 64) + 8 - s.now)

/-! ## Operands of an instruction, in either place -/

/-- An operand with its place fixed: the loop strides of the moment are in its offset. -/
def BinRef.fixed (r : BinRef) (c : CoreS) : BinRef := { r with off := r.offset c, strides := [] }
def Oper.fixed (o : Oper) (c : CoreS) : Oper :=
  match o with
  | .bin r => .bin (r.fixed c)
  | .gran g => .gran { g with start := ((g.start : Int) + strideSum c g.strides).toNat, strides := [] }

/-- Two operands lie in one circular region. -/
def Oper.sameRegion (a b : Oper) : Bool :=
  match a, b with
  | .bin x, .bin y => decide (x.bin = y.bin) && decide (x.reg = y.reg)
  | _, _ => false

/-- An operand's bytes, or the room for them, are there at once. -/
def operReady (s : State) (p : Nat) (it : Item) (x : Oper × Nat) : Bool :=
  match x.1 with
  | .bin r => canRead s p r x.2
  | .gran g => granCanRead s (p / 9) (granSpan s p it g) (cdiv x.2 64)
def operRoom (s : State) (p : Nat) (it : Item) (x : Oper × Nat) : Bool :=
  match x.1 with
  | .bin r => canWrite s p r x.2
  | .gran g => granCanWrite s (p / 9) (granSpan s p it g) (cdiv x.2 64)

/-- All operands of an instruction are there: those in one circular region one after the other. -/
def opersReady (s : State) (p : Nat) (it : Item) (rd : List (Oper × Nat)) : Bool :=
  rd.all (fun x => operReady s p it x && (match x.1 with
    | .gran _ => true
    | .bin r =>
      let c := core s p
      let g := c.region r.bin r.reg
      !g.circ || decide (g.tail + sumN ((rd.filter (fun y => x.1.sameRegion y.1)).map (fun y => match y.1 with
        | .bin q => rowsTouched c q y.2
        | .gran _ => 0)) ≤ g.head)))

/-- Read `n` bytes of a Granary operand; a granule that cannot be delivered is named, one that came late makes the item late. -/
def readGran (s : State) (p : Nat) (it : Item) (g : GranRef) (n : Nat) : State × BR :=
  let k := p / 9
  let sp := (granSpan s p it g).toRead s k
  let m := cdiv n 64
  let (s1, r) := granGet s k sp m
  let bad := (findGranule s k sp m (fun q a => bankDark s k q || ((clu s k).mem.badWords a 64).any id)).map
    (fun x => (17 * k + bankOf s k x.1, physAddr x.1 x.2))
  (if r.late then modItem s1 it.key (fun i => { i with late := true }) else s1,
    { bytes := r.bytes.take n, info := { r.info with gran := if r.info.bad then bad else none } })

/-- Read `n` bytes of an operand. -/
def readOper (s : State) (p : Nat) (it : Item) (x : Oper × Nat) : State × BR :=
  match x.1 with
  | .bin r => readRef s p r x.2
  | .gran g => readGran s p it g x.2

/-- Operands read in order. -/
def readOpers (s : State) (p : Nat) (it : Item) (l : List (Oper × Nat)) : State × List BR :=
  l.foldl (fun (a : State × List BR) x =>
    let (t, b) := readOper a.1 p it x
    (t, a.2 ++ [b])) (s, [])

/-- Write bytes to an operand, where they stand at cycle `t`; a dark bank ends the item (09 R222). -/
def writeOper (s : State) (p : Nat) (it : Item) (x : Oper × List Byte) (t : Nat) : State :=
  match x.1 with
  | .bin r => writeRef s p r x.2 t
  | .gran g =>
    let sp := (granSpan s p it g).toWrite s (p / 9)
    let (s0, dropped, late) := granPut s (p / 9) sp x.2
    let s1 := nameWrites s0 (p / 9) it.key
    if dropped then darkFault s1 (p / 9) (darkBankOf s (p / 9) sp (cdiv x.2.length 64)) [it.key]
    else if late then modItem s1 it.key (fun i => { i with late := true })
    else s1

/-- What several reads met, together. -/
def infoOf (l : List BR) : ReadInfo := l.foldl (fun (i : ReadInfo) b => i.join b.info) {}

/-- What an instruction does for its item with the bytes of its operands, which are good: the state, and what it still has to write. -/
abbrev Post := Item → List (List Byte) → State → State × List (Oper × List Byte)

/-- The effect of an instruction once its operands are read: the item's end when they could not be delivered, else `post`. -/
def runPost (s : State) (p : Nat) (it : Item) (i : ReadInfo) (bs : List (List Byte)) (post : Post) : State × List (Oper × List Byte) :=
  let (s1, ok) := afterBins s p it.key i
  if ok then post it bs s1 else (s1, [])

/-- An operand stands in the Granary: its bytes come and go in the slots of the core. -/
def Oper.isGran : Oper → Bool
  | .gran _ => true
  | .bin _ => false

/-- An instruction issues and stays in flight on its engine, its token not yet set: its data are in the Granary, or a circular region has
no rows for it, or no room (R92, R104, 09 R209). -/
def startFlight (s : State) (p : Nat) (it : Item) (cmd : TileCmd) (e : Engine) (cycles : Nat) (rd : List (Oper × Nat))
    (residueErr : Bool) : State :=
  let c := core s p
  let f : Flight := { cmd := cmd, item := it.key, loops := c.loops, residueErr := residueErr,
                      rd := rd.map (fun x => (x.1.fixed c, x.2)), need := 2 * s.now, endAt := 2 * s.now + cycles
                      slotAt := nextSlot (localIdx s p) s.now }
  modCore (issued s p { cmd with tok := { cmd.tok with sets := none } } e cycles) p (fun c => { c with
    flights := tset none c.flights e.num (some f)
    tokens := (match cmd.tok.sets with
      | some n => clrBit c.tokens n
      | none => c.tokens) })

/-- An instruction with its operands: with its rows and its room there, all in bins, it issues and has its effect; else it issues and stays
in flight. -/
def runIns (s : State) (p : Nat) (cmd : TileCmd) (e : Engine) (cycles : Nat) (rd wr : List (Oper × Nat)) (residueErr : Bool)
    (post : Post) : State :=
  match itemOn s p with
  | none => s
  | some it =>
    if !issueOk s p it.key cmd e then s
    else if opersReady s p it rd && wr.all (operRoom s p it) && !(rd ++ wr).any (fun x => x.1.isGran) then
      let (s1, bs) := readOpers (issued (flushBins s p) p cmd e cycles) p it rd
      let (s2, out) := runPost s1 p it (infoOf bs) (bs.map (fun b => b.bytes)) post
      out.foldl (fun t o => writeOper t p it o (2 * s.now + cycles)) s2
    else startFlight (flushBins s p) p it cmd e cycles rd residueErr

/-! ## Elements -/

/-- Bytes of an element. -/
def Fmt.size : Fmt → Nat
  | .i8 => 1
  | .i16 => 2
  | .bf16 => 2
  | .fp16 => 2
  | .i32 => 4
  | .fp32 => 4

/-- Is the format an integer one? -/
def Fmt.isInt : Fmt → Bool
  | .i8 => true
  | .i16 => true
  | .i32 => true
  | _ => false

/-- `n` elements of `z` bytes. -/
def elems (z : Nat) : Nat → List Byte → List Nat
  | 0, _ => []
  | n + 1, b => unle (b.take z) :: elems z n (b.drop z)

/-- Signed elements. -/
def elemsI (z n : Nat) (b : List Byte) : List Int := (elems z n b).map (sgn (8 * z))

/-- Bytes of elements. -/
def bytesOf (z : Nat) (l : List Nat) : List Byte := l.flatMap (le z)

/-! ## Partial-sum tiles (R105, R106) -/

/-- Read the first `n` bytes of partial-sum tile `t`: from its bin, or its spill area. The last component tells whether the item
goes on. -/
def readTile (s : State) (p k : Nat) (it : Item) (t n : Nat) : State × List Byte × Bool :=
  let (s1, b) := match decide (spills s p it t), (core s p).physTile t with
    | true, _ => readSpill s p it t 0 n
    | _, some q => readBin s p .psum (q * 4096) n
    | _, none => (s, { bytes := List.replicate n 0 })
  let (s2, ok) := afterBins s1 p k b.info
  (s2, b.bytes, ok)

/-- Write a row of partial-sum tile `t`. -/
def writeTileRow (s : State) (p : Nat) (it : Item) (t row : Nat) (bytes : List Byte) : State :=
  if spills s p it t then (writeSpill s p it t (128 * row) bytes).1
  else
    match (core s p).physTile t with
    | none => s
    | some q => writeBin s p .psum (q * 4096 + 128 * row) bytes []

end Sys2Proof.Machine
end

