-- ==== Sys2Proof/Machine/Operators.lean ====
section
/-!
DEFINITION. Sys2Proof/Machine/Operators.lean: convolution, pooling and tensor crop-and-resize
(06_convolution_and_image_operators.md): geometry, layouts, what each tap reads, arithmetic, cycles and the limits of an
operator descriptor.
-/

namespace Sys2Proof.Machine

/-! ## Geometry (R135, R136) -/

/-- Output size of one dimension, which may be 0 or less: ⌊(I + P_lo + P_hi − D·(K − 1) − 1) / S⌋ + 1 (R135). -/
def outSize (i k st d plo phi : Nat) : Int := ((i : Int) + plo + phi - d * ((k : Int) - 1) - 1) / (st : Int) + 1

/-- Input coordinate of tap `k` of output position `o` (R136). -/
def tapAt (o k st d plo : Nat) : Int := (o * st : Nat) - (plo : Int) + (k * d : Nat)

/-- A tap outside the input is padded (R136). -/
def isPadded (x : Int) (i : Nat) : Bool := decide (x < 0) || decide ((i : Int) ≤ x)

/-- Output height and width at an input of height `h` and width `w`; (0, 0) when the output is empty (R135). -/
def OpDesc.outDims (d : OpDesc) (h w : Nat) : Nat × Nat :=
  match d.op with
  | 4 => if h = 0 ∨ w = 0 then (0, 0) else (1, 1)
  | _ =>
    let y := outSize h d.kh d.sh d.dh d.padT d.padB
    let x := outSize w d.kw d.sw d.dw d.padL d.padR
    if h = 0 ∨ w = 0 ∨ y ≤ 0 ∨ x ≤ 0 then (0, 0) else (y.toNat, x.toNat)

/-- Flags of the descriptor (Table 6-1). -/
def OpDesc.padConst (d : OpDesc) : Bool := d.flags.testBit 0
def OpDesc.countPad (d : OpDesc) : Bool := d.flags.testBit 1
def OpDesc.fp16 (d : OpDesc) : Bool := d.flags.testBit 2

/-- Input channels per group. -/
def OpDesc.cg (d : OpDesc) : Nat := d.cIn / d.groups

/-- The rows of input that output rows `o0` to `o1` read, clipped to the input (R156). -/
def OpDesc.inRows (d : OpDesc) (h o0 o1 : Nat) : Nat × Nat :=
  let lo := tapAt o0 0 d.sh d.dh d.padT
  let hi := tapAt o1 (d.kh - 1) d.sh d.dh d.padT
  (lo.toNat, if (h : Int) ≤ hi then h - 1 else hi.toNat)

/-! ## Layouts (R153, Table 6-8) -/

/-- Layout classes. -/
inductive Layout where
  | nhwc | c32 | nchw | other
deriving DecidableEq, Repr

/-- The class of the layout of an `h` × `w` input whose base is `base`: the first row of Table 6-8 it matches. -/
def OpDesc.layout (d : OpDesc) (base h w : Nat) : Layout :=
  let al := decide (base % 64 = 0) && decide (d.strH % 64 = 0)
  if al && decide (d.strC = d.elem) && decide (d.strW = d.cIn * d.elem) && decide (w * d.strW ≤ d.strH) then .nhwc
  else if al && decide (d.strC = d.elem) && decide (d.strW = 32 * d.elem) && decide (w * 32 * d.elem ≤ d.strH) then .c32
  else if d.strW = d.elem ∧ w * d.elem ≤ d.strH ∧ h * d.strH ≤ d.strC then .nchw
  else .other

/-- The layout factor F, for convolution inputs and for pooling. -/
def Layout.factor (l : Layout) (pool : Bool) : Nat :=
  match l with
  | .nhwc => 1
  | .c32 => 1
  | .nchw => if pool then 1 else 4
  | .other => 8

/-- Byte offset of element (y, x, c) of the input; channel blocks of 32 stand H_MAX rows apart (log entry 36). -/
def OpDesc.at_ (d : OpDesc) (l : Layout) (y x c : Nat) : Nat :=
  match l with
  | .c32 => c / 32 * (d.hMax * d.strH) + y * d.strH + x * d.strW + c % 32 * d.elem
  | _ => y * d.strH + x * d.strW + c * d.strC

/-- Position of output element (y, x, c) in an output of `oh` × `ow` × `n` (R154). -/
def OpDesc.outIdx (d : OpDesc) (oh ow n y x c : Nat) : Nat :=
  if d.outLayout = 1 then ((c / 32 * oh + y) * ow + x) * 32 + c % 32 else (y * ow + x) * n + c

/-- Elements of an output of `oh` × `ow` × `n` in the order of its output layout; the padding of a C32-blocked output holds 0 (R154). -/
def OpDesc.ordered (d : OpDesc) (oh ow n : Nat) (val : Nat → Nat → Nat → Option Nat) : List (Option Nat) :=
  if d.outLayout = 1 then
    (upto (cdiv n 32)).flatMap (fun b => (upto oh).flatMap (fun y => (upto ow).flatMap (fun x =>
      (upto 32).map (fun c => if 32 * b + c < n then val y x (32 * b + c) else some 0))))
  else (upto oh).flatMap (fun y => (upto ow).flatMap (fun x => (upto n).map (fun c => val y x c)))

/-- Elements an output of `oh` × `ow` × `n` takes. -/
def OpDesc.outLen (d : OpDesc) (oh ow n : Nat) : Nat := if d.outLayout = 1 then cdiv n 32 * oh * ow * 32 else oh * ow * n

/-! ## The invocation's shape (R134) -/

/-- Operator `i` of an image. -/
def opAt (img : PlanImage) (i : Nat) : Option OpDesc := img.ops[i]?

/-- Input height and width of operator `i` with every binding at its maximum; the first argument bounds the chain. -/
def maxDims (img : PlanImage) : Nat → Nat → Nat × Nat
  | 0, _ => (0, 0)
  | f + 1, i =>
    match img.ops[i]? with
    | none => (0, 0)
    | some d =>
      match d.from_ with
      | some j => (match img.ops[j]? with
        | some e => e.outDims (maxDims img f j).1 (maxDims img f j).2
        | none => (0, 0))
      | none => (nth 0 (declOf img d.binding).dims 1, nth 0 (declOf img d.binding).dims 0)

/-- Input height and width of operator `i` for item `it`: those of its binding, or the output of the operator it reads; the first
argument bounds the chain. -/
def opDims (s : State) (it : Item) : Nat → Nat → Nat × Nat
  | 0, _ => (0, 0)
  | f + 1, i =>
    match opAt (imgOf s it.e) i with
    | none => (0, 0)
    | some d =>
      match d.from_ with
      | some j =>
        let x := opDims s it f j
        match opAt (imgOf s it.e) j with
        | some e => e.outDims x.1 x.2
        | none => (0, 0)
      | none =>
        if it.golden then (nth 0 (declOf (imgOf s it.e) d.binding).dims 1, nth 0 (declOf (imgOf s it.e) d.binding).dims 0)
        else match it.e.bind[d.binding]? with
          | none => (d.hMax, d.wMax)
          | some w => (match bindReady s it w with
            | .ready (x :: y :: _) => (y, x)
            | _ => (d.hMax, d.wMax))

/-- Input height and width of operator `i`. -/
def opShape (s : State) (it : Item) (i : Nat) : Nat × Nat := opDims s it ((imgOf s it.e).ops.length + 1) i

/-! ## Convolution taps (R136 to R144) -/

/-- Filter row, channel in the group and filter column of reduction index `k`: k = (ky·c_g + c)·KW + kx (R137). -/
def OpDesc.kOf (d : OpDesc) (k : Nat) : Nat × Nat × Nat := (k / d.kw / d.cg, k / d.kw % d.cg, k % d.kw)

/-- Input channel that output channel `o` reads at channel `c` of its group (R141). -/
def OpDesc.chanOf (d : OpDesc) (o c : Nat) : Nat := o / (d.cOut / d.groups) * d.cg + c

/-- Valid output rows and columns of an overlap-save tile (R144). -/
def OpDesc.vh (d : OpDesc) : Nat := 65 - d.kh
def OpDesc.vw (d : OpDesc) : Nat := 65 - d.kw

/-- Rows and columns of tiles of an invocation: the tiles of the stride-1 output (R144). -/
def OpDesc.tiles (d : OpDesc) (h w : Nat) : Nat × Nat :=
  let y := (outSize h d.kh 1 1 d.padT d.padB).toNat
  let x := (outSize w d.kw 1 1 d.padL d.padR).toNat
  if h = 0 ∨ w = 0 then (0, 0) else (cdiv y d.vh, cdiv x d.vw)

/-- Where stage 7 takes output (y, x) of the decimated result: the tile, and the circular index in it (R144, R145). -/
def OpDesc.extract (d : OpDesc) (y x : Nat) : (Nat × Nat) × (Nat × Nat) :=
  let i := y * d.sh
  let j := x * d.sw
  ((i / d.vh, j / d.vw), (i % d.vh + d.kh - 1, j % d.vw + d.kw - 1))

/-- Tiles of all elements of a batch. -/
def OpDesc.allTiles (d : OpDesc) (h w batch : Nat) : Nat := batch * ((d.tiles h w).1 * (d.tiles h w).2)

/-- Number of the complex element that row `p` of a stage after the second takes at reduction index `k`, in the output of the stage before
(Table 6-7; log entry 36): tile by tile and channel by channel, the outputs of stage 4 bin by bin. -/
def OpDesc.stageIdx (d : OpDesc) (tiles stage fbin p k : Nat) : Nat :=
  match stage with
  | 4 => (p * d.cIn + k) * 4096 + fbin
  | 5 => (k * 64 + p % 64) * (tiles * d.cOut) + p / 64
  | _ => (p / 64 * 64 + k) * 64 + p % 64

/-- Number of the INT32 element of the stage-6 output that output position `p`, over all elements of a batch, takes for channel `o`. -/
def OpDesc.extractIdx (d : OpDesc) (h w p o : Nat) : Nat :=
  let (oh, ow) := d.outDims h w
  let (ny, nx) := d.tiles h w
  let q := p % (oh * ow)
  let ((a, b), (i, j)) := d.extract (q / ow) (q % ow)
  (((p / (oh * ow) * ny + a) * nx + b) * d.cOut + o) * 4096 + j * 64 + i

/-- What a tap reads: an element of the input, or the pad value. -/
inductive Tap where
  | el (off : Nat)
  | pad
deriving DecidableEq, Repr

/-- A tap moved by `n` bytes. -/
def Tap.shift (t : Tap) (n : Int) : Tap :=
  match t with
  | .el o => .el ((o : Int) + n).toNat
  | .pad => .pad

/-- The element at (y, x, c) of an `h` × `w` input, or the pad value outside it. -/
def OpDesc.tap (d : OpDesc) (l : Layout) (h w : Nat) (y x : Int) (c : Nat) : Tap :=
  if isPadded y h || isPadded x w then .pad else .el (d.at_ l y.toNat x.toNat c)

/-- Rows of activations that one element of a batch has: output positions, or transform rows (Table 6-7). -/
def OpDesc.rowsIn (d : OpDesc) (h w stage : Nat) : Nat :=
  let t := d.allTiles h w 1
  if d.path = 2 then (match stage with
    | 2 => 64 * t * d.cIn
    | 3 => 64 * t * d.cIn
    | 4 => t
    | _ => 64 * t * d.cOut)
  else (d.outDims h w).1 * (d.outDims h w).2

/-- The tap at reduction index `k` of row `p` of one element of a batch, for output channel `o`: direct, direct per group and diagonal
paths (R136, R137, R141), and the rows of stage 2 of the frequency-domain path, tile by tile, channel by channel (R144, R145; log
entry 36). -/
def OpDesc.tapOf (d : OpDesc) (l : Layout) (h w p o k : Nat) : Tap :=
  if d.path = 2 then
    let t := p / 64 / d.cIn
    let nx := (d.tiles h w).2
    let y : Int := ((if nx = 0 then 0 else t / nx) * d.vh : Nat) - (d.padT : Int) + (p % 64 : Nat)
    let x : Int := ((if nx = 0 then 0 else t % nx) * d.vw : Nat) - (d.padL : Int) + (k : Int)
    d.tap l h w y x (p / 64 % d.cIn)
  else
    let ow := (d.outDims h w).2
    let (ky, c, kx) := d.kOf k
    let y := tapAt (if ow = 0 then 0 else p / ow) ky d.sh d.dh d.padT
    let x := tapAt (if ow = 0 then 0 else p % ow) kx d.sw d.dw d.padL
    d.tap l h w y x (d.chanOf o c)

/-- What row `p` over all elements of a batch takes at reduction index `k` for output channel `o`: elements of the batch stand STR_N
apart, and the operand begins with input row `row0` (R153, R156); the stages after the second take complex elements of the stage
before (Table 6-7). -/
def OpDesc.feedTap (d : OpDesc) (f : Feed) (l : Layout) (h w batch p o k : Nat) : Tap :=
  if d.path = 2 ∧ f.stage ≠ 2 then .el (4 * d.stageIdx (d.allTiles h w batch) f.stage f.fbin p k)
  else
    let n := d.rowsIn h w 2
    let e := if n = 0 then 0 else p / n
    (d.tapOf l h w (p - e * n) o k).shift ((e * d.strN : Nat) - (f.row0 * d.strH : Nat))

/-- Bytes of one activation element as it stands in the operand. -/
def OpDesc.tapSize (d : OpDesc) (stage : Nat) : Nat := if d.path = 2 then (if stage = 2 then 1 else 4) else d.elem

/-- A tap's bytes as the array takes them: the element, PADV or zero; in stage 2 of the frequency-domain path Q1.15 with an imaginary
part of 0: q·2^8 (R136, R145). -/
def OpDesc.tapBytes (d : OpDesc) (stage : Nat) (el : Nat → List Byte) : Tap → List Byte
  | .el a => if d.path = 2 ∧ stage = 2 then [0] ++ (el a).take 1 ++ [0, 0] else el a
  | .pad =>
    let v := if d.padConst then d.padv else 0
    if d.path = 2 then [0] ++ le 1 v ++ [0, 0] else le d.elem v

/-! ## Cycles (R139, R142, R149, R152) -/

/-- Position runs of at most `b` positions within output rows of `ow` that `n` positions from `p` take (R142). -/
def runCount (b ow : Nat) : Nat → Nat → Nat → Nat
  | 0, _, _ => 0
  | f + 1, p, n =>
    if n = 0 ∨ ow = 0 then 0
    else
      let l := if n ≤ ow - p % ow then n else ow - p % ow
      cdiv l b + runCount b ow f (p + l) (n - l)

/-- Constants of the diagonal mapping (Table 6-5): block, L before the layout factor, t_max, d, tail. -/
structure DiagC where
  b : Nat
  l : Nat
  tMax : Nat
  d : Nat
  tail : Nat
deriving DecidableEq, Repr

/-- The constants in I8 and in B16. -/
def diagC (b16 : Bool) : DiagC := if b16 then ⟨16, 8, 7, 8, 47⟩ else ⟨32, 16, 15, 32, 63⟩

/-- B_blk: cycles of a diagonal block with layout factor `f` (R142). -/
def OpDesc.blockCycles (d : OpDesc) (b16 : Bool) (f : Nat) : Nat :=
  let c := diagC b16
  let l := c.l * f
  let t := if d.sw = 1 ∧ d.dw ≤ c.tMax then d.dw else l
  let n := d.kh * d.cg * (l + (d.kw - 1) * t)
  if n < c.d then c.d else n

/-- Cycles of max and average pooling, and of global average pooling (R149). -/
def OpDesc.poolCycles (d : OpDesc) (f h w : Nat) : Nat :=
  if d.op = 4 then h * w * cdiv d.cIn 32 * f + 24
  else (d.outDims h w).1 * (d.outDims h w).2 * d.kh * d.kw * cdiv d.cIn 32 * f + 8

/-- Cycles of tensor crop-and-resize (R152). -/
def cropCycles (count ow oh s c f : Nat) : Nat := count * ow * oh * s ^ 2 * cdiv c 32 * 2 * f + 24

/-! ## Pooling (R147, R148) -/

/-- Taps of the window of output position (oy, ox) at channel `c`, in ascending (ky, kx); for global average pooling every
position. -/
def OpDesc.window (d : OpDesc) (l : Layout) (h w oy ox c : Nat) : List Tap :=
  if d.op = 4 then (upto h).flatMap (fun y => (upto w).map (fun x => Tap.el (d.at_ l y x c)))
  else (upto d.kh).flatMap (fun ky => (upto d.kw).map (fun kx =>
    d.tap l h w (tapAt oy ky d.sh 1 d.padT) (tapAt ox kx d.sw 1 d.padL) c))

/-- The least value of a pooling format: −128, −2^31 or −infinity (R148). -/
def poolMin (fmt : Fmt) : Nat :=
  match fmt with
  | .i8 => 0x80
  | .i32 => 0x80000000
  | .bf16 => 0xFF80
  | _ => 0xFF800000

/-- The pad value in a pooling format; INT32 and FP32 have none stated (log entry 25). -/
def OpDesc.poolPad (d : OpDesc) : Option Nat :=
  if !d.padConst then some 0
  else match d.fmt with
    | .i8 => some (d.padv % 256)
    | .bf16 => some d.padv
    | _ => none

/-- An element as FP32. -/
def toF (fmt : Fmt) (v : Nat) : Nat := if fmt = .bf16 then (ofBf v).to32 else (of32 v).to32

/-- An FP32 result in the format. -/
def fromF (fmt : Fmt) (v : Nat) : Nat := if fmt = .bf16 then (of32 v).toBf else v

/-- Max pooling of the non-padded taps (R148). -/
def OpDesc.maxPool (d : OpDesc) (vals : List Nat) : Option Nat :=
  match vals with
  | [] => if d.padConst then d.poolPad else some (poolMin d.fmt)
  | v :: r =>
    let z := 8 * d.fmt.size
    if d.fmt.isInt then some (enc z (r.foldl (fun a x => iMax a (sgn z x)) (sgn z v)))
    else if vals.any (fun x => isNan (toF d.fmt x)) then some (fromF d.fmt nan32)
    else some (fromF d.fmt (r.foldl (fun a x => fmax a (toF d.fmt x)) (toF d.fmt v)))

/-- Average pooling of `vals`: the exact sum over the count for integers; in FP32 the sum in order times RNE32(1 / count)
(R148). A count of 0 gives 0. -/
def OpDesc.avgPool (d : OpDesc) (vals : List Nat) : Nat :=
  let z := 8 * d.fmt.size
  let n := vals.length
  match vals with
  | [] => 0
  | v :: r =>
    if d.fmt.isInt then enc z (satI z (rhe (sumI (vals.map (sgn z))) n))
    else fromF d.fmt (fmul (r.foldl (fun a x => fadd a (toF d.fmt x)) (toF d.fmt v)) (rneRatio 1 n))

/-- A pooling output from its window: with COUNT_PAD every tap of an average counts (R148). -/
def OpDesc.pool (d : OpDesc) (el : Nat → Nat) (taps : List Tap) : Option Nat :=
  let real := taps.filterMap (fun t => match t with
    | .el a => some (el a)
    | .pad => none)
  if d.op = 2 then d.maxPool real
  else if d.op = 3 ∧ d.countPad then
    match d.poolPad with
    | some v => some (d.avgPool (taps.map (fun t => match t with
        | .el a => el a
        | .pad => v)))
    | none => if taps.length = real.length then some (d.avgPool real) else none
  else some (d.avgPool real)

/-- Output elements of a pooling operator in the order of its output layout. -/
def OpDesc.poolOut (d : OpDesc) (l : Layout) (h w : Nat) (el : Nat → Nat) : List (Option Nat) :=
  d.ordered (d.outDims h w).1 (d.outDims h w).2 d.cIn (fun y x c => d.pool el (d.window l h w y x c))

/-! ## Tensor crop-and-resize (R150, R151) -/

/-- The parameters in a box list's header (R150): count, output size, mode, stride shift, sampling factor, fill. -/
structure CropHdr where
  count : Nat
  ow : Nat
  oh : Nat
  mode : Nat
  sh : Nat
  s : Nat
  fill : Nat
deriving DecidableEq, Repr

/-- The header from its 32 bytes (Table 3-3 with R150). -/
def cropHdrOf (b : List Byte) : CropHdr :=
  let g (i n : Nat) : Nat := unle ((b.drop i).take n)
  { count := g 0 2, ow := g 2 1, oh := g 3 1, mode := g 4 1, sh := bitsOf (g 6 1) 5 3, s := bitsOf (g 6 1) 7 6 + 1, fill := g 8 1 }

/-- Index coordinate of sub-sample `u` of output `j` along an axis with edges `a0`, `a1` and `n` outputs (R151). -/
def cropCoord (h : CropHdr) (a0 a1 : Int) (n j u : Nat) : Int :=
  (a0 * 4096 + (2 * (j * h.s + u) + 1 : Nat) * (a1 - a0) * 4096 / (2 * n * h.s : Nat)) / (2 ^ h.sh : Nat) - 32768

/-- Neighbours of a sample position along one axis (R67): one under nearest sampling, else two. -/
def cropAxis (nearest : Bool) (p : Int) : List Int := if nearest then [(p + 32768) / 65536] else [p / 65536, p / 65536 + 1]

/-- The neighbours of a sample, as (y, x). -/
def cropNeighbours (nearest : Bool) (sy sx : Int) : List (Int × Int) :=
  (cropAxis nearest sy).flatMap (fun y => (cropAxis nearest sx).map (fun x => (y, x)))

/-- Where a neighbour is read under the edge mode: clamped, or none for the fill value. -/
def cropEdge (const : Bool) (h w : Nat) (q : Int × Int) : Option (Nat × Nat) :=
  if isPadded q.1 h || isPadded q.2 w then
    (if const then none else some ((sat 0 ((h : Int) - 1) q.1).toNat, (sat 0 ((w : Int) - 1) q.2).toNat))
  else some (q.1.toNat, q.2.toNat)

/-- A bilinear sample of four values; none when a value it needs is not stated (R151). -/
def bilinear (fmt : Fmt) (fy fx : Nat) (v : List (Option Nat)) : Option Nat :=
  match v with
  | [some a, some b, some c, some d] =>
    let ws := [(256 - fx) * (256 - fy), fx * (256 - fy), (256 - fx) * fy, fx * fy]
    if fmt.isInt then
      some (enc 8 (rhe (sumI (([a, b, c, d].zip ws).map (fun x => sgn 8 x.1 * x.2))) 65536))
    else
      let t := ([a, b, c, d].zip ws).map (fun x => fmul (toF fmt x.1) (rneRatio x.2 65536))
      some (fromF fmt ((t.drop 1).foldl (fun m x => fadd m x) (nth 0 t 0)))
  | _ => none

/-- One sample (R67, R151): the fill value of a BF16 crop is not stated (log entry 25). -/
def cropSample (d : OpDesc) (l : Layout) (hd : CropHdr) (h w : Nat) (el : Nat → Nat) (c : Nat) (sy sx : Int) : Option Nat :=
  let fill : Option Nat := if d.fmt.isInt then some hd.fill else none
  let nearest := hd.mode.testBit 0
  let vs := (cropNeighbours nearest sy sx).map (fun q =>
    match cropEdge (hd.mode.testBit 1) h w q with
    | some (y, x) => some (el (d.at_ l y x c))
    | none => fill)
  if nearest then nth none vs 0
  else bilinear d.fmt (sy / 256 % 256).toNat (sx / 256 % 256).toNat vs

/-- The average of the s² samples of an output (R151). -/
def cropMean (fmt : Fmt) (n : Nat) (vs : List (Option Nat)) : Option Nat :=
  if vs.any (fun v => v.isNone) then none
  else
    let xs := vs.filterMap id
    if fmt.isInt then some (enc 8 (satI 8 (rhe (sumI (xs.map (sgn 8))) n)))
    else some (fromF fmt (fmul (((xs.drop 1).map (toF fmt)).foldl (fun a x => fadd a x) (toF fmt (nth 0 xs 0))) (rneRatio 1 n)))

/-- Sample positions of output (i, j) of a box, sub-sample rows first. -/
def subSamples (hd : CropHdr) (b : Box) (i j : Nat) : List (Int × Int) :=
  (upto hd.s).flatMap (fun v => (upto hd.s).map (fun u => (cropCoord hd b.y0 b.y1 hd.oh i v, cropCoord hd b.x0 b.x1 hd.ow j u)))

/-- Is a box degenerate (Table 3-4)? -/
def boxEmpty (b : Box) : Bool := decide (b.x1 ≤ b.x0) || decide (b.y1 ≤ b.y0)

/-- Output (i, j) of a box at channel `c`: the fill value when the box is degenerate. -/
def cropEl (d : OpDesc) (l : Layout) (hd : CropHdr) (h w : Nat) (el : Nat → Nat) (b : Box) (i j c : Nat) : Option Nat :=
  if boxEmpty b then (if d.fmt.isInt then some hd.fill else none)
  else cropMean d.fmt (hd.s ^ 2) ((subSamples hd b i j).map (fun p => cropSample d l hd h w el c p.1 p.2))

/-- The crop of a box in the order of the output layout (R154). -/
def boxCrop (d : OpDesc) (l : Layout) (hd : CropHdr) (h w : Nat) (el : Nat → Nat) (b : Box) : List (Option Nat) :=
  d.ordered hd.oh hd.ow d.cIn (cropEl d l hd h w el b)

/-- Neighbours of all samples of a box. -/
def boxNeighbours (hd : CropHdr) (b : Box) : List (Int × Int) :=
  if boxEmpty b then []
  else (upto hd.oh).flatMap (fun i => (upto hd.ow).flatMap (fun j =>
    (subSamples hd b i j).flatMap (fun p => cropNeighbours (hd.mode.testBit 0) p.1 p.2)))

/-- A box's flags: PARTIAL, OUTSIDE, DEGENERATE (R68, R151). -/
def cropFlags (hd : CropHdr) (h w : Nat) (b : Box) : Nat :=
  let out := (boxNeighbours hd b).map (fun q => isPadded q.1 h || isPadded q.2 w)
  if boxEmpty b then 4
  else if out.all id then 2
  else if out.any id then 1
  else 0

/-- Offsets of the elements the boxes read. -/
def cropReads (d : OpDesc) (l : Layout) (hd : CropHdr) (h w : Nat) (bs : List Box) : List Nat :=
  bs.flatMap (fun b => (boxNeighbours hd b).flatMap (fun q =>
    match cropEdge (hd.mode.testBit 1) h w q with
    | some (y, x) => (upto d.cIn).map (fun c => d.at_ l y x c)
    | none => []))

/-! ## Reading an operator's input (R138: only what a tap names is read) -/

/-- Bin rows, counted from the operand's region, that hold the elements at the given offsets, in ascending order. -/
def inputRows (c : CoreS) (x : BinRef) (z : Nat) (offs : List Nat) : List Nat :=
  let o := x.offset c
  let rows := offs.flatMap (fun a => [(o + a) / x.bin.row, (o + a + z - 1) / x.bin.row])
  (sortBy (fun (a b : Nat) => decide (a < b)) rows).foldl (fun (l : List Nat) r => if l.getLast? = some r then l else l ++ [r]) []

/-- The operands that read those rows: each at its place, or one after the other in a circular region (log entry 36). -/
def rowRefs (c : CoreS) (x : BinRef) (rows : List Nat) : List (BinRef × Nat) :=
  let circ := (c.region x.bin x.reg).circ
  rows.map (fun r => ({ x with off := (if circ then 0 else r * x.bin.row), strides := [] }, x.bin.row))

/-- The bytes of the element at offset `a`, from the rows read. -/
def elemOf (c : CoreS) (x : BinRef) (z : Nat) (rows : List (Nat × List Byte)) (a : Nat) : List Byte :=
  let o := x.offset c + a
  (upto z).map (fun i =>
    match rows.find? (fun r => decide (r.1 = (o + i) / x.bin.row)) with
    | some r => nth 0 r.2 ((o + i) % x.bin.row)
    | none => 0)

/-! ## Limits of a descriptor (R133 to R154, Table 6-9) -/

/-- Element size and format follow from OP, MODE and FLAGS (Table 6-1, R143, R147, R150): INT8 activations but in B16, which takes BF16 or
FP16; pooling in INT8, INT32, BF16 or FP32; crop-and-resize in INT8 or BF16. C16, L4 and L3 pool nothing (Table 6-9). -/
def OpDesc.formatOk (d : OpDesc) : Bool :=
  decide (d.elem = d.fmt.size) && (match d.op, d.mode with
    | 1, 3 => decide (d.fmt = if d.fp16 then .fp16 else .bf16)
    | 1, _ => decide (d.mode ≤ 4) && decide (d.fmt = .i8)
    | 5, 0 => decide (d.fmt = .i8)
    | 5, 3 => decide (d.fmt = .bf16)
    | _, 0 => decide (d.fmt = .i8) || decide (d.fmt = .i32)
    | _, 3 => decide (d.fmt = .bf16) || decide (d.fmt = .fp32)
    | _, _ => false)

/-- The ranges of Table 6-1, the strides of R153 and the output layout of R154; an output that is empty at the maximum is refused
(R135). -/
def OpDesc.rangesOk (d : OpDesc) : Bool :=
  let inR (lo hi v : Nat) : Bool := decide (lo ≤ v) && decide (v ≤ hi)
  inR 1 131071 d.cIn && inR 1 8192 d.hMax && inR 1 8192 d.wMax &&
    [d.strN, d.strH, d.strW, d.strC].all (fun x => decide (x % d.elem = 0)) && decide (d.outLayout ≤ 1) &&
    (decide (d.op = 5) || decide (d.outDims d.hMax d.wMax ≠ (0, 0))) && d.formatOk

/-- Each padding is at most D·(K − 1) (R136). -/
def OpDesc.padsOk (d : OpDesc) : Bool :=
  decide (d.padT ≤ d.dh * (d.kh - 1)) && decide (d.padB ≤ d.dh * (d.kh - 1)) && decide (d.padL ≤ d.dw * (d.kw - 1)) &&
    decide (d.padR ≤ d.dw * (d.kw - 1))

/-- Filter limits of Table 6-4. -/
def OpDesc.filterOk (d : OpDesc) : Bool :=
  let inR (lo hi v : Nat) : Bool := decide (lo ≤ v) && decide (v ≤ hi)
  inR 1 15 d.kh && inR 1 15 d.kw && inR 1 16 d.sh && inR 1 16 d.sw && inR 1 64 d.dh && inR 1 64 d.dw

/-- Mode numbers of Table 6-1. -/
def OpDesc.isB16 (d : OpDesc) : Bool := decide (d.mode = 3)

/-- The direct paths (R138, R140): mode, dataflow and reduction length. -/
def OpDesc.directOk (d : OpDesc) : Bool :=
  d.filterOk && decide (d.mode ≤ 3) && decide (d.flow ≤ 2) && (decide (d.flow ≠ 2) || decide (d.mode = 0) || d.isB16) &&
    decide (d.cg * d.kh * d.kw ≤ (if d.isB16 then 2 ^ 24 else 131071))

/-- A convolution's path (Table 6-9). -/
def OpDesc.convOk (d : OpDesc) : Bool :=
  let inR (lo hi v : Nat) : Bool := decide (lo ≤ v) && decide (v ≤ hi)
  inR 1 131071 d.cOut && decide (1 ≤ d.groups) && decide (d.cIn % d.groups = 0) && decide (d.cOut % d.groups = 0) && d.padsOk &&
    (match d.path with
     | 0 => d.directOk && decide (d.groups = 1)
     | 1 => d.filterOk && inR 1 64 d.cg && (decide (d.mode = 0) || d.isB16) && decide (d.flow = 0)
     | 2 =>
       inR 1 31 d.kh && inR 1 31 d.kw && (decide (7 ≤ d.kh) || decide (7 ≤ d.kw)) && decide (d.dh = 1) && decide (d.dw = 1) &&
         inR 1 4 d.sh && inR 1 4 d.sw && decide (d.groups = 1) && decide (d.cIn ≤ 32767) && decide (d.mode = 4) &&
         decide (d.flow ≤ 1)
     | 3 => d.directOk
     | _ => false)

/-- Max and average pooling (R147). -/
def OpDesc.poolOk (d : OpDesc) : Bool :=
  let inR (lo hi v : Nat) : Bool := decide (lo ≤ v) && decide (v ≤ hi)
  inR 1 15 d.kh && inR 1 15 d.kw && inR 1 16 d.sh && inR 1 16 d.sw && decide (d.dh = 1) && decide (d.dw = 1) && d.padsOk

/-- Does plan install accept the descriptor (R133)? -/
def OpDesc.ok (d : OpDesc) : Bool :=
  d.rangesOk && (match d.op with
    | 1 => d.convOk
    | 2 => d.poolOk
    | 3 => d.poolOk
    | 4 => true
    | 5 => decide (d.cIn ≤ 4096)
    | _ => false)

/-- An input that the operator cannot take: above H_MAX or W_MAX (R134), or of more than 2^24 positions for global average pooling
(Table 6-9). -/
def OpDesc.tooLarge (d : OpDesc) (h w : Nat) : Bool :=
  decide (d.hMax < h) || decide (d.wMax < w) || (decide (d.op = 4) && decide (2 ^ 24 < h * w))

end Sys2Proof.Machine
end

