-- ==== Sys2Proof/Machine/Vector.lean ====
section
/-!
DEFINITION. Sys2Proof/Machine/Vector.lean: the vector unit (04_compute_core.md R95 to R99; 05_number_formats_and_quantisation.md
R115 to R126): what each vector operation computes, its operands and its cycles.
-/

namespace Sys2Proof.Machine

/-- What a vector operation computes: bytes written first, then elements of `z` bytes, of which `none` is a value the spec does
not state (log entry 25); whether a NaN or infinity met the conversion; how many additions wrapped. -/
structure VRes where
  raw : List Byte := []
  z : Nat := 4
  els : List (Option Nat) := []
  nonFinite : Bool := false
  wraps : Nat := 0

/-- Elements as bytes, a free value for each that is not stated. -/
def fillEls (z : Nat) : List (Option Nat) → State → State × List Byte
  | [], s => (s, [])
  | some v :: r, s =>
    let (t, b) := fillEls z r s
    (t, le z v ++ b)
  | none :: r, s =>
    let (v, s1) := fresh s
    let (t, b) := fillEls z r s1
    (t, le z v ++ b)

/-- INT32 wraps of an item on core `p` (R86). -/
def noteWraps (s : State) (p k n : Nat) : State := if n = 0 then s else flagItem (addI s F.CORE_ACC_WRAPS p n) k 7

/-- Cycles of an element-wise operation. -/
def elemCycles (n extra : Nat) : Nat := cdiv n 32 + extra

/-- A stated signed result of 32 bits. -/
def out32 (v : Int) : Option Nat := some (enc 32 v)

/-- A signed result of 32 bits, open when it leaves the format. -/
def fit32 (v : Int) : Option Nat := if satI 32 v = v then out32 v else none

/-! ## Element-wise operations -/

/-- One operand, element by element. -/
def map1 (n : Nat) (bs : List (List Byte)) (f : Nat → Option Nat) : VRes := { els := (elems 4 n (nth [] bs 0)).map f }

/-- Two operands, element by element. -/
def map2 (n : Nat) (bs : List (List Byte)) (f : Nat → Nat → Option Nat) : VRes :=
  { els := ((elems 4 n (nth [] bs 0)).zip (elems 4 n (nth [] bs 1))).map (fun x => f x.1 x.2) }

/-- ReLU: y = max(0, x). -/
def reluOf (fmt : Fmt) (x : Nat) : Option Nat := if fmt.isInt then out32 (iMax 0 (sgn 32 x)) else some (fmax 0 x)

/-- Clip: y = min(hi, max(lo, x)). -/
def clipOf (fmt : Fmt) (lo hi x : Nat) : Option Nat :=
  if fmt.isInt then out32 (iMin (sgn 32 hi) (iMax (sgn 32 lo) (sgn 32 x))) else some (fmin hi (fmax lo x))

/-- Element-wise min and max. -/
def minOf2 (fmt : Fmt) (a b : Nat) : Option Nat := if fmt.isInt then out32 (iMin (sgn 32 a) (sgn 32 b)) else some (fmin a b)
def maxOf2 (fmt : Fmt) (a b : Nat) : Option Nat := if fmt.isInt then out32 (iMax (sgn 32 a) (sgn 32 b)) else some (fmax a b)

/-- Element-wise add: partial sums add modulo 2^32 (R86). -/
def addOf (fmt : Fmt) (psum : Bool) (a b : Nat) : Option Nat :=
  if !fmt.isInt then some (fadd a b)
  else if psum then out32 (sgn 32 a + sgn 32 b)
  else fit32 (sgn 32 a + sgn 32 b)

/-- Does an add of partial sums wrap? -/
def addWraps (fmt : Fmt) (psum : Bool) (a b : Nat) : Bool := fmt.isInt && psum && (fit32 (sgn 32 a + sgn 32 b)).isNone

/-- Element-wise multiply and fused multiply-add. -/
def mulOf (fmt : Fmt) (a b : Nat) : Option Nat := if fmt.isInt then fit32 (sgn 32 a * sgn 32 b) else some (fmul a b)
def fmaOf (fmt : Fmt) (a b c : Nat) : Option Nat := if fmt.isInt then fit32 (sgn 32 a * sgn 32 b + sgn 32 c) else some (ffma a b c)

/-- Element-wise addition with the additions that wrapped (R86). -/
def addRes (fmt : Fmt) (psum : Bool) (n : Nat) (bs : List (List Byte)) : VRes :=
  { (map2 n bs (addOf fmt psum)) with
    wraps := (((elems 4 n (nth [] bs 0)).zip (elems 4 n (nth [] bs 1))).filter (fun x => addWraps fmt psum x.1 x.2)).length }

/-- Element-wise x1·x2 + x3. -/
def fmaRes (fmt : Fmt) (n : Nat) (bs : List (List Byte)) : VRes :=
  { els := ((elems 4 n (nth [] bs 0)).zip ((elems 4 n (nth [] bs 1)).zip (elems 4 n (nth [] bs 2)))).map
      (fun x => fmaOf fmt x.1 x.2.1 x.2.2) }

/-! ## Conversion (Table 5-2) -/

/-- An element converted from one format to another; INT32 to BF16 or FP16 goes by FP32. A conversion to INT8 or
INT16 is no conversion of this table but R122's with a scale record; plan install refuses it here. -/
def convOf (src dst : Fmt) (v : Nat) : Nat :=
  let x : FV := match src with
    | .bf16 => ofBf v
    | .fp16 => ofHf v
    | .fp32 => of32 v
    | _ => of32 (ofInt (sgn (8 * src.size) v))
  match dst with
  | .fp32 => x.to32
  | .bf16 => (of32 x.to32).toBf
  | .fp16 => (of32 x.to32).toHf
  | _ => if src.isInt then enc (8 * dst.size) (satI (8 * dst.size) (sgn (8 * src.size) v))
         else enc (8 * dst.size) (toInt (8 * dst.size) 0 x.to32)

/-! ## Requantise, Max-abs, DERIVE, BIASQ (R119 to R126) -/

/-- A scale record (Table 5-3). -/
structure ScaleRec where
  sOut : Nat
  mult : Nat
  sh : Nat
  int16 : Bool
  zero : Bool
  nonFinite : Bool
  flt : Bool
  derived : Bool
  maxAbs : Nat
deriving DecidableEq, Repr

/-- The record's 16 bytes. -/
def ScaleRec.bytes (r : ScaleRec) : List Byte :=
  le 4 r.sOut ++ le 4 r.mult ++ le 1 r.sh ++ le 1 (bnat r.int16) ++
    le 1 (bnat r.zero + 2 * bnat r.nonFinite + 4 * bnat r.flt + 8 * bnat r.derived) ++ le 1 0 ++ le 4 r.maxAbs

/-- A record from its bytes. -/
def scaleRecOf (b : List Byte) : ScaleRec :=
  let f := unle ((b.drop 10).take 1)
  { sOut := unle (b.take 4), mult := unle ((b.drop 4).take 4), sh := unle ((b.drop 8).take 1) % 64,
    int16 := decide (unle ((b.drop 9).take 1) = 1), zero := f.testBit 0, nonFinite := f.testBit 1, flt := f.testBit 2,
    derived := f.testBit 3, maxAbs := unle ((b.drop 12).take 4) }

/-- One element under a scale record (R122): the integer path for INT32, else the floating-point path. -/
def requantOf (src : Fmt) (r : ScaleRec) (v : Nat) : Nat :=
  let w := if r.int16 then 16 else 8
  if src.isInt then enc w (satI w (rhe (sgn (8 * src.size) v * r.mult) (2 ^ r.sh)))
  else
    let x := convOf src .fp32 v
    if nonFinite x then 0 else enc w (toInt w 0 (fmul x r.mult))

/-- Elements under a scale record, with NONFINITE where the record or an element says so (R122). -/
def requantRes (src : Fmt) (r : ScaleRec) (xs : List Nat) : VRes :=
  { z := if r.int16 then 2 else 1, els := xs.map (fun v => some (requantOf src r v)),
    nonFinite := r.nonFinite || (!src.isInt && xs.any (fun v => nonFinite (convOf src .fp32 v))) }

/-- Magnitude of an element: INT32 with |−2^31| taken as 2^31 − 1; a floating-point one as FP32 (R119). -/
def magOf (fmt : Fmt) (v : Nat) : Nat :=
  if fmt.isInt then
    let a := (sgn (8 * fmt.size) v).natAbs
    if a < 2 ^ 31 then a else 2 ^ 31 - 1
  else fabs (convOf fmt .fp32 v)

/-- m: the largest magnitude (R119). -/
def maxMag (fmt : Fmt) (l : List Nat) : Nat :=
  l.foldl (fun a v => if fmt.isInt then (if a < magOf fmt v then magOf fmt v else a) else fmax a (magOf fmt v)) 0

/-- q_max and c_q of a target format (R120). -/
def qMax (int16 : Bool) : Nat := if int16 then 32767 else 127
def cQ (int16 : Bool) : Nat := if int16 then 0x38000100 else 0x3C010204

/-- The shift of R120: 2^31 ≤ q_max·2^sh / m_eff < 2^32. -/
def shiftOf (q m : Nat) : Nat := ((upto 64).find? (fun sh => decide (2 ^ 31 * m ≤ q * 2 ^ sh) && decide (q * 2 ^ sh < 2 ^ 32 * m))).getD 0

/-- The scale record of integer staged elements (R120). -/
def deriveInt (m sStage clip : Nat) (int16 : Bool) : ScaleRec :=
  let e := (m * clip + 32768) / 65536
  let m1 := if e = 0 then 1 else e
  let sh := shiftOf (qMax int16) m1
  { sOut := fmul (fmul sStage (ofInt m1)) (cQ int16), mult := qMax int16 * 2 ^ sh / m1, sh := sh, int16 := int16,
    zero := decide (m = 0), nonFinite := false, flt := false, derived := true, maxAbs := m }

/-- The scale record of floating-point staged elements (R121). -/
def deriveFlt (m sStage clip : Nat) (int16 : Bool) : ScaleRec :=
  let none_ (z nf : Bool) : ScaleRec :=
    { sOut := 0, mult := 0, sh := 0, int16 := int16, zero := z, nonFinite := nf, flt := true, derived := true, maxAbs := m }
  if nonFinite m then none_ false true
  else
    let e := match of32 m with
      | .num a x => rne32 (a * clip) (x - 16)
      | _ => 0
    if e % 2 ^ 31 = 0 then none_ true false
    else
      { (none_ false false) with
        sOut := fmul (fmul sStage e) (cQ int16), mult := fmul (ofInt (qMax int16)) (recip e) }

/-- RNE32(2^G). -/
def pow32 (g : Int) : Nat := rne32 1 g

/-- The scale of a staged tensor (R118), from the bytes of the operands it names. -/
def StageScale.value (x : StageScale) (bs : List (List Byte)) : Nat :=
  match x with
  | .fixed s => s
  | .prod _ _ g => scale32 g (fmul (unle ((nth [] bs 0).take 4)) (unle ((nth [] bs 1).take 4)))
  | .pow g => pow32 g

/-- Operands of a scale. -/
def StageScale.reads : StageScale → List (BinRef × Nat)
  | .fixed _ => []
  | .prod sa sw _ => [(sa, 4), (sw, 4)]
  | .pow _ => []

/-- b_q of a bias (R126). -/
def biasOf (sa sw b : Nat) : Int := toInt 32 0 (fmul b (recip (fmul sa sw)))

/-! ## Table functions (R96) -/

/-- Segment `i` of table `t` in the table store: slope and intercept. -/
def segOf (c : CoreS) (t i : Nat) : Int × Int :=
  let a := 512 * t + 8 * i
  (sgn 32 (unle (tgetList 0 c.tstore a 4)), sgn 32 (unle (tgetList 0 c.tstore (a + 4) 4)))

/-- The table function of an INT32 input (R96). -/
def tableOf (c : CoreS) (p : TabPar) (x : Int) : Int :=
  let i := sat 0 63 ((x - p.x0) / (2 ^ p.sh : Nat))
  let (a, b) := segOf c p.tab i.toNat
  let h : Int := if p.r = 0 then 0 else (2 ^ (p.r - 1) : Nat)
  satI 32 ((a * (x - p.x0 - i * (2 ^ p.sh : Nat)) + h) / (2 ^ p.r : Nat) + b)

/-- A table function on an element: FP32 input by sat32(rhe(x·2^F)), FP32 output y·2^−G. -/
def tableEl (c : CoreS) (p : TabPar) (v : Nat) : Nat :=
  let x := if p.fpIn then toInt 32 p.f v else sgn 32 v
  let y := tableOf c p x
  if p.fpOut then (if y = 0 then 0 else rne32 y (-(p.g : Int))) else enc 32 y

/-! ## Softmax and layer normalisation (R97, R98) -/

/-- Sum of the elements of lane `l` in ascending index, from +0. -/
def laneSum (l : Nat) (xs : List (Nat × Nat)) : Nat := (xs.filter (fun e => decide (e.1 % 32 = l))).foldl (fun a e => fadd a e.2) 0

/-- One level of adjacent pairs. -/
def pairUp : List Nat → List Nat
  | a :: b :: r => fadd a b :: pairUp r
  | l => l

/-- The sum of R97 step 3: 32 lanes, then five levels of adjacent pairs. -/
def laneTree (xs : List Nat) : Nat :=
  let e := enumFrom 0 xs
  nth 0 (pairUp (pairUp (pairUp (pairUp (pairUp ((upto 32).map (fun l => laneSum l e))))))) 0

/-- e_i of softmax (R97 step 2). -/
def expOf (x m : Nat) : Nat :=
  let t := fmul (fsub x m) 0x3FB8AA3B
  if nonFinite t then (if isNan t then nan32 else 0)
  else if (of32 t).lt (of32 0xC2FE0000) then 0
  else
    let n := floorF t
    let f := fsub t (ofInt n)
    let f64 := fmul f 0x42800000
    let j := (floorF f64).toNat
    let g := fsub f64 (ofInt j)
    scale32 n (ffma g (expD j) (expT j))

/-- Softmax of FP32 inputs, as FP32 (R97). -/
def softmaxOf (xs : List Nat) : List Nat :=
  if xs.any isNan then xs.map (fun _ => nan32)
  else
    let m := xs.foldl (fun a x => fmax a x) 0xFF800000
    let es := xs.map (fun x => expOf x m)
    let r := recip (laneTree es)
    es.map (fun e => fmul e r)

/-- An input of softmax as FP32: an INT32 input q is RNE32(q · s), rounded once (R97). -/
def softmaxIn (src : Fmt) (scale v : Nat) : Nat :=
  if src.isInt then (match of32 scale with
    | .num a x => rne32 (sgn (8 * src.size) v * a) x
    | _ => fmul (ofInt (sgn (8 * src.size) v)) scale)
  else convOf src .fp32 v

/-- The format softmax writes: an integer target is staged as FP32 (Table 5-6). -/
def softmaxDst (dst : Fmt) : Fmt := if dst.isInt then .fp32 else dst

/-- Layer normalisation (R98). -/
def layerNormOf (n eps : Nat) (xs gs bs : List Nat) : List Nat :=
  let c := rneRatio 1 n
  let mu := fmul (laneTree xs) c
  let ds := xs.map (fun x => fsub x mu)
  let v := fmul (laneTree (ds.map (fun d => fmul d d))) c
  let rho := rsqrt (fadd v eps)
  (ds.zip (gs.zip bs)).map (fun e => ffma (fmul e.1 rho) e.2.1 e.2.2)

/-! ## Box decoding (R99) -/

/-- The best class of an anchor: score and class, ties to the lowest class. -/
def bestClass : List (Nat × Int) → Option (Nat × Int)
  | [] => none
  | x :: xs => match bestClass xs with
    | none => some x
    | some y => if y.2 > x.2 then some y else some x

/-- The box of an anchor from its record and regression values. -/
def boxOf (c : CoreS) (p : BoxPar) (a r : List Int) : Box :=
  let g (l : List Int) (i : Nat) : Int := nth 0 l i
  let q : Nat := 2 ^ p.frac
  if p.dist then
    let st := g a 2
    let d (i : Nat) : Int := rhe (16 * st * g r i) q
    ⟨satI 32 (g a 0 - d 0), satI 32 (g a 1 - d 1), satI 32 (g a 0 + d 2), satI 32 (g a 1 + d 3)⟩
  else
    let cx := g a 0 + rhe (g r 0 * g a 2) q
    let cy := g a 1 + rhe (g r 1 * g a 3) q
    let w := rhe (g a 2 * tableOf c p.tab (g r 2)) 65536
    let h := rhe (g a 3 * tableOf c p.tab (g r 3)) 65536
    let x0 := cx - w / 2
    let y0 := cy - h / 2
    ⟨satI 32 x0, satI 32 y0, satI 32 (x0 + w), satI 32 (y0 + h)⟩

/-- The candidate list of box decoding (R99, Table 4-8). -/
def boxList (c : CoreS) (p : BoxPar) (bs : List (List Byte)) : List Byte :=
  let ar := if p.dist then 3 else 4
  let sz := if p.score16 then 2 else 1
  let cands := (upto p.anchors).filterMap (fun a =>
    let sc := elemsI sz p.classes ((nth [] bs 1).drop (sz * p.classes * a))
    match bestClass (enumFrom 0 sc) with
    | none => none
    | some (k, v) =>
      if v < p.thr then none
      else
        let b := boxOf c p (elemsI 4 ar ((nth [] bs 0).drop (4 * ar * a))) (elemsI 4 4 ((nth [] bs 2).drop (16 * a)))
        some (leI 4 b.x0 ++ leI 4 b.y0 ++ leI 4 b.x1 ++ leI 4 b.y1 ++ leI 2 v ++ le 2 k ++ le 4 a))
  let kept := cands.take p.cap
  let dropped := cands.length - kept.length
  le 2 kept.length ++ le 2 (if dropped < 65535 then dropped else 65535) ++ le 12 0 ++ kept.flatten

/-- Values of an anchor record, and bytes of a score. -/
def BoxPar.anchorVals (p : BoxPar) : Nat := if p.dist then 3 else 4
def BoxPar.scoreSize (p : BoxPar) : Nat := if p.score16 then 2 else 1

/-! ## An operation without an operator descriptor: operands, result, cycles -/

/-- Operands of 4-byte elements. -/
def els4 (n : Nat) (l : List BinRef) : List (BinRef × Nat) := l.map (fun x => (x, 4 * n))

/-- What a vector operation reads, in order. -/
def VecOp.reads : VecOp → List (BinRef × Nat)
  | .relu _ n x _ => els4 n [x]
  | .clip _ n _ _ x _ => els4 n [x]
  | .requantise src n x scl _ _ => [(x, src.size * n), (scl, 16)]
  | .tableFn n _ x _ => els4 n [x]
  | .maxAbs fmt n x _ => [(x, fmt.size * n)]
  | .softmax n src _ _ x _ => [(x, src.size * n)]
  | .layerNorm n _ x g b _ => els4 n [x, g, b]
  | .boxDecode p a sc r _ => [(a, 4 * p.anchorVals * p.anchors), (sc, p.scoreSize * p.classes * p.anchors), (r, 16 * p.anchors)]
  | .add _ _ n x1 x2 _ _ => els4 n [x1, x2]
  | .mul _ n x1 x2 _ => els4 n [x1, x2]
  | .fma _ n x1 x2 x3 _ _ => els4 n [x1, x2, x3]
  | .min _ n x1 x2 _ => els4 n [x1, x2]
  | .max _ n x1 x2 _ _ => els4 n [x1, x2]
  | .convert src _ n x _ _ => [(x, src.size * n)]
  | .derive_ _ s _ _ x _ => s.reads ++ [(x, 4)]
  | .biasq n sa sw b _ => [(sa, 4), (sw, 4), (b, 4 * n)]

/-- Where a vector operation writes, and the most bytes it writes there. -/
def VecOp.dest : VecOp → Oper × Nat
  | .relu _ n _ y => (.bin y, 4 * n)
  | .clip _ n _ _ _ y => (.bin y, 4 * n)
  | .requantise _ n _ _ y _ => (.bin y, 2 * n)
  | .tableFn n _ _ y => (.bin y, 4 * n)
  | .maxAbs _ _ _ y => (.bin y, 4)
  | .softmax n _ _ dst _ y => (.bin y, (softmaxDst dst).size * n)
  | .layerNorm n _ _ _ _ y => (.bin y, 4 * n)
  | .boxDecode p _ _ _ y => ((match p.toGran with
    | some g => .gran g
    | none => .bin y), 16 + 24 * (if p.cap < p.anchors then p.cap else p.anchors))
  | .add _ _ n _ _ y _ => (.bin y, 4 * n)
  | .mul _ n _ _ y => (.bin y, 4 * n)
  | .fma _ n _ _ _ y _ => (.bin y, 4 * n)
  | .min _ n _ _ y => (.bin y, 4 * n)
  | .max _ n _ _ y _ => (.bin y, 4 * n)
  | .convert _ dst n _ y _ => (.bin y, dst.size * n)
  | .derive_ _ _ _ _ _ y => (.bin y, 16)
  | .biasq n _ _ _ y => (.bin y, 4 * n)

/-- Cycles of an operation (Table 4-6, R120, R126). -/
def VecOp.cycles : VecOp → Nat
  | .relu _ n _ _ => elemCycles n 6
  | .clip _ n _ _ _ _ => elemCycles n 6
  | .requantise _ n _ _ _ _ => elemCycles n 6
  | .tableFn n _ _ _ => elemCycles n 10
  | .maxAbs _ n _ _ => elemCycles n 12
  | .softmax n _ _ _ _ _ => 3 * cdiv n 32 + 52
  | .layerNorm n _ _ _ _ _ => 3 * cdiv n 32 + 60
  | .boxDecode p _ _ _ _ => cdiv p.anchors 32 * (p.classes + 8) + 24
  | .add _ _ n _ _ _ _ => elemCycles n 6
  | .mul _ n _ _ _ => elemCycles n 6
  | .fma _ n _ _ _ _ _ => elemCycles n 6
  | .min _ n _ _ _ => elemCycles n 6
  | .max _ n _ _ _ _ => elemCycles n 6
  | .convert _ _ n _ _ _ => elemCycles n 6
  | .derive_ _ _ _ _ _ _ => 20
  | .biasq n _ _ _ _ => elemCycles n 24

/-- What an operation computes from the bytes of its operands; the core gives the table store. -/
def VecOp.eval (op : VecOp) (c : CoreS) (bs : List (List Byte)) : VRes :=
  match op with
  | .relu fmt n _ _ => map1 n bs (reluOf fmt)
  | .clip fmt n lo hi _ _ => map1 n bs (clipOf fmt lo hi)
  | .requantise src n _ _ _ _ => requantRes src (scaleRecOf (nth [] bs 1)) (elems src.size n (nth [] bs 0))
  | .tableFn n p _ _ => map1 n bs (fun v => some (tableEl c p v))
  | .maxAbs fmt n _ _ => { els := [some (maxMag fmt (elems fmt.size n (nth [] bs 0)))] }
  | .softmax n src scale dst _ _ =>
    { z := (softmaxDst dst).size,
      els := (softmaxOf ((elems src.size n (nth [] bs 0)).map (softmaxIn src scale))).map
        (fun v => some (convOf .fp32 (softmaxDst dst) v)) }
  | .layerNorm n eps _ _ _ _ =>
    { els := (layerNormOf n eps (elems 4 n (nth [] bs 0)) (elems 4 n (nth [] bs 1)) (elems 4 n (nth [] bs 2))).map some }
  | .boxDecode p _ _ _ _ => { raw := boxList c p bs }
  | .add fmt psum n _ _ _ _ => addRes fmt psum n bs
  | .mul fmt n _ _ _ => map2 n bs (mulOf fmt)
  | .fma fmt n _ _ _ _ _ => fmaRes fmt n bs
  | .min fmt n _ _ _ => map2 n bs (minOf2 fmt)
  | .max fmt n _ _ _ _ => map2 n bs (maxOf2 fmt)
  | .convert src dst n _ _ _ => { z := dst.size, els := (elems src.size n (nth [] bs 0)).map (fun v => some (convOf src dst v)) }
  | .derive_ fmt sc lim int16 _ _ =>
    let m := unle ((nth [] bs sc.reads.length).take 4)
    let r := if fmt.isInt then deriveInt m (sc.value bs) lim int16 else deriveFlt m (sc.value bs) lim int16
    { raw := r.bytes }
  | .biasq n _ _ _ _ =>
    { els := (elems 4 n (nth [] bs 2)).map (fun v => out32 (biasOf (unle (nth [] bs 0)) (unle (nth [] bs 1)) v)) }

/-- The operator descriptor a pooling or crop-and-resize operation names. -/
def VecOp.oper : VecOp → Option Nat
  | .add _ _ _ _ _ _ i => i
  | .max _ _ _ _ _ i => i
  | .fma _ _ _ _ _ _ i => i
  | _ => none

/-- The output map of a conversion. -/
def VecOp.outMap : VecOp → Option OutMap
  | .requantise _ _ _ _ _ m => m
  | .convert _ _ _ _ _ m => m
  | _ => none

/-! ## Operations as they run -/

/-- An instruction as it runs: its cycles, its operands in order, the room it needs, its effect. -/
structure InsRun where
  cycles : Nat
  rd : List (Oper × Nat) := []
  wr : List (Oper × Nat) := []
  post : Post

/-- The first cycle at which a partial-sum operand may be read: 4 cycles after its tile has begun to drain (R95). -/
def psumLead (s : State) (p : Nat) (l : List (BinRef × Nat)) : Nat :=
  let c := core s p
  let at_ (x : BinRef × Nat) : Nat :=
    if x.1.bin = .psum then
      (match tget 0 c.drain (((c.region x.1.bin x.1.reg).base * 512 + x.1.offset c) / 4096) with
       | 0 => 0
       | t => t + 4)
    else 0
  maxOf (l.map at_) - 2 * s.now

/-- The result of an operation, with its flags in the item and its counters. -/
def vecResult (s : State) (p : Nat) (it : Item) (r : VRes) : State × List Byte :=
  let (s1, out) := fillEls r.z r.els s
  let s2 := noteWraps s1 p it.key r.wraps
  (if r.nonFinite then flagItem s2 it.key 1 else s2, r.raw ++ out)

/-- An operation without a descriptor. -/
def plainRun (s : State) (p : Nat) (op : VecOp) : InsRun :=
  { cycles := psumLead s p op.reads + op.cycles, rd := op.reads.map (fun x => (.bin x.1, x.2)), wr := [op.dest],
    post := fun it bs t =>
      let (t1, b) := vecResult t p it (op.eval (core t p) bs)
      (t1, [(op.dest.1, b)]) }

/-- Writes of `n` converted elements of `z` bytes, 32 channels of each position, in the output layout of descriptor `d` (06 R154); those
beyond the output are not written. The elements of one position are cut where a block of 32 channels ends. -/
def mapWrites (d : OpDesc) (m : OutMap) (h w batch z n : Nat) (y : BinRef) (b : List Byte) : List (Oper × List Byte) :=
  let (oh, ow) := d.outDims h w
  let cut := 32 - m.chan % 32
  let put (q c0 c1 : Nat) (bytes : List Byte) : List (Oper × List Byte) :=
    let hi := if c1 < d.cOut then c1 else d.cOut
    if hi ≤ c0 then [] else
      let p := q % (oh * ow)
      [(.bin { y with off := y.off + z * (q / (oh * ow) * d.outLen oh ow d.cOut + d.outIdx oh ow d.cOut (p / ow) (p % ow) c0) },
        bytes.take (z * (hi - c0)))]
  (upto (cdiv n 32)).flatMap (fun r =>
    let q := m.pos + r
    if q < batch * (oh * ow) then
      let row := (b.drop (32 * z * r)).take (32 * z)
      put q m.chan (m.chan + cut) row ++ put q (m.chan + cut) (m.chan + 32) (row.drop (z * cut))
    else [])

/-- Elements at offsets `offs` of an operand, from the rows `inputRows` that hold them. -/
def gathered (c : CoreS) (x : BinRef) (z : Nat) (offs : List Nat) (rows : List (List Byte)) (a : Nat) : Nat :=
  unle (elemOf c x z ((inputRows c x z offs).zip rows) a)

/-- Rows of an operand that hold the elements at `offs`, as operands. -/
def gather (c : CoreS) (x : BinRef) (z : Nat) (offs : List Nat) : List (Oper × Nat) :=
  (rowRefs c x (inputRows c x z offs)).map (fun r => (.bin r.1, r.2))

/-- A conversion that writes the outputs of a convolution (06 R145, R154). On the frequency-domain path its elements are extracted from the
stage-6 output; a Requantise reads its record last. -/
def mappedRun (s : State) (p : Nat) (it : Item) (op : VecOp) (m : OutMap) (d : OpDesc) : InsRun :=
  let (h, w) := opShape s it m.op
  let c := core s p
  let y : BinRef := match op.dest.1 with
    | .bin y => y
    | .gran _ => { bin := .act, reg := 0, off := 0 }
  let finish (it : Item) (r : VRes) (n : Nat) (t : State) : State × List (Oper × List Byte) :=
    let (t1, b) := vecResult t p it r
    (t1, mapWrites d m h w it.e.batch r.z n (y.fixed (core t p)) b)
  let positions (n : Nat) : List (Nat × Nat) := (upto n).map (fun j => (m.pos + j / 32, m.chan + j % 32))
  let valid (x : Nat × Nat) : Bool := decide (x.1 < it.e.batch * ((d.outDims h w).1 * (d.outDims h w).2)) && decide (x.2 < d.cOut)
  let offs (n : Nat) : List Nat := ((positions n).filter valid).map (fun x => 4 * d.extractIdx h w x.1 x.2)
  match decide (d.path = 2), op with
  | true, .requantise src n x scl _ _ =>
    { cycles := op.cycles, rd := [(.bin scl, 16)] ++ gather c x 4 (offs n), wr := [op.dest],
      post := fun it bs t =>
        let xs := (positions n).map (fun q =>
          if valid q then gathered (core t p) x 4 (offs n) (bs.drop 1) (4 * d.extractIdx h w q.1 q.2) else 0)
        finish it (requantRes src (scaleRecOf (nth [] bs 0)) xs) n t }
  | true, .convert src dst n x _ _ =>
    { cycles := op.cycles, rd := gather c x 4 (offs n), wr := [op.dest],
      post := fun it bs t =>
        let xs := (positions n).map (fun q =>
          if valid q then gathered (core t p) x 4 (offs n) bs (4 * d.extractIdx h w q.1 q.2) else 0)
        finish it { z := dst.size, els := xs.map (fun v => some (convOf src dst v)) } n t }
  | _, _ =>
    let n := match op with
      | .requantise _ n _ _ _ _ => n
      | .convert _ _ n _ _ _ => n
      | _ => 0
    { plainRun s p op with post := fun it bs t => finish it (op.eval (core t p) bs) n t }

/-! ## Pooling and tensor crop-and-resize (06_convolution_and_image_operators.md R147 to R152) -/

/-- Bytes of an operator's output: stated values, a free value for each that is not, then `tail`. -/
def operOut (z : Nat) (els : List (Option Nat)) (tail : List Byte) (y : BinRef) (s : State) : State × List (Oper × List Byte) :=
  let (s1, b) := fillEls z els s
  (s1, [(.bin y, b ++ tail)])

/-- Offsets of the elements the windows of a pooling operator read. -/
def poolReads (d : OpDesc) (l : Layout) (h w : Nat) : List Nat :=
  let (oh, ow) := d.outDims h w
  (upto oh).flatMap (fun a => (upto ow).flatMap (fun b => (upto d.cIn).flatMap (fun c =>
    (d.window l h w a b c).filterMap (fun t => match t with
      | .el o => some o
      | .pad => none))))

/-- A pooling operator (R147 to R149). -/
def poolRun (s : State) (p : Nat) (it : Item) (i : Nat) (d : OpDesc) (x y : BinRef) : InsRun :=
  let (h, w) := opShape s it i
  let (oh, ow) := d.outDims h w
  let z := d.fmt.size
  let l := d.layout (x.offset (core s p)) h w
  let offs := poolReads d l h w
  if oh = 0 then { cycles := 2, post := fun _ _ t => (t, []) }
  else
    { cycles := d.poolCycles (l.factor true) h w, rd := gather (core s p) x z offs, wr := [(.bin y, z * d.outLen oh ow d.cIn)],
      post := fun _ bs t => operOut z (d.poolOut l h w (gathered (core t p) x z offs bs)) [] y t }

/-- Boxes of a list from its bytes after the header. -/
def cropBoxes (n : Nat) (b : List Byte) : List Box :=
  (upto n).map (fun i =>
    let g (j : Nat) : Int := sgn 32 (unle ((b.drop (16 * i + 4 * j)).take 4))
    ⟨g 0, g 1, g 2, g 3⟩)

/-- What a box list's header asks for is out of range (R150). -/
def CropHdr.refused (hd : CropHdr) : Bool :=
  decide (4096 < hd.count) || !inRange 1 64 hd.ow || !inRange 1 64 hd.oh || decide (6 < hd.sh)

/-- A box list as it stands at its operand, seen before it is read. -/
def peekList (s : State) (p : Nat) (bl : BinRef) (n : Nat) : BR := (readRef s p bl n).2

/-- What crop-and-resize operator `i` does with its box list and its input (R150 to R152): crops, then one byte of flags for each box. -/
def cropPost (p i : Nat) (d : OpDesc) (l : Layout) (h w : Nat) (x y : BinRef) : Post := fun it bs t =>
  let b := nth [] bs 0
  let hd := cropHdrOf b
  if hd.refused then (endItem t it.key 0x201, [])
  else if hd.count = 0 ∨ h = 0 ∨ w = 0 then (t, [])
  else
    let boxes := cropBoxes hd.count (b.drop 32)
    let el := gathered (core t p) x d.fmt.size (cropReads d l hd h w boxes) (bs.drop 1)
    operOut d.fmt.size (boxes.flatMap (boxCrop d l hd h w el)) ((boxes.map (fun q => le 1 (cropFlags hd h w q))).flatten) y
      (modItem t it.key (fun x => { x with filled := x.filled.filter (fun n => decide (n ≠ i)) ++ [i] }))

/-- A tensor crop-and-resize operator: the box list is read, then the input, then crops and flags are written. A list that cannot be
delivered, or asks for nothing, is all that is read. -/
def cropRun (s : State) (p : Nat) (it : Item) (i : Nat) (d : OpDesc) (x bl y : BinRef) : InsRun :=
  let (h, w) := opShape s it i
  let l := d.layout (x.offset (core s p)) h w
  let hb := peekList s p bl 32
  let hd := cropHdrOf hb.bytes
  let post := cropPost p i d l h w x y
  if hb.info.bad ∨ hd.refused ∨ hd.count = 0 ∨ h = 0 ∨ w = 0 then { cycles := 2, rd := [(.bin bl, 32)], post := post }
  else
    let z := d.fmt.size
    let n := 32 + 16 * hd.count
    let boxes := cropBoxes hd.count ((peekList s p bl n).bytes.drop 32)
    { cycles := cropCycles hd.count hd.ow hd.oh hd.s d.cIn (l.factor true),
      rd := [(.bin bl, n)] ++ gather (core s p) x z (cropReads d l hd h w boxes),
      wr := [(.bin y, z * (hd.count * d.outLen hd.oh hd.ow d.cIn) + hd.count)], post := post }

/-- A vector operation as it runs for item `it` on core `p`. -/
def vecRun (s : State) (p : Nat) (it : Item) (op : VecOp) : InsRun :=
  match op.oper.bind (fun i => (opAt (imgOf s it.e) i).map (fun d => (i, d))), op with
  | some (i, d), .fma _ _ x bl _ y _ => cropRun s p it i d x bl y
  | some (i, d), .add _ _ _ x _ y _ => poolRun s p it i d x y
  | some (i, d), .max _ _ x _ y _ => poolRun s p it i d x y
  | _, _ => match op.outMap.bind (fun m => (opAt (imgOf s it.e) m.op).map (fun d => (m, d))) with
    | some (m, d) => mappedRun s p it op m d
    | none => plainRun s p op

/-- An input that the operator cannot take ends the item (R134, Table 6-9); one whose box list is not there yet does not issue. -/
def vecRefuses (s : State) (it : Item) (op : VecOp) : Bool :=
  match op.oper with
  | none => false
  | some i => match opAt (imgOf s it.e) i with
    | some d => let (h, w) := opShape s it i
      d.tooLarge h w
    | none => false
def vecReady (s : State) (p : Nat) (op : VecOp) : Bool :=
  match op with
  | .fma _ _ _ bl _ _ (some _) => canRead s p bl 32
  | _ => true

end Sys2Proof.Machine
end

