-- ==== Sys2Proof/Machine/Array.lean ====
section
/-!
DEFINITION. Sys2Proof/Machine/Array.lean: the systolic array (04_compute_core.md R85 to R94, R106, R110; the diagonal mapping of
06_convolution_and_image_operators.md R141 and R142) and its commands MM and CB.
-/

namespace Sys2Proof.Machine

/-! ## Shapes and cycles (Tables 4-2 and 4-4) -/

/-- The sum over chunks of a streamed dimension: each costs its rows, but at least the tile load. -/
def chunkSum (chunks : List Nat) (n load : Nat) : Nat :=
  sumN ((if chunks.isEmpty then [n] else chunks).map (fun c => if c < load then load else c))

/-- Cycles of an array operation with activation streams at factor `f` (Table 4-4, 06 R153 (a)); a diagonal operation that names
no descriptor reloads its activations at every step (06 R142, log entry 26). -/
def MMOp.cyclesAt (o : MMOp) (f : Nat) : Nat :=
  let c := o.mode.consts
  match o.flow with
  | .ws => c.lw + cdiv o.k c.kt * cdiv o.n c.nt * chunkSum (o.chunks.map (fun x => f * x)) (f * o.m) c.lw + c.tail
  | .os =>
    let x := f * cdiv o.k c.r
    cdiv o.m c.mt * cdiv o.n c.nt * (if x < c.d then c.d else x) + c.tail + c.d
  | .is_ => f * c.la + cdiv o.k c.kt * cdiv o.m c.mt * chunkSum o.chunks o.n (f * c.la) + c.tail
  | .diag =>
    let x := o.k * (f * c.la)
    cdiv o.m c.mt * cdiv o.n c.nt * (if x < c.d then c.d else x) + c.tail

/-- Cycles of an operation whose operands stand as they are. -/
def MMOp.cycles (o : MMOp) : Nat := o.cyclesAt 1

/-- Cycles of an operation that a descriptor feeds (06 R139, R142, R144). -/
def MMOp.fedCycles (o : MMOp) (d : OpDesc) (l : Layout) (h w pos : Nat) : Nat :=
  let f := l.factor false
  if o.flow = .diag then
    let b16 := decide (o.mode = .b16)
    let c := diagC b16
    runCount c.b (d.outDims h w).2 (o.m + 1) pos o.m * cdiv o.n c.b * d.blockCycles b16 f + c.tail
  else o.cyclesAt f

/-- Bytes of the activations, and of the weights. -/
def MMOp.aLen (o : MMOp) : Nat :=
  let n := if o.flow = .diag then o.m * o.n * o.k else o.m * o.k
  match o.mode with
  | .b16 => 2 * n
  | .c16 => 4 * n
  | _ => n
def MMOp.wLen (o : MMOp) : Nat :=
  match o.mode with
  | .i8 => o.k * o.n
  | .l4 => cdiv o.k 2 * o.n
  | .l3 => cdiv (2 * cdiv o.k 2 * o.n) 8 * 3
  | .b16 => 2 * (o.k * o.n)
  | .c16 => 4 * (o.k * o.n)

/-- The last transform of the frequency-domain path keeps the real part of each output alone (06 R145, Table 6-7). -/
def MMOp.realOnly (o : MMOp) : Bool := decide (o.mode = .c16) && (o.feed.any (fun f => decide (f.stage = 6)))

/-- Columns of 32-bit sums: two for each complex output that keeps both parts. -/
def MMOp.cols (o : MMOp) : Nat := if o.mode = .c16 ∧ !o.realOnly then 2 * o.n else o.n

/-- Position of activation (m, k) for output n, and of weight (k, n), in their operands (log entry 26). -/
def MMOp.aIdx (o : MMOp) (m n k : Nat) : Nat := if o.flow = .diag then (m * o.n + n) * o.k + k else m * o.k + k
def MMOp.wIdx (o : MMOp) (k n : Nat) : Nat := k * o.n + n

/-- Position of the code of (k, n) in L modes: pairs of reduction indices stand together (R87). -/
def MMOp.cIdx (o : MMOp) (k n : Nat) : Nat := k / 2 * (2 * o.n) + 2 * n + k % 2

/-- Code `i` of packed codes: nibbles, or eight 3-bit codes in each 24-bit group (Table 4-2 (a)). -/
def code4 (b : List Byte) (i : Nat) : Nat := (nth 0 b (i / 2)).toNat / 16 ^ (i % 2) % 16
def code3 (b : List Byte) (i : Nat) : Nat := unle ((b.drop (3 * (i / 8))).take 3) / 8 ^ (i % 8) % 8

/-- A signed element of `z` bytes at position `i`. -/
def elI (z : Nat) (b : List Byte) (i : Nat) : Int := sgn (8 * z) (unle ((b.drop (z * i)).take z))

/-! ## Sums -/

/-- An INT32 sum and the additions that wrapped (R86). -/
structure Acc where
  v : Int
  wraps : Nat := 0
deriving DecidableEq, Repr

/-- One INT32 addition modulo 2^32. -/
def Acc.add (a : Acc) (x : Int) : Acc :=
  { v := wrapI 32 (a.v + x), wraps := if satI 32 (a.v + x) = a.v + x then a.wraps else a.wraps + 1 }

/-- I8: products in ascending reduction index (R86, R90). -/
def dotI8 (inc : Int) (l : List (Int × Int)) : Acc := l.foldl (fun a x => a.add (x.1 * x.2)) { v := inc }

/-- L4 and L3: two table entries are added in each step (R87). -/
def dotL (inc : Int) (l : List (Int × Int)) : Acc :=
  let rec go (a : Acc) : List (Int × Int) → Acc
    | x :: y :: r => go (a.add (x.1 * x.2 + y.1 * y.2)) r
    | [x] => a.add (x.1 * x.2)
    | [] => a
  go { v := inc } l

/-- B16: one product (R88); none when it is skipped. -/
def prodB16 (x y : FV) : Option Nat :=
  match x, y with
  | .zero _, _ => none
  | _, .zero _ => none
  | x, y =>
    let p := (x.mul y).to32
    match of32 p with
    | .zero _ => none
    | _ => some p

/-- B16: the sum in FP32, one addition a product in ascending reduction index (R88). -/
def dotB16 (inc : Nat) (l : List (FV × FV)) : Nat :=
  l.foldl (fun a x => match prodB16 x.1 x.2 with
    | some p => fadd a p
    | none => a) inc

/-- C16: the real and the imaginary component of a product, rounded (R89). -/
def cmulRe (a b : Int × Int) : Int := rhe (a.1 * b.1 - a.2 * b.2) (2 ^ 15)
def cmulIm (a b : Int × Int) : Int := rhe (a.1 * b.2 + a.2 * b.1) (2 ^ 15)

/-- A complex Q1.15 element. -/
def elC (b : List Byte) (i : Nat) : Int × Int := (elI 2 b (2 * i), elI 2 b (2 * i + 1))

/-- A B16 element. -/
def elF (fp16 : Bool) (b : List Byte) (i : Nat) : FV :=
  let v := unle ((b.drop (2 * i)).take 2)
  if fp16 then ofHf v else ofBf v

/-- The weight of (k, n) as an integer, in I8 and L modes. -/
def MMOp.weight (o : MMOp) (cb : List Int) (w : List Byte) (k n : Nat) : Int :=
  match o.mode with
  | .l4 => nth 0 cb (code4 w (o.cIdx k n))
  | .l3 => nth 0 cb (code3 w (o.cIdx k n))
  | _ => elI 1 w (o.wIdx k n)

/-- The 32-bit sum at row `m`, column `col` with the incoming pattern `inc`: its pattern and the wraps (R86 to R90). -/
def MMOp.out (o : MMOp) (cb : List Int) (a w : List Byte) (m col inc : Nat) : Nat × Nat :=
  let ks := upto o.k
  match o.mode with
  | .b16 => (dotB16 (of32 inc).to32
      (ks.map (fun k => (elF o.fp16 a (o.aIdx m col k), elF o.fp16 w (o.wIdx k col)))), 0)
  | .c16 =>
    let n := if o.realOnly then col else col / 2
    let f := if o.realOnly ∨ col % 2 = 0 then cmulRe else cmulIm
    let r := ks.foldl (fun (x : Acc) k => x.add (f (elC a (o.aIdx m n k)) (elC w (o.wIdx k n)))) { v := sgn 32 inc }
    (enc 32 r.v, r.wraps)
  | .i8 =>
    let r := dotI8 (sgn 32 inc) (ks.map (fun k => (elI 1 a (o.aIdx m col k), o.weight cb w k col)))
    (enc 32 r.v, r.wraps)
  | _ =>
    let r := dotL (sgn 32 inc) (ks.map (fun k => (elI 1 a (o.aIdx m col k), o.weight cb w k col)))
    (enc 32 r.v, r.wraps)

/-- MAC positions of one reduction step that are gated: the activation or the weight operand is zero (R93). -/
def MMOp.gatedAt (o : MMOp) (cb : List Int) (a w : List Byte) (m n k : Nat) : Bool :=
  match o.mode with
  | .b16 => (match elF o.fp16 a (o.aIdx m n k), elF o.fp16 w (o.wIdx k n) with
      | .zero _, _ => true
      | _, .zero _ => true
      | _, _ => false)
  | .c16 => decide (elC a (o.aIdx m n k) = (0, 0)) || decide (elC w (o.wIdx k n) = (0, 0))
  | _ => decide (elI 1 a (o.aIdx m n k) = 0) || decide (o.weight cb w k n = 0)

/-- Reduction positions of an operation: those beyond K in its last tile are fed as zeros (07 R167); an output-stationary or diagonal
operation streams K itself, r positions at a time. -/
def MMOp.kPadded (o : MMOp) : Nat :=
  let z := if o.flow = .ws ∨ o.flow = .is_ then o.mode.consts.kt else o.mode.consts.r
  cdiv o.k z * z

/-- MAC positions issued. -/
def MMOp.macs (o : MMOp) : Nat := o.m * o.n * o.kPadded

/-- MAC positions gated (R93): those beyond K are. -/
def MMOp.gated (o : MMOp) (cb : List Int) (a w : List Byte) : Nat :=
  sumN ((upto o.m).map (fun m => sumN ((upto o.n).map (fun n =>
    ((upto o.k).filter (fun k => o.gatedAt cb a w m n k)).length)))) + (o.macs - o.m * o.n * o.k)

/-! ## Partial-sum tiles -/

/-- Blocks of 32 × 32 sums in a row of blocks. -/
def MMOp.gridW (o : MMOp) : Nat := cdiv o.cols 32

/-- A block's number, tile index, first row and column, rows and columns. -/
structure Block where
  t : Nat
  r0 : Nat
  c0 : Nat
  rows : Nat
  cols : Nat
deriving DecidableEq, Repr

/-- The blocks of an operation in row-major order. -/
def MMOp.blocks (o : MMOp) : List Block :=
  (enumFrom 0 (upto (cdiv o.m 32 * o.gridW))).map (fun x =>
    let r := 32 * (x.1 / o.gridW)
    let c := 32 * (x.1 % o.gridW)
    { t := nth 0 o.tiles x.1, r0 := r, c0 := c, rows := (if o.m - r < 32 then o.m - r else 32),
      cols := (if o.cols - c < 32 then o.cols - c else 32) })

/-- The incoming sums of each block; the last component tells whether the item goes on (R106). -/
def readBlocks (p k : Nat) (it : Item) (acc : Bool) : List Block → State → State × List (List Byte) × Bool
  | [], s => (s, [], true)
  | b :: r, s =>
    if acc then
      let (s1, x, ok) := readTile s p k it b.t (128 * b.rows)
      if ok then
        let (s2, xs, ok2) := readBlocks p k it acc r s1
        (s2, x :: xs, ok2)
      else (s1, [], false)
    else
      let (s2, xs, ok2) := readBlocks p k it acc r s
      (s2, [] :: xs, ok2)

/-- The new sums of a block, by row, with the wraps. -/
def MMOp.blockOut (o : MMOp) (cb : List Int) (a w : List Byte) (b : Block) (inc : List Byte) : List (List Nat) × Nat :=
  let rows := (upto b.rows).map (fun r => (upto b.cols).map (fun c =>
    o.out cb a w (b.r0 + r) (b.c0 + c) (unle ((inc.drop (128 * r + 4 * c)).take 4))))
  (rows.map (fun r => r.map (fun x => x.1)), sumN (rows.map (fun r => sumN (r.map (fun x => x.2)))))

/-- Write the rows of a block. -/
def writeBlock (p : Nat) (it : Item) (b : Block) (rows : List (List Nat)) (s : State) : State :=
  (enumFrom 0 rows).foldl (fun t r => writeTileRow t p it b.t r.1 (bytesOf 4 r.2)) s

/-- The tiles that each pass of an operation touches (R106): by reduction tile and column tile in WS, by output tile in OS and in the
diagonal flow, by reduction tile and row tile in IS. -/
def MMOp.passes (o : MMOp) : List (List Nat) :=
  let c := o.mode.consts
  let w := if o.mode = .b16 then 16 else 32
  let rep (n : Nat) (l : List Nat) : List (List Nat) := (upto n).map (fun _ => l)
  let sub (l : List Nat) : List (List Nat) := rep (cdiv o.k c.kt) l
  match o.flow with
  | .ws => (upto o.gridW).flatMap (fun j =>
      let bl := o.blocks.filter (fun b => decide (b.c0 = 32 * j))
      let n := match bl with
        | b :: _ => cdiv b.cols w
        | [] => 0
      (upto n).flatMap (fun _ => sub (bl.map (fun b => b.t))))
  | .is_ => (upto (cdiv o.m 32)).flatMap (fun i =>
      let bl := o.blocks.filter (fun b => decide (b.r0 = 32 * i))
      let n := match bl with
        | b :: _ => cdiv b.rows c.mt
        | [] => 0
      (upto n).flatMap (fun _ => sub (bl.map (fun b => b.t))))
  | _ => o.blocks.flatMap (fun b => rep (cdiv b.rows c.mt * cdiv b.cols w) [b.t])

/-- Passes that touch a tile for which `sp` holds, with the number of such tiles in each. -/
def MMOp.spillPasses (o : MMOp) (sp : Nat → Bool) : List Nat :=
  (o.passes.map (fun l => (l.filter sp).length)).filter (fun n => decide (n ≠ 0))

/-- Physical bank of the first dark granule of the spilled tiles, if any. -/
def darkSpill (s : State) (p : Nat) (it : Item) (o : MMOp) : Option Nat :=
  ((o.blocks.filter (fun b => spills s p it b.t)).findSome? (fun b =>
    findGranule s (p / 9) (spillSpan s p it b.t) (2 * b.rows) (fun q _ => bankDark s (p / 9) q))).map
      (fun x => bankOf s (p / 9) x.1)

/-- A tile that spills though the plan's loop order assumes it in the bin (07 R175). -/
def unforeseen (s : State) (p : Nat) (it : Item) (t : Nat) : Bool :=
  spills s p it t && decide (t < (imgOf s it.e).hdr.psumAssumed)

/-- Cycles by which unforeseen spills delay an operation: at most 128 · s + 45 ticks for a pass that names s of them, and how many within
that the spec does not say (07 R175): a free value. -/
def spillDelay (s : State) (p : Nat) (it : Item) (o : MMOp) : Nat :=
  match o.spillPasses (unforeseen s p it) with
  | [] => 0
  | l => 2 * ((fresh s).1 % (sumN (l.map (fun n => 128 * n + 45)) + 1))

/-- Cycles that the loader moves spilled tiles: two turns before the pass and two after it for each tile (07 R175). -/
def spillMoves (s : State) (p : Nat) (it : Item) (o : MMOp) : Nat := sumN ((o.spillPasses (spills s p it)).map (fun n => 256 * n))

/-- What an operation adds to the core's counters, and its spilled passes to the item's (R93, R106). -/
def mmCounts (s : State) (p : Nat) (it : Item) (o : MMOp) (a w : List Byte) : State :=
  let s1 := addPairI s F.CORE_MACS_LO F.CORE_MACS_HI p o.macs
  let s2 := if regI s F.CORE_CTRL_GATE_DIS p ≠ 0 then s1 else
    addPairI s1 F.CORE_GATED_LO F.CORE_GATED_HI p (o.gated (core s p).codebook a w)
  let n := (o.spillPasses (spills s p it)).length
  let more := !(o.spillPasses (unforeseen s p it)).isEmpty
  let s3 := if more then (fresh s2).2 else s2
  if n = 0 then s3
  else
    let s4 := modCore s3 p (fun c => { c with
      loadFree := (if c.loadFree < 2 * s.now then 2 * s.now else c.loadFree) + spillMoves s p it o })
    modItem (addI s4 F.CORE_PSUM_SPILLS p n) it.key (fun i => { i with spills := i.spills + n, late := i.late || more })

/-- A residue mismatch (R110): the core stops at once and the item ends; the column, and for B16 whether an adder's copy
differed, are the array's. -/
def residueFault (s : State) (p : Nat) (o : MMOp) : State :=
  let (v, s1) := fresh (addI s F.CORE_RESIDUE_ERR p 1)
  coreFault s1 p (v % 32 + (if o.mode = .b16 then 256 * (v / 32 % 2) else 0))

/-- An operation's activations as the feeder takes them: the rows it computes, its cycles, its operands, and the activations from what
they delivered. -/
structure Fed where
  op : MMOp
  cycles : Nat
  rd : List (Oper × Nat)
  acts : List (List Byte) → List Byte

/-- An operation as it runs for item `it` on core `p`: its operand as it stands, or the rows the feeder forms of the convolution's
input, of which those beyond the invocation's output are not computed (06 R138 to R145, R156, 07 R167). -/
def mmFed (s : State) (p : Nat) (it : Item) (o : MMOp) : Fed :=
  match o.feed.bind (fun f => (opAt (imgOf s it.e) f.op).map (fun d => (f, d))) with
  | none => { op := o, cycles := o.cycles, rd := [(.bin o.a, o.aLen)], acts := fun bs => nth [] bs 0 }
  | some (f, d) =>
    let c := core s p
    let (h, w) := opShape s it f.op
    let l := d.layout (o.a.offset c) h w
    let left := it.e.batch * d.rowsIn h w f.stage - f.pos
    let o2 := { o with m := if left < o.m then left else o.m }
    let tap (m n k : Nat) : Tap := d.feedTap f l h w it.e.batch (f.pos + m) (f.chan + n) k
    let taps := if o.flow = .diag then (upto o2.m).flatMap (fun m => (upto o.n).flatMap (fun n => (upto o.k).map (fun k => tap m n k)))
      else (upto o2.m).flatMap (fun m => (upto o.k).map (fun k => tap m 0 k))
    let z := d.tapSize f.stage
    let offs := taps.filterMap (fun t => match t with
      | .el a => some a
      | .pad => none)
    { op := o2, cycles := (if o2.m = 0 then 2 else o.fedCycles d l h w f.pos), rd := gather c o.a z offs,
      acts := fun bs => taps.flatMap (d.tapBytes f.stage (elemOf c o.a z ((inputRows c o.a z offs).zip bs))) }

/-- The sums of an operation are drained: from the cycle before its end by one drain (Table 4-4 (d)), or by one row of weights in IS, a
vector operation may follow in its tiles; its tail may overlap the next first load (R94, R95; log entry 132). -/
def CoreS.drained (c : CoreS) (o : MMOp) : CoreS :=
  let k := o.mode.consts
  let d := match o.flow with
    | .ws => (if o.m < k.mt then o.m else k.mt)
    | .is_ => (if o.n < k.nt then o.n else k.nt)
    | _ => k.d
  { c with
    arrayTail := some (o.flow, k.tail),
    drain := (o.blocks.map (fun b => b.t)).foldl (fun t x => tset 0 t x (c.arrayFree - d)) c.drain }

/-- The sums of an operation on partial sums `incs` are stored, block by block; its wraps are counted (R86). -/
def mmStore (s : State) (p : Nat) (it : Item) (o : MMOp) (a w : List Byte) (incs : List (List Byte)) : State :=
  let res := (o.blocks.zip incs).map (fun x => (x.1, o.blockOut (core s p).codebook a w x.1 x.2))
  modCore (noteWraps (res.foldl (fun t x => writeBlock p it x.1 x.2.1 t) s) p it.key (sumN (res.map (fun x => x.2.2)))) p
    (fun c => c.drained o)

/-- A spilled tile that met a dark bank ends the item (09 R222). -/
def mmEnd (s : State) (p : Nat) (it : Item) (o : MMOp) : State :=
  match darkSpill s p it o with
  | some b => darkFault s (p / 9) b [it.key]
  | none => s

/-- What an array operation does with its activations and weights. -/
def mmPost (p : Nat) (r : Fed) (residueErr : Bool) : Post := fun it bs s =>
  let o := r.op
  if o.m = 0 then (s, [])
  else
    let a := r.acts (bs.drop 1)
    let w := nth [] bs 0
    let (s3, incs, ok) := readBlocks p it.key it o.acc o.blocks s
    if !ok then (s3, [])
    else
      let s4 := mmCounts s3 p it o a w
      if residueErr then (residueFault s4 p o, [])
      else
        (mmEnd (mmStore s4 p it o a w incs) p it o, [])

/-- MM as it runs: the weights are read first, then the activations. -/
def mmRun (s : State) (p : Nat) (it : Item) (o : MMOp) (residueErr : Bool) : InsRun :=
  let r := mmFed s p it o
  { cycles := r.cycles + spillDelay s p it r.op, rd := (.bin o.w, o.wLen) :: r.rd, post := mmPost p r residueErr }

/-- An input that the operator which feeds an operation cannot take ends the item (06 R134). -/
def mmRefuses (s : State) (it : Item) (o : MMOp) : Bool :=
  match o.feed.bind (fun f => (opAt (imgOf s it.e) f.op).map (fun d => (f, d))) with
  | some (f, d) => let (h, w) := opShape s it f.op
    d.tooLarge h w
  | none => false

/-- CB as it runs (R87, Table 4-11). -/
def cbRun (p : Nat) (x : BinRef) : InsRun :=
  { cycles := 1, rd := [(.bin x, 16)],
    post := fun _ bs s => (modCore s p (fun c => { c with codebook := elemsI 1 16 (nth [] bs 0), arrayTail := none }), []) }

end Sys2Proof.Machine
end

