-- ==== Sys2Proof/Machine/Engines.lean ====
section
/-!
DEFINITION. Sys2Proof/Machine/Engines.lean: every instruction of the array, the vector unit and the loader as it runs (04_compute_core.md
Table 4-11), and those in flight: an engine that finds a circular region empty, or full, takes and leaves rows as they come (R92, R104;
09_memory_system.md R211; log entry 133).
-/

namespace Sys2Proof.Machine

/-! ## The loader's instructions (R103, R107; 09 R207 to R211) -/

/-- LD as it runs: a Granary region is moved into a bin region, or into a table of the table store (R107, R96). -/
def ldRun (s : State) (p : Nat) (g : GranRef) (d : LdDst) (bytes : Nat) : InsRun :=
  let w := if g.width = 0 then 1 else g.width
  match d with
  | .bin r =>
    { cycles := loadCycles s p w bytes r.bin.row, rd := [(.gran g, bytes)], wr := [(.bin r, bytes)],
      post := fun _ bs t => (t, [(.bin r, nth [] bs 0)]) }
  | .table n =>
    { cycles := loadCycles s p w bytes 512, rd := [(.gran g, bytes)],
      post := fun it bs t => (modCore t p (fun c => { c with
        tstore := tsetList 0 c.tstore (512 * (n % 8)) ((nth [] bs 0).take 512), tstorePlan := it.e.plan }), []) }

/-- The weight tag an LDW names once its plan is installed: index of the plan · 256 + plan-local tag (07 R162). -/
def weightTag (it : Item) (tag : Nat) : Nat := planIdx it.e.plan * 256 + tag % 256

/-- The region of an operand becomes resident under a tag; the core holds one tag (R107). -/
def markResident (s : State) (p : Nat) (it : Item) (r : BinRef) (tag : Nat) : State :=
  setTag (modCore s p (fun c => { c with resident := [((c.region r.bin r.reg).base, (c.region r.bin r.reg).len)] })) p
    (weightTag it tag) it.e.plan

/-- An item names a weight tag on its core (R107). -/
def nameTag (s : State) (p : Nat) (it : Item) (tag : Nat) : State := modCore s p (fun c => { c with itemTag := weightTag it tag })

/-- The core's resident tag equals the one an LDW names: the load is skipped in one tick (R107). -/
def ldwSkips (s : State) (p : Nat) (it : Item) (tag : Nat) : Bool := decide (regI s F.CORE_RESIDENT_TAG p = weightTag it tag)

/-- LDW as it runs: the load, then the region is resident under its tag; or one tick, which counts the hit. -/
def ldwRun (s : State) (p : Nat) (it : Item) (g : GranRef) (x : BinRef) (bytes tag : Nat) : InsRun :=
  if ldwSkips s p it tag then
    { cycles := 2, post := fun it _ t => (flagItem (addI (nameTag t p it tag) F.CORE_RESIDENT_HITS p 1) it.key 2, []) }
  else
    { ldRun s p g (.bin x) bytes with post := fun it bs t => (markResident (nameTag t p it tag) p it x tag, [(.bin x, nth [] bs 0)]) }

/-- ST as it runs: a bin region is moved into a Granary region (R107). -/
def stRun (s : State) (p : Nat) (x : BinRef) (g : GranRef) (bytes : Nat) : InsRun :=
  { cycles := storeCycles s p (if g.width = 0 then 1 else g.width) bytes, rd := [(.bin x, bytes)], wr := [(.gran g, bytes)],
    post := fun it bs t => (modItem t it.key (fun i => { i with nonEmpty := i.nonEmpty || decide (0 < bytes) }), [(.gran g, nth [] bs 0)]) }

/-! ## Any instruction of an engine -/

/-- An instruction of the array, the vector unit or the loader as it runs. -/
def insRun (s : State) (p : Nat) (it : Item) (cmd : TileCmd) (residueErr : Bool) : InsRun :=
  match cmd.ins with
  | .ld g d n => ldRun s p g d n
  | .st x g n => stRun s p x g n
  | .ldw g x n tag => ldwRun s p it g x n tag
  | .cb x => cbRun p x
  | .mm o => mmRun s p it o residueErr
  | .vec op => vecRun s p it op
  | _ => { cycles := 0, post := fun _ _ t => (t, []) }

/-- The input of an operator is one that it cannot take (06 R134). -/
def insRefuses (s : State) (it : Item) (cmd : TileCmd) : Bool :=
  match cmd.ins with
  | .mm o => mmRefuses s it o
  | .vec op => vecRefuses s it op
  | _ => false

/-- An instruction can tell its operands: a crop-and-resize operator waits for the header of its box list. -/
def insReady (s : State) (p : Nat) (cmd : TileCmd) : Bool :=
  match cmd.ins with
  | .vec op => vecReady s p op
  | _ => true

/-! ## Instructions in flight -/

/-- What a reader finds of the next operand: the bytes it may take now, the cycle since which they stand there, and the operand and the
cycles that follow them. -/
structure Avail where
  bytes : Nat
  since : Nat
  next : Oper
  cycles : Nat

/-- Bytes of `n` rows from offset `o` on, of `len`. -/
def rowBytes (row o n len : Nat) : Nat := if n = 0 then 0 else (let b := n * row - o % row; if b < len then b else len)

/-- A Granary operand after one slot: a linear one goes on at its next granule in every bank, a circular one at its pointer. -/
def GranRef.nextStripe (g : GranRef) : Oper := .gran (if g.circ.isSome then g else { g with start := g.start + 64 })

/-- What stands in an operand for its reader, and the room there for its writer. -/
def availRead (s : State) (p : Nat) (it : Item) (o : Oper) (len : Nat) : Avail :=
  match o with
  | .bin r =>
    let g := (core s p).region r.bin r.reg
    if g.circ then
      let n := if g.wrAt ≤ 2 * s.now then g.head - g.tail else 0
      let b := rowBytes r.bin.row r.off n len
      { bytes := b, since := g.wrAt, next := .bin { r with off := r.off / r.bin.row * r.bin.row }, cycles := 4 * rowsTouched (core s p) r b }
    else { bytes := len, since := 0, next := o, cycles := 0 }
  | .gran g =>
    let sp := granSpan s p it g
    let n := granReady s (p / 9) sp (if sp.width < cdiv len 64 then sp.width else cdiv len 64)
    { bytes := (if 64 * n < len then 64 * n else len), since := (sp.circ.map (fun c => (granCirc s (p / 9) c.1).wrAt)).getD 0,
      next := g.nextStripe, cycles := 0 }
def availWrite (s : State) (p : Nat) (it : Item) (o : Oper) (len : Nat) : Avail :=
  match o with
  | .bin r =>
    let g := (core s p).region r.bin r.reg
    if g.circ then
      let n := if g.rdAt ≤ 2 * s.now then g.tail + g.len - g.head - 1 else 0
      let b := rowBytes r.bin.row r.off n len
      { bytes := b, since := g.rdAt, next := .bin { r with off := r.off / r.bin.row * r.bin.row }, cycles := 4 * rowsTouched (core s p) r b }
    else { bytes := len, since := 0, next := o, cycles := 0 }
  | .gran g =>
    let sp := granSpan s p it g
    let n := granRoom s (p / 9) sp (if sp.width < cdiv len 64 then sp.width else cdiv len 64)
    { bytes := (if 64 * n < len then 64 * n else len), since := (sp.circ.map (fun c => (granCirc s (p / 9) c.1).rdAt)).getD 0,
      next := g.nextStripe, cycles := 0 }

/-- An engine of core `p` has waited `n` cycles for rows, or room, of a bin region: bubbles and holds (R92, Table 4-10). -/
def noteBubbles (s : State) (p n : Nat) : State := if n = 0 then s else addI s F.CORE_BUBBLES p n

/-- A transfer of core `p` that has found `before` slots empty, or full, finds `n` more: those beyond the slots its schedule waits are
counted and make the item late (09 R211, Table 4-12). -/
def noteSlots (s : State) (p : Nat) (it : Item) (slack before n : Nat) : State :=
  let more := (before + n - slack) - (before - slack)
  if more = 0 then s
  else modItem (addI (addI s F.CLU_CIRC_WAITS (p / 9) more) F.CORE_LATE_CYCLES p (32 * more)) it.key (fun i => { i with late := true })

/-- The slot in which core `p` moves granules that stand there, or have room, since cycle `since`: its next, or a later one when it finds
the region empty, or full, until then (09 R211). -/
def Flight.slot (f : Flight) (s : State) (p since : Nat) : Nat :=
  if since ≤ 2 * f.slotAt + 1 then f.slotAt else nextSlot (localIdx s p) (cdiv since 2)

/-- The flight after slot `t`: its next slot follows, and what it waited delays its end. -/
def Flight.tookSlot (f : Flight) (t : Nat) : Flight :=
  { f with slotAt := t + 16, waited := f.waited + (t - f.slotAt) / 16, endAt := f.endAt + 2 * (t - f.slotAt) }

/-- The operands of an instruction in flight are read as far as they stand there: rows of a bin region, or the granules of one Granary slot
after the other (09 R209); the first argument bounds the pieces. -/
def flightReads (p : Nat) (it : Item) : Nat → State → Flight → State × Flight
  | 0, s, f => (s, f)
  | n + 1, s, f =>
    match f.rd with
    | [] => (s, f)
    | (o, len) :: rest =>
      let a := availRead s p it o len
      let more (s1 : State) (b : BR) (f1 : Flight) : State × Flight :=
        let f2 := { f1 with part := f1.part ++ b.bytes, info := f1.info.join b.info }
        if len ≤ a.bytes then flightReads p it n s1 { f2 with rd := rest, got := f2.got ++ [f2.part], part := [] }
        else flightReads p it n s1 { f2 with rd := (a.next, len - a.bytes) :: rest }
      if a.bytes = 0 ∧ 0 < len then (s, f)
      else match o with
        | .bin _ =>
          let wait := a.since - f.need
          let (s1, b) := readOper (noteBubbles s p wait) p it (o, a.bytes)
          more s1 b { f with need := f.need + wait + a.cycles, endAt := f.endAt + wait }
        | .gran g =>
          let t := f.slot s p a.since
          if s.now < t then (s, f)
          else
            let (s1, b) := readOper (noteSlots s p it g.slack f.waited ((t - f.slotAt) / 16)) p it (o, a.bytes)
            more s1 b (f.tookSlot t)

/-- What an instruction in flight still has to write is written as far as there is room: rows of a bin region, or the granules of one Granary
slot after the other. -/
def flightWrites (p : Nat) (it : Item) : Nat → State → Flight → State × Flight
  | 0, s, f => (s, f)
  | n + 1, s, f =>
    match f.out with
    | [] => (s, f)
    | (o, b) :: rest =>
      let a := availWrite s p it o b.length
      let more (s1 : State) (f1 : Flight) : State × Flight :=
        if b.length ≤ a.bytes then flightWrites p it n s1 { f1 with out := rest }
        else flightWrites p it n s1 { f1 with out := (a.next, b.drop a.bytes) :: rest }
      if a.bytes = 0 ∧ 0 < b.length then (s, f)
      else match o with
        | .bin _ =>
          let wait := a.since - f.endAt
          more (writeOper (noteBubbles s p wait) p it (o, b.take a.bytes) (f.endAt + wait)) { f with endAt := f.endAt + wait }
        | .gran g =>
          let t := f.slot s p a.since
          if s.now < t then (s, f)
          else more (writeOper (noteSlots s p it g.slack f.waited ((t - f.slotAt) / 16)) p it (o, b.take a.bytes) f.endAt) (f.tookSlot t)

/-- Pieces of operands and results of an instruction in flight: at least so many steps move them all. -/
def pieceBound (l : List Nat) : Nat := sumN (l.map (fun n => n / 16 + 2))

/-- The flight of engine `e` as it stands. -/
def keepFlight (s : State) (p : Nat) (e : Engine) (f : Option Flight) : State :=
  modCore s p (fun c => { c with flights := tset none c.flights e.num f })

/-- The tick of the first Granary slot for what an instruction writes: the loader's next, else the first after its cycles (R107). -/
def Flight.outSlot (f : Flight) (s : State) (p : Nat) (e : Engine) : Nat :=
  if e = .loader then f.slotAt else nextSlot (localIdx s p) (cdiv f.endAt 2)

/-- An instruction in flight ends: its engine is free from its end on, and its token is set then. -/
def landFlight (s : State) (p : Nat) (e : Engine) (f : Flight) : State :=
  modCore (keepFlight s p e none) p (fun c =>
    let c := c.busy e f.endAt
    match f.cmd.tok.sets with
    | some n => { c with tokens := setBit c.tokens n, tokAt := tset 0 c.tokAt n f.endAt }
    | none => c)

/-- The item `k` still runs on core `p`. -/
def stillOn (s : State) (p k : Nat) : Bool := decide ((itemOn s p).map (fun i => i.key) = some k)

/-- The loops under which the operands of core `p` are addressed. -/
def underLoops (s : State) (p : Nat) (l : List LoopF) : State := modCore s p (fun c => { c with loops := l })

/-- An instruction in flight takes what stands in its operands. -/
def takeReads (s : State) (p : Nat) (it : Item) (f : Flight) : State × Flight :=
  flightReads p it (pieceBound (f.rd.map (fun x => x.2))) s f

/-- An instruction in flight that has read all of its operands has its effect. -/
def takeEffect (s : State) (p : Nat) (it : Item) (e : Engine) (f : Flight) : State × Flight :=
  if f.read then (s, f)
  else
    let r := runPost (modCore s p (fun c => c.busy e f.endAt)) p it f.info f.got (insRun s p it f.cmd f.residueErr).post
    (r.1, { f with read := true, out := r.2, slotAt := f.outSlot s p e })

/-- An instruction in flight writes what there is room for, and ends once all is written. -/
def putWrites (s : State) (p : Nat) (it : Item) (e : Engine) (f : Flight) (loops : List LoopF) : State :=
  let r := flightWrites p it (pieceBound (f.out.map (fun x => x.2.length))) s f
  if !stillOn r.1 p it.key then r.1
  else underLoops (if r.2.out.isEmpty then landFlight r.1 p e r.2 else keepFlight r.1 p e (some r.2)) p loops

/-- The instruction in flight on engine `e` of core `p` goes on, under the loops of its issue. -/
def pumpEngine (p : Nat) (s : State) (e : Engine) : State :=
  match (core s p).flight e, itemOn s p with
  | some f, some it =>
    let loops := (core s p).loops
    let r := takeReads (underLoops s p f.loops) p it f
    if !r.2.rd.isEmpty then underLoops (keepFlight r.1 p e (some r.2)) p loops
    else
      let q := takeEffect r.1 p it e r.2
      if !stillOn q.1 p it.key then q.1 else putWrites q.1 p it e q.2 loops
  | _, _ => s

/-- Everything in flight on core `p` goes on: what one engine leaves in a region, another may take. -/
def pumpCore (s : State) (p : Nat) : State :=
  [Engine.loader, .array, .vector, .loader, .array, .vector].foldl (pumpEngine p) s

/-- An instruction of an engine reaches core `p`: what is in flight goes on, then it issues as it can. -/
def runCmd (s0 : State) (p : Nat) (cmd : TileCmd) (e : Engine) (residueErr : Bool) : State :=
  let s := pumpCore s0 p
  match itemOn s p with
  | none => s
  | some it =>
    if insRefuses s it cmd && issueOk s p it.key cmd e then endItem s it.key 0x201
    else if !insReady s p cmd then s
    else
      let r := insRun s p it cmd residueErr
      runIns s p cmd e r.cycles r.rd r.wr residueErr r.post

end Sys2Proof.Machine
end

