-- ==== Sys2Proof/Machine/Thermal.lean ====
section
/-!
DEFINITION. Sys2Proof/Machine/Thermal.lean: the thermal comparators (17_power_clocks_and_reset.md R410 to R412) and
THERMAL_CONVERSION.
-/

namespace Sys2Proof.Machine

/-- Last reading of sensor `i`, °C. -/
def tempOf (s : State) (i : Nat) : Int := sgn 8 (regX s F.THERM_TEMP_DEG i)

/-- A new reading of sensor `i`: DEG, and MAX since the last read. -/
def putTemp (s : State) (i : Nat) (d : Int) : State :=
  let d := satI 8 d
  let s1 := setX s F.THERM_TEMP_DEG i (enc 8 d)
  if sgn 8 (regX s1 F.THERM_TEMP_MAX i) < d then setX s1 F.THERM_TEMP_MAX i (enc 8 d) else s1

/-- The sensor with the highest reading, the lowest number on a tie. -/
def hottest (s : State) : Nat :=
  (upto 13).foldl (fun b i => if tempOf s b < tempOf s i then i else b) 0

/-- The stack's high-temperature threshold of 10 R241, °C (19 Table 19-2). -/
def stackHotDeg : Int := 85

/-- The top of the stack's operating range, °C (19 Table 19-2). -/
def stackMaxDeg : Int := 105

/-- The stack reads above its operating range (10 R241). -/
def stackOver (s : State) : Bool := decide (stackMaxDeg < sgn 8 (reg s F.HBMC_TEMP_DEG))

/-- The comparators of Table 17-6 act on the present readings (R410 to R412). -/
def compareTemps (s : State) : State :=
  let warn := (reg s F.THERM_WARN : Int)
  let anyOver := (upto 13).any (fun i => decide (warn < tempOf s i))
  let allLow := (upto 13).all (fun i => decide (tempOf s i ≤ warn - 3))
  let crit := (upto 13).any (fun i => decide ((reg s F.THERM_CRIT : Int) < tempOf s i)) || stackOver s
  let s1 := setR s F.THERM_STATE_HOT (hottest s)
  let s2 := if !flag s1 F.THERM_STATE_WARN && anyOver then
      raiseInt (driveAlert (addR (setR s1 F.THERM_STATE_WARN 1) F.THERM_WARNS 1) true) 12 1
    else if flag s1 F.THERM_STATE_WARN && allLow then raiseInt (driveAlert (setR s1 F.THERM_STATE_WARN 0) false) 12 2
    else s1
  if !flag s2 F.THERM_STATE_CRIT && crit then
    let s3 := raiseInt (addR (setR s2 F.THERM_STATE_CRIT 1) F.THERM_CRITS 1) 12 4
    let sensor := if stackOver s3 && decide (tempOf s3 (hottest s3) ≤ (reg s3 F.THERM_CRIT : Int)) then 12 else hottest s3
    enterSafe (latchFault (safNow s3 0x14 2 0 0 0 sensor 0) F.REEVE_FAULT_THERM_CRIT)
  else if flag s2 F.THERM_STATE_CRIT && !crit then
    driveFault (setR (setR s2 F.THERM_STATE_CRIT 0) F.REEVE_FAULT_THERM_CRIT 0)
  else s2

/-- The comparators' levels while the base domain is in reset: nothing else acts on them. -/
def holdLevels (s : State) : State :=
  let warn := (reg s F.THERM_WARN : Int)
  let anyOver := (upto 13).any (fun i => decide (warn < tempOf s i))
  let allLow := (upto 13).all (fun i => decide (tempOf s i ≤ warn - 3))
  let crit := (upto 13).any (fun i => decide ((reg s F.THERM_CRIT : Int) < tempOf s i))
  let s1 := if anyOver then setR s F.THERM_STATE_WARN 1 else if allLow then setR s F.THERM_STATE_WARN 0 else s
  driveAlert (setR s1 F.THERM_STATE_CRIT (bnat crit)) (flag s1 F.THERM_STATE_WARN && !flag s F.THERM_STATE_WARN)

/-- THERMAL_CONVERSION: sensors 0 to 11 convert; the always-on comparators compare, and CLK_FAB acts on it while the base
domain runs (R410). -/
def execThermalConversion (degs : List Int) (s : State) : Out :=
  .next (if s.power.vddAon then
      let s1 := (enumFrom 0 (degs.take 12)).foldl (fun t e => putTemp t e.1 e.2) s
      if s1.live then compareTemps s1 else holdLevels s1
    else s)

end Sys2Proof.Machine
end

