-- ==== Sys2Proof/Machine/Hbm.lean ====
section
/-!
DEFINITION. Sys2Proof/Machine/Hbm.lean: the HBM controller (10_hbm_controller.md R232 to R249) and its commands.
-/

namespace Sys2Proof.Machine

/-! ## Address map (R232, Table 10-2) -/

/-! ## The fabric toward HBM (09 R217, Table 9-4) -/

/-- The HBM controller port that HBM-side port `j` of cluster `k` reaches in tick `t`; none in the ticks of the client hub. -/
def hbmConn (k j t : Nat) : Option Nat :=
  let r := t % 32
  if r % 4 = 3 then none else some ((2 * k + j + 2 * (r - r / 4)) % 16)

/-- The cluster that peer port `j` of cluster `k` reaches in tick `t`. -/
def peerConn (k j t : Nat) : Nat := (k + 1 + (2 * (t % 32) + j) % 7) % 8

/-- The owner that the client port of a cluster reaches in tick `t`. -/
def clientConn (t : Nat) : Option SlotOwner := [SlotOwner.sickle 0, .sickle 1, .codecs, .track].find? (fun o => o.slots.contains (t % 32))

/-- Numbers of the hub's clients, in the order in which R217 names them: intake 0, the CSI ports 1 to 8, the decode cores 9 to 17, the encode
cores 18 and 19, the scaler 20, the Sickle units 21 and 22, the track engine 23, the link ports 24 to 27, PCIe 28 (log entry 139). -/
def sickleClient : Nat := 21

/-- A request carries the class of its item; those of intake, the codec cores, Carter and the controller are pooled (R234). -/
def reqPinned (s : State) (r : HbmReq) : Bool :=
  (match r.src with
   | .staging _ => true
   | .client n => decide (20 ≤ n)
   | _ => false) && ((r.item.bind (item? s)).map Item.isPinned).getD false

/-- A request at its port is connected to channel `c` in tick `t`. -/
def connects (t c : Nat) (r : HbmReq) : Bool :=
  match r.src with
  | .client _ => decide (t % 4 = 3)
  | .staging k => [0, 1].any (fun j => decide (hbmConn k j t = some c))
  | .carter k => [0, 1].any (fun j => decide (hbmConn k j t = some c))
  | .controller => false

/-- Which of two requests at the ports goes first: the older, ties to the lower client number; Carter uses what the staging DMA leaves
idle. -/
def portBefore (x y : HbmEnt) : Bool :=
  match x.req.src, y.req.src with
  | .staging _, .carter _ => true
  | .carter _, .staging _ => false
  | .client m, .client n => decide (x.at_ < y.at_) || (decide (x.at_ = y.at_) && decide (m < n))
  | _, _ => decide (x.at_ < y.at_)

/-- In this tick channel `c` takes one request from the port it is connected to; it arrives 4 ticks later. The latency of a cluster's request
counts from this tick (R236). -/
def takePort (s : State) (c : Nat) : State :=
  match (sortBy portBefore (s.hbm.ports.filter (fun e => decide ((hbmMap s e.req.addr).1 = c) && connects s.now c e.req)))[0]? with
  | none => s
  | some e =>
    let at_ := match e.req.src with
      | .client _ => e.at_
      | _ => s.now
    { s with hbm := { s.hbm with
      ports := s.hbm.ports.erase e, flying := s.hbm.flying ++ [({ e with at_ := at_ }, s.now + 4)] } }

/-- The ports and the hub in this tick. -/
def portsTick (s : State) : State := if s.hbm.ports.isEmpty then s else (upto 16).foldl takePort s

/-! ## Queues (R234, R235) -/

/-- Queue of a pseudo-channel. -/
def hbmQ (s : State) (p : Nat) : List HbmEnt := tget [] s.hbm.queues p

/-- Entries of one class. -/
def countPin (q : List HbmEnt) (pin : Bool) : Nat := (q.filter (fun e => decide (e.pinned = pin))).length

/-- The state with a queue replaced; CH_STATE counts follow. -/
def setHbmQ (s : State) (p : Nat) (q : List HbmEnt) : State :=
  let s1 := { s with hbm := { s.hbm with queues := tset [] s.hbm.queues p q, idleSince := tset 0 s.hbm.idleSince (p / 2) s.now } }
  let c := p / 2
  setI (setI s1 F.HBMC_CH_STATE_QPIN c (countPin (hbmQ s1 (2 * c)) true + countPin (hbmQ s1 (2 * c + 1)) true))
    F.HBMC_CH_STATE_QPOOL c (countPin (hbmQ s1 (2 * c)) false + countPin (hbmQ s1 (2 * c + 1)) false)

/-- There is an entry the class may take: 16 in all, eight of them for pinned requests only (R234). -/
def hbmRoom (q : List HbmEnt) (pin : Bool) : Bool :=
  if pin then decide (q.length < 16) else decide (countPin q false + (countPin q true - 8) < 8)

/-- The granule of a request. -/
def HbmReq.gran (r : HbmReq) : Nat := r.addr / 64 * 64

/-- The controller serves: channel in service, not in self-refresh. -/
def chUp (s : State) (c : Nat) : Bool :=
  decide (regI s F.HBMC_CH_STATE_MODE c = 1) || decide (regI s F.HBMC_CH_STATE_MODE c = 2)

/-- A repair holds the bank of device address `a` (R246). -/
def bankHeld (s : State) (a : Nat) : Bool :=
  match tget none s.hbm.repairs (hbmMap s a).1 with
  | some r => decide (r.pc = bitsOf (hbmMap s a).2 6 6) && decide (r.bank = hbmBank (hbmMap s a).2)
  | none => false

/-- The bytes of a masked write over a granule (R235). -/
def mergeBytes (old new : List Byte) (mask : List Bool) : List Byte :=
  (enumFrom 0 old).map (fun e => if nth false mask e.1 then nth 0 new e.1 else e.2)

/-- A write of a whole granule, without a mask. -/
def HbmReq.whole (r : HbmReq) : Bool := decide (r.bytes.length = 64) && r.mask.all (fun b => b)

/-- What a read of a granule met cannot be delivered. -/
def HbmEnt.bad (e : HbmEnt) : Bool := decide (e.info.ue > 0) || decide (e.info.poison > 0)

/-- Memory after a write: whole, or read, merged and written; over a granule that cannot be read, poison (R235). -/
def writeMem (m : Mem) (r : HbmReq) : Mem :=
  let a := r.gran
  if r.whole then m.write a r.bytes
  else
    let i := m.info a 64
    let off := r.addr - a
    let n := m.write a (mergeBytes (m.read a 64) (List.replicate off 0 ++ r.bytes)
      (List.replicate off false ++ padTo true r.bytes.length r.mask))
    if i.ue > 0 ∨ i.poison > 0 then n.poison a 64 else n

/-- A request is admitted: its channel wakes; from now on every request to its granule follows it, so what it writes stands there and what it
reads is what stands there (R235, R243). -/
def admitEnt (s : State) (p : Nat) (e : HbmEnt) : State :=
  let a := e.req.gran
  let e1 := { e with snap := s.hbm.mem.read a 64, info := s.hbm.mem.info a 64 }
  let s1 := setI s F.HBMC_CH_STATE_MODE (p / 2) 1
  let s2 := match e.kind, e.req.wr with
    | .writeBack, _ => { s1 with hbm := { s1.hbm with mem := s1.hbm.mem.writeBack a 64 } }
    | .request, true => let t := cancelWb s1 a
      { t with hbm := { t.hbm with mem := writeMem t.hbm.mem e.req } }
    | _, _ => s1
  setHbmQ s2 p (hbmQ s2 p ++ [e1])

/-- The queue of a pseudo-channel takes a request now: its channel is in service and there is an entry for its class (R234, R244). -/
def mayAdmit (s : State) (p : Nat) (pin : Bool) : Bool := chUp s (p / 2) && !flag s F.HBMC_SREF && hbmRoom (hbmQ s p) pin

/-- A request reaches the controller: it is admitted, or waits for an entry behind those of its class. -/
def landEnt (s : State) (e : HbmEnt) : State :=
  let p := hbmPch s e.req.addr
  if mayAdmit s p e.pinned && !s.hbm.waiting.any (fun x => decide (hbmPch s x.req.addr = p) && decide (x.pinned = e.pinned)) then
    admitEnt s p e
  else { s with hbm := { s.hbm with waiting := s.hbm.waiting ++ [{ e with since := s.now }] } }

/-- Requests waiting at their ports are admitted, oldest first, where their queue has an entry for their class. -/
def admitWaiting (s : State) : State :=
  s.hbm.waiting.foldl (fun t e =>
    let p := hbmPch t e.req.addr
    if mayAdmit t p e.pinned && !t.hbm.waiting.any (fun x => decide (x.at_ < e.at_) &&
        decide (hbmPch t x.req.addr = p) && decide (x.pinned = e.pinned)) then
      admitEnt (addI { t with hbm := { t.hbm with waiting := t.hbm.waiting.erase e } } F.CH_QFULL_TICKS
        (p / 2) (t.now - e.since)) p e
    else t) s

/-! ## Service (R234 to R240) -/

/-- A late read counts in its consumer's own counter, by its source (R238). -/
def lateConsumer (s : State) (e : HbmEnt) (late : Nat) : State :=
  match e.req.src with
  | .client n => if n = sickleClient ∨ n = sickleClient + 1 then addI s F.SICKLE_LATE (n - sickleClient) 1 else s
  | .staging k =>
    match ((e.req.item.bind (item? s)).map (fun i => i.cores.filterMap (physOf s))).bind (fun l => l.find? (fun p => decide (p / 9 = k))) with
    | some p => addI s F.CORE_LATE_CYCLES p (2 * late)
    | none => s
  | _ => s

/-- A granule read is delivered (R236, R238, R240). -/
def serveRead (s : State) (p : Nat) (e : HbmEnt) : State :=
  let c := p / 2
  let a := e.req.gran
  let lat := s.now - e.at_
  let s1 := addPairI s F.CH_READS_LO F.CH_READS_HI c 1
  let s2 := if 1560 < lat then lateConsumer (addI s1 F.CH_LATE c 1) e (lat - 1560) else s1
  let s3 := if regI s2 F.CH_MAX_LAT c < lat then setI s2 F.CH_MAX_LAT c lat else s2
  let s4 := match e.req.item with
    | some k => if 1560 < lat then modItem s3 k (fun x => { x with late := true }) else s3
    | none => s3
  let s5 := noteHbm { s4 with hbm := { s4.hbm with served := some (e.req, e.snap, e.bad) } } a e.info
  if e.bad then hbmFault s5 a (decide (e.info.ue = 0)) e.info.decPoison e.req.item else s5

/-- A write has been performed: whole, or as read, merge and write, whose read phase is a read like any other (R235). -/
def serveWrite (s : State) (p : Nat) (e : HbmEnt) : State :=
  let a := e.req.gran
  let s1 := addPairI s F.CH_WRITES_LO F.CH_WRITES_HI (p / 2) 1
  if e.req.whole then s1
  else
    let s2 := cancelWb (noteHbm (addI s1 F.CH_RMW (p / 2) 1) a e.info) a
    if e.bad then hbmFault s2 a (decide (e.info.ue = 0)) e.info.decPoison e.req.item else s2

/-- A patrol read: a correctable granule is to be written back, one that cannot be delivered is reported; no item fails (R242, R240). -/
def servePatrol (s : State) (p : Nat) (e : HbmEnt) : State :=
  let s1 := noteHbm (addPairI s F.CH_READS_LO F.CH_READS_HI (p / 2) 1) e.req.gran e.info
  if e.bad then hbmFault s1 e.req.gran (decide (e.info.ue = 0)) false none else s1

/-- An entry leaves its queue and is served; those admitted before it have been passed once more (R234). -/
def serveEnt (s : State) (p n : Nat) (e : HbmEnt) : State :=
  let q := hbmQ s p
  let s1 := setHbmQ s p ((q.take n).map (fun (x : HbmEnt) => { x with passed := x.passed + 1 }) ++ q.drop (n + 1))
  match e.kind, e.req.wr with
  | .writeBack, _ => addI (addPairI s1 F.CH_WRITES_LO F.CH_WRITES_HI (p / 2) 1) F.CH_WB (p / 2) 1
  | .patrol, _ => servePatrol s1 p e
  | .request, true => serveWrite s1 p e
  | .request, false => serveRead s1 p e

/-- Bank of an entry's granule. -/
def entBank (s : State) (e : HbmEnt) : Nat := hbmBank (hbmMap s e.req.addr).2

/-- No entry before the `n`-th of a queue is to its granule. -/
def firstToGran (q : List HbmEnt) (n : Nat) (e : HbmEnt) : Bool := (q.take n).all (fun x => decide (x.req.gran ≠ e.req.gran))

/-- The `n`-th entry of a queue may be served next: no earlier one is to its granule, no earlier one has been passed 15 times, and of the
entries of its bank that may be served none goes before it, pinned before pooled, then the oldest (R234, R235; log entry 17). -/
def mayServe (s : State) (q : List HbmEnt) (n : Nat) (e : HbmEnt) : Bool :=
  !bankHeld s e.req.addr && firstToGran q n e && (q.take n).all (fun x => decide (x.passed < 15)) &&
    (enumFrom 0 q).all (fun x => decide (x.1 = n) || decide (entBank s x.2 ≠ entBank s e) || !firstToGran q x.1 x.2 ||
      (if x.2.pinned = e.pinned then decide (n < x.1) else e.pinned))

/-- Writes, write-backs and patrol reads are served as soon as they may be; the data of a read return by a command. -/
def serveOwn (p : Nat) : Nat → State → State
  | 0, s => s
  | n + 1, s =>
    let q := hbmQ s p
    match (enumFrom 0 q).find? (fun e => (e.2.req.wr || decide (e.2.kind ≠ .request)) && mayServe s q e.1 e.2) with
    | some e => serveOwn p n (serveEnt s p e.1 e.2)
    | none => s

/-- Serve what can be served and take in what can be taken in. -/
def hbmSettle (s : State) (p : Nat) : State := admitWaiting (serveOwn p 17 s)

/-- Every admitted request of a pseudo-channel is finished, in order (R244). -/
def drainQ (p : Nat) : Nat → State → State
  | 0, s => s
  | n + 1, s =>
    match hbmQ s p with
    | e :: _ => drainQ p n (serveEnt s p 0 e)
    | [] => s

/-- A waiting write-back of channel `c` is admitted as a pooled write of the corrected granule, once there is an entry (R240; log entry
140). -/
def admitWb (s : State) (c : Nat) : State :=
  match tget [] s.hbm.wbq c with
  | [] => s
  | a :: rest =>
    let p := hbmPch s a
    if mayAdmit s p false then
      hbmSettle (admitEnt { s with hbm := { s.hbm with wbq := tset [] s.hbm.wbq c rest } } p
        { req := { id := 0, src := .controller, addr := a, wr := true }, kind := .writeBack, at_ := s.now }) p
    else s

/-- What reaches the controller in this tick, and the write-backs it takes up. -/
def hbmTick (s : State) : State :=
  let due := s.hbm.flying.filter (fun e => decide (e.2 ≤ s.now))
  let s1 := if due.isEmpty then s else
    due.foldl (fun t e => hbmSettle (landEnt t e.1) (hbmPch t e.1.req.addr))
      { s with hbm := { s.hbm with flying := s.hbm.flying.filter (fun e => decide (s.now < e.2)) } }
  s1.hbm.wbq.foldl (fun t e => admitWb t e.1) s1

/-- HBM_REQUEST: a request is presented at its cluster's HBM-side ports, or accepted by the client hub; one that names no address of the
stack ends there (R234 to R236, 09 R217, Table 10-5). -/
def execHbmRequest (req : HbmReq) (s : State) : Out :=
  .next (whenLive s fun s =>
    if hbmTop ≤ req.addr then
      let s1 := if req.wr then s else
        { s with hbm := { s.hbm with served := some (req, List.replicate 64 0, true) } }
      hbmFault s1 req.addr false false req.item
    else { s with hbm := { s.hbm with ports := s.hbm.ports ++ [{ req := req, pinned := reqPinned s req, at_ := s.now }] } })

/-- HBM_READ_DATA: the data of read `id` of pseudo-channel `pch` return, in the order of R234 and R235. -/
def execHbmReadData (pch id : Nat) (s : State) : Out :=
  .next (whenLive s fun s =>
    let q := hbmQ s pch
    match (enumFrom 0 q).find? (fun e => decide (e.2.req.id = id) && !e.2.req.wr && decide (e.2.kind = .request) && mayServe s q e.1 e.2) with
    | some e => guardOn (chUp s (pch / 2)) s fun s => hbmSettle (serveEnt s pch e.1 e.2) pch
    | none => s)

/-- REFRESH: a per-bank refresh of a pseudo-channel is issued, in turn over its 48 banks; a channel in power-down leaves it
(R241, R243). -/
def execRefresh (pch : Nat) (s : State) : Out :=
  .next (whenLive s fun s => guardOn (decide (pch < 32) && chUp s (pch / 2)) s fun s =>
    let s1 := addI (setI s F.HBMC_CH_STATE_MODE (pch / 2) 1) F.CH_REFRESHES (pch / 2) 1
    { s1 with hbm := { s1.hbm with refBank := tset 0 s1.hbm.refBank pch ((tget 0 s1.hbm.refBank pch + 1) % 48),
                                   idleSince := tset 0 s1.hbm.idleSince (pch / 2) s1.now } })

/-- STACK_TEMPERATURE_READ: every 2^20 ticks the stack's temperature is read and the refresh rate follows; sensor 12 is this
reading (R241, 17 R410, R412). -/
def execStackTemperatureRead (deg : Int) (s : State) : Out :=
  .next (whenLive s fun s => guardOn (decide (s.now % 2 ^ 20 = 0) && decide (reg s F.HBMC_STATE_STATE = 2)) s fun s =>
    let d := satI 8 deg
    let s1 := setR (setR s F.HBMC_TEMP_DEG (enc 8 d)) F.HBMC_TEMP_DOUBLE (bnat (decide (stackHotDeg < d)))
    compareTemps (putTemp s1 12 d))

/-- A patrol read of granule `n` of a pseudo-channel is issued, a pooled request like any other (R242, R234). -/
def patrolIssue (s : State) (p n : Nat) : State :=
  hbmSettle (landEnt s { req := { id := 0, src := .controller, addr := pchAddr s p n, wr := false }, kind := .patrol, at_ := s.now }) p

/-- HBM_PATROL_READ: one granule of a pseudo-channel is read every INTERVAL ticks, in ascending channel-local address (R242). -/
def execHbmPatrolRead (pch : Nat) (s : State) : Out :=
  .next (whenLive s fun s =>
    let c := pch / 2
    guardOn (decide (pch < 32) && chUp s c && decide (regI s F.HBMC_CH_SCRUB_EN c ≠ 0) &&
      decide (tget 0 s.hbm.patrolAt pch + regI s F.HBMC_CH_SCRUB_INTERVAL c ≤ s.now)) s fun s =>
      let n := tget 0 s.hbm.patrol pch
      let s2 := patrolIssue s pch n
      let s3 := { s2 with hbm := { s2.hbm with patrol := tset 0 s2.hbm.patrol pch ((n + 1) % 12582912),
                                               patrolAt := tset 0 s2.hbm.patrolAt pch s2.now } }
      if n + 1 = 12582912 then
        let s4 := { s3 with hbm := { s3.hbm with rowCE := tfilter (fun r => decide (r / (64 * 16384) ≠ pch)) s3.hbm.rowCE } }
        if pch % 2 = 1 then addI s4 F.CH_SWEEPS c 1 else s4
      else s3)

/-- POWER_DOWN_ENTRY: an idle channel enters power-down after TIMER ticks (R243). -/
def execPowerDownEntry (ch : Nat) (s : State) : Out :=
  .next (whenLive s fun s =>
    let t := regI s F.HBMC_CH_PD ch
    guardOn (decide (ch < 16) && decide (t ≠ 0) && decide (regI s F.HBMC_CH_STATE_MODE ch = 1) &&
      (hbmQ s (2 * ch)).isEmpty && (hbmQ s (2 * ch + 1)).isEmpty && (tget [] s.hbm.wbq ch).isEmpty &&
      decide (tget 0 s.hbm.idleSince ch + t ≤ s.now)) s fun s =>
      addI (setI s F.HBMC_CH_STATE_MODE ch 2) F.CH_PD_ENTRIES ch 1)

/-- Spare rows used in bank `b` of the stack (numbered 64 to a pseudo-channel): hard repairs and those of the soft-repair list (R246). -/
def spareUsed (s : State) (b : Nat) : Nat :=
  tget 0 s.hbm.spareRows b + (s.flash.softRows.filter (fun r => decide (r / 16384 = b))).length

/-- SELF_REFRESH_EXIT_DONE: 13,000 ticks after SREF was cleared the channels are in service and the held requests are
admitted (R244). A stack whose bring-up failed stays FAILED (R231). -/
def execSelfRefreshExitDone (s : State) : Out :=
  .next (whenLive s fun s =>
    match s.hbm.srefExit with
    | none => s
    | some t => guardOn (decide (t + 13000 ≤ s.now) && decide (reg s F.HBMC_STATE_STATE = 3)) s fun s =>
      let s1 := (upto 16).foldl (fun u c => setI u F.HBMC_CH_STATE_MODE c 1)
        (setR { s with hbm := { s.hbm with srefExit := none } } F.HBMC_STATE_STATE 2)
      (upto 32).foldl hbmSettle (admitWaiting s1))

end Sys2Proof.Machine
end

