-- ==== Sys2Proof/Machine/Clock.lean ====
section
/-!
DEFINITION. Sys2Proof/Machine/Clock.lean: what passes in one tick of CLK_FAB in which no command arrives.
-/

namespace Sys2Proof.Machine

/-- A Tally step of `d` is made (12_determinism_and_fabric.md R286, R288): it completes an alignment when one was under way. -/
def stepTally (s : State) (d : Int) : State :=
  let s1 := { s with tally := s.tally + BitVec.ofInt 64 d, fab := { s.fab with step := none, stepAligns := false } }
  if s.fab.stepAligns then setR (putBoth s1 F.TALLY_CTRL_ALIGN 0 0 0 0) F.TALLY_STATE_STATE 2 else s1

/-- What is in flight on the cores goes on to the end of this tick: each core moves granules in its slots (09 R209). -/
def pumpFlights (s : State) : State :=
  (s.cores.filter (fun e => e.2.flights.any (fun f => f.2.isSome))).foldl (fun t e => pumpCore t e.1) s

/-- Rows that the code checks of this tick have corrected enter the write-back queues (09 R214). -/
def enterAll (s : State) : State := (s.clus.filter (fun e => !e.2.wbIn.isEmpty)).foldl (fun t e => enterRows t e.1) s

/-- One tick of CLK_FAB (12_determinism_and_fabric.md R283): the Tally rises by 1 while the base domain runs; at a SYSREF edge, a
tick in which Tally mod 13 = 0, a waiting step is made. Transfers between cores and Granary take their slots, requests to HBM their
port ticks (09 R209, R217). What else happens at a given tick comes as a command of its own (log entry
1). -/
def tick (s : State) : State :=
  if s.tallyRun then
    let s0 := portsTick (pumpFlights s)
    let s1 := hbmTick (enterAll { s0 with tally := s0.tally + 1 })
    match s1.fab.step with
    | some d => if s1.now % 13 = 0 then stepTally s1 d else s1
    | none => s1
  else s

end Sys2Proof.Machine
end

