-- ==== Sys2Proof/Machine/TileCmds.lean ====
section
/-!
DEFINITION. Sys2Proof/Machine/TileCmds.lean: the commands of the vector unit, the array and the loader (04_compute_core.md R94, R95, R107;
05_number_formats_and_quantisation.md R116 to R126): each is an instruction that reaches its core.
-/

namespace Sys2Proof.Machine

/-! ## Vector unit -/

/-- RELU (R95). -/
def execRelu (core : Nat) (fmt : Fmt) (n : Nat) (x y : BinRef) (tok : Toks) (s : State) : Out :=
  .next (whenLive s fun s => runCmd s core { ins := .vec (.relu fmt n x y), tok := tok } .vector false)

/-- CLIP (R95). -/
def execClip (core : Nat) (fmt : Fmt) (n lo hi : Nat) (x y : BinRef) (tok : Toks) (s : State) : Out :=
  .next (whenLive s fun s => runCmd s core { ins := .vec (.clip fmt n lo hi x y), tok := tok } .vector false)

/-- REQUANTISE (R95, R122); with an output map, of the outputs of a convolution in their layout (06 R154). -/
def execRequantise (core : Nat) (src : Fmt) (n : Nat) (x scl y : BinRef) (om : Option OutMap) (tok : Toks) (s : State) : Out :=
  .next (whenLive s fun s => runCmd s core { ins := .vec (.requantise src n x scl y om), tok := tok } .vector false)

/-- TABLE_FUNCTION (R95, R96). -/
def execTableFunction (core : Nat) (n : Nat) (p : TabPar) (x y : BinRef) (tok : Toks) (s : State) : Out :=
  .next (whenLive s fun s => runCmd s core { ins := .vec (.tableFn n p x y), tok := tok } .vector false)

/-- MAX_ABS (R95, R119). -/
def execMaxAbs (core : Nat) (fmt : Fmt) (n : Nat) (x y : BinRef) (tok : Toks) (s : State) : Out :=
  .next (whenLive s fun s => runCmd s core { ins := .vec (.maxAbs fmt n x y), tok := tok } .vector false)

/-- SOFTMAX (R95, R97). -/
def execSoftmax (core : Nat) (n : Nat) (src : Fmt) (scale : Nat) (dst : Fmt) (x y : BinRef) (tok : Toks) (s : State) : Out :=
  .next (whenLive s fun s => runCmd s core { ins := .vec (.softmax n src scale dst x y), tok := tok } .vector false)

/-- LAYER_NORMALISATION (R95, R98). -/
def execLayerNormalisation (core : Nat) (n eps : Nat) (x gamma beta y : BinRef) (tok : Toks) (s : State) : Out :=
  .next (whenLive s fun s => runCmd s core { ins := .vec (.layerNorm n eps x gamma beta y), tok := tok } .vector false)

/-- BOX_DECODING (R95, R99). -/
def execBoxDecoding (core : Nat) (p : BoxPar) (anchors scores regs y : BinRef) (tok : Toks) (s : State) : Out :=
  .next (whenLive s fun s => runCmd s core { ins := .vec (.boxDecode p anchors scores regs y), tok := tok } .vector false)

/-- ADD (R95, R86); with an operator descriptor, average or global average pooling (06 R148). -/
def execAdd (core : Nat) (fmt : Fmt) (psum : Bool) (n : Nat) (x1 x2 y : BinRef) (opr : Option Nat) (tok : Toks) (s : State) : Out :=
  .next (whenLive s fun s => runCmd s core { ins := .vec (.add fmt psum n x1 x2 y opr), tok := tok } .vector false)

/-- MULTIPLY (R95). -/
def execMultiply (core : Nat) (fmt : Fmt) (n : Nat) (x1 x2 y : BinRef) (tok : Toks) (s : State) : Out :=
  .next (whenLive s fun s => runCmd s core { ins := .vec (.mul fmt n x1 x2 y), tok := tok } .vector false)

/-- FUSED_MULTIPLY_ADD: x1·x2 + x3, rounded once (R95); with an operator descriptor, tensor crop-and-resize of x1 by the box list
at x2 (06 R150). -/
def execFusedMultiplyAdd (core : Nat) (fmt : Fmt) (n : Nat) (x1 x2 x3 y : BinRef) (opr : Option Nat) (tok : Toks) (s : State) : Out :=
  .next (whenLive s fun s => runCmd s core { ins := .vec (.fma fmt n x1 x2 x3 y opr), tok := tok } .vector false)

/-- MIN (R95). -/
def execMin (core : Nat) (fmt : Fmt) (n : Nat) (x1 x2 y : BinRef) (tok : Toks) (s : State) : Out :=
  .next (whenLive s fun s => runCmd s core { ins := .vec (.min fmt n x1 x2 y), tok := tok } .vector false)

/-- MAX (R95); with an operator descriptor, max pooling (06 R148). -/
def execMax (core : Nat) (fmt : Fmt) (n : Nat) (x1 x2 y : BinRef) (opr : Option Nat) (tok : Toks) (s : State) : Out :=
  .next (whenLive s fun s => runCmd s core { ins := .vec (.max fmt n x1 x2 y opr), tok := tok } .vector false)

/-- CONVERT (R95, R116); with an output map, of the outputs of a convolution in their layout (06 R154). -/
def execConvert (core : Nat) (src dst : Fmt) (n : Nat) (x y : BinRef) (om : Option OutMap) (tok : Toks) (s : State) : Out :=
  .next (whenLive s fun s => runCmd s core { ins := .vec (.convert src dst n x y om), tok := tok } .vector false)

/-- DERIVE: m gives a scale record in exactly 20 cycles (R120, R121, R123). -/
def execDerive (core : Nat) (fmt : Fmt) (sStage : StageScale) (clip : Nat) (int16 : Bool) (x y : BinRef) (tok : Toks) (s : State) : Out :=
  .next (whenLive s fun s => runCmd s core { ins := .vec (.derive_ fmt sStage clip int16 x y), tok := tok } .vector false)

/-- BIASQ: INT32 biases for the scales of this invocation (R126). -/
def execBiasq (core : Nat) (n : Nat) (sa sw b y : BinRef) (tok : Toks) (s : State) : Out :=
  .next (whenLive s fun s => runCmd s core { ins := .vec (.biasq n sa sw b y), tok := tok } .vector false)

/-! ## Array -/

/-- MM: one array operation in its mode and dataflow (R94); `residueErr` tells that a column's check finds a mismatch (R110). -/
def execMm (core : Nat) (op : MMOp) (tok : Toks) (residueErr : Bool) (s : State) : Out :=
  .next (whenLive s fun s => runCmd s core { ins := .mm op, tok := tok } .array residueErr)

/-- CB: a codebook of 16 INT8 entries is loaded into the array in one cycle (R87, Table 4-11). -/
def execCb (core : Nat) (x : BinRef) (tok : Toks) (s : State) : Out :=
  .next (whenLive s fun s => runCmd s core { ins := .cb x, tok := tok } .array false)

/-! ## Loader -/

/-- LD: a Granary region is moved into a bin region, or into a table of the table store (R107, R96). -/
def execLd (core : Nat) (g : GranRef) (d : LdDst) (bytes : Nat) (tok : Toks) (s : State) : Out :=
  .next (whenLive s fun s => runCmd s core { ins := .ld g d bytes, tok := tok } .loader false)

/-- LDW: weights are loaded under a tag and their region is marked resident; when the core's resident tag already equals the
tag, the load is skipped in one tick (R107). -/
def execLdw (core : Nat) (g : GranRef) (x : BinRef) (bytes tag : Nat) (tok : Toks) (s : State) : Out :=
  .next (whenLive s fun s => runCmd s core { ins := .ldw g x bytes tag, tok := tok } .loader false)

/-- ST: a bin region is moved into a Granary region (R107); a write to a dark bank ends the item (09 R222). -/
def execSt (core : Nat) (x : BinRef) (g : GranRef) (bytes : Nat) (tok : Toks) (s : State) : Out :=
  .next (whenLive s fun s => runCmd s core { ins := .st x g bytes, tok := tok } .loader false)

end Sys2Proof.Machine
end

