-- ==== Sys2Proof/Machine/Finish.lean ====
section
/-!
DEFINITION. Sys2Proof/Machine/Finish.lean: the end of an item (07_plans_tiling_and_mapping.md R178): its outputs, emit list
(08_tracking_and_metadata.md R198), hand-offs (R181, R188), evidence releases (14 R348), and the end of a golden item
(13 R320, R321).
-/

namespace Sys2Proof.Machine

/-! ## CRC-64/ECMA-182 (13 R321) -/

/-- `n` shifts of the CRC register. -/
def crcShift : Nat → Nat → Nat
  | 0, c => c
  | n + 1, c => crcShift n (if c.testBit 63 then (c * 2 % 2 ^ 64).xor 0x42F0E1EBA9EA3693 else c * 2 % 2 ^ 64)

/-- The CRC of a byte string. -/
def crc64 (b : List Byte) : Nat := b.foldl (fun c x => crcShift 8 (c.xor (x.toNat * 2 ^ 56))) 0

/-! ## Golden tests (13 R320, R321, R324) -/

/-- Key of a test in Winnow's tables: segment, unit kind of Table 8-10, unit. Golden tests stand as segment 15 of a pipeline,
by plan-table index. -/
def winKey (seg kind unit : Nat) : Nat := (seg * 16 + kind) * 65536 + unit

/-- Key of the golden test of plan-table index `i`. -/
def goldenKey (i : Nat) : Nat := winKey 15 8 i

/-- A test has passed now (R324): it is no longer overdue. -/
def testPassed (s : State) (key : Nat) : State :=
  { s with winnow := { s.winnow with
    passAt := tset 0 s.winnow.passAt key (s.now + 1), overdueAt := terase s.winnow.overdueAt key,
    overdueOpen := s.winnow.overdueOpen.filter (fun k => decide (k ≠ key)) } }

/-- A golden item has ended with its outputs `b` (R321). The pipeline's number in the record is that of the Reeve pipeline that
watches the plan, a free value where none does. -/
def goldenEnd (s : State) (it : Item) (b : List Byte) : State :=
  let i := planIdx it.e.plan
  match (timelineOf s i).golden with
  | none => s
  | some g =>
    if crc64 b = g.sig then
      let s1 := testPassed (addR s F.WINNOW_GOLDEN_PASS 1) (goldenKey i)
      { s1 with winnow := { s1.winnow with goldenBad := s1.winnow.goldenBad.filter (fun x => decide (x ≠ i)) } }
    else
      let (unit, s0) := match pipeOf s it.e.plan with
        | some p => (p, s)
        | none => ((fresh s).1 % 2 ^ 16, (fresh s).2)
      let s1 := safNow (addR s0 F.WINNOW_GOLDEN_MISMATCH 1) 0xA 1 8 unit it.e.plan (crc64 b) 0
      latchFault { s1 with winnow := { s1.winnow with
        goldenBad := s1.winnow.goldenBad.filter (fun x => decide (x ≠ i)) ++ [i] } } F.REEVE_FAULT_GOLDEN_MISMATCH

/-! ## Outputs -/

/-- The outputs of an item's plan that belong to a batch element it has, in ascending number (log entry 27). -/
def outsOf (s : State) (it : Item) : List OutDecl :=
  sortBy (fun a b => decide (a.n < b.n)) ((imgOf s it.e).outs.filter (fun o => decide (o.elem < it.e.batch)))

/-- Outputs in the order in which they are handed off: by batch element (08 R181). -/
def byElement (l : List (OutDecl × List Byte)) : List (OutDecl × List Byte) := sortBy (fun a b => decide (a.1.elem < b.1.elem)) l

/-- Unlocks of item `it`'s outputs that are still open (14 R348). -/
def unlocksFor (s : State) (it : Item) (n : Nat) : List TUnlock :=
  if it.golden then [] else s.sec.tensorUnlocks.filter (fun u => decide (u.plan = it.e.plan) && decide (u.output = n))

/-- Does the device read the bytes of output `o` at END? -/
def readAtEnd (s : State) (it : Item) (o : OutDecl) : Bool :=
  it.golden || decide (o.use ≠ .region) || !(unlocksFor s it o.n).isEmpty

/-- Read output `o` of item `it`, on the cluster of its rank's core; the last component tells whether the item goes on. -/
def readOut (s : State) (it : Item) (o : OutDecl) : State × List Byte × Bool :=
  match physOf s (nth 64 it.cores o.rank) with
  | none => (s, [], true)
  | some p =>
    let g := { (granSpan s p it { o.at_ with strides := [] }) with circ := none }
    let n := cdiv o.bytes 64
    let (s1, r) := granGet s (p / 9) g n
    let (s2, ok) := afterGran s1 p it.key (p / 9) g n r
    (s2, r.bytes.take o.bytes, ok)

/-- The outputs with their bytes (none for those not read); the last component tells whether the item goes on. -/
def readOuts (it : Item) : List OutDecl → State → State × List (OutDecl × List Byte) × Bool
  | [], s => (s, [], true)
  | o :: os, s =>
    let (s1, b, ok) := if readAtEnd s it o then readOut s it o else (s, [], true)
    if ok then
      let (s2, l, ok2) := readOuts it os s1
      (s2, (o, b) :: l, ok2)
    else (s1, [], false)

/-- Shape of an output as it stands at END: a candidate list's COUNT; an operator's output at the shape its input had in this item (06
R134, R135), no element for a crop-and-resize that found no box (R150); else as the plan declares it. -/
def outDims (s : State) (it : Item) (x : OutDecl × List Byte) : List Nat :=
  match x.1.use, x.1.op.bind (fun i => (opAt (imgOf s it.e) i).map (fun d => (i, d))) with
  | .detect, _ => [unle (x.2.take 2)]
  | _, some (i, d) =>
    if d.op = 5 then (if it.filled.contains i then x.1.dims else x.1.dims.map (fun _ => 0))
    else
      let (h, w) := opShape s it i
      let (oh, ow) := d.outDims h w
      ow :: oh :: x.1.dims.drop 2
  | _, none => x.1.dims

/-- Does an output hold an element, a candidate or a record (07 R178)? -/
def outHolds (s : State) (it : Item) (x : OutDecl × List Byte) : Bool :=
  match x.1.use with
  | .detect => decide (unle (x.2.take 2) ≠ 0)
  | .emit => decide (recType x.2 ≠ 0)
  | _ => decide (0 < x.1.bytes) && (outDims s it x).all (fun d => decide (d ≠ 0))

/-- How long a pooled item stood pre-empted or evicted, or waited for a shaping unit, after its launch: its delay but what ran before
(11 R260). -/
def heldTime (it : Item) : Nat :=
  if it.isPinned then 0
  else
    let from_ := (it.ready.map (fun r => if r < it.arrival then it.arrival else r)).getD it.arrival
    it.delay - (it.launchT - from_)

/-- The done status of an item that ran (R178). END comes no later than the launch, the WCET and, for a pooled item, the time it stood
pre-empted; what runs on beyond that is late (R165). -/
def doneStatus (s : State) (it : Item) (outs : List (OutDecl × List Byte)) : Nat :=
  let overrun := decide (it.launchT + wcetOf s (planIdx it.e.plan) it.e.batch + heldTime it < s.now)
  let holds := if outs.isEmpty then it.nonEmpty else outs.any (outHolds s it)
  if it.late || overrun then 1 else if holds then 0 else 2

/-! ## Emit list (08 R198) -/

/-- The record slots that have had an utterance `utt`, with the arrival Tally of its first audio item. -/
def uttsOf (s : State) (utt : Nat) : List Utt :=
  (upto 4).filterMap (fun r => ((tget ({} : RecS) s.strm.recs r).starts.find? (fun e => decide (e.1 = utt))).map (fun e =>
    { slot := 72 + r, utt := utt, src := e.2, oversize := false }))

/-- The utterance a TOK record of item `it` belongs to: one packed for the item, else that of the one record slot which has had it; a
free source where neither tells (log entry 127). -/
def tokSource (s : State) (it : Item) (utt : Nat) : Utt × State :=
  match it.utts.find? (fun u => decide (u.utt = utt)), uttsOf s utt with
  | some u, _ => (u, s)
  | none, [u] => (u, s)
  | none, _ => ({ slot := 0xFFFF, utt := utt, src := (fresh s).1 % 2 ^ 64, oversize := false }, (fresh s).2)

/-- One record of an emit list is written, or is not and leaves EMIT_BAD. -/
def emitOne (s : State) (it : Item) (b : List Byte) : State :=
  let ty := recType b
  let len := unle ((b.drop 2).take 2)
  let flags := unle ((b.drop 6).take 2)
  let ring := if it.e.ring ≤ 15 then it.e.ring else 0
  let body := (b.take len).drop 16
  let cnt := unle ((b.drop 22).take 2)
  if ty = 2 ∧ 256 ≤ recKind b ∧ len = 40 then
    let slot := ((primaries s it).findSome? Bind.slot).getD 0xFFFF
    pushRec s { ring := ring, bytes := recHdr 2 40 slot flags (jobSrc s it) ++ body }
  else if ty = 3 ∧ 1 ≤ cnt ∧ cnt ≤ 256 ∧ len = 24 + 4 * cnt then
    let (u, s1) := tokSource s it (unle ((b.drop 16).take 4))
    pushRec s1 { ring := ring, bytes := recHdr 3 len u.slot (if u.oversize then setBit flags 1 else flags) u.src ++ body }
  else flagItem s it.key 6

/-- The records of an emit list, at most `n`, from 16-byte boundary to 16-byte boundary, up to the first of TYPE 0. -/
def emitAll (it : Item) : Nat → List Byte → State → State
  | 0, _, s => s
  | n + 1, b, s =>
    if b.length < 16 ∨ recType b = 0 then s
    else
      let len := unle ((b.drop 2).take 2)
      emitAll it n (b.drop (if len < 16 then 16 else recSpan len)) (emitOne s it b)

/-! ## Hand-offs and releases -/

/-- The PRIMARY binding that batch element `e` belongs to (R181). -/
def elemBind (s : State) (it : Item) (e : Nat) : Bind :=
  let l := primaries s it
  match l[e]? with
  | some b => b
  | none => l.getLast?.getD .none

/-- An output's hand-off to the track engine (R181, R188). -/
def handOff (s : State) (it : Item) (x : OutDecl × List Byte) : State :=
  match x.1.use with
  | .detect => detectHandOff s it.key it.e.plan (elemBind s it x.1.elem) (candsOf x.2)
  | .embed =>
    match it.e.bind.findSome? (fun w => match bindOf w with
      | .boxlist n true q => some (n, q)
      | _ => none) with
    | some (n, q) =>
      let seq := ((s.strm.lists.reverse.find? (fun l => decide (l.slot = n) && l.detect && decide (l.seq % 2 ^ 16 = q))).map
        (fun l => l.seq)).getD q
      embedHandOff s it.e.plan n seq x.2
    | none => addR s F.TRK_EMB_LATE 1
  | _ => s

/-- A release of an output under one unlock: it waits for the window, or is too large for it (14 R348). -/
def release (s : State) (it : Item) (x : OutDecl × List Byte) (u : TUnlock) : State :=
  let s1 := { s with sec := { s.sec with tensorUnlocks := s.sec.tensorUnlocks.filterMap (fun (y : TUnlock) =>
    if y = u then (if y.count ≤ 1 then none else some { y with count := y.count - 1 }) else some y) } }
  if 3 * 2 ^ 20 - 32 < x.2.length then addR s1 F.SEC_RELEASE_SKIPS 1
  else
    let r : Release := { number := s1.sec.releaseNo, session := u.session, plan := it.e.plan, seq := it.e.seq, bytes := x.2 }
    nextRelease { s1 with sec := { s1.sec with waiting := s1.sec.waiting ++ [r], releaseNo := s1.sec.releaseNo + 1 } }

/-- The releases of an item's unlocked outputs. -/
def releases (s : State) (it : Item) (outs : List (OutDecl × List Byte)) : State :=
  outs.foldl (fun t x => (unlocksFor s it x.1.n).foldl (fun u y => release u it x y) t) s

/-! ## END -/

/-- Every rank of item `k` is at END: its outputs, records, hand-offs, releases, JOB record (R178, R198, R255). -/
def finishItem (s : State) (k : Nat) : State :=
  match item? s k with
  | none => s
  | some it =>
    let (s1, outs, ok) := readOuts it (outsOf s it) s
    if !ok then s1
    else if it.golden then endItem (goldenEnd s1 it (outs.flatMap (fun x => x.2))) k 0
    else
      let it := (item? s1 k).getD it
      let st := doneStatus s1 it outs
      let s2 := outs.foldl (fun t x => if x.1.use = .emit then emitAll it 256 x.2 t else t) s1
      let s3 := (byElement outs).foldl (fun t x => handOff t it x) s2
      let s4 := releases s3 it outs
      let dims := (upto 16).map (fun n => ((outs.find? (fun x => decide (x.1.n = n))).map (outDims s1 it)).getD [])
      endItemWith s4 k st 0 dims false

end Sys2Proof.Machine
end

