-- ==== Sys2Proof/Machine/Loop.lean ====
section
/-!
DEFINITION. Sys2Proof/Machine/Loop.lean: the loop engine (04_compute_core.md R104, R107, R108; semaphores and inheritance of
11_dispatch_preemption_and_paging.md R267, R268) and its commands.
-/

namespace Sys2Proof.Machine

/-- An instruction of the loop engine reaches core `p`: what is in flight on the engines goes on, then it issues. -/
def runLoop (s : State) (p : Nat) (cmd : TileCmd) (cycles : Nat) (eff : Nat → State → State) : State :=
  runTile (pumpCore s p) p cmd .loop cycles eff

/-- REG on core `p`: a region of a bin is defined; its pointers are at its base, its contents and written bits stay (R104). -/
def regIns (s : State) (p : Nat) (bin : Bin) (r base len : Nat) (circ : Bool) (tok : Toks) : State :=
  runLoop s p { ins := .reg bin r base len circ, tok := tok } 2 (fun _ s =>
    modCore s p (fun c => { c with
      regions := tset {} c.regions (bin.num * 8 + r) { defined := true, base := base, len := len, circ := circ } }))

/-- LOOP on core `p`: a loop of `n` iterations is opened with its strides (R107). -/
def loopIns (s : State) (p n : Nat) (strides : List Int) (tok : Toks) : State :=
  runLoop s p { ins := .loop n strides, tok := tok } 2 (fun _ s =>
    modCore s p (fun c => { c with
      loops := { start := c.pc, left := n - 1, iter := 0, strides := strides } :: c.loops }))

/-- ENDL on core `p`: the innermost loop goes round in no time, or ends (R107). -/
def endlIns (s : State) (p : Nat) (tok : Toks) : State :=
  runLoop s p { ins := .endl, tok := tok } 0 (fun _ s =>
    modCore s p (fun c =>
      match c.loops with
      | [] => c
      | f :: rest =>
        if f.left = 0 then { c with loops := rest }
        else { c with loops := { f with left := f.left - 1, iter := f.iter + 1 } :: rest, pc := f.start, issueAt := s.now }))

/-- REG (R104). -/
def execReg (core : Nat) (bin : Bin) (r base len : Nat) (circ : Bool) (tok : Toks) (s : State) : Out :=
  .next (whenLive s fun s => regIns s core bin r base len circ tok)

/-- LOOP (R107). -/
def execLoop (core n : Nat) (strides : List Int) (tok : Toks) (s : State) : Out :=
  .next (whenLive s fun s => loopIns s core n strides tok)

/-- ENDL (R107). -/
def execEndl (core : Nat) (tok : Toks) (s : State) : Out := .next (whenLive s fun s => endlIns s core tok)

/-! ## Semaphores -/

/-- A semaphore. -/
def sem (s : State) (n : Nat) : Sem := tget {} s.sems (n % 4096)

/-- The state with a semaphore changed. -/
def modSem (s : State) (n : Nat) (f : Sem → Sem) : State := { s with sems := tmod {} s.sems (n % 4096) f }

/-- A pooled item that is pre-empted, evicted or queued. -/
def Item.stalled (i : Item) : Bool :=
  !i.isPinned && (match i.st with
    | .pooled => true
    | .saving => true
    | .out => true
    | .restoring => true
    | _ => false)

/-- Semaphores at 0 that the contexts and cores of item `k` wait for. -/
def waitsOf (s : State) (k : Nat) : List Nat :=
  let semOf (c : CoreS) : Option Nat := if c.item = some k then c.blocked.bind (fun b => b.sem) else none
  ((s.ctxCores.filterMap (fun e => semOf e.2)) ++ (s.cores.filterMap (fun e => semOf e.2))).filter
    (fun n => decide ((sem s n).val = 0))

/-- The holder of semaphore `n` inherits, and the holders of those it waits for (R268); the first argument bounds the chain. -/
def inheritFrom : Nat → Nat → State → State
  | 0, _, s => s
  | f + 1, n, s =>
    match (sem s n).holder.bind (item? s) with
    | none => s
    | some h =>
      if h.stalled && !h.inherit then
        let s1 := addR (modItem s h.key (fun i => { i with inherit := true })) F.DISP_INHERITS 1
        (waitsOf s1 h.key).foldl (fun t m => inheritFrom f m t) s1
      else s

/-- A WAIT of item `k` on core `p` does not pass: the core is blocked from now on, and a pinned item's holder inherits. -/
def blockOn (s : State) (p k : Nat) (n : Option Nat) : State :=
  let s1 := modCore s p (fun c => { c with blocked := some { since := (c.blocked.map (fun b => b.since)).getD s.now, sem := n } })
  match n, item? s1 k with
  | some n, some it => if it.isPinned then inheritFrom (s.disp.items.length + 1) n s1 else s1
  | _, _ => s1

/-- A WAIT on semaphore `n`: it passes and decrements, and the item that takes it to 0 holds it; or it blocks (R267). -/
def waitSem (s : State) (p k n : Nat) (cmd : TileCmd) : State :=
  let x := sem s n
  if x.val = 0 then blockOn s p k (some n)
  else
    modSem (issued (flushBins s p) p cmd .loop 2) n (fun y => { y with
      val := y.val - 1, holder := if y.val = 1 then some k else y.holder })

/-- The value of scratch register `r` of the loop engine of core `p`: undefined at a launch and written by no instruction (R103), so a
free value, which stays what it is once it is read. -/
def scratchOf (s : State) (p r : Nat) : State × Nat :=
  match tget none (core s p).scratch r with
  | some v => (s, v)
  | none =>
    let (v, s1) := fresh s
    (modCore s1 p (fun c => { c with scratch := tset none c.scratch r (some v) }), v)

/-- WAIT on core `p`: a token, a Tally count after the launch, or a semaphore, named in the program or by a scratch register (R107, R267;
log entry 28). -/
def waitIns (s0 : State) (p : Nat) (w : WaitOn) (tok : Toks) : State :=
  let s := pumpCore s0 p
  let cmd : TileCmd := { ins := .wait w, tok := tok }
  let c := core s p
  match c.item with
  | none => s
  | some k =>
    guardOn (issueOk s p k cmd .loop) s fun s =>
      match w with
      | .token t => if c.tokenSet (2 * s.now) t then issued (flushBins s p) p cmd .loop 2 else blockOn s p k none
      | .tally t => if c.launched + t ≤ s.now then issued (flushBins s p) p cmd .loop 2 else blockOn s p k none
      | .sem n => waitSem s p k n cmd
      | .semScratch r =>
        let (s1, v) := scratchOf s p r
        waitSem s1 p k (v % 4096) cmd

/-- WAIT (R107, R267). -/
def execWait (core : Nat) (w : WaitOn) (tok : Toks) (s : State) : Out := .next (whenLive s fun s => waitIns s core w tok)

/-- Semaphore `n` is signalled by item `k`, if any item: it rises by one, and an inheritance of the signalling holder ends
(R267, R268). -/
def signalSem (s : State) (n : Nat) (k : Option Nat) : State :=
  let held := k.isSome && decide ((sem s n).holder = k)
  let s1 := modSem s n (fun y => { y with val := (y.val + 1) % 2 ^ 32, holder := if held then none else y.holder })
  match k with
  | some k => if held then modItem s1 k (fun i => { i with inherit := false }) else s1
  | none => s1

/-- SIG on core `p` (R107, R267). -/
def sigIns (s : State) (p n : Nat) (tok : Toks) : State :=
  runLoop s p { ins := .sig n, tok := tok } 2 (fun k s => signalSem s n (some k))

/-- SIG (R107, R267). -/
def execSig (core n : Nat) (tok : Toks) (s : State) : Out := .next (whenLive s fun s => sigIns s core n tok)

/-! ## Boundaries and the end -/

/-- BND on core `p`: a tile boundary with its live regions, at which a request that has arrived is served (R108). -/
def bndIns (s : State) (p : Nat) (live : List (Bin × Nat)) (tok : Toks) : State :=
  runLoop s p { ins := .bnd live, tok := tok } 2 (fun _ s =>
    let s1 := modCore s p (fun c => { c with atBnd := some live })
    match (core s1 p).preempt with
    | some t => if t ≤ s.now then stopCore s1 p live else s1
    | none => s1)

/-- BND (R108). -/
def execBnd (core : Nat) (live : List (Bin × Nat)) (tok : Toks) (s : State) : Out :=
  .next (whenLive s fun s => bndIns s core live tok)

/-- END: once every engine is idle the rank has ended; the item ends when every rank has (R107, R178). -/
def execEndOp (core : Nat) (tok : Toks) (s : State) : Out :=
  .next (whenLive s fun s =>
    let s := pumpCore s core
    guardOn (enginesIdle s core) s fun s => runTile s core { ins := .end_, tok := tok } .loop 2 (fun k s =>
      let s1 := modItem s k (fun i => { i with ended := i.ended ++ [(Machine.core s core).rank] })
      match item? s1 k with
      | none => s1
      | some it =>
        if it.ended.length = it.cores.length then finishItem s1 k
        else match (Machine.core s1 core).preempt with
          | some t => if t ≤ s.now then stopCore s1 core [] else s1
          | none => s1))

end Sys2Proof.Machine
end

