-- ==== Sys2Proof/Machine/StaticRun.lean ====
section
/-!
DEFINITION. Sys2Proof/Machine/StaticRun.lean: the static run of a plan's tile programs that plan install makes (07_plans_tiling_and_mapping.md
R160, R164): every rank runs its program by the rules of 04_compute_core.md, on data that are all zero, with every binding at its maximum
(log entry 134). It gives the execution time of the plan, the spacing of its boundaries (R108), and what the programs read and write: rows not
written (R102), regions (R104), the modes of partial sums (Table 4-13), and where staged tensors and scale records come from
(05_number_formats_and_quantisation.md R118, R124, Table 5-6).
-/

namespace Sys2Proof.Machine

/-! ## Where data come from -/

/-- What a program can tell of 16 bytes: C16 sums, or BF16 staging of such (R118); a scale record that DERIVE wrote; data converted with a
static record (R124); the instruction that wrote them, and for a magnitude or a record the instructions whose results it measures. -/
structure Prov where
  c16 : Bool := false
  s16 : Bool := false
  derived : Bool := false
  fixed : Bool := false
  by_ : Nat := 0
  src : List Nat := []
deriving DecidableEq, Repr

/-- Two sources in one. -/
def Prov.join (a b : Prov) : Prov :=
  { c16 := a.c16 || b.c16, s16 := a.s16 || b.s16, derived := a.derived || b.derived, fixed := a.fixed || b.fixed,
    by_ := if b.by_ = 0 then a.by_ else b.by_, src := a.src ++ b.src }

/-- Several sources in one. -/
def joinProv (l : List Prov) : Prov := l.foldl Prov.join {}

/-- The static run: the machine, the ranks that have ended, where data come from, the mode each partial-sum tile was last written in by
the array, the engine that writes each circular region, the tick since which each rank has met no boundary with the longest such time,
the tick of the last END, the Granary places each engine is writing and the ticks at which those written were complete (12 R295), and the
checks of Table 7-3 that have failed. -/
structure SRun where
  s : State
  ranks : Nat
  ended : List Nat := []
  prov : Tbl Prov := []
  modes : Tbl Nat := []
  writers : Tbl Nat := []
  bndAt : Tbl Nat := []
  maxGap : Nat := 0
  endAt : Nat := 0
  writing : Tbl (List Nat) := []
  landed : Tbl Nat := []
  badProgram : Bool := false
  badMode : Bool := false
  badRecords : Bool := false

/-- Mark a failed check. -/
def SRun.program (x : SRun) (ok : Bool) : SRun := if ok then x else { x with badProgram := true }
def SRun.mode (x : SRun) (ok : Bool) : SRun := if ok then x else { x with badMode := true }
def SRun.records (x : SRun) (ok : Bool) : SRun := if ok then x else { x with badRecords := true }

/-- Physical core of rank `r`: the static run places rank r on logical core r. -/
def rankCore (r : Nat) : Nat := r / 8 * 9 + r % 8

/-- The item of the static run. -/
def sItem (i b n : Nat) : Item := { key := 0, e := { plan := i, batch := b }, st := .running, golden := true, cores := upto n }

/-- The machine at the first instruction of an image with batch size `b` in entry `i`, launched at tick 0: all memories empty, every core
with all its tiles, the plan's claim at offset 0, semaphores at their initial values. -/
def sState (s : State) (i b : Nat) (img : PlanImage) : State :=
  let it := sItem i b img.hdr.cores
  let s1 : State := { s with
    tally := 48, cores := [], clus := [], claims := [], sems := img.sems.foldl (fun t d => tset {} t d.n { val := d.init }) []
    hbm := { s.hbm with mem := {} }, disp := { s.disp with items := [it] }, plans := [(i, { st := .installed, img := img })] }
  (upto img.hdr.cores).foldl (fun t r =>
    let p := rankCore r
    let t1 := modCore t p (fun c => c.start 0 r i 0 0)
    setI (setI (setI (setI t1 F.CORE_STATE_STATE p 1) F.CORE_STATE_LOGICAL p r) F.CORE_RESIDENT_TAG p 0) F.CORE_RESIDENT_PLAN p 0) s1

/-! ## Places -/

/-- 16-byte places of an operand of rank `r`, in order: in a bin, or in the Granary. -/
def binPlaces (s : State) (r : Nat) (x : BinRef) (row0 n : Nat) : List Nat :=
  (piecesOf s (rankCore r) x row0 n).flatMap (fun q =>
    let a := match q.spill with
      | some (t, o) => t * 4096 + o
      | none => q.addr
    (upto (cdiv (a % 16 + q.len) 16)).map (fun j => r * 2 ^ 20 + x.bin.num * 2 ^ 16 + a / 16 + j))
def spanPlaces (p : Nat) (sp : GranSpan) (n : Nat) : List Nat :=
  (upto (cdiv n 64)).flatMap (fun i =>
    let (b, o) := sp.granule i
    (upto 4).map (fun j => 2 ^ 30 + (p / 9 * 16 + b) * 2 ^ 18 + o / 16 + j))

def granPlaces (s : State) (r : Nat) (it : Item) (g : GranRef) (n : Nat) : List Nat :=
  spanPlaces (rankCore r) (granSpan s (rankCore r) it g) n

/-- Places an operand is read from, or written to. -/
def placesOf (s : State) (r : Nat) (it : Item) (wr : Bool) (x : Oper × Nat) : List Nat :=
  match x.1 with
  | .bin y =>
    let g := (core s (rankCore r)).region y.bin y.reg
    binPlaces s r y (if wr then g.head else g.tail) x.2
  | .gran g => granPlaces s r it g x.2

/-- Places of the partial-sum tiles of an array operation. -/
def tilePlaces (r : Nat) (o : MMOp) : List Nat :=
  (o.blocks.map (fun b => b.t)).flatMap (fun t => (upto 256).map (fun j => r * 2 ^ 20 + 2 * 2 ^ 16 + t * 256 + j))

/-- Sources of places. -/
def SRun.provs (x : SRun) (l : List Nat) : List Prov := l.map (fun a => tget {} x.prov a)

/-- All places of a list take one source. -/
def SRun.put (x : SRun) (l : List Nat) (v : Prov) : SRun := { x with prov := l.foldl (fun t a => tset {} t a v) x.prov }

/-- Places take the sources of others, one by one. -/
def SRun.copy (x : SRun) (src dst : List Nat) : SRun :=
  { x with prov := (dst.zip (x.provs src)).foldl (fun t e => tset {} t e.1 e.2) x.prov }

/-! ## Checks at an instruction's issue -/

/-- Number of a mode. -/
def Mode.num : Mode → Nat
  | .i8 => 0
  | .l4 => 1
  | .l3 => 2
  | .b16 => 3
  | .c16 => 4

/-- Regions an instruction names, with the engine that writes each it writes, by the numbers of `Engine`. -/
def regionsOf (cmd : TileCmd) : List BinRef × List BinRef :=
  let outs (l : List (Oper × Nat)) : List BinRef := l.filterMap (fun x => match x.1 with
    | .bin y => some y
    | .gran _ => none)
  match cmd.ins with
  | .ld _ (.bin y) _ => ([], [y])
  | .st x _ _ => ([x], [])
  | .ldw _ x _ _ => ([], [x])
  | .cb x => ([x], [])
  | .mm o => ([o.a, o.w], [])
  | .vec op => (op.reads.map (fun x => x.1), outs [op.dest])
  | _ => ([], [])

/-- Engine of an instruction (Table 4-11). -/
def TileIns.engine : TileIns → Engine
  | .ld _ _ _ => .loader
  | .st _ _ _ => .loader
  | .ldw _ _ _ _ => .loader
  | .cb _ => .array
  | .mm _ => .array
  | .vec _ => .vector
  | _ => .loop

/-- A region that REG defines lies in its bin and overlaps no other (R104). -/
def regOk (c : CoreS) (b : Bin) (r base len : Nat) : Bool :=
  decide (r < 8) && decide (1 ≤ len) && decide (base + len ≤ b.rows) && (upto 8).all (fun i =>
    let g := c.region b i
    decide (i = r) || !g.defined || decide (g.base + g.len ≤ base) || decide (base + len ≤ g.base))

/-- A loop that LOOP opens: 1 to 2^24 iterations, at most four strides, at most eight deep (R107). -/
def loopOk (c : CoreS) (n : Nat) (strides : List Int) : Bool :=
  inRange 1 (2 ^ 24) n && decide (strides.length ≤ 4) && decide (c.loops.length < 8)

/-- The loop engine's part of check 5: regions and loops; scratch registers are read by nothing that has written them (R103). -/
def SRun.control (x : SRun) (r : Nat) (cmd : TileCmd) : SRun :=
  let c := core x.s (rankCore r)
  match cmd.ins with
  | .reg b n base len _ => { (x.program (regOk c b n base len)) with writers := tset 0 x.writers (r * 32 + b.num * 8 + n) 0 }
  | .loop n st => x.program (loopOk c n st)
  | .endl => x.program (!c.loops.isEmpty)
  | .wait (.semScratch _) => x.program false
  | .end_ => x.program c.loops.isEmpty
  | _ => x

/-- Regions are defined before they are named; a circular one has one writing engine (Table 4-10); an output map names a linear one. -/
def SRun.named (x : SRun) (r : Nat) (cmd : TileCmd) : SRun :=
  let c := core x.s (rankCore r)
  let (rd, wr) := regionsOf cmd
  let e := cmd.ins.engine.num + 1
  let mapped := match cmd.ins with
    | .vec op => op.outMap.isSome
    | _ => false
  wr.foldl (fun (x : SRun) y =>
    let key := r * 32 + y.bin.num * 8 + y.reg
    if (c.region y.bin y.reg).circ then
      { (x.program (!mapped && (decide (tget 0 x.writers key = 0) || decide (tget 0 x.writers key = e)))) with
        writers := tset 0 x.writers key e }
    else x) (x.program ((rd ++ wr).all (fun y => (c.region y.bin y.reg).defined)))

/-- An array operation accumulates into tiles last written in its own mode, or by no array operation (Table 4-13); no layer takes data
converted with a static record but the transforms of the frequency-domain path (R124). -/
def SRun.mm (x : SRun) (r : Nat) (o : MMOp) (acts : List Nat) : SRun :=
  let ts := o.blocks.map (fun b => r * 64 + b.t)
  let x1 := x.mode (!o.acc || ts.all (fun t => decide (tget 0 x.modes t = 0) || decide (tget 0 x.modes t = o.mode.num + 1)))
  let x2 := x1.records (decide (o.mode = .c16) || (x1.provs acts).all (fun v => !v.fixed))
  { x2 with modes := ts.foldl (fun t k => tset 0 t k (o.mode.num + 1)) x2.modes }

/-- A vector operation on staged data: C16 sums are never staged as BF16 (R118, Table 5-6); a layer output is converted with a record that
DERIVE wrote from its own elements (R124); pooling, crop-and-resize and box decoding take no data converted with a static record. -/
def SRun.vec (x : SRun) (op : VecOp) (ins : List (List Nat)) : SRun :=
  let all := x.provs ins.flatten
  let noS16 := all.all (fun v => !v.s16)
  let noFixed := all.all (fun v => !v.fixed)
  match op with
  | .maxAbs _ _ _ _ => x.mode noS16
  | .requantise _ _ _ _ _ m =>
    let (scl, data) := if m.isSome ∧ ins.length ≠ 2 then (nth [] ins 0, (ins.drop 1).flatten) else (nth [] ins 1, nth [] ins 0)
    let v := joinProv (x.provs scl)
    (x.mode noS16).records (!v.derived || (x.provs data).all (fun y => v.src.contains y.by_))
  | .boxDecode _ _ _ _ _ => x.records noFixed
  | _ => if op.oper.isSome then x.records noFixed else x

/-- Where the result of a vector operation `id` comes from. -/
def vecProv (x : SRun) (op : VecOp) (id : Nat) (ins : List (List Nat)) : Prov :=
  let v := joinProv (x.provs ins.flatten)
  match op with
  | .maxAbs _ _ _ _ => { by_ := id, src := (x.provs ins.flatten).map (fun y => y.by_) }
  | .max _ _ _ _ _ none => { v with derived := false, fixed := false, by_ := id }
  | .derive_ _ _ _ _ _ _ => { by_ := id, derived := true, src := v.src }
  | .requantise _ _ _ _ _ m =>
    let scl := if m.isSome ∧ ins.length ≠ 2 then nth [] ins 0 else nth [] ins 1
    { by_ := id, fixed := !(joinProv (x.provs scl)).derived }
  | .convert src dst _ _ _ _ => { by_ := id, c16 := v.c16, s16 := v.s16 || (v.c16 && decide (dst = .bf16) && decide (src ≠ .bf16)) }
  | _ => { by_ := id, c16 := v.c16, s16 := v.s16 }

/-- An engine's instruction of rank `r` issues: the checks on it, and where its results come from. -/
def SRun.engine (x0 : SRun) (r : Nat) (it : Item) (cmd : TileCmd) : SRun :=
  let id := r * 2048 + (core x0.s (rankCore r)).pc + 1
  let run := insRun x0.s (rankCore r) it cmd false
  let ins := run.rd.map (placesOf x0.s r it false)
  let outs := (run.wr.map (placesOf x0.s r it true)).flatten
  let x := { x0 with writing := tset [] x0.writing (r * 8 + cmd.ins.engine.num) (outs.filter (fun a => decide (2 ^ 30 ≤ a))) }
  match cmd.ins with
  | .mm o => (x.mm r o (ins.drop 1).flatten).put (tilePlaces r o) { c16 := decide (o.mode = .c16), by_ := id }
  | .vec op =>
    let x1 := (x.vec op ins).put outs (vecProv x op id ins)
    { x1 with modes := outs.foldl (fun t a => if a / 2 ^ 16 % 16 = 2 then tset 0 t (r * 64 + a % 2 ^ 16 / 256) 0 else t) x1.modes }
  | .cb _ => x
  | .ld _ (.table _) _ => x
  | _ =>
    let x1 := x.copy ins.flatten outs
    { x1 with modes := outs.foldl (fun t a => if a / 2 ^ 16 % 16 = 2 ∧ a < 2 ^ 30 then tset 0 t (r * 64 + a % 2 ^ 16 / 256) 0 else t) x1.modes }

/-! ## The run -/

/-- The tick at which what core `p` has issued ends. -/
def idleAt (s : State) (p : Nat) : Nat :=
  let c := core s p
  maxOf (s.now :: (c.arrayFree :: c.vecFree :: c.loadFree :: c.flights.filterMap (fun f => f.2.map (fun x => x.endAt))).map (fun t => cdiv t 2))

/-- A rank reaches a boundary, or its end: the time from the last one to the tick at which its engines are idle (R108, 11 R262). -/
def SRun.boundary (x : SRun) (r : Nat) : SRun :=
  let d := idleAt x.s (rankCore r) - tget 48 x.bndAt r
  { x with bndAt := tset 48 x.bndAt r x.s.now, maxGap := if x.maxGap < d then d else x.maxGap }

/-- A semaphore that no rank of the image signals does not hold the static run up. -/
def outerSem (img : PlanImage) (n : Nat) : Bool :=
  !(img.progs.any (fun p => p.2.any (fun c => match c.ins with
    | .sig m => decide (m = n)
    | _ => false)))

/-- An instruction that can issue: its checks, and its effect on the machine. -/
def SRun.issue (x0 : SRun) (img : PlanImage) (r : Nat) (it : Item) (cmd : TileCmd) : SRun :=
  let p := rankCore r
  let x := (x0.control r cmd).named r cmd
  let s := x.s
  match cmd.ins with
  | .reg b n base len circ => { x with s := regIns s p b n base len circ cmd.tok }
  | .loop n st => { x with s := loopIns s p n st cmd.tok }
  | .endl => { x with s := endlIns s p cmd.tok }
  | .wait (.sem n) =>
    if outerSem img n then ({ x with s := issued s p cmd .loop 2 }).boundary r
    else
      let t := waitIns s p (.sem n) cmd.tok
      if (core t p).blocked.isSome then { x with s := t } else ({ x with s := t }).boundary r
  | .wait w => { x with s := waitIns s p w cmd.tok }
  | .sig n => { x with s := sigIns s p n cmd.tok }
  | .bnd live => ({ x with s := bndIns s p live cmd.tok }).boundary r
  | .end_ =>
    if enginesIdle s p then ({ x with ended := x.ended ++ [r], endAt := s.now }).boundary r else x
  | _ => { (x.engine r it cmd) with s := runCmd s p cmd cmd.ins.engine false }

/-- What an engine of rank `r` that has nothing in flight wrote is complete. -/
def SRun.land (r : Nat) (x : SRun) (e : Engine) : SRun :=
  let k := r * 8 + e.num
  match tget [] x.writing k, tget none (core x.s (rankCore r)).flights e.num with
  | a :: l, none => { x with landed := (a :: l).foldl (fun t b => tset 0 t b x.s.now) x.landed, writing := terase x.writing k }
  | _, _ => x

/-- Rank `r` in the tick of the run. -/
def SRun.rank (img : PlanImage) (x : SRun) (r : Nat) : SRun :=
  let p := rankCore r
  let x1 := [Engine.loader, .array, .vector].foldl (SRun.land r) { x with s := pumpCore x.s p }
  if x.ended.contains r then x
  else match itemOn x1.s p with
    | none => x1.program false
    | some it => match (progOf x1.s p it)[(core x1.s p).pc]? with
      | none => x1.program false
      | some cmd => if issueOk x1.s p it.key cmd cmd.ins.engine then x1.issue img r it cmd else x1

/-- One tick of the run; the last argument bounds the ticks left. A check that fails ends it. -/
def SRun.ticks (img : PlanImage) : Nat → SRun → SRun
  | 0, x => x
  | n + 1, x =>
    if x.ended.length = x.ranks ∨ x.badProgram then x
    else
      let y := (upto x.ranks).foldl (SRun.rank img) x
      SRun.ticks img n { y with s := { y.s with tally := y.s.tally + 1 } }

/-- The static run of an image with batch size `b` in entry `i`, of at most 2^32 ticks. -/
def staticRun (s : State) (i b : Nat) (img : PlanImage) : SRun :=
  let x := SRun.ticks img (2 ^ 32) { s := sState s i b img, ranks := img.hdr.cores }
  let flags := ((item? x.s 0).map (fun it => it.flags)).getD 0
  x.program (!flags.testBit 0)

/-- WCET(b) in ticks: from the launch to the tick of the last END (R164); none when the programs do not end in 2^32 ticks. -/
def SRun.wcet (x : SRun) : Option Nat := if x.ended.length = x.ranks then some x.endAt else none

/-- The longest time between two boundaries, in cycles (R108). -/
def SRun.spacing (x : SRun) : Nat := 2 * x.maxGap

/-- The static runs of an image, for each batch size (R164). -/
def staticRuns (s : State) (i : Nat) (img : PlanImage) : List SRun :=
  (rangeFrom 1 img.hdr.maxBatch).map (fun b => staticRun s i b img)

end Sys2Proof.Machine
end

