-- ==== Sys2Proof/Machine/Pixels.lean ====
section
/-!
DEFINITION. Sys2Proof/Machine/Pixels.lean: the arithmetic of shaping (03_shaping_and_encoding.md R61 to R67, R71, R73 to R75):
rotation, scaling, sampling, colour conversion, perturbation, quantisation, packing.
-/

namespace Sys2Proof.Machine

/-! ## Source planes -/

/-- The planes an output needs: luma alone for a Y output of a YUV source. -/
def planesFor (fmt outFmt : Nat) (l : List SPlane) : List SPlane := if outFmt = 2 ∧ fmt ≠ 3 then l.take 1 else l

/-! ## Rotation (R61) -/

/-- A plane rotated by `rot` · 90° clockwise, then mirrored. -/
def SPlane.rotate (p : SPlane) (rot : Nat) (mirror : Bool) : SPlane :=
  let turned := decide (rot % 2 = 1)
  let w := if turned then p.h else p.w
  let h := if turned then p.w else p.h
  let src (x y : Nat) : Nat × Nat :=
    match rot % 4 with
    | 0 => (x, y)
    | 1 => (y, p.h - 1 - x)
    | 2 => (p.w - 1 - x, p.h - 1 - y)
    | _ => (p.w - 1 - y, x)
  { p with
    px := planeOf w h (fun r c =>
      let q := src (if mirror then w - 1 - c else c) r
      p.px.at q.2 q.1)
    w := w, h := h
    subX := (if turned then p.subY else p.subX), subY := (if turned then p.subX else p.subY) }

/-! ## Scaling (R62) -/

/-- The position of output sample `x` on an axis of `nIn` luma samples and `nOut` outputs, in 16.16. -/
def scalePos (nIn nOut x : Nat) (sub : Bool) : Int :=
  let step : Int := (nIn * 2 ^ 16 / nOut : Nat)
  let pos := ((2 * x + 1) * step - 2 ^ 16) / 2
  if sub then (pos - 2 ^ 15) / 2 else pos

/-- An index clamped to 0 to n − 1. -/
def clampIdx (n : Nat) (i : Int) : Nat := if i < 0 then 0 else if (n : Int) ≤ i then n - 1 else i.toNat

/-- The taps of a phase: the built-in bilinear set, or the plan's table. -/
def tapsOf (table : List (List Int)) (p : Nat) : List Int :=
  if table.isEmpty then [0, 0, 0, 256 - 4 * p, 4 * p, 0, 0, 0] else nth [] table p

/-- One output of a filter over a line of `n` samples of `b` bits. -/
def filterAt (b : Nat) (table : List (List Int)) (n : Nat) (at_ : Nat → Nat) (pos : Int) : Nat :=
  let i := pos / 2 ^ 16
  let p := (pos / 2 ^ 10 % 64).toNat
  let v := sumI ((enumFrom 0 (tapsOf table p)).map (fun t => t.2 * (at_ (clampIdx n (i - 3 + t.1)) : Int)))
  (sat 0 ((2 ^ b : Nat) - 1) ((v + 128) / 256)).toNat

/-- A plane scaled to `ow` by `oh`, first horizontally, then vertically; `lw` and `lh` are the luma dimensions. -/
def SPlane.scale (p : SPlane) (b : Nat) (table : List (List Int)) (lw lh ow oh : Nat) : Plane :=
  let hor : Plane := planeOf ow p.h (fun r c => filterAt b table p.w (p.px.at r) (scalePos lw ow c p.subX))
  planeOf ow oh (fun r c => filterAt b table p.h (fun y => hor.at y c) (scalePos lh oh r p.subY))

/-! ## Colour (R63, Table 3-2) -/

/-- KY, KRV, KGU, KGV, KBU of a matrix. -/
def matrixOf (m : Nat) : Int × Int × Int × Int × Int :=
  match m % 4 with
  | 0 => (4769, 6537, -1605, -3330, 8263)
  | 1 => (4769, 7343, -873, -2183, 8652)
  | 2 => (4096, 5743, -1410, -2925, 7258)
  | _ => (4096, 6450, -767, -1917, 7601)

/-- A sample of `b` bits reduced to 8. -/
def to8bit (b v : Nat) : Nat := if b ≤ 8 then v else if 255 < (v + 2 ^ (b - 9)) / 2 ^ (b - 8) then 255 else (v + 2 ^ (b - 9)) / 2 ^ (b - 8)

/-- The channel values of one output pixel from the samples of its planes. -/
def convPixel (fmt outFmt matrix : Nat) (v : List Nat) : List Nat :=
  let b := fmtBits fmt
  let d := b - 8
  let y := nth 0 v 0
  if fmt = 3 then (if outFmt = 0 then v else v.take (if outFmt = 2 then 1 else 3))
  else if fmt = 2 then (if outFmt = 0 then [y, y, y] else if outFmt = 1 then [y, 128, 128] else [y])
  else if outFmt = 1 then v.map (to8bit b)
  else if outFmt = 2 then [to8bit b y]
  else
    let (ky, krv, kgu, kgv, kbu) := matrixOf matrix
    let y' : Int := if matrix % 4 < 2 then (y : Int) - 16 * (2 ^ d : Nat) else y
    let u' : Int := ((nth 0 v 1 : Nat) : Int) - 128 * (2 ^ d : Nat)
    let v' : Int := ((nth 0 v 2 : Nat) : Int) - 128 * (2 ^ d : Nat)
    let f (x : Int) : Nat := (sat 0 255 ((x + (2 ^ (11 + d) : Nat)) / (2 ^ (12 + d) : Nat))).toNat
    [f (ky * y' + krv * v'), f (ky * y' + kgu * u' + kgv * v'), f (ky * y' + kbu * u')]

/-- The channel planes of an output: colour conversion pixel by pixel. -/
def convPlanes (fmt outFmt matrix w h : Nat) (ps : List Plane) : List Plane :=
  (upto (if outFmt = 2 then 1 else 3)).map (fun c => planeOf w h (fun r x =>
    nth 0 (convPixel fmt outFmt matrix (ps.map (fun p => p.at r x))) c))

/-! ## Perturbation (R73 to R75, Table 3-6) -/

/-- A perturbation entry. -/
structure Pert where
  bright : Int := 0
  amp : Nat := 0
  gain : Int := 256
  rot : Int := 0
  jx : Int := 0
  jy : Int := 0
  jw : Int := 0
  jh : Int := 0
  seed : Nat := 1
deriving DecidableEq, Repr

/-- Entry `i` of a table's bytes. -/
def pertAt (b : List Byte) (i : Nat) : Pert :=
  let e := b.drop (32 * i)
  let f (o n : Nat) : Nat := unle ((e.drop o).take n)
  let seed := f 16 4
  { bright := sgn 8 (f 0 1), amp := if 31 < f 1 1 then 31 else f 1 1, gain := 256 + sgn 16 (f 2 2), rot := sgn 16 (f 4 2),
    jx := sgn 16 (f 6 2), jy := sgn 16 (f 8 2), jw := sgn 16 (f 10 2), jh := sgn 16 (f 12 2), seed := if seed = 0 then 1 else seed }

/-- One step of the xorshift32 generator. -/
def xorshift (s : Nat) : Nat :=
  let a := s.xor (s * 2 ^ 13 % 2 ^ 32)
  let b := a.xor (a / 2 ^ 17)
  b.xor (b * 2 ^ 5 % 2 ^ 32)

/-- A channel value perturbed, given the generator's state. -/
def pertVal (q : Pert) (st v : Nat) : Nat :=
  let u := st / 2 ^ 24
  let n : Int := if q.amp = 0 then 0 else (u * (2 * q.amp + 1) / 256 : Nat) - (q.amp : Int)
  (sat 0 255 ((((v : Int) - 128) * q.gain + 128) / 256 + 128 + q.bright + n)).toNat

/-- The values of a row, the generator advancing once before each. -/
def pertRow (q : Pert) : Nat → List Nat → Nat × List Nat
  | st, [] => (st, [])
  | st, v :: r =>
    let s1 := xorshift st
    let (s2, l) := pertRow q s1 r
    (s2, pertVal q s1 v :: l)

/-- The planes of a sample, in the order plane, row, column. -/
def pertPlanes (q : Pert) (ps : List Plane) : List Plane :=
  (ps.foldl (fun (a : Nat × List Plane) p =>
    let (st, rows) := p.foldl (fun (b : Nat × List (List Nat)) r =>
      let (st, l) := pertRow q b.1 r
      (st, b.2 ++ [l])) (a.1, [])
    (st, a.2 ++ [rows])) (q.seed, [])).2

/-- 2^96·π. -/
def piScaled : Nat := 248902613312231085230521944622

/-- cos and sin of θ = rot/64 degrees, scaled by 2^96: 40 terms of their series. -/
def trigSeries (th : Int) : Nat → Int → Nat → Int
  | 0, _, _ => 0
  | n + 1, term, k => term + trigSeries th n (-(term * th / 2 ^ 96 * th / 2 ^ 96) / ((k + 1) * (k + 2) : Nat)) (k + 2)

/-- cs and sn of R74. -/
def trigOf (rot : Int) : Int × Int :=
  let th : Int := rot * (piScaled : Int) / (64 * 180)
  (rhe (16384 * trigSeries th 40 (2 ^ 96) 0) (2 ^ 96), rhe (16384 * trigSeries th 40 th 1) (2 ^ 96))

/-! ## Quantisation (R64) -/

/-- A channel value as a tensor element of channel `c`. -/
def quantOf (d : ShapeDesc) (c v : Nat) : Int :=
  if d.tensor then satI 8 (rhe (((v : Int) - nth 0 d.off c) * d.mult) (2 ^ d.shift)) else (v : Int) - 128

/-- Channel planes as NHWC bytes. -/
def tensorBytes (d : ShapeDesc) (w h : Nat) (ps : List Plane) : List Byte :=
  (upto h).flatMap (fun r => (upto w).flatMap (fun x => (enumFrom 0 ps).flatMap (fun p => leI 1 (quantOf d p.1 (p.2.at r x)))))

/-- A scaler stage's output (R58): rotate, scale, convert, perturb, quantise. -/
def scalerOut (d : ShapeDesc) (fmt w h : Nat) (b : List Byte) (q : Option Pert) : List Byte :=
  let turned := decide (d.rot % 2 = 1)
  let lw := if turned then h else w
  let lh := if turned then w else h
  let src := planesFor fmt d.outFmt (samplePlanes fmt w h b)
  let scaled := src.map (fun p => (p.rotate d.rot d.mirror).scale (fmtBits fmt) (if d.filter then d.table else []) lw lh d.outW d.outH)
  let ch := convPlanes fmt d.outFmt d.matrix d.outW d.outH scaled
  tensorBytes d d.outW d.outH (match q with
    | some q => pertPlanes q ch
    | none => ch)

/-! ## Sickle (R66, R67, R74) -/

/-- A box moved by its jitter. -/
def Box.jitter (b : Box) (q : Pert) : Box := ⟨b.x0 + q.jx, b.y0 + q.jy, b.x1 + q.jx + q.jw, b.y1 + q.jy + q.jh⟩

/-- A degenerate box. -/
def Box.degenerate (b : Box) : Bool := decide (b.x1 ≤ b.x0) || decide (b.y1 ≤ b.y0)

/-- Sample position on an axis (R66). -/
def cropPos (a0 a1 : Int) (n j : Nat) : Int := a0 * 4096 + (2 * j + 1) * (a1 - a0) * 4096 / (2 * n : Nat) - 32768

/-- Luma sample point of output column `j`, row `i`, rotated about the box centre (R74). -/
def cropPoint (b : Box) (ow oh : Nat) (tr : Option (Int × Int)) (i j : Nat) : Int × Int :=
  let sx := cropPos b.x0 b.x1 ow j
  let sy := cropPos b.y0 b.y1 oh i
  match tr with
  | none => (sx, sy)
  | some (cs, sn) =>
    let cx := 2048 * (b.x0 + b.x1)
    let cy := 2048 * (b.y0 + b.y1)
    let dx := sx - cx
    let dy := sy - cy
    (cx + (dx * cs - dy * sn + 8192) / 16384, cy + (dx * sn + dy * cs + 8192) / 16384)

/-- Position on a plane's axis. -/
def subPos (sub : Bool) (v : Int) : Int := if sub then (v - 32768) / 2 else v

/-- The neighbours of a sample point on a plane: (x, y) indices, four for bilinear, one for nearest. -/
def neighbours (nearest : Bool) (p : SPlane) (pt : Int × Int) : List (Int × Int) :=
  let x := subPos p.subX pt.1
  let y := subPos p.subY pt.2
  if nearest then [((x + 32768) / 65536, (y + 32768) / 65536)]
  else
    let i := x / 65536
    let j := y / 65536
    [(i, j), (i + 1, j), (i, j + 1), (i + 1, j + 1)]

/-- Does an index pair lie outside a plane? -/
def outside (p : SPlane) (q : Int × Int) : Bool :=
  decide (q.1 < 0) || decide ((p.w : Int) ≤ q.1) || decide (q.2 < 0) || decide ((p.h : Int) ≤ q.2)

/-- A neighbour's sample: clamped to the edge, or the plane's fill. -/
def neighbourVal (p : SPlane) (fill : Option Nat) (q : Int × Int) : Nat :=
  match outside p q, fill with
  | true, some f => f
  | _, _ => p.px.at (clampIdx p.h q.2) (clampIdx p.w q.1)

/-- One sample of a plane (R67). -/
def sampleAt (nearest : Bool) (p : SPlane) (fill : Option Nat) (pt : Int × Int) : Nat :=
  let vs := (neighbours nearest p pt).map (neighbourVal p fill)
  if nearest then nth 0 vs 0
  else
    let fx := (subPos p.subX pt.1 / 256 % 256).toNat
    let fy := (subPos p.subY pt.2 / 256 % 256).toNat
    (nth 0 vs 0 * (256 - fx) * (256 - fy) + nth 0 vs 1 * fx * (256 - fy) + nth 0 vs 2 * (256 - fx) * fy + nth 0 vs 3 * fx * fy +
      32768) / 65536

/-- The sample points of a crop, row by row. -/
def cropPoints (b : Box) (ow oh : Nat) (tr : Option (Int × Int)) : List (List (Int × Int)) :=
  (upto oh).map (fun i => (upto ow).map (fun j => cropPoint b ow oh tr i j))

/-- FILL of plane `k` for the source's bit depth. -/
def fillOf (h : BoxHdr) (fmt k : Nat) : Nat := nth 0 h.fill k * (if fmt = 1 then 4 else 1)

/-- A box's crop and its flags: PARTIAL 1, OUTSIDE 2, DEGENERATE 4 (R67, R68). -/
def cropOut (d : ShapeDesc) (hd : BoxHdr) (fmt : Nat) (src : List SPlane) (b0 : Box) (q : Option Pert) : List Byte × Nat :=
  let b := match q with
    | some q => b0.jitter q
    | none => b0
  let tr := q.bind (fun q => if q.rot = 0 then none else some (trigOf q.rot))
  let nearest := hd.mode.testBit 0
  let fill (k : Nat) : Option Nat := if hd.mode.testBit 1 then some (fillOf hd fmt k) else none
  let pts := cropPoints b hd.outW hd.outH tr
  let planes : List Plane :=
    if b.degenerate then (enumFrom 0 src).map (fun p => planeOf hd.outW hd.outH (fun _ _ => fillOf hd fmt p.1))
    else (enumFrom 0 src).map (fun p => pts.map (fun r => r.map (sampleAt nearest p.2 (fill p.1))))
  let outs := src.flatMap (fun p => pts.flatMap (fun r => r.flatMap (fun pt => (neighbours nearest p pt).map (outside p))))
  let flags := if b.degenerate then 4 else if outs.all id then 2 else if outs.any id then 1 else 0
  let ch := convPlanes fmt d.outFmt d.matrix hd.outW hd.outH planes
  (tensorBytes d hd.outW hd.outH (match q with
    | some q => pertPlanes q ch
    | none => ch), flags)

/-- Distinct elements of a list. -/
def distinct (l : List Nat) : List Nat := l.foldl (fun a x => if a.contains x then a else a ++ [x]) []

/-- The source granules a box reads, row by row and plane by plane (R69): addresses relative to the picture. A neighbour outside
the picture is read at its clamped index under edge mode 0, and not at all under edge mode 1. -/
def boxGranules (hd : BoxHdr) (fmt w h base : Nat) (src : List SPlane) (b0 : Box) (q : Option Pert) : List Nat :=
  let b := match q with
    | some q => b0.jitter q
    | none => b0
  if b.degenerate then []
  else
    let tr := q.bind (fun q => if q.rot = 0 then none else some (trigOf q.rot))
    let pts := (cropPoints b hd.outW hd.outH tr).flatten
    (enumFrom 0 (memPlanes fmt w h)).flatMap (fun m =>
      match src.find? (fun p => decide (p.mem = m.1)) with
      | none => []
      | some p =>
        let nb := pts.flatMap (neighbours (hd.mode.testBit 0) p)
        let inside := if hd.mode.testBit 1 then nb.filter (fun x => !outside p x) else nb
        let cells := inside.map (fun x => (clampIdx p.h x.2, clampIdx p.w x.1))
        let rows := sortBy (fun a b => decide (a < b)) (distinct (cells.map (fun c => c.1)))
        rows.flatMap (fun r => sortBy (fun a b => decide (a < b)) (distinct ((cells.filter (fun c => decide (c.1 = r))).map
          (fun c => (base + m.2.off + r * m.2.stride + c.2 * m.2.step) / 64)))))

/-! ## Packing (R71, R72) -/

/-- A sample placed in a row: sample index, start and length in positions, bytes. -/
structure Placed where
  idx : Nat
  start : Nat
  len : Nat
  bytes : List Byte
deriving DecidableEq, Repr

/-- Place samples in arrival order, next fit, at most 64 in a row: index, length, bytes; the gap that follows each. -/
def nextFit (rowW gap : Nat) : List (Nat × Nat × List Byte) → List Placed → Nat → List (List Placed)
  | [], cur, _ => if cur.isEmpty then [] else [cur]
  | (i, n, b) :: rest, cur, pos =>
    if pos + n ≤ rowW ∧ cur.length < 64 then nextFit rowW gap rest (cur ++ [⟨i, pos, n, b⟩]) (pos + n + gap)
    else cur :: nextFit rowW gap rest [⟨i, 0, n, b⟩] (n + gap)

/-- Mark vector of a row. -/
def markVector (rowW : Nat) (r : List Placed) : List Byte :=
  (upto rowW).map (fun x => match (enumFrom 1 r).find? (fun p => decide (p.2.start ≤ x) && decide (x < p.2.start + p.2.len)) with
    | some p => BitVec.ofNat 8 p.1
    | none => 0)

/-- Segment table of a row: 64 entries of 8 bytes. -/
def segTable (r : List Placed) : List Byte :=
  padTo 0 512 (r.flatMap (fun p => le 2 p.start ++ le 2 p.len ++ le 2 p.idx ++ le 2 0))

/-- A row of tokens of `z` bytes, or one line of a tile row: samples at their places, zeros between. -/
def rowLine (rowW z : Nat) (r : List (Nat × List Byte)) : List Byte :=
  r.foldl (fun a p => a.take (p.1 * z) ++ p.2 ++ a.drop (p.1 * z + p.2.length)) (List.replicate (rowW * z) 0)

end Sys2Proof.Machine
end

