-- ==== Sys2Proof/Machine/Shaping.lean ====
section
/-!
DEFINITION. Sys2Proof/Machine/Shaping.lean: the shaping units (03_shaping_and_encoding.md R58 to R60, R65, R68 to R73) and their
commands: scaler stages, Sickle stages with their granule reads and boxes, the packer.
-/

namespace Sys2Proof.Machine

/-! ## Sources -/

/-- A source picture as a stage reads it. -/
structure Src where
  fmt : Nat
  w : Nat
  h : Nat
  base : Nat
  bytes : List Byte
  info : ReadInfo := {}

/-- Bytes of the golden inputs of the bindings before `i` (13 R320; log entry 29). -/
def goldenOffset (img : PlanImage) (i : Nat) : Nat :=
  sumN ((img.binds.take i).map (fun d => picSize d.fmt (nth 0 d.dims 0) (nth 0 d.dims 1)))

/-- The picture that binding `i` of an item names; a golden item reads the plan's golden input. -/
def srcOf (s : State) (it : Item) (i : Nat) : Option Src :=
  if it.golden then
    let img := imgOf s it.e
    let d := declOf img i
    let w := nth 0 d.dims 0
    let h := nth 0 d.dims 1
    let at_ := (((timelineOf s (planIdx it.e.plan)).golden.map (fun g => g.input)).getD 0) + goldenOffset img i
    some { fmt := d.fmt, w := w, h := h, base := 0, bytes := (img.weights.drop at_).take (picSize d.fmt w h) }
  else
    (picOf s (bindOf (nth 0 it.e.bind i))).map (fun p =>
      let n := picSize p.format p.w p.h
      { fmt := p.format, w := p.w, h := p.h, base := p.base, bytes := s.hbm.mem.read p.base n, info := s.hbm.mem.info p.base n })

/-- The perturbation of sample `n` of an item, when it has a table (R73). -/
def pertOf (it : Item) (n : Nat) : Option Pert := if it.e.perturb = 0 then none else some (pertAt it.perturbB n)

/-! ## Units and windows (R59) -/

/-- Stage `g` of an item has been completed. -/
def stageDone (s : State) (k g : Nat) : Bool := s.shape.done.any (fun d => decide (d.1 = k) && decide (d.2.1 = g))

/-- The unit's stage. -/
def unitStage (s : State) (u : ShapeUnit) : Option StageS :=
  match u with
  | .scaler => s.shape.scaler
  | .sickle0 => (tget ({} : SickleS) s.shape.sickle 0).stage
  | .sickle1 => (tget ({} : SickleS) s.shape.sickle 1).stage

/-- Reserved windows of a unit that stand in absolute ticks: the stages of pinned items that are not done. -/
def windowsOf (s : State) (u : ShapeUnit) : List (Nat × Nat) :=
  (s.disp.items.filter (fun i => i.isPinned)).flatMap (fun i =>
    ((enumFrom 0 (imgOf s i.e).shaping).filter (fun g => decide (g.2.unit = u) && !stageDone s i.key g.1)).map (fun g =>
      (i.e.launch + g.2.offset, i.e.launch + g.2.offset + g.2.duration)))

/-- Reserved windows of a unit that recur: for each pinned plan installed, each launch offset and golden offset and each of its stages
on the unit, the period, the window's begin in the period and its length. -/
def recurring (s : State) (u : ShapeUnit) : List (Nat × Nat × Nat) :=
  s.plans.flatMap (fun e =>
    match decide (e.2.st = .installed) && decide (e.2.img.hdr.cls = 1), e.2.img.timeline with
    | true, some tl =>
      (tl.offsets.map (fun o => (tl.period, o)) ++ tl.golden.toList.map (fun g => (tl.period * g.every, g.offset))).flatMap (fun o =>
        (e.2.img.shaping.filter (fun g => decide (g.unit = u))).map (fun g => (o.1, o.2 + g.offset, g.duration)))
    | _, _ => [])

/-- At the present tick no window of a recurring reservation runs, and `dur` ticks end before the next one begins. -/
def fitsRecurring (now dur : Nat) (w : Nat × Nat × Nat) : Bool :=
  let since := (now + w.1 - w.2.1 % w.1) % w.1
  decide (w.1 = 0) || (decide (w.2.2 ≤ since) && decide (dur + since ≤ w.1))

/-- A pooled stage of `dur` ticks ends before every reserved window still to come: those of the items at hand, and those reserved at
install for every launch of a pinned plan. -/
def fitsBefore (s : State) (u : ShapeUnit) (dur : Nat) : Bool :=
  (windowsOf s u).all (fun w => decide (w.2 ≤ s.now) || decide (s.now + dur ≤ w.1)) &&
    (recurring s u).all (fitsRecurring s.now dur)

/-- The first stage of an item on a unit that is not done. -/
def nextStage (s : State) (it : Item) (u : ShapeUnit) : Option Nat :=
  ((enumFrom 0 (imgOf s it.e).shaping).find? (fun g => decide (g.2.unit = u) && !stageDone s it.key g.1)).map (fun g => g.1)

/-- The lowest logical core of an item. -/
def lowCore (it : Item) : Nat := minOf 64 it.cores

/-- No other pooled stage that waits for the unit stands before item `it` (R59). -/
def firstWaiting (s : State) (it : Item) (u : ShapeUnit) : Bool :=
  s.disp.items.all (fun j => decide (j.key = it.key) || j.isPinned || decide (j.st ≠ .running) || (nextStage s j u).isNone ||
    decide (it.launchT < j.launchT) || (decide (it.launchT = j.launchT) && decide (lowCore it < lowCore j)))

/-- May stage `g` of item `it` start now? -/
def stageMay (s : State) (it : Item) (g : Nat) (st : ShapeStage) (dur : Nat) : Bool :=
  decide (it.st = .running) && (unitStage s st.unit).isNone && decide (nextStage s it st.unit = some g) &&
    (if it.isPinned then decide (it.launchT + st.offset ≤ s.now) else fitsBefore s st.unit dur && firstWaiting s it st.unit)

/-- The tick from which a stage has waited: its window, or the item's launch or last stage. -/
def waitsFrom (s : State) (it : Item) (st : ShapeStage) : Nat :=
  if it.isPinned then it.launchT + st.offset
  else maxOf (it.launchT :: (s.shape.done.filter (fun d => decide (d.1 = it.key))).map (fun d => d.2.2))

/-- The time a stage has waited counts in the item's delay; a pinned stage after its window is late. -/
def countWait (s : State) (it : Item) (st : ShapeStage) : State :=
  let w := s.now - waitsFrom s it st
  modItem s it.key (fun i => { i with delay := i.delay + w, late := i.late || (i.isPinned && decide (0 < w)) })

/-! ## Writing to the Granary -/

/-- The clusters in which an item has a rank, each with one of its cores. -/
def itemClusters (s : State) (it : Item) : List (Nat × Nat) :=
  it.cores.foldl (fun a l => match physOf s l with
    | some p => if a.any (fun x => decide (x.1 = p / 9)) then a else a ++ [(p / 9, p)]
    | none => a) []

/-- Write bytes at byte offset `off` within granule `g` of a span: the granule's other bytes stay. -/
def granPatch (s : State) (k : Nat) (sp : GranSpan) (g off : Nat) (b : List Byte) : State × Bool × Bool :=
  let (bank, o) := granuleAt sp.width sp.bank sp.start g
  if b.length = 64 then granWrite1 s k bank o sp.lim b []
  else
    let (s1, r) := granRead1 s k bank o sp.lim
    granWrite1 s1 k bank o sp.lim (r.bytes.take off ++ b ++ r.bytes.drop (off + b.length)) (if r.info.dark then [] else r.bad)

/-- Output bytes at offset `o` of a stage's output, striped over clusters granule by granule (R68): dropped at a dark bank, late.
The first argument bounds the granules. -/
def stripeOut (cl : List Nat) (sp : GranSpan) : Nat → Nat → List Byte → State → State × Option Nat × Bool
  | 0, _, _, s => (s, none, false)
  | f + 1, o, b, s =>
    if b.isEmpty then (s, none, false)
    else
      let l := 64 - o % 64
      let k := nth 0 cl (o / 64 % cl.length)
      let (s1, d, late) := granPatch s k sp (o / (64 * cl.length)) (o % 64) (b.take l)
      let (s2, d2, late2) := stripeOut cl sp f (o + (b.take l).length) (b.drop l) s1
      (s2, (if d then some k else d2), late || late2)

/-- The end of a write into the Granary for item `k`: the writes are its own, a dark bank ends it, a late write marks it. -/
def afterPut (s0 : State) (k clu : Nat) (sp : GranSpan) (n : Nat) (dropped late : Bool) : State :=
  let s := nameWrites s0 clu k
  if dropped then darkFault s clu (darkBankOf s clu sp n) [k]
  else if late then modItem s k (fun i => { i with late := true }) else s

/-! ## Scaler (R58, R60) -/

/-- Granules of the source that a scaler stage reads: the planes its output needs. -/
def srcGranules (fmt w h base outFmt : Nat) : Nat :=
  let ms := if outFmt = 2 ∧ fmt ≠ 3 then (memPlanes fmt w h).take 1 else memPlanes fmt w h
  sumN (ms.map (fun m => if m.stride * m.h = 0 then 0 else (base + m.off + m.stride * m.h - 1) / 64 + 1 - (base + m.off) / 64))

/-- Exact ticks of a scaler stage that reads `granules` source granules. -/
def scalerTicks (st : ShapeStage) (granules : Nat) : Nat :=
  let a := cdiv st.outBytes 16
  1624 + (if a < granules then granules else a)

/-- The pictures of a scaler stage, in order; `none` when one is not there. -/
def stageSrcs (s : State) (it : Item) (st : ShapeStage) : Option (List Src) := (st.binding :: st.more).mapM (srcOf s it)

/-- No picture of the stage has a dimension of 0. -/
def srcsFull (l : List Src) : Bool := l.all (fun src => decide (src.w ≠ 0) && decide (src.h ≠ 0))

/-- SCALER_STAGE_START (R59). -/
def execScalerStageStart (item stage : Nat) (s : State) : Out :=
  .next (whenLive s fun s =>
    match item? s item with
    | none => s
    | some it =>
      match (imgOf s it.e).shaping[stage]? with
      | none => s
      | some st =>
        match stageSrcs s it st with
        | none => s
        | some l =>
          let dur := if srcsFull l then
              scalerTicks st (sumN (l.map (fun src => srcGranules src.fmt src.w src.h src.base st.desc.outFmt)))
            else 1
          guardOn (decide (st.unit = .scaler) && stageMay s it stage st dur) s fun s =>
            let s1 := countWait s it st
            { s1 with shape := { s1.shape with
              scaler := some { item := item, stage := stage, start := s.now, dur := dur, pinned := it.isPinned } } })

/-- The Cooper buffer of scaler stage `g` of an item. -/
def stageBuf (s : State) (it : Item) (g : Nat) : Option Nat :=
  it.bufs[(((imgOf s it.e).shaping.take g).filter (fun x => decide (x.unit = .scaler))).length]?

/-- A stage of an item is done at this tick. -/
def markDone (s : State) (k g : Nat) : State := { s with shape := { s.shape with done := s.shape.done ++ [(k, g, s.now)] } }

/-- A scaler stage's output is written to its buffer and staged into the item's clusters. -/
def putScaler (s : State) (it : Item) (g : Nat) (st : ShapeStage) (b : List Byte) : State :=
  let s1 := match stageBuf s it g with
    | some h => hbmPut s (handleAddr s h) b
    | none => s
  (itemClusters s1 it).foldl (fun t c =>
    let sp := granSpan t c.2 it { st.dstGran with strides := [] }
    let (u, d, l) := granPut t c.1 sp b
    afterPut u it.key c.1 sp (cdiv b.length 64) d l) s1

/-- A stage's output has room in the item's clusters: a circular region that is full moves nothing (09 R211). -/
def stageRoom (s : State) (it : Item) (st : ShapeStage) (bytes : Nat) : Bool :=
  (itemClusters s it).all (fun c => granCanWrite s c.1 (granSpan s c.2 it { st.dstGran with strides := [] }) (cdiv bytes 64))

/-- Slots of the staging DMA that a stage due at tick `due` has found full: those beyond the slots its schedule waits are counted and make
the item late (09 R211). -/
def stageWaits (s : State) (it : Item) (st : ShapeStage) (due : Nat) : State :=
  (itemClusters s it).foldl (fun t c => match st.dstGran.circ with
    | none => t
    | some (i, _) =>
      let n := SlotOwner.staging.count due ((granCirc t c.1 i).rdAt / 2) - st.dstGran.slack
      if n = 0 then t else modItem (addI t F.CLU_CIRC_WAITS c.1 n) it.key (fun x => { x with late := true })) s

/-- SCALER_STAGE_DONE: after its exact duration the stage is done; later, its data were late (R58, R60). -/
def execScalerStageDone (s : State) : Out :=
  .next (whenLive s fun s =>
    match s.shape.scaler with
    | none => s
    | some g =>
      guardOn (decide (g.start + g.dur ≤ s.now)) s fun s =>
        let s0 := { s with shape := { s.shape with scaler := none } }
        match item? s g.item with
        | none => s0
        | some it =>
          match (imgOf s it.e).shaping[g.stage]? with
          | none => s0
          | some st =>
            match stageSrcs s it st with
            | none => s0
            | some l => if !stageRoom s it st st.outBytes then s else
              match l.find? (fun src => decide (src.info.ue > 0) || decide (src.info.poison > 0)) with
              | some src => hbmFault s0 (src.info.lastAddr.getD src.base) (decide (src.info.ue = 0)) src.info.decPoison (some it.key)
              | none =>
                let late := decide (g.start + g.dur < s.now)
                let s1 := markDone (modItem (stageWaits s0 it st (g.start + g.dur)) it.key (fun i => { i with late := i.late || late }))
                  it.key g.stage
                if srcsFull l then
                  putScaler s1 it g.stage st ((enumFrom 0 l).flatMap (fun p =>
                    scalerOut st.desc p.2.fmt p.2.w p.2.h p.2.bytes (pertOf it p.1)))
                else s1)

/-! ## Sickle (R65 to R70) -/

/-- A Sickle unit. -/
def sickle (s : State) (u : Nat) : SickleS := tget {} s.shape.sickle u

/-- SICKLE_STATE (0x100): BUSY, PINNED, boxes remaining. -/
def sickleState (s : State) (u : Nat) : Nat × Nat × Nat :=
  let x := sickle s u
  match x.stage with
  | some g => (1, bnat g.pinned, x.boxes.length - x.box)
  | none => (0, 0, 0)

/-- The state with a Sickle unit replaced. -/
def putSickle (s : State) (u : Nat) (x : SickleS) : State :=
  { s with shape := { s.shape with sickle := tset {} s.shape.sickle u x } }

/-- Shape unit of Sickle unit `u`. -/
def sickleUnit (u : Nat) : ShapeUnit := if u = 0 then .sickle0 else .sickle1

/-- Bytes of a channel-interleaved pixel. -/
def chanOf (d : ShapeDesc) : Nat := if d.outFmt = 2 then 1 else 3

/-- The clusters of TARGETS, ascending. -/
def targetsOf (h : BoxHdr) : List Nat := (upto 8).filter (fun c => h.targets.testBit c)

/-- Ticks of a box's output. -/
def boxTicks (d : ShapeDesc) (h : BoxHdr) : Nat :=
  let n := (targetsOf h).length
  24 + cdiv (h.outW * h.outH * chanOf d) (if 16 < 2 * n then 16 else 2 * n)

/-- A signed 32-bit field of a byte string. -/
def fieldI (b : List Byte) (o : Nat) : Int := sgn 32 (unle ((b.drop o).take 4))

/-- Bytes of a list in memory, as far as its COUNT is one that R65 allows. -/
def listBytes (count : Nat) : Nat := 32 + 16 * (if count ≤ 4096 then count else 0)

/-- The header of a list in memory (Table 3-3). -/
def hdrOf (b : List Byte) : BoxHdr :=
  let f (o n : Nat) : Nat := unle ((b.drop o).take n)
  { count := f 0 2, outW := f 2 1, outH := f 3 1, mode := f 4 1, targets := f 5 1, fill := [f 8 1, f 9 1, f 10 1], binding := f 16 1 }

/-- A box list as a stage takes it: its header, its boxes. -/
abbrev StageList := BoxHdr × List Box

/-- A list in memory (R65): header and entries. -/
def listFrom (b : List Byte) : StageList :=
  let h := hdrOf b
  (h, (upto (if h.count ≤ 4096 then h.count else 0)).map (fun i =>
    ⟨fieldI b (32 + 16 * i), fieldI b (36 + 16 * i), fieldI b (40 + 16 * i), fieldI b (44 + 16 * i)⟩))

/-- Limits of a list (R65, R73): a stage whose list breaks them refuses the item; so does a header that names no target cluster or no
binding (log entry 128). -/
def listLimits (it : Item) (l : StageList) : Bool :=
  decide (l.1.count ≤ 4096) && inRange 7 64 l.1.outW && inRange 7 64 l.1.outH && decide (l.1.targets ≠ 0) &&
    decide (l.1.binding ≤ 15) && (!l.1.mode.testBit 2 || decide (l.1.count ≤ it.e.batch))

/-- The box list of a stage: one that lies in the Granary or in the plan's HBM claim, with its own header; or, with the stage's fixed
header, the one its binding names (for a slot's ROI list, the newest that is complete, R70). The last component tells whether the
item goes on. -/
def stageBoxes (s : State) (it : Item) (st : ShapeStage) (hd : BoxHdr) : State × StageList × Bool :=
  match st.listAt, st.listHbm, physOf s (nth 64 it.cores 0) with
  | some g, _, some p =>
    let sp := granSpan s p it { g with strides := [] }
    let (s1, r) := granGet s (p / 9) { sp with circ := none } 1
    let m := cdiv (listBytes (hdrOf r.bytes).count) 64
    let (s2, r2) := granGet s1 (p / 9) { sp with circ := none } m
    let (s3, ok) := afterGran s2 p it.key (p / 9) sp m r2
    (s3, listFrom r2.bytes, ok)
  | none, some o, _ =>
    let a := (planAt s (planIdx it.e.plan)).hbmBase + o
    let n := listBytes (hdrOf (s.hbm.mem.read a 32)).count
    let i := s.hbm.mem.info a n
    if i.ue > 0 ∨ i.poison > 0 then
      (hbmFault s (i.lastAddr.getD a) (decide (i.ue = 0)) i.decPoison (some it.key), (hd, []), false)
    else (s, listFrom (s.hbm.mem.read a n), true)
  | _, _, _ =>
    let l := match bindOf (nth 0 it.e.bind st.listBinding) with
      | .boxlist n false _ => s.strm.lists.reverse.find? (fun (l : BoxList) => decide (l.slot = n) && !l.detect)
      | b => listOf s b
    let boxes := (l.map (fun l => l.boxes)).getD []
    (s, ({ hd with count := boxes.length }, boxes), true)

/-! ## The exact duration of a Sickle stage (R69) -/

/-- Where a Sickle stage stands in its timing: the last issue tick, the granules issued, and for each box ended the granules issued up
to it with the tick of its end; ticks count from the stage's start. -/
structure SickleClk where
  last : Nat := 0
  issued : Nat := 0
  ends : List (Nat × Nat) := []

/-- The tick of the last box's end. -/
def SickleClk.endT (c : SickleClk) : Nat := (c.ends.getLast?.map (fun e => e.2)).getD 0

/-- `n` more reads are issued, one a tick, each once the source buffer of 2,048 has a free entry; `none` when it never has. -/
def SickleClk.issue : Nat → SickleClk → Option SickleClk
  | 0, c => some c
  | n + 1, c =>
    match (if c.issued < 2048 then some 0 else (c.ends.find? (fun e => decide (c.issued + 1 ≤ e.1 + 2048))).map (fun e => e.2)) with
    | some free => SickleClk.issue n { c with issued := c.issued + 1, last := if c.last + 1 < free then free else c.last + 1 }
    | none => none

/-- A box that reads `n` granules and takes `o` ticks. -/
def SickleClk.box (c : SickleClk) (n o : Nat) : Option SickleClk :=
  (c.issue n).map (fun d =>
    let t := if n = 0 ∨ d.last + 1560 < c.endT then c.endT else d.last + 1560
    { d with ends := d.ends ++ [(d.issued, t + o)] })

/-- The exact ticks of a list: `none` when a box needs more granules than the source buffer holds (log entry 129). -/
def sickleTicks (o : Nat) (needs : List Nat) : Option Nat :=
  (needs.foldl (fun (c : Option SickleClk) n => c.bind (fun c => c.box n o)) (some {})).map (fun c => c.endT)

/-- A Sickle stage ends: its flag array is written after the crops, its busy ticks are counted (R68). -/
def endSickle (s : State) (u : Nat) (it : Item) (st : ShapeStage) (g : StageS) : State :=
  let x := sickle s u
  let o := x.boxes.length * (x.hdr.outW * x.hdr.outH * chanOf st.desc)
  let s1 := addI (addI (putSickle s u {}) F.SICKLE_LISTS u 1) F.SICKLE_BUSY u (s.now - g.start)
  let s2 := markDone s1 it.key g.stage
  match physOf s2 (nth 64 it.cores 0) with
  | none => s2
  | some p =>
    let sp := granSpan s2 p it { st.dstGran with strides := [] }
    let (s4, d, l) := stripeOut (targetsOf x.hdr) sp (x.flags.length / 64 + 2) o (x.flags.map (BitVec.ofNat 8)) s2
    let s3 := (targetsOf x.hdr).foldl (fun t k => nameWrites t k it.key) s4
    match d with
    | some k => afterPut s3 it.key k sp (cdiv (o + x.flags.length) 64) true false
    | none => afterPut s3 it.key 0 sp 0 false l

/-- The perturbation of box `i` of a stage. -/
def boxPert (hd : BoxHdr) (it : Item) (i : Nat) : Option Pert := if hd.mode.testBit 2 then pertOf it i else none

/-- The granules box `b`, number `i` of a list with header `hd`, reads. -/
def granulesAt (hd : BoxHdr) (it : Item) (st : ShapeStage) (src : Src) (i : Nat) (b : Box) : List Nat :=
  boxGranules hd src.fmt src.w src.h src.base (planesFor src.fmt st.desc.outFmt (samplePlanes src.fmt src.w src.h src.bytes)) b
    (boxPert hd it i)

/-- The granules box `i` of a unit's stage reads. -/
def granulesOf (x : SickleS) (it : Item) (st : ShapeStage) (src : Src) (i : Nat) : List Nat :=
  ((x.boxes[i]?).map (granulesAt x.hdr it st src i)).getD []

/-- The exact ticks of a Sickle stage with its list; that of a pinned stage is what its window reserves (R59). -/
def listTicks (s : State) (it : Item) (st : ShapeStage) (l : StageList) : Option Nat :=
  if it.isPinned then some st.duration
  else match srcOf s it l.1.binding with
    | none => some 0
    | some src => sickleTicks (boxTicks st.desc l.1) ((enumFrom 0 l.2).map (fun b => (granulesAt l.1 it st src b.1 b.2).length))

/-- SICKLE_STAGE_START: the unit reads the stage's box list and takes the stage; an empty list ends it at once, one that breaks its
limits refuses the item (R59, R65, R70). -/
def execSickleStageStart (unit item stage : Nat) (s : State) : Out :=
  .next (whenLive s fun s =>
    match item? s item with
    | none => s
    | some it =>
      match (imgOf s it.e).shaping[stage]? with
      | none => s
      | some st =>
        match st.hdr with
        | none => s
        | some hd =>
          let dur := listTicks s it st (stageBoxes s it st hd).2.1
          guardOn (decide (unit < 2) && decide (st.unit = sickleUnit unit) && domOn s 219 && dur.isSome &&
              stageMay s it stage st (dur.getD 0)) s fun s =>
              let (s1, l, ok) := stageBoxes (countWait s it st) it st hd
              if !ok then s1
              else if !listLimits it l then endItem s1 item 0x201
              else
                let g : StageS := { item := item, stage := stage, start := s.now, dur := dur.getD 0, pinned := it.isPinned }
                let s2 := putSickle s1 unit { stage := some g, hdr := l.1, boxes := l.2, endT := s.now }
                if l.2.isEmpty then endSickle s2 unit it st g else s2)

/-- What a unit works with: stage, item, descriptor, source. -/
def sickleCtx (s : State) (u : Nat) : Option (StageS × Item × ShapeStage × Src) :=
  match (sickle s u).stage with
  | none => none
  | some g =>
    match item? s g.item with
    | none => none
    | some it =>
      match (imgOf s it.e).shaping[g.stage]? with
      | none => none
      | some st => (srcOf s it (sickle s u).hdr.binding).map (fun src => (g, it, st, src))

/-- The box whose granules are issued next, past those that read none; the first argument bounds the boxes. -/
def skipBoxes (need : Nat → Nat) : Nat → Nat → Nat
  | 0, i => i
  | f + 1, i => if need i = 0 then skipBoxes need f (i + 1) else i

/-- SICKLE_GRANULE_READ: one granule read is issued per tick from tick 1 of the stage, in box order, once a buffer entry is free
(R69). -/
def execSickleGranuleRead (unit : Nat) (s : State) : Out :=
  .next (whenLive s fun s =>
    match sickleCtx s unit with
    | none => s
    | some (g, it, st, src) =>
      let x := sickle s unit
      let n := x.boxes.length
      let need (i : Nat) : Nat := (granulesOf x it st src i).length
      let i := if x.issued = 0 then skipBoxes (fun i => if n ≤ i then 1 else need i) n x.issueBox else x.issueBox
      let last := maxOf (x.lastIssue.map (fun e => e.2))
      guardOn (decide (i < n) && decide (x.inBuf < 2048) && decide (g.start + 1 ≤ s.now) && decide (last < s.now)) s fun s =>
        let fin := decide (x.issued + 1 = need i)
        putSickle s unit { x with
          issueBox := if fin then i + 1 else i, issued := if fin then 0 else x.issued + 1, inBuf := x.inBuf + 1,
          lastIssue := tset 0 x.lastIssue i s.now })

/-- Every granule of box `i` has been issued. -/
def boxIssued (x : SickleS) (need : Nat) (i : Nat) : Bool := decide (i < x.issueBox) || decide (need = 0)

/-- SICKLE_BOX_START: box k starts at the later of the end of box k − 1 and its last granule's bound (R69). -/
def execSickleBoxStart (unit : Nat) (s : State) : Out :=
  .next (whenLive s fun s =>
    match sickleCtx s unit with
    | none => s
    | some (_, it, st, src) =>
      let x := sickle s unit
      let need := (granulesOf x it st src x.box).length
      guardOn (!x.started && decide (x.box < x.boxes.length) && boxIssued x need x.box && decide (x.endT ≤ s.now) &&
        (decide (need = 0) || decide (tget 0 x.lastIssue x.box + 1560 ≤ s.now))) s fun s =>
        putSickle s unit { x with started := true, startT := s.now })

/-- Bad codewords in the granules a box reads. -/
def granInfo (s : State) (l : List Nat) : ReadInfo := l.foldl (fun (i : ReadInfo) a => i.join (s.hbm.mem.info (64 * a) 64)) {}

/-- SICKLE_BOX_END: a box's crop is written, its buffer entries are freed and, after the last box, the flag array is written
(R66 to R69, R74, R75). -/
def execSickleBoxEnd (unit : Nat) (s : State) : Out :=
  .next (whenLive s fun s =>
    match sickleCtx s unit with
    | none => s
    | some (g, it, st, src) =>
      let x := sickle s unit
      guardOn (x.started && decide (x.startT + boxTicks st.desc x.hdr ≤ s.now)) s fun s =>
        match x.boxes[x.box]? with
        | none => s
        | some b =>
          let gs := granulesOf x it st src x.box
          let i := if it.golden then {} else granInfo s gs
          if i.ue > 0 ∨ i.poison > 0 then hbmFault s (i.lastAddr.getD src.base) (decide (i.ue = 0)) i.decPoison (some it.key)
          else
            let planes := planesFor src.fmt st.desc.outFmt (samplePlanes src.fmt src.w src.h src.bytes)
            let (out, fl) := cropOut st.desc x.hdr src.fmt planes b (boxPert x.hdr it x.box)
            let s1 := addI s F.SICKLE_BOXES unit 1
            let s2 := if fl.testBit 1 then addI s1 F.SICKLE_OUTSIDE unit 1 else s1
            let s3 := if fl.testBit 2 then addI s2 F.SICKLE_DEGENERATE unit 1 else s2
            let s4 := if (st.pack.map (fun c => c.tile)).getD false then
                { s3 with shape := { s3.shape with crops := s3.shape.crops ++
                  [{ item := it.key, stage := g.stage, w := x.hdr.outW, h := x.hdr.outH, bytes := out }] } }
              else s3
            let s5 := putSickle s4 unit { x with
              box := x.box + 1, started := false, endT := s.now, inBuf := x.inBuf - gs.length, flags := x.flags ++ [fl] }
            match physOf s5 (nth 64 it.cores 0) with
            | none => s5
            | some p =>
              let sp := granSpan s5 p it { st.dstGran with strides := [] }
              let (t, d, l) := stripeOut (targetsOf x.hdr) sp (out.length / 64 + 2) (x.box * out.length) out s5
              let s6 := (targetsOf x.hdr).foldl (fun u k => nameWrites u k it.key) t
              match d with
              | some k => afterPut s6 it.key k sp (cdiv ((x.box + 1) * out.length) 64) true false
              | none =>
                let s7 := afterPut s6 it.key 0 sp 0 false l
                if x.box + 1 = x.boxes.length then endSickle s7 unit it st g else s7)

/-! ## Packer (R71, R72) -/

/-- A sample as the packer places it: the positions it takes, its lines, its bytes. -/
structure PackSample where
  len : Nat
  lines : Nat := 1
  bytes : List Byte

/-- Bytes of a position of a sample: a pixel, or a token. -/
def posBytes (st : ShapeStage) (c : PackCfg) : Nat := if c.tile then chanOf st.desc else c.tokBytes

/-- A packed row's bytes: an OUT_H-high image, or tokens. -/
def packRow (st : ShapeStage) (c : PackCfg) (h : Nat) (r : List Placed) : List Byte :=
  let z := posBytes st c
  (upto h).flatMap (fun y => rowLine c.rowW z (r.map (fun p => (p.start, (p.bytes.drop (y * p.len * z)).take (p.len * z)))))

/-- A token-form sample is taken: an utterance is noted in the item with whether it is left out; a sequence is read from the Granary.
The last component tells whether the item goes on. -/
def takeSample (s : State) (it : Item) (c : PackCfg) (x : PackSrc) : State × PackSample × Bool :=
  match x with
  | .utt slot n b =>
    let len := cdiv b.length c.tokBytes
    let src := (((tget ({} : RecS) s.strm.recs (slot - 72)).starts.find? (fun e => decide (e.1 = n))).map (fun e => e.2)).getD 0
    (modItem s it.key (fun i => { i with utts := i.utts ++ [{ slot := slot, utt := n, src := src, oversize := decide (c.rowW < len) }] }),
      { len := len, bytes := b }, true)
  | .seq at_ n =>
    match physOf s (nth 64 it.cores 0) with
    | none => (s, { len := 0, bytes := [] }, true)
    | some p =>
      let sp := granSpan s p it { at_ with strides := [] }
      let m := cdiv n 64
      let (s1, r) := granGet s (p / 9) { sp with circ := none } m
      let (s2, ok) := afterGran s1 p it.key (p / 9) sp m r
      (s2, { len := cdiv n c.tokBytes, bytes := r.bytes.take n }, ok)

/-- The samples of a packer stage: the crops that the Sickle stage has produced, or the token-form samples given. -/
def packSamples (s : State) (it : Item) (stage : Nat) (c : PackCfg) (l : List PackSrc) : State × List PackSample × Bool :=
  if c.tile then
    (s, (s.shape.crops.filter (fun x => decide (x.item = it.key) && decide (x.stage = stage))).map (fun x =>
      { len := x.w, lines := x.h, bytes := x.bytes }), true)
  else l.foldl (fun (a : State × List PackSample × Bool) x =>
    if a.2.2 then
      let (t, y, ok) := takeSample a.1 it c x
      (t, a.2.1 ++ [y], ok)
    else a) (s, [], true)

/-- The samples can be packed: the Sickle stage is done; every utterance is one that its record slot has had. -/
def packReady (s : State) (it : Item) (stage : Nat) (c : PackCfg) (l : List PackSrc) : Bool :=
  if c.tile then stageDone s it.key stage
  else l.all (fun x => match x with
    | .utt slot n _ => inRange 72 75 slot && (tget ({} : RecS) s.strm.recs (slot - 72)).starts.any (fun e => decide (e.1 = n))
    | .seq _ _ => true)

/-- PACK: samples are placed in rows with mark vectors and segment tables, or the item is refused (R71, R72). Rows stand one
after the other in the stage's Granary region, each with its mark vector and its segment table, and after them one flag byte a
sample (log entry 29). -/
def execPack (item stage : Nat) (samples : List PackSrc) (s : State) : Out :=
  .next (whenLive s fun s =>
    match item? s item with
    | none => s
    | some it =>
      match (imgOf s it.e).shaping[stage]? with
      | none => s
      | some st =>
        match st.pack with
        | none => s
        | some c =>
          guardOn (decide (it.st = .running) && packReady s it stage c samples) s fun s =>
            let (s0, l, ok) := packSamples s it stage c samples
            if !ok then s0
            else
              let tooWide (x : PackSample) : Bool := !c.tile && decide (c.rowW < x.len)
              let n := (l.filter tooWide).length
              let u := if st.unit = .sickle1 then 1 else 0
              let s1 := if n = 0 then s0 else addI s0 F.SICKLE_OVERSIZE u n
              let rows := nextFit c.rowW (if c.tile then c.guard_ else 0)
                (((enumFrom 0 l).filter (fun x => !tooWide x.2)).map (fun x => (x.1, x.2.len, x.2.bytes))) [] 0
              if c.maxRows < rows.length then endItem s1 item 0x201
              else
                let out := rows.flatMap (fun r => packRow st c (maxOf (l.map (fun x => x.lines))) r ++ markVector c.rowW r ++ segTable r) ++
                  l.map (fun x => if tooWide x then (8 : Byte) else 0)
                if !stageRoom s it st out.length then s else
                let s2 := { s1 with shape := { s1.shape with packRows := tset 0 s1.shape.packRows item rows.length } }
                (itemClusters s2 it).foldl (fun t k =>
                  let sp := granSpan t k.2 it { st.dstGran with strides := [] }
                  let (v, d, l) := granPut t k.1 sp out
                  afterPut v item k.1 sp (cdiv out.length 64) d l) s2)

end Sys2Proof.Machine
end

