-- ==== Sys2Proof/Machine/Encode.lean ====
section
/-!
DEFINITION. Sys2Proof/Machine/Encode.lean: the encode cores (03_shaping_and_encoding.md R76 to R82): taking source pictures, long-
term references, CLIP records (08_tracking_and_metadata.md Table 8-11). The bitstream is a function of the inputs R82 names, which the
codec's standard gives (log entry 13).
-/

namespace Sys2Proof.Machine

/-! ## The encoder's input (R77; log entry 126) -/

/-- BT.709 limited Y, Cb and Cr of an RGB8 pixel. -/
def yccOf (v : List Nat) : List Nat :=
  let r : Int := (nth 0 v 0 : Nat)
  let g : Int := (nth 0 v 1 : Nat)
  let b : Int := (nth 0 v 2 : Nat)
  [(16 + (748 * r + 2516 * g + 254 * b + 2048) / 4096).toNat, (128 + (-412 * r - 1387 * g + 1799 * b + 2048) / 4096).toNat,
   (128 + (1799 * r - 1634 * g - 165 * b + 2048) / 4096).toNat]

/-- A plane averaged over 2 × 2 blocks, the last row or column standing for one beyond it. -/
def quarter (w h : Nat) (p : Plane) : Plane :=
  planeOf (cdiv w 2) (cdiv h 2) (fun r c =>
    let r1 := if 2 * r + 1 < h then 2 * r + 1 else 2 * r
    let c1 := if 2 * c + 1 < w then 2 * c + 1 else 2 * c
    (p.at (2 * r) (2 * c) + p.at (2 * r) c1 + p.at r1 (2 * c) + p.at r1 c1 + 2) / 4)

/-- The 4:2:0 planes of a source picture, in its own orientation and bit depth. -/
def encPlanes (fmt w h : Nat) (b : List Byte) : List SPlane :=
  let cw := cdiv w 2
  let ch := cdiv h 2
  let chroma (p : Plane) : SPlane := { px := p, mem := 1, w := cw, h := ch }
  match fmt, samplePlanes fmt w h b with
  | 2, ps => ps ++ (List.replicate 2 (chroma (planeOf cw ch (fun _ _ => 128))))
  | 3, ps =>
    let y (i : Nat) : Plane := planeOf w h (fun r c => nth 0 (yccOf (ps.map (fun p => p.px.at r c))) i)
    [{ px := y 0, mem := 0, w := w, h := h }, chroma (quarter w h (y 1)), chroma (quarter w h (y 2))]
  | 4, ps => (ps.take 1) ++ (ps.drop 1).map (fun p => chroma (halfRows cw h p.px))
  | _, ps => ps.map (fun p => { p with subX := false, subY := false })

/-- The encoder's input: each plane rotated and scaled to its size in a 4:2:0 picture of ENC_SIZE, reduced to 8 bits; luma, then the
chroma samples interleaved. -/
def encInput (fmt w h rot : Nat) (mirror : Bool) (ow oh : Nat) (b : List Byte) : List Byte :=
  let out (i : Nat) : Plane :=
    match ((encPlanes fmt w h b)[i]?).map (fun p => p.rotate rot mirror) with
    | none => []
    | some q =>
      (q.scale (fmtBits fmt) [] q.w q.h (if i = 0 then ow else cdiv ow 2) (if i = 0 then oh else cdiv oh 2)).map
        (fun r => r.map (to8bit (fmtBits fmt)))
  yuvBytes false (out 0) (out 1) (out 2)

/-! ## Starting a picture (R79, R80, R82) -/

/-- Slices are emitted as they are completed: SUBLAT with more than one slice a picture (R80, R83). -/
def subLat (s : State) (e : Nat) : Bool := decide (regI s F.ENC_CTRL_SUBLAT e ≠ 0) && decide (regI s F.ENC_GOP_SLICE_ROWS e ≠ 0)

/-- Slices of a picture (R80): of SLICE_ROWS CTU rows each, 64 luma rows for HEVC, 16 for AVC. -/
def sliceCount (s : State) (e : Nat) : Nat :=
  let r := regI s F.ENC_GOP_SLICE_ROWS e
  let ctu := if regI s F.ENC_CTRL_CODEC e = 2 then 64 else 16
  if r = 0 then 1 else cdiv (cdiv (regI s F.ENC_SIZE_H e) ctu) r

/-- The committed ENC fields that a picture is coded with. -/
def encFields (s : State) (e : Nat) : List Nat :=
  [F.ENC_CTRL_CODEC, F.ENC_CTRL_RC, F.ENC_SIZE_W, F.ENC_SIZE_H, F.ENC_RATE_FPS, F.ENC_RATE_KBPS, F.ENC_RATE_QP,
   F.ENC_GOP_IDR_PERIOD, F.ENC_GOP_SLICE_ROWS, F.ENC_LTR_STORE_IDX, F.ENC_LTR_USE_IDX].map (fun f => regI s f e)

/-- The encoding of the picture at the head of the queue starts, with the fields committed now: it is an IDR or not, and the
long-term bits of ENC_LTR are applied and cleared (R79). -/
def startEnc (s : State) (e : Nat) : State :=
  let x := enc_ s e
  match x.queue with
  | [] => s
  | p :: rest =>
    let per := regI s F.ENC_GOP_IDR_PERIOD e
    let use := decide (regI s F.ENC_LTR_USE e ≠ 0)
    let held := if regI s F.ENC_LTR_USE_IDX e = 0 then x.ltr0 else x.ltr1
    let due := !x.firstDone || (decide (per ≠ 0) && decide (per ≤ x.sinceIdr))
    let idr := due || (use && !held)
    let store := decide (regI s F.ENC_LTR_STORE e ≠ 0)
    let idx := regI s F.ENC_LTR_STORE_IDX e
    let flags := 4 * bnat idr + 8 * bnat store + 16 * bnat (use && !idr)
    let input := encInput p.fmt p.w p.h (regI s F.ENC_SRC_ROT e) (decide (regI s F.ENC_SRC_MIRROR e ≠ 0)) (regI s F.ENC_SIZE_W e)
      (regI s F.ENC_SIZE_H e) p.bytes
    let s1 := modEnc s e (fun y => { y with
      queue := { p with flags := flags, slices := sliceCount s e, sub := subLat s e } :: rest,
      firstDone := true, started := true, sinceIdr := if idr then 1 else y.sinceIdr + 1, slice := 0,
      ltr0 := (y.ltr0 && !idr) || (store && decide (idx = 0)), ltr1 := (y.ltr1 && !idr) || (store && decide (idx = 1)),
      history := y.history ++ [(encFields s e ++ [flags], input)] })
    putBoth (putBoth s1 F.ENC_LTR_STORE e 0 0 0) F.ENC_LTR_USE e 0 0 0

/-! ## Pictures and slices -/

/-- The kind of picture an encoder takes: the picture or full field, or window SEL − 1 (R77). -/
def encKind (s : State) (e slot : Nat) : PicKind := if slot < 64 then .decoded else .live (regI s F.ENC_SRC_SEL e)

/-- ENCODER_PICTURE_TAKE: a source picture that is due enters the queue of two, or is skipped (R77, R78). -/
def execEncoderPictureTake (enc slot src : Nat) (s : State) : Out :=
  .next (whenLive s fun s =>
    let x := enc_ s enc
    match s.strm.pics.find? (fun p => decide (p.slot = slot) && decide (p.src = src) && decide (p.kind = encKind s enc slot) &&
      p.ready && !p.dead) with
    | none => s
    | some p =>
      guardOn (decide (enc < 2) && s.d0 && decide (regI s F.ENC_CTRL_EN enc ≠ 0) && decide (regI s F.ENC_SRC_SLOT enc = slot) &&
        decide (p.outcome < 2) && decide (x.due ≤ src) && decide (p.w ≠ 0) && decide (p.h ≠ 0)) s fun s =>
        if 2 ≤ x.queue.length then addI s F.ENC_SKIPPED enc 1
        else
          let fps := regI s F.ENC_RATE_FPS enc
          let q : EncPic := { src := src, num := x.picNum, slot := slot, fmt := p.format, w := p.w, h := p.h,
                              bytes := s.hbm.mem.read p.base (picSize p.format p.w p.h) }
          let s1 := modEnc s enc (fun y => { y with
            queue := y.queue ++ [q], picNum := y.picNum + 1,
            due := y.due + (if fps = 0 then 0 else 1300000000 / fps) })
          if x.queue.isEmpty then startEnc s1 enc else s1)

/-- CLIP records of a slice: fragments of 4,096 bytes, the last one shorter (Table 8-11). The first argument bounds them. -/
def clipRecs (s : State) (e : Nat) (p : EncPic) (slice : Nat) (lastSlice : Bool) : Nat → Nat → List Byte → List Rec
  | 0, _, _ => []
  | f + 1, off, b =>
    if b.isEmpty then []
    else
      let n := if 4096 < b.length then 4096 else b.length
      let flags := bnat (decide (n = b.length)) + 2 * bnat lastSlice + p.flags
      let bytes := recHdr 7 (32 + n) p.slot flags p.src ++ le 1 e ++ le 1 (regI s F.ENC_CTRL_CODEC e) ++ le 2 slice ++
        le 4 p.num ++ le 4 off ++ le 2 n ++ le 2 0 ++ b.take n
      { ring := regI s F.ENC_SRC_RING e, bytes := bytes } :: clipRecs s e p slice lastSlice f (off + n) (b.drop n)

/-- Slice `k` of the picture in work is emitted: what the core codes for it by R82. -/
def emitSlice (s : State) (e : Nat) (p : EncPic) (k : Nat) : State :=
  let b := Config.encSlice (reg s F.MGMT_FW_VERSION) (enc_ s e).history k
  addPairI ((clipRecs s e p k (decide (k + 1 = p.slices)) (b.length / 4096 + 1) 0 b).foldl pushRec s)
    F.ENC_BYTES_LO F.ENC_BYTES_HI e b.length

/-- ENCODE_SLICE_DONE: the next slice of the picture in work is complete; with SUBLAT it is emitted (R80). -/
def execEncodeSliceDone (enc : Nat) (s : State) : Out :=
  .next (whenLive s fun s =>
    let x := enc_ s enc
    match x.queue with
    | [] => s
    | p :: _ =>
      guardOn (decide (enc < 2) && decide (regI s F.ENC_CTRL_EN enc ≠ 0) && x.started && decide (x.slice < p.slices)) s fun s =>
        let s1 := modEnc s enc (fun y => { y with slice := y.slice + 1 })
        if p.sub then emitSlice s1 enc p x.slice else s1)

/-- The picture in work is complete: without SUBLAT its slices are emitted now (R78 to R80). -/
def finishEnc (s : State) (enc : Nat) (p : EncPic) (rest : List EncPic) : State :=
  let s1 := if p.sub then s else (upto p.slices).foldl (fun t k => emitSlice t enc p k) s
  addI (modEnc s1 enc (fun y => { y with queue := rest, slice := 0, started := false })) F.ENC_PICTURES enc 1

end Sys2Proof.Machine
end

