-- ==== Sys2Proof/Machine/Fabric.lean ====
section
/-!
DEFINITION. Sys2Proof/Machine/Fabric.lean: Tally alignment, the time reference, Rerus Links, fabric transfers and host relay
(12_determinism_and_fabric.md R283 to R302), and their commands.
-/

namespace Sys2Proof.Machine

/-! ## Ports (R290 to R294) -/

/-- A port's own state. -/
def link (s : State) (p : Nat) : LinkS := tget {} s.fab.links p

/-- The state with a port changed. -/
def modLink (s : State) (p : Nat) (f : LinkS → LinkS) : State := { s with fab := { s.fab with links := tmod {} s.fab.links p f } }

/-- The port is up. -/
def portUp (s : State) (p : Nat) : Bool := decide (p < 4) && decide (regI s F.LINK_STATE_STATE p = 2)

/-- The port serves fabric transfers: not the source port of a follower whose alignment failed, whose peer is of another SYSREF domain
(R284, Table 12-6). -/
def carries (s : State) (p : Nat) : Bool :=
  portUp s p && !(decide (reg s F.TALLY_STATE_STATE = 4) && decide (p = reg s F.TALLY_CTRL_SRC_PORT))

/-- The port carries probes: it is up, or in ID_CONFLICT (R294). -/
def portProbes (s : State) (p : Nat) : Bool := decide (p < 4) && (portUp s p || decide (regI s F.LINK_STATE_STATE p = 3))

/-- Receive credits of a virtual lane (R292). -/
def laneCredits (lane : Nat) : Nat := if lane = 0 then 4 else if lane = 1 then 512 else 16

/-- A credit of the lane is left. -/
def hasCredit (l : LinkS) (lane : Nat) : Bool := decide ((l.held.filter (fun h => decide (h.1 = lane))).length < laneCredits lane)

/-- CRC-4 of `n` bits of `v`, the most significant first, polynomial x⁴ + x + 1 (R290). -/
def crc4 (v : Nat) : Nat → Nat → Nat
  | 0, c => c
  | n + 1, c => crc4 v n (let d := c * 2 % 16
                          if (c.testBit 3) != (v.testBit n) then d.xor 3 else d)

/-- Framing bits [11:0] of a flit (R290). -/
def frameBits (f : Flit) : Nat := f.lane % 4 + 4 * bnat f.sou + 8 * bnat f.eou + 16 * (f.seq % 256)

/-- A flit leaves the port: it is kept in the replay buffer of 128 flits. -/
def launchFlit (s : State) (p : Nat) (f : Flit) (core : Option Nat) (since : Nat) : State :=
  let l := link s p
  let f1 := { f with seq := l.txSeq % 256 }
  let f2 := { f1 with crc := crc4 (frameBits f1) 12 0 }
  let s1 := modLink s p (fun x => { x with
    txSeq := x.txSeq + 1, replay := (x.replay ++ [f2]).drop (x.replay.length - 127), held := x.held ++ [(f.lane, core)] })
  emit (addI (addI s1 F.LINK_TX_FLITS p 1) F.LINK_CREDIT_WAITS p (s.now - since)) (.linkFlit p f2)

/-- Waiting flits leave while they hold a credit: Tally/sync first, then control, then data in order (R292). -/
def pump (p : Nat) : Nat → State → State
  | 0, s => s
  | n + 1, s =>
    let l := link s p
    let first (lane : Nat) : Option (Flit × Nat × Option Nat) :=
      if hasCredit l lane then l.txq.find? (fun x => decide (x.1.lane = lane)) else none
    match (first 0).or ((first 2).or (first 1)) with
    | none => s
    | some x => pump p n (launchFlit (modLink s p (fun y => { y with txq := y.txq.erase x })) p x.1 x.2.2 x.2.1)

/-- Flits for port `p` are handed to it; `core` holds their credits (11 R269). -/
def sendFlits (s : State) (p : Nat) (fs : List Flit) (core : Option Nat) : State :=
  let s1 := modLink s p (fun x => { x with txq := x.txq ++ fs.map (fun f => (f, s.now, core)) })
  let s2 := match core with
    | some c => modCore s1 c (fun x => { x with credits := x.credits + fs.length })
    | none => s1
  pump p (link s2 p).txq.length s2

/-- The fabric section of an item's plan. -/
def fabOf (s : State) (it : Item) : FabSec := (imgOf s it.e).fabric.getD {}

/-- This chip's ID. -/
def chipId (s : State) : Nat := reg s F.TALLY_CHIP

/-- Does a transfer use port `p` of this chip: it is sent over it, or due over it from its peer? -/
def xferUses (s : State) (p : Nat) (x : FabXfer) : Bool :=
  !x.relay && ((decide (x.srcChip = chipId s) && decide (x.port = p)) ||
    (decide (x.dstChip = chipId s) && decide (x.srcChip = regI s F.LINK_PEER_CHIP p)))

/-- Launched fabric items that use port `p`. -/
def itemsOver (s : State) (p : Nat) : List Nat :=
  (s.disp.items.filter (fun i => i.launched && (imgOf s i.e).hdr.fabricPlan && (fabOf s i).xfers.any (xferUses s p))).map
    (fun i => i.key)

/-- A port goes down (R293): its fabric items fail, the event is counted and recorded with a cause whose codes the spec does
not give (a free value), and the port retrains, or is FAILED when its spare is in use already or `dead` says so. -/
def portDown (s : State) (p : Nat) (dead : Bool) : State :=
  let spare := (link s p).spareUsed
  let ks := itemsOver s p
  let s1 := setI (addI s F.LINK_DOWNS p 1) F.LINK_STATE_STATE p (if spare || dead then 4 else 1)
  let s2 := modLink s1 p (fun _ => { spareUsed := spare })
  linkFault (fresh s2).2 p (fresh s2).1 ks

/-! ## Hop latency (R285) -/

/-- A probe departs now. -/
def sendProbe (s : State) (p : Nat) : State :=
  sendFlits (modLink s p (fun x => { x with probeT0 := some s.now })) p [{ lane := 0, body := .probe }] none

/-- PROBE: every 2²⁰ ticks a port sends a probe (R285). -/
def execProbe (port : Nat) (s : State) : Out :=
  .next (whenLive s fun s =>
    guardOn (portProbes s port && (match (link s port).probeT0 with
      | some t => decide (t + 2 ^ 20 ≤ s.now)
      | none => true)) s fun s => sendProbe s port)

/-- PROBE_RECEIVED: a probe is stamped at its arrival t1, and an echo departs at t2 with both stamps (R285). -/
def execProbeReceived (port t1 : Nat) (s : State) : Out :=
  .next (whenLive s fun s =>
    guardOn (portProbes s port && decide (t1 ≤ s.now)) s fun s =>
      sendFlits s port [{ lane := 0, body := .echo t1 s.now }] none)

/-- ECHO_RECEIVED: the echo arrives at t3 and gives the hop latency H; above 4,095 ticks the port is FAILED (R285). -/
def execEchoReceived (port t1 t2 t3 : Nat) (s : State) : Out :=
  .next (whenLive s fun s =>
    guardOn (portProbes s port) s fun s =>
      match (link s port).probeT0 with
      | none => s
      | some t0 =>
        let h : Int := (((t3 : Int) - t0) - ((t2 : Int) - t1) + 1) / 2
        if h > 4095 then portDown s port true else setI s F.LINK_HOP port h.toNat)

/-! ## Tally alignment (R286, R287) -/

/-- Ports on which the chip sends markers: every up port of a domain master, every up port but the source of an ALIGNED
follower (R286). -/
def markerPorts (s : State) : List Nat :=
  if reg s F.TALLY_CTRL_ROLE = 1 then (upto 4).filter (portUp s)
  else if reg s F.TALLY_CTRL_ROLE = 2 ∧ reg s F.TALLY_STATE_STATE = 2 then
    (upto 4).filter (fun p => portUp s p && decide (p ≠ reg s F.TALLY_CTRL_SRC_PORT))
  else []

/-- MARKER: at a Tally multiple of 2²⁰ an aligned chip sends a marker (R286). -/
def execMarker (s : State) : Out :=
  .next (whenLive s fun s =>
    guardOn (decide (s.now % 2 ^ 20 = 0)) s fun s =>
      (markerPorts s).foldl (fun t p => sendFlits t p [{ lane := 0, body := .marker s.now }] none) s)

/-- Every fabric item of the chip fails (R287). -/
def failFabric (s : State) : State := endItems s (fun i => (imgOf s i.e).hdr.fabricPlan) 0x307

/-- A slip in service (R287). -/
def outOfStep (s : State) (delta : Int) : State :=
  let s1 := setR (addR s F.TALLY_SLIPS 1) F.TALLY_STATE_STATE 3
  failFabric (safNow s1 6 1 5 (reg s F.TALLY_CTRL_SRC_PORT) 0 (enc 64 delta) 0)

/-- MARKER_RECEIVED: a follower stamps a marker of its source port and forms Δ, Δ13 and the residual; it steps its Tally at the
next SYSREF edge, fails alignment, or detects a slip (R286, R287). -/
def execMarkerReceived (port value : Nat) (s : State) : Out :=
  .next (whenLive s fun s =>
    guardOn (portUp s port && decide (reg s F.TALLY_CTRL_ROLE = 2) && decide (port = reg s F.TALLY_CTRL_SRC_PORT)) s fun s =>
      let delta : Int := (value : Int) + regI s F.LINK_HOP port - s.now
      let d13 : Int := 13 * rhe delta 13
      let e := delta - d13
      let big := decide (e < -4) || decide (4 < e)
      let s1 := setR (addR { s with fab := { s.fab with lastMarker := some s.now } } F.TALLY_MARKERS 1) F.TALLY_STATE_RESID (enc 8 e)
      if s.fab.armed then
        let s2 := { s1 with fab := { s1.fab with armed := false } }
        if big then setR (putBoth s2 F.TALLY_CTRL_ALIGN 0 0 0 0) F.TALLY_STATE_STATE 4
        else { s2 with fab := { s2.fab with step := some d13, stepAligns := true } }
      else if reg s F.TALLY_STATE_STATE = 2 ∧ s.fab.step.isNone ∧ (d13 ≠ 0 ∨ big = true) then outOfStep s1 delta
      else s1)

/-- MARKER_ABSENT: an aligned follower has received no marker for 2²¹ ticks: its Tally is kept, its source port goes down (Table
12-5). -/
def execMarkerAbsent (s : State) : Out :=
  .next (whenLive s fun s =>
    let p := reg s F.TALLY_CTRL_SRC_PORT
    guardOn (decide (reg s F.TALLY_CTRL_ROLE = 2) && decide (reg s F.TALLY_STATE_STATE = 2) && portUp s p &&
      decide ((s.fab.lastMarker.getD 0) + 2 ^ 21 ≤ s.now)) s fun s =>
      portDown { s with fab := { s.fab with lastMarker := some s.now } } p false)

/-! ## Time reference (R288, R289) -/

/-- Ticks of a second. -/
def second : Nat := 1300000000

/-- A TIME_DRIFT record (R288). -/
def drift (s : State) (e : Nat) : State := safNow (addR s F.TIME_DRIFTS 1) 7 0 0 0 0 e 0

/-- TIME_IN_EDGE: an edge is stamped S; the first one after the commit of TIME_EN loads the Tally at the next SYSREF edge, later
ones are compared with their expected tick (R288). -/
def execTimeInEdge (s : State) : Out :=
  .next (whenLive s fun s =>
    let t := s.now
    let s1 := setPairI (addR { s with fab := { s.fab with lastEdge := some t } } F.TIME_EDGES 1) F.TALLY_TIME_STAMP_LO
      F.TALLY_TIME_STAMP_HI 0 t
    if s.fab.timeArmed then
      let d : Int := 13 * rhe ((pairI s F.TALLY_TIME_LOAD_LO F.TALLY_TIME_LOAD_HI 0 : Int) + sgn 16 (reg s F.TALLY_TIME_COMP) - t) 13
      { s1 with fab := { s1.fab with
        timeArmed := false, step := some d, stepAligns := false, expected := some ((t : Int) + d + second).toNat,
        lastEdge := some ((t : Int) + d).toNat } }
    else match s.fab.expected with
      | none => s1
      | some x =>
        let e : Int := (t : Int) - x
        let s2 := setR { s1 with fab := { s1.fab with expected := some (x + second) } } F.TALLY_TIME_ERR (enc 32 e)
        let tol : Int := reg s F.TALLY_TIME_TOL
        if tol < e ∨ e < -tol then drift s2 (enc 64 e) else s2)

/-- TIME_IN_ABSENT: no edge for two seconds (Table 12-5). The record's E is a free value: there is no edge to measure. -/
def execTimeInAbsent (s : State) : Out :=
  .next (whenLive s fun s =>
    guardOn (s.fab.expected.isSome && decide ((s.fab.lastEdge.getD 0) + 2 * second ≤ s.now)) s fun s =>
      drift { (fresh s).2 with fab := { s.fab with lastEdge := some s.now } } (fresh s).1)

/-- TIME_OUT_START: TIME_OUT goes high in each tick in which Tally mod 1,300,000,000 = 0 (R289). -/
def execTimeOutStart (s : State) : Out :=
  .next (whenLive s fun s =>
    guardOn (decide (s.now % second = 0)) s fun s => { s with power := { s.power with timeOut := true, timeOutAt := s.now } })

/-- TIME_OUT_END: TIME_OUT falls after 1,300,000 ticks (R289). -/
def execTimeOutEnd (s : State) : Out :=
  .next (whenLive s fun s =>
    guardOn (s.power.timeOut && decide (s.power.timeOutAt + 1300000 ≤ s.now)) s fun s =>
      { s with power := { s.power with timeOut := false } })

/-! ## Transfer units at the receiver (R296 to R298, R301) -/

/-- The launch Tally by which an item's units are named: LAUNCH of a pinned item, the launch tick of a pooled one. -/
def fabLaunch (it : Item) : Nat := if it.isPinned then it.e.launch else it.launchT

/-- Entry `e` of an item's FABRIC section, when this chip receives it. -/
def rxEntry (s : State) (it : Item) (e : Nat) : Option FabXfer :=
  (fabOf s it).xfers[e]?.bind (fun x => if x.dstChip = chipId s then some x else none)

/-- Flits of a transfer of `b` bytes. -/
def flitsOf (b : Nat) : Nat := cdiv b 64

/-- Ticks of `n` flits with their header, and one more (R296). -/
def flitTicks (n : Nat) : Nat := cdiv (481 * (n + 2)) 280

/-- The due tick of a transfer over a link (R296). -/
def dueOf (s : State) (it : Item) (x : FabXfer) : Nat :=
  fabLaunch it + x.start + (fabOf s it).hMax + flitTicks (flitsOf x.bytes) + 16 + (if x.dstHbm then 1560 else 0)

/-- When the waiting item fails (R296, R301). -/
def limitOf (s : State) (it : Item) (x : FabXfer) : Nat :=
  if x.relay then fabLaunch it + x.start + x.slack else dueOf s it x + x.slack

/-- The unit of an item and entry, as far as it has arrived. -/
def unitOf (s : State) (k e : Nat) : XUnit :=
  (s.fab.units.find? (fun u => decide (u.item = k) && decide (u.entry = e))).getD { item := k, entry := e }

/-- The state with a unit replaced. -/
def putUnit (s : State) (u : XUnit) : State :=
  { s with fab := { s.fab with units := s.fab.units.filter (fun x => !(decide (x.item = u.item) && decide (x.entry = u.entry))) ++ [u] } }

/-- The launched item that a header names: plan-table entry and launch Tally (R298). -/
def unitItem (s : State) (plan launch : Nat) : Option Item :=
  s.disp.items.find? (fun i => i.launched && decide (planIdx i.e.plan = planIdx plan) && decide (fabLaunch i = launch))

/-- Cluster and physical core of an item's rank 0, through which its units are read and written. -/
def rank0 (s : State) (it : Item) : Option Nat := (it.cores.head?).bind (physOf s)

/-- A place in the plan's Granary claim, 64-byte granules across its banks (log entry 23). -/
def claimSpan (s : State) (p : Nat) (it : Item) (a : Nat) : GranSpan :=
  { (granSpan s p it { width := 16, bank := 0, start := a / 1024 * 64 }) with from_ := a / 64 % 16 }

/-- A unit's bytes are placed in the receiver's claim (R296); a dark bank ends the item (09 R222). -/
def landBytes (s : State) (it : Item) (x : FabXfer) (b : List Byte) : State :=
  if x.dstHbm then hbmPut s ((planAt s (planIdx it.e.plan)).hbmBase + x.dstAddr) b
  else match rank0 s it with
    | none => s
    | some p =>
      let sp := claimSpan s p it x.dstAddr
      let (s1, d, l) := granPut s (p / 9) sp b
      afterPut s1 it.key (p / 9) sp (flitsOf b.length) d l

/-- SEM of a unit is signalled by the receiver; a unit that landed late makes its item late and is counted (R296). -/
def signalUnit (s : State) (it : Item) (x : FabXfer) (u : XUnit) (late : Bool) : State :=
  let s1 := signalSem (putUnit s { u with signalled := true }) x.sem none
  if late then
    let s2 := modItem s1 it.key (fun i => { i with late := true })
    match (upto 4).find? (fun p => !x.relay && decide (regI s F.LINK_PEER_CHIP p = x.srcChip)) with
    | some p => addI s2 F.LINK_LATE_UNITS p 1
    | none => s2
  else s1

/-- UNIT_LANDED: the data of a unit that has arrived land; SEM waits for the due tick, or is signalled now when that has passed
or the unit is pooled (R296, R297). -/
def execUnitLanded (item entry : Nat) (s : State) : Out :=
  .next (whenLive s fun s =>
    match item? s item with
    | none => s
    | some it =>
      match rxEntry s it entry with
      | none => s
      | some x =>
        let u := unitOf s item entry
        guardOn (it.launched && u.complete && u.landed.isNone && !x.relay) s fun s =>
          let u1 := { u with landed := some s.now }
          let s1 := putUnit (landBytes s it x (u.arrived.take x.bytes)) u1
          if (item? s1 item).isNone then s1
          else if !it.isPinned then signalUnit s1 it x u1 false
          else if dueOf s it x < s.now then signalUnit s1 it x u1 true
          else s1)

/-- DUE_TICK: in the due tick the receiver signals SEM of a unit whose data have landed (R296). -/
def execDueTick (item entry : Nat) (s : State) : Out :=
  .next (whenLive s fun s =>
    match item? s item with
    | none => s
    | some it =>
      match rxEntry s it entry with
      | none => s
      | some x =>
        let u := unitOf s item entry
        guardOn (it.launched && it.isPinned && !x.relay && u.landed.isSome && !u.signalled && decide (dueOf s it x ≤ s.now)) s
          fun s => signalUnit s it x u false)

/-- SLACK_EXPIRY: data that have not landed by the due tick + SLACK, or by L + START + SLACK for a relayed unit, fail the waiting
item (R296, R301). -/
def execSlackExpiry (item entry : Nat) (s : State) : Out :=
  .next (whenLive s fun s =>
    match item? s item with
    | none => s
    | some it =>
      match rxEntry s it entry with
      | none => s
      | some x =>
        guardOn (it.launched && (unitOf s item entry).landed.isNone && decide (limitOf s it x ≤ s.now)) s fun s =>
          if x.relay then endItem s item 0x307
          else
            let p := ((upto 4).find? (fun p => decide (regI s F.LINK_PEER_CHIP p = x.srcChip))).getD 0
            linkFault (fresh s).2 p (fresh s).1 [item])

/-! ## Flits received (R291, R292, R298) -/

/-- Every codeword of a flit is good or corrected, and its CRC-4 is good. -/
def flitGood (f : Flit) : Bool := f.errs.all (fun e => !badPat e) && decide (f.crc = crc4 (frameBits f) 12 0)

/-- Corrected codewords of a flit. -/
def flitCorrected (f : Flit) : Nat := (f.errs.filter (fun e => decide (e ≠ 0))).length

/-- The payload as decoded: what is left of each codeword's error pattern stands in it. -/
def flitPayload (f : Flit) (b : List Byte) : List Byte :=
  (enumFrom 0 b).map (fun x => x.2 ^^^ BitVec.ofNat 8 (residual (nth 0 f.errs (x.1 / 16)) / 256 ^ (x.1 % 16)))

/-- What an accepted flit does. Probes, echoes, markers, NAKs and credit returns act by commands of their own. -/
def takeFlit (s : State) (p : Nat) (f : Flit) : State :=
  match f.body with
  | .header plan launch entry =>
    modLink s p (fun x => { x with rxUnits := x.rxUnits ++ [if carries s p then (unitItem s plan launch).map (fun i => (i.key, entry)) else none] })
  | .data b =>
    let s1 := if f.eou then modLink s p (fun x => { x with rxUnits := x.rxUnits.drop 1 }) else s
    match ((link s p).rxUnits.head?.join).bind (fun u => (item? s u.1).map (fun i => (i, u.2))) with
    | none => addI s1 F.LINK_ORPHAN_FLITS p 1
    | some (it, e) =>
      match rxEntry s it e with
      | none => addI s1 F.LINK_ORPHAN_FLITS p 1
      | some x =>
        let u := unitOf s it.key e
        let got := u.arrived ++ flitPayload f b
        putUnit s1 { u with arrived := got, complete := u.complete || f.eou || decide (x.bytes ≤ got.length) }
  | _ => s

/-- A receiver's message that takes no credit: a NAK or a credit return (log entry 31). -/
def reply (s : State) (p : Nat) (b : FlitBody) : State := emit s (.linkFlit p { lane := 2, body := b })

/-- FLIT_RECEIVED: a flit in order whose codewords and CRC-4 are good is accepted and its credit returned; one that is not is
NAKed, and what arrives before the replay is dropped (R291, R292). -/
def execFlitReceived (port : Nat) (f : Flit) (s : State) : Out :=
  .next (whenLive s fun s =>
    guardOn (portUp s port || (portProbes s port && (match f.body with
      | .probe => true
      | .echo _ _ => true
      | _ => false))) s fun s =>
      let l := link s port
      let inOrder := decide (f.seq % 256 = l.rxSeq % 256)
      if flitGood f && inOrder then
        let s1 := modLink s port (fun x => { x with rxSeq := x.rxSeq + 1, awaiting := false })
        let s2 := addI (addI s1 F.LINK_RX_FLITS port 1) F.LINK_CORRECTED port (flitCorrected f)
        takeFlit (reply s2 port (.credit f.lane 1)) port f
      else if l.awaiting && !inOrder then s
      else reply (addI (modLink s port (fun x => { x with awaiting := true })) F.LINK_RETRIES port 1) port (.nak (l.rxSeq % 256)))

/-- NAK_RECEIVED: the sender replays from that flit; when its sequence is no longer in the replay buffer, or 8 replays of it have
failed, the port goes down (R291). -/
def execNakReceived (port seq : Nat) (s : State) : Out :=
  .next (whenLive s fun s =>
    guardOn (portUp s port) s fun s =>
      let l := link s port
      let rest := l.replay.dropWhile (fun f => decide (f.seq ≠ seq % 256))
      let n := if l.nakSeq = seq % 256 then l.replays else 0
      if rest.isEmpty ∨ 8 ≤ n then portDown s port false
      else
        rest.foldl (fun t f => emit (addI t F.LINK_TX_FLITS port 1) (.linkFlit port f))
          (modLink s port (fun x => { x with nakSeq := seq % 256, replays := n + 1 })))

/-- CREDIT_RETURN: credits of a virtual lane come back; the cores that held them are credited, and waiting flits leave (R292,
11 R269). -/
def execCreditReturn (port lane n : Nat) (s : State) : Out :=
  .next (whenLive s fun s =>
    guardOn (portProbes s port) s fun s =>
      let back := ((link s port).held.filter (fun h => decide (h.1 = lane))).take n
      let s1 := modLink s port (fun x => { x with held := back.foldl (fun h b => h.erase b) x.held })
      let s2 := back.foldl (fun t b => match b.2 with
        | some c => modCore t c (fun x => { x with credits := x.credits - 1 })
        | none => t) s1
      pump port (link s2 port).txq.length s2)

/-- The lane that the spare replaces after training (R293): the active lane with the most errors, when it has more than the
spare; 0 for none, else its number plus 1. `errs` gives the errors of lanes 0 to 7 and of the spare. -/
def worstLane (errs : List Nat) : Nat :=
  let m := maxOf (errs.take 8)
  if nth 0 errs 8 < m then ((upto 8).find? (fun i => decide (nth 0 errs i = m))).map (fun i => i + 1) |>.getD 0 else 0

/-- LINK_UP: retraining of a port ends: it is up with the peer's ID exchanged, in ID_CONFLICT, or FAILED; its hop latency is
measured (R285, R293, R294). -/
def execLinkUp (port peer peerPort : Nat) (laneErrs : List Nat) (ok : Bool) (s : State) : Out :=
  .next (whenLive s fun s =>
    guardOn (decide (port < 4) && decide (regI s F.LINK_STATE_STATE port = 1)) s fun s =>
      if !ok then setI s F.LINK_STATE_STATE port 4
      else
        let w := if (link s port).spareUsed then regI s F.LINK_STATE_SPARE_FOR port else worstLane laneErrs
        let conflict := decide (peer = chipId s) ||
          (upto 4).any (fun q => decide (q ≠ port) && portUp s q && decide (regI s F.LINK_PEER_CHIP q = peer))
        let s1 := modLink s port (fun x => { spareUsed := x.spareUsed || decide (w ≠ 0) })
        let s2 := setI (setI (setI s1 F.LINK_STATE_SPARE_FOR port w) F.LINK_PEER_CHIP port peer) F.LINK_PEER_PORT port peerPort
        sendProbe (setI s2 F.LINK_STATE_STATE port (if conflict then 3 else 2)) port)

/-! ## Transfer units at the sender (R292, R295 to R297, R300) -/

/-- Cut data into flits of 64 bytes; the last one ends the unit. -/
def dataFlits : Nat → List Byte → List Flit
  | 0, _ => []
  | n + 1, b => { lane := 1, eou := decide (n = 0), body := .data (b.take 64) } :: dataFlits n (b.drop 64)

/-- The fabric key of a plan (14 R346): from the model key that its image names. -/
def fabricKey (s : State) (it : Item) : Nat :=
  let km := ((s.sec.modelKeys.find? (fun k => decide (k.1 = (imgOf s it.e).hdr.keyId))).map (fun k => k.2)).getD 0
  Config.kmac256 km [] 256 "LK6424 FABRIC"

/-- IV of a relayed unit (14 R346). -/
def relayIv (launch entry src : Nat) : Nat := launch % 2 ^ 64 + 2 ^ 64 * (entry % 2 ^ 16) + 2 ^ 80 * (src % 2 ^ 16)

/-- The 32-byte header of a relayed unit (R300). -/
def relayHdr (src dst plan launch entry bytes : Nat) : List Byte :=
  padTo 0 32 (Config.relayHeader src dst plan launch entry bytes)

/-- Size of the relay-out area in bytes. -/
def relaySize (s : State) : Nat := reg s F.RELAY_OUT_SIZE * 1024

/-- A unit of `n` bytes fits the relay-out area. -/
def relayFits (s : State) (n : Nat) : Bool :=
  decide ((reg s F.RELAY_OUT_WIDX + 2 ^ 32 - reg s F.RELAY_OUT_RIDX) % 2 ^ 32 + n ≤ relaySize s)

/-- Bytes are written to the relay-out ring, round its end; the index advances and the message is sent (R300). -/
def relayWrite (s : State) (b : List Byte) : State :=
  let sz := relaySize s
  let pos := reg s F.RELAY_OUT_WIDX % sz
  let s1 := hbmPut s (relayBase + pos) (b.take (sz - pos))
  let s2 := if sz - pos < b.length then hbmPut s1 relayBase (b.drop (sz - pos)) else s1
  sendMsix (addR (addR s2 F.RELAY_OUT_WIDX b.length) F.RELAY_OUT_UNITS 1) (reg s F.RELAY_CFG_VECTOR)

/-- Waiting units are written while there is room. -/
def relayDrain : Nat → State → State
  | 0, s => s
  | n + 1, s =>
    match s.fab.relayWait with
    | [] => s
    | b :: rest =>
      if relayFits s b.length then relayDrain n (relayWrite { s with fab := { s.fab with relayWait := rest } } b) else s

/-- The device relays: RELAY_CFG.EN, and the lease has not expired (R300, R301). -/
def relayOn (s : State) : Bool := flag s F.RELAY_CFG_EN && !flag s F.DISP_LEASE_EXPIRED

/-- TRANSFER_UNIT_START: a unit starts at L + START, a pooled one when no pinned unit holds the data lane; a relayed unit is
sealed and written to relay-out, or waits for room (R296, R297, R300). -/
def execTransferUnitStart (item entry : Nat) (s : State) : Out :=
  .next (whenLive s fun s =>
    match item? s item with
    | none => s
    | some it =>
      match (fabOf s it).xfers[entry]?, rank0 s it with
      | some x, some p =>
        guardOn (decide (it.st = .running) && decide (x.srcChip = chipId s) && decide (fabLaunch it + x.start ≤ s.now) &&
          !s.fab.started.contains (item, entry) &&
          (if x.relay then relayOn s
           else carries s x.port && (it.isPinned || decide ((link s x.port).laneBusyTo ≤ s.now)))) s fun s =>
          let n := flitsOf x.bytes
          let sp := claimSpan s p it x.srcAddr
          let (s1, r) := granGet s (p / 9) sp n
          let (s2, ok) := afterGran s1 p item (p / 9) sp n r
          if !ok then s2
          else
            let s3 := { s2 with fab := { s2.fab with started := s2.fab.started ++ [(item, entry)] } }
            let b := r.bytes.take x.bytes
            if x.relay then
              let h := relayHdr x.srcChip x.dstChip it.e.plan (fabLaunch it) entry x.bytes
              let key := fabricKey s it
              let iv := relayIv (fabLaunch it) entry x.srcChip
              let ct := Config.gcmSeal key iv h b
              let s4 := { s3 with fab := { s3.fab with
                relayWait := s3.fab.relayWait ++ [h ++ ct ++ le 16 (Config.gcmTag key iv h ct)] } }
              relayDrain s4.fab.relayWait.length s4
            else
              let s4 := if it.isPinned then modLink s3 x.port (fun l => { l with laneBusyTo := s.now + flitTicks n }) else s3
              sendFlits s4 x.port
                ({ lane := 2, sou := true, body := .header it.e.plan (fabLaunch it) entry } :: dataFlits n b) (some p)
      | _, _ => s)

/-- A host write of RELAY_OUT_RIDX: ignored outside the written bytes (R300). -/
def writeRelayRidx (s : State) (v : Nat) : State :=
  let v := v % 2 ^ 32
  if (reg s F.RELAY_OUT_WIDX + 2 ^ 32 - v) % 2 ^ 32 ≤ relaySize s then
    let s1 := setR s F.RELAY_OUT_RIDX v
    relayDrain s1.fab.relayWait.length s1
  else s

/-- RELAY_OUT_RIDX_WRITE (R300). -/
def execRelayOutRidxWrite (idx : Nat) (s : State) : Out :=
  .next (whenLive s fun s => guardOn (pageUp s 1) s fun s => writeRelayRidx s idx)

/-! ## Relay-in (R300, R301) -/

/-- The producer index of the relay-in ring has arrived: the new descriptors are read, up to the ring's end. -/
def gotRelayPidx (s : State) (prod : Nat) : State :=
  let n := 2 ^ reg s F.RELAY_IN_CFG
  let d := (prod + 2 ^ 32 - s.fab.relayIn) % 2 ^ 32
  let pos := s.fab.relayIn % n
  let m := if pos + d ≤ n then d else n - pos
  if d = 0 ∨ n < d then s
  else match startRead s (.relayDesc m) (pairI s F.RELAY_IN_BASE_LO F.RELAY_IN_BASE_HI 0 + 32 * pos) (32 * m) true with
    | some t => t
    | none => addR (addR s F.DISP_FETCH_TIMEOUTS 1) F.PCIE_READ_FAILS 1

/-- `m` relay-in descriptors have arrived: each unit is read. -/
def gotRelayDescs (s : State) (m : Nat) (b : List Byte) : State :=
  (upto m).foldl (fun t i =>
    let d := b.drop (32 * i)
    match startRead t .relayUnit (unle (d.take 8)) (unle ((d.drop 8).take 4)) false with
    | some u => u
    | none => addR (addR t F.DISP_FETCH_TIMEOUTS 1) F.PCIE_READ_FAILS 1) { s with fab := { s.fab with relayIn := (s.fab.relayIn + m) % 2 ^ 32 } }

/-- A relayed unit has been read whole. -/
def gotRelayUnit (s : State) : State := { s with fab := { s.fab with relayReady := s.fab.relayReady + 1 } }

/-- RELAY_UNIT_LANDED: a relayed unit that has been read is verified; it lands and SEM is signalled, or it is discarded and
counted (R301). -/
def execRelayUnitLanded (u : RelayUnit) (s : State) : Out :=
  .next (whenLive s fun s =>
    guardOn (decide (0 < s.fab.relayReady)) s fun s =>
      let s0 := { s with fab := { s.fab with relayReady := s.fab.relayReady - 1 } }
      match unitItem s0 u.plan u.launch with
      | none => s0
      | some it =>
        match rxEntry s0 it u.entry with
        | none => s0
        | some x =>
          let h := relayHdr u.srcChip u.dstChip u.plan u.launch u.entry u.bytes
          let key := fabricKey s0 it
          let iv := relayIv u.launch u.entry u.srcChip
          let old := unitOf s0 it.key u.entry
          if Config.gcmTag key iv h u.ct ≠ u.tag then addR s0 F.RELAY_TAG_FAIL 1
          else if !x.relay || old.landed.isSome || decide (u.dstChip ≠ chipId s0) || decide (u.srcChip ≠ x.srcChip) then s0
          else
            let x1 := { old with complete := true, landed := some s.now, arrived := Config.gcmOpen key iv h u.ct }
            let s1 := addR (landBytes (putUnit s0 x1) it x (x1.arrived.take x.bytes)) F.RELAY_IN_UNITS 1
            if (item? s1 it.key).isNone then s1
            else signalUnit s1 it x x1 (it.isPinned && decide (fabLaunch it + x.start < s.now)))

end Sys2Proof.Machine
end

