-- ==== Sys2Proof/Machine/Flash.lean ====
section
/-!
DEFINITION. Sys2Proof/Machine/Flash.lean: the flash, its partitions, wear levelling, patrol and operation journal
(15_management_firmware_and_storage.md R366 to R372), and the commands FLASH_PATROL, WEAR_LEVEL_MOVE.
What a block holds is kept as counts of pages; the contents stand where they are used (log entry 32).
-/

namespace Sys2Proof.Machine

/-! ## Partitions (Table 15-7) -/

/-- First block, number of blocks and least number of good blocks of partition `k`. -/
def partition (k : Nat) : Nat × Nat × Nat :=
  match k with
  | 0 => (0, 8, 2)
  | 1 => (8, 64, 8)
  | 2 => (72, 64, 8)
  | 3 => (136, 256, 32)
  | 4 => (392, 64, 8)
  | 5 => (456, 256, 32)
  | _ => (712, 3384, 256)

/-- Partition of block `b`. -/
def partOf (b : Nat) : Nat :=
  if b < 8 then 0 else if b < 72 then 1 else if b < 136 then 2 else if b < 392 then 3 else if b < 456 then 4
  else if b < 712 then 5 else 6

/-- Block `b`. -/
def fblock (s : State) (b : Nat) : FBlock := tget {} s.flash.blocks b

/-- The state with block `b` changed. -/
def modBlock (s : State) (b : Nat) (f : FBlock → FBlock) : State :=
  { s with flash := { s.flash with blocks := tmod {} s.flash.blocks b f } }

/-- Blocks of partition `k` that the table lists. -/
def listed (s : State) (k : Nat) : List (Nat × FBlock) := s.flash.blocks.filter (fun e => decide (partOf e.1 = k))

/-- Good blocks of partition `k`: those not listed as bad. -/
def goodBlocks (s : State) (k : Nat) : Nat := (partition k).2.1 - ((listed s k).filter (fun e => decide (e.2.bad ≠ 0))).length

/-- Least and greatest erase count of the good blocks of partition `k`; a block not listed has not been erased. -/
def eraseRange (s : State) (k : Nat) : Nat × Nat :=
  let g := ((listed s k).filter (fun e => decide (e.2.bad = 0))).map (fun e => e.2.erases)
  let hi := maxOf g
  (if (listed s k).length < (partition k).2.1 then 0 else minOf hi g, hi)

/-- FLASH_PART_k follows; a partition that falls below its minimum is failed, and an event is logged (R370). -/
def refreshPart (s : State) (k : Nat) : State :=
  let n := goodBlocks s k
  let r := eraseRange s k
  let d := r.2 - r.1
  let failed := decide (n < (partition k).2.2)
  let was := decide (regX s F.FLASH_PART_FAILED k ≠ 0)
  let s1 := setX (setX (setX s F.FLASH_PART_GOOD k n) F.FLASH_PART_SPREAD k (if d < 4095 then d else 4095))
    F.FLASH_PART_FAILED k (bnat failed)
  if failed && !was then fwEvent s1 0x8007 k else s1

/-- Every partition's register follows, and FLASH_BAD. -/
def refreshFlash (s : State) : State :=
  let n (b : Nat) : Nat := (s.flash.blocks.filter (fun e => decide (e.2.bad = b))).length
  (upto 7).foldl refreshPart (setR (setR s F.FLASH_BAD_FACTORY (n 1)) F.FLASH_BAD_GROWN (n 2))

/-- Partition `k` is failed: its writes end with FAILED_FIRMWARE_SERVICE (R370). -/
def partFailed (s : State) (k : Nat) : Bool := decide (regX s F.FLASH_PART_FAILED k ≠ 0)

/-! ## Choosing a block (R368) -/

/-- The erased good block of partition `k` with the lowest erase count, the lowest number on a tie, outside `excl`. -/
def pickErased (s : State) (k : Nat) (excl : List Nat) : Option Nat :=
  (rangeFrom (partition k).1 (partition k).2.1).foldl (fun (a : Option Nat) b =>
    let x := fblock s b
    if x.bad ≠ 0 ∨ x.pages ≠ 0 ∨ excl.contains b then a
    else match a with
      | none => some b
      | some c => if x.erases < (fblock s c).erases then some b else a) none

/-- The oldest good block of partition `k`, which is erased when no other block is left. -/
def oldestBlock (s : State) (k : Nat) : Nat :=
  ((rangeFrom (partition k).1 (partition k).2.1).foldl (fun (a : Option Nat) b =>
    let x := fblock s b
    if x.bad ≠ 0 then a
    else match a with
      | none => some b
      | some c => if x.progRound < (fblock s c).progRound then some b else a) none).getD (partition k).1

/-- A block is erased. -/
def eraseBlock (s : State) (b : Nat) : State :=
  addR (modBlock s b (fun x => { x with erases := x.erases + 1, pages := 0 })) F.FLASH_ERASES 1

/-- The block whose next page a log of partition `k` takes: a good one partly written, else an erased one, else the oldest,
erased. -/
def logBlock (s : State) (k : Nat) : State × Nat :=
  match (listed s k).find? (fun e => decide (e.2.bad = 0) && decide (0 < e.2.pages) && decide (e.2.pages < 64)) with
  | some e => (s, e.1)
  | none =>
    match pickErased s k [] with
    | some b => (s, b)
    | none => (eraseBlock s (oldestBlock s k), oldestBlock s k)

/-- The management-round count that a program is stamped with (R369). -/
def roundNow (s : State) : Nat := s.mgmt.rounds + s.now / 1300000

/-- A page is programmed in block `b`. -/
def progPage (s : State) (b : Nat) : State :=
  addR (modBlock s b (fun x => { x with pages := x.pages + 1, progRound := roundNow s })) F.FLASH_PROGRAMS 1

/-! ## Operations (R372) -/

/-- Operations join pair B's queue; the first is issued when none runs. -/
def queueOps (s : State) (l : List FlashOp) : State := { s with flash := { s.flash with ops := s.flash.ops ++ l } }

/-- A journalled write: INTENT, the operations, the data read back, DONE. -/
def journalled (l : List FlashOp) : List FlashOp :=
  { kind := .program, use := .journal } :: l ++
    [{ kind := .read, use := .journal }, { kind := .program, use := .journal, page := 1 }]

/-- The partition that a log page of the given use goes to. -/
def usePart (u : FlashUse) : Option Nat :=
  match u with
  | .journal => some 5
  | .xmss => some 4
  | .faultPage => some 6
  | .bootRecord => some 0
  | _ => none

/-- A write of `u` to its log: one journalled page. -/
def logWrite (s : State) (u : FlashUse) : State := queueOps s (journalled [{ kind := .program, use := u }])

/-- A configuration record is written: its newer copy, then its older one, in different blocks; the blocks of the copies before
are then erased (R371). -/
def writeRecord (s : State) (ty key : Nat) : State :=
  let old := s.flash.recs.find? (fun r => decide (r.ty = ty) && decide (r.key = key))
  let used := s.flash.ops.map (fun o => o.block)
  let a := (pickErased s 3 used).getD (oldestBlock s 3)
  let b := (pickErased s 3 (a :: used)).getD (oldestBlock s 3)
  let gone := match old with
    | some r => [r.blockA, r.blockB].filter (fun x => decide (partOf x = 3))
    | none => []
  let r : FRec := { ty := ty, key := key, seq := ((old.map (fun x => x.seq)).getD 0) + 1, blockA := a, blockB := b }
  let s1 := { s with flash := { s.flash with
    recs := s.flash.recs.filter (fun x => !(decide (x.ty = ty) && decide (x.key = key))) ++ [r] } }
  queueOps s1 (journalled [{ kind := .program, use := .record, block := a }] ++
    journalled [{ kind := .program, use := .record, block := b }] ++
    gone.flatMap (fun x => journalled [{ kind := .erase, use := .blockErase, block := x }]))

/-- A configuration record is removed: the blocks of its copies are erased. -/
def dropRecord (s : State) (ty key : Nat) : State :=
  match s.flash.recs.find? (fun r => decide (r.ty = ty) && decide (r.key = key)) with
  | none => s
  | some r =>
    queueOps { s with flash := { s.flash with recs := s.flash.recs.filter (fun x => decide (x ≠ r)) } }
      ([r.blockA, r.blockB].flatMap (fun x => journalled [{ kind := .erase, use := .blockErase, block := x }]))

/-- The data of block `b` are programmed into block `d`; `b` is then erased when `erase` says so. -/
def copyOps (s : State) (use : FlashUse) (b d : Nat) (erase : Bool) : List FlashOp :=
  journalled ((List.replicate (fblock s b).pages { kind := .program, use := use, block := d }) ++
    (if erase then [{ kind := .erase, use := use, block := b }] else []))

/-- Records and firmware that stood in block `b` stand in block `d`. -/
def moveRecs (s : State) (b d : Nat) : State :=
  let m (x : Nat) : Nat := if x = b then d else x
  { s with flash := { s.flash with recs := s.flash.recs.map (fun (r : FRec) =>
      { r with blockA := m r.blockA, blockB := m r.blockB }) } }

/-- A block is grown bad: it is counted, an event is logged, and its data are copied to another block of the partition (R367). -/
def growBad (s : State) (b : Nat) : State :=
  if (fblock s b).bad ≠ 0 then s
  else
    let s1 := addR (modBlock s b (fun x => { x with bad := 2 })) F.FLASH_RETIRED 1
    let s2 := fwEvent s1 0x8006 b
    let s3 := match pickErased s2 (partOf b) (b :: s2.flash.ops.map (fun o => o.block)) with
      | some d => if (fblock s b).pages = 0 then s2 else moveRecs (queueOps s2 (copyOps s .move b d false)) b d
      | none => s2
    refreshFlash s3

/-- A block's data are refreshed into a freshly erased block, and the old one is erased (R369). -/
def refreshBlock (s : State) (b : Nat) : State :=
  match pickErased s (partOf b) (b :: s.flash.ops.map (fun o => o.block)) with
  | some d => moveRecs (queueOps s (copyOps s .refresh b d true)) b d
  | none => s

/-- PME_TO_Ack, held back by a flash operation, is sent (16 R393). -/
def ackTurnOff (s : State) : State :=
  if s.pcie.ackPending then setR (emit { s with pcie := { s.pcie with ackPending := false } } .pmeToAck) F.PCIE_LINK_STATE 6 else s

/-- What the journal does at its entry's end. -/
def noteJournal (s : State) (o : FlashOp) (rest : List FlashOp) : State :=
  if o.use = .journal ∧ o.kind = .program then
    if o.page = 0 then { s with flash := { s.flash with intents := s.flash.intents ++ rest.take 1 } }
    else { s with flash := { s.flash with intents := s.flash.intents.drop 1 } }
  else s

/-- The operation issued by pair B completes, or fails: then its block is grown bad and the operation is made on another block
(R367, R372; 16 R393). -/
def flashDone (ok : Bool) (s : State) : State :=
  match s.flash.ops with
  | [] => s
  | o :: rest =>
    let s0 := { s with flash := { s.flash with ops := rest } }
    let (s1, b) := match usePart o.use, o.kind with
      | some k, .program => logBlock s0 k
      | _, _ => (s0, o.block)
    let s2 :=
      match o.kind with
      | .read => addR s1 F.FLASH_READS 1
      | .program =>
        if ok then noteJournal (progPage s1 b) o rest
        else
          let t := growBad s1 b
          let d := (pickErased t (partOf b) (b :: t.flash.ops.map (fun x => x.block))).getD b
          moveRecs { t with flash := { t.flash with ops := { o with block := d } :: t.flash.ops } } b d
      | .erase =>
        if ok then
          let t := eraseBlock s1 b
          if o.use = .refresh then addR t F.FLASH_REFRESHES 1 else t
        else growBad s1 b
    ackTurnOff (refreshFlash s2)

/-! ## Patrol and wear levelling (R366 to R369) -/

/-- Ticks of 12 months of power-on time in management rounds: 365 days (log entry 32). -/
def yearRounds : Nat := 365 * 86400 * 1000

/-- A copy of a record in block `b` can no longer be read. -/
def loseCopies (s : State) (b : Nat) : State :=
  { s with flash := { s.flash with recs := s.flash.recs.map (fun (r : FRec) =>
      { r with blockA := if r.blockA = b then 4096 else r.blockA, blockB := if r.blockB = b then 4096 else r.blockB }) } }

/-- Is (b, page) the last written page of the flash? -/
def lastWritten (s : State) (b page : Nat) : Bool :=
  (s.flash.blocks.all (fun e => decide (e.1 ≤ b) || decide (e.2.pages = 0))) && decide (page + 1 = (fblock s b).pages)

/-- FLASH_PATROL: a written page is read in pair B's idle time; `bits` are the bit errors of its four sectors. A sector with 25
or more is uncorrectable; one of 20 or more retires its block, one of 12 or more, or 12 months since the program, refreshes it
(R366, R367, R369). -/
def execFlashPatrol (block page : Nat) (bits : List Nat) (s : State) : Out :=
  .next (whenLive s fun s =>
    let x := fblock s block
    guardOn (decide (block < 4096) && decide (page < x.pages) && decide (x.bad = 0) && s.flash.ops.isEmpty && !pairDown s 1 &&
      decide (reg s F.FLASH_STATE_MODE = 2)) s fun s =>
      let ss := bits.take 4
      let ue := (ss.filter (fun n => decide (24 < n))).length
      let ce := sumN (ss.filter (fun n => decide (n ≤ 24)))
      let w := maxOf ss
      let s1 := addR (addR (addR s F.FLASH_READS 1) F.FLASH_CORR_BITS ce) F.FLASH_UNCORR ue
      let s2 :=
        if 0 < ue then growBad (loseCopies s1 block) block
        else if 20 ≤ w then growBad s1 block
        else if 12 ≤ w ∨ x.progRound + yearRounds ≤ roundNow s then refreshBlock s1 block
        else s1
      if lastWritten s block page then addR s2 F.FLASH_PATROLS 1 else s2)

/-- The good block of partition `k` with the lowest, or the highest, erase count that satisfies `q`. -/
def extremeBlock (s : State) (k : Nat) (low : Bool) (q : FBlock → Bool) : Option Nat :=
  (rangeFrom (partition k).1 (partition k).2.1).foldl (fun (a : Option Nat) b =>
    let x := fblock s b
    if x.bad ≠ 0 ∨ !q x then a
    else match a with
      | none => some b
      | some c =>
        if low then (if x.erases < (fblock s c).erases then some b else a)
        else (if (fblock s c).erases < x.erases then some b else a)) none

/-- WEAR_LEVEL_MOVE: when the erase counts of a partition's good blocks differ by more than 2,000, the data of the block with the
lowest count move to the one with the highest, of those that can take them (R368). -/
def execWearLevelMove (part : Nat) (s : State) : Out :=
  .next (whenLive s fun s =>
    let r := eraseRange s part
    guardOn (decide (part < 7) && decide (r.1 + 2000 < r.2) && s.flash.ops.isEmpty && !pairDown s 1) s fun s =>
      match extremeBlock s part true (fun _ => true), extremeBlock s part false (fun x => decide (x.pages = 0)) with
      | some a, some b =>
        if a = b ∨ (fblock s a).pages = 0 then s
        else moveRecs (queueOps s (copyOps s .move a b true)) a b
      | _, _ => s)

/-! ## Row repair (10 R246) -/

/-- REPAIR_DONE: a post-package repair completes; the row's data are written back, the held requests resume, GO reads 0. A soft repair
joins the list that is applied at every boot. A repair that finds no spare row withholds the row's addresses (10 R246). -/
def execRepairDone (ch : Nat) (ok : Bool) (s : State) : Out :=
  .next (whenLive s fun s =>
    match tget none s.hbm.repairs ch with
    | none => s
    | some r =>
      let row := rowId (2 * ch + r.pc) r.bank r.row
      let packed := r.row + 16384 * (r.bank % 4) + 65536 * (r.bank / 4 % 4) + 262144 * (r.bank / 16 % 4) + 1048576 * r.pc
      let s1 := putBoth { s with hbm := { s.hbm with repairs := tset none s.hbm.repairs ch none } } F.HBMC_CH_REPAIR_GO ch 0 0 0
      let s2 := if ok then
          let t := { s1 with hbm := { s1.hbm with
            candidates := s1.hbm.candidates.filter (fun x => decide (x ≠ row))
            rowCE := terase s1.hbm.rowCE row
            spareRows := if r.hard then tset 0 s1.hbm.spareRows (row / 16384) (tget 0 s1.hbm.spareRows (row / 16384) + 1)
              else s1.hbm.spareRows } }
          let u := fwEvent t 0x8009 packed
          if r.hard then u else writeRecord { u with flash := { u.flash with softRows := u.flash.softRows ++ [row] } } 3 0
        else { s1 with hbm := { s1.hbm with withheld := s1.hbm.withheld ++ [(2 * ch + r.pc, row)] } }
      hbmSettle (hbmSettle s2 (2 * ch)) (2 * ch + 1))

/-! ## Pair B's reset and restart (R359, R372) -/

/-- At a reset of pair B the controller finishes the operation already issued; the others are not issued. -/
def flashReset (s : State) : State := { s with flash := { s.flash with ops := s.flash.ops.take 1 } }

/-- Journal replay: each INTENT without DONE whose operation was performed gets its DONE; the target of any other is abandoned
and erased (R372). -/
def flashReplay (s : State) : State :=
  let n := s.flash.intents.length
  let undone := s.flash.intents.filter (fun o => decide (o.kind = .program) && decide (partOf o.block = 3) && s.flash.ops.contains o)
  let s1 := addR { s with flash := { s.flash with intents := [], ops := [] } } F.FLASH_REPLAYS n
  queueOps s1 (undone.map (fun o => { kind := .erase, use := .blockErase, block := o.block }))

end Sys2Proof.Machine
end

