-- ==== Sys2Proof/Machine/Mailbox.lean ====
section
/-!
DEFINITION. Sys2Proof/Machine/Mailbox.lean: the session mailbox and the Locksmith (14_security_and_sessions.md R331 to R356): the
frame, the checks of every request, responses, and the mailbox commands that touch neither pages nor plans.
-/

namespace Sys2Proof.Machine

/-! ## Frames, keys and tags (R335, R338) -/

/-- A request's header H (Table 14-5). -/
def reqHeader (session cmd len seq : Nat) : List Byte :=
  le 2 session ++ le 2 cmd ++ le 2 len ++ le 2 0 ++ le 8 seq ++ List.replicate 16 0

/-- A response's header H (Table 14-5). -/
def rspHeader (session cmd status reason seq len : Nat) : List Byte :=
  le 2 session ++ le 2 cmd ++ le 2 status ++ le 2 (reason % 256) ++ le 8 seq ++ le 4 len ++ List.replicate 12 0

/-- Tag of a request of an open session. -/
def reqTag (key session cmd seq : Nat) (p : List Byte) : Nat :=
  Config.kmac256 key (reqHeader session cmd p.length seq ++ p) 256 "LK6424 REQ"

/-- Tag of a response under K_s. -/
def rspTag (key session cmd status reason seq : Nat) (p : List Byte) : Nat :=
  Config.kmac256 key (rspHeader session cmd status reason seq p.length ++ p) 256 "LK6424 RSP"

/-- The OPEN payload (R338). -/
def openPayload (role iface minSvn hwm nonce : Nat) : List Byte :=
  le 1 role ++ le 1 0 ++ le 2 iface ++ le 2 minSvn ++ le 2 0 ++ le 4 hwm ++ le 32 nonce

/-- T = OPEN payload ‖ N_d ‖ t (R338). -/
def transcript (s : State) (i : Nat) : List Byte :=
  let x := sess s i
  openPayload x.role x.iface x.minSvn x.hwm x.hostNonce ++ le 32 x.devNonce ++ le 2 (tagOf s i)

/-- Key of a role as the Locksmith holds it. -/
def roleKey (s : State) (r : Nat) : Option Nat := tget none s.sec.roleKeys r

/-- Key check value of a key (R333). -/
def kcv (k : Nat) : List Byte := le 8 (Config.kmac256 k [] 64 "LK6424 KCV")

/-- K_enc of a session (Table 14-3). -/
def sealKey (ks : Nat) : Nat := Config.kmac256 ks [] 256 "LK6424 SEAL"

/-- A sealed response payload: ciphertext and GCM tag, IV = SEQ ‖ 0x0000_0001 (R335). -/
def sealRsp (ks seq : Nat) (p : List Byte) : List Byte :=
  let k := sealKey ks
  let iv := seq % 2 ^ 64 + 2 ^ 64
  let c := Config.gcmSeal k iv [] p
  c ++ le 16 (Config.gcmTag k iv [] c)

/-! ## Responses (R336, R337, R340) -/

/-- A response is complete: it stands in the response buffer, STATE reads DONE, the vector is sent if it is enabled, and a
close that waited for the request's end is made. -/
def respond (s : State) (r : MbReq) (session cmd status reason : Nat) (p : List Byte) (key : Option Nat) : State :=
  let tag := match key with
    | some k => rspTag k session cmd status reason r.seq p
    | none => 0
  let s1 := { s with sec := { s.sec with
    resp := { session := session, cmd := cmd, status := status, reason := reason, seq := r.seq, payload := p, tag := tag } } }
  let s2 := setR (setR (setR s1 F.SEC_MB_STATE_STATE 2) F.SEC_MB_STATE_REASON reason) F.SEC_MB_STATE_STATUS status
  let s3 := if flag s2 F.SEC_MB_IRQ_EN then sendMsix s2 (reg s2 F.SEC_MB_IRQ_VECTOR) else s2
  if s3.sec.closeAfter then closeAll { s3 with sec := { s3.sec with closeAfter := false } } else s3

/-- K_s of the session a request names, when it is open. -/
def keyOf (s : State) (session : Nat) : Option Nat :=
  if tagOpen s session none then some (sess s (session % 16)).key else none

/-- A response of the session the request names. -/
def reply_ (s : State) (r : MbReq) (cmd status reason : Nat) (p : List Byte) : State :=
  respond s r r.session cmd status reason p (keyOf s r.session)

/-- DONE. -/
def done_ (s : State) (r : MbReq) (cmd : Nat) (p : List Byte) : State := reply_ s r cmd 0 0 p

/-- REFUSED_SESSION with a reason of Table 14-9; a refused OPEN or PROVE is counted. -/
def refuseMb (s : State) (r : MbReq) (cmd reason : Nat) : State :=
  reply_ (if cmd = 1 ∨ cmd = 2 then addR s F.SEC_OPEN_FAILS 1 else s) r cmd 0x204 reason []

/-- Every session closes, once the request under way has ended (R340, Table 14-11). -/
def closeAllAfter (s : State) : State :=
  if reg s F.SEC_MB_STATE_STATE = 1 then { s with sec := { s.sec with closeAfter := true } } else closeAll s

/-! ## The checks of a request (R337) -/

/-- Whom a request comes from: check 1. -/
inductive MbFrom where
  | nobody
  | none
  | slot (i : Nat)
deriving DecidableEq, Repr

/-- Check 1. -/
def mbFrom (s : State) (r : MbReq) (cmd : Nat) : MbFrom :=
  if r.session = 0 then (if cmd = 1 ∨ cmd = 4 ∨ cmd = 0x41 then .none else .nobody)
  else
    let i := r.session % 16
    let x := sess s i
    if tagOf s i = r.session ∧ (x.isOpen = true ∨ (x.pending = true ∧ cmd = 2)) then .slot i else .nobody

/-- The tag that check 3 asks for. -/
def wantTag (s : State) (r : MbReq) (i cmd : Nat) (p : List Byte) : Nat :=
  let x := sess s i
  if x.isOpen then reqTag x.key r.session cmd r.seq p
  else Config.kmac256 ((roleKey s x.role).getD 0) (transcript s i) 256 "LK6424 PROVE"

/-- Check 4 for slot `i`: a pending challenge may only PROVE; a restricted session, and one that has reached SEQ 2^64 − 1, may
do no more than R339 and R337 leave it. -/
def mbMay (s : State) (i cmd : Nat) (roles : Option Nat → Bool) : Bool :=
  let x := sess s i
  if x.isOpen then
    decide (cmd ≠ 2) && roles (some x.role) &&
      (!x.restricted || decide (cmd = 0x50) || decide (cmd = 0x40) || decide (cmd = 0x41) || decide (cmd = 3)) &&
      (decide (x.seq ≠ 2 ^ 64 - 1) || decide (cmd = 3))
  else decide (cmd = 2)

/-- A BAD_TAG failure of slot `i`: counted; the eighth in a row closes the session once its response is complete. -/
def badTag (s : State) (r : MbReq) (i cmd : Nat) : State :=
  let n := (sess s i).badRun + 1
  let s1 := refuseMb (putSess (addR s F.SEC_BAD_TAGS 1) i { sess s i with badRun := n }) r cmd 2
  if 8 ≤ n then closeSession s1 i else s1

/-- The Locksmith or firmware is serving a request that has not ended: an installation or a firmware update. A mailbox that a GO
made busy waits for the command that stands for its request (log entry 116). -/
def serving (s : State) : Bool := s.sec.install.isSome || s.sec.fwUpdate.isSome

/-- A request: one made while another is served is ignored and flagged (R336); else the checks of R337 in order, and the command.
`roles` says who may give it (`none`: no session), `no4` the reason when check 4 fails, `p` its payload. -/
def mailbox (cmd : Nat) (r : MbReq) (p : List Byte) (roles : Option Nat → Bool) (no4 : Nat) (body : State → State)
    (s : State) : State :=
  guardOn (pageUp s 7) s fun s =>
    if reg s F.SEC_MB_STATE_STATE = 1 ∧ serving s = true then violation s 7
    else
      let s := addR s F.SEC_COMMANDS 1
      match mbFrom s r cmd with
      | .nobody => refuseMb s r cmd 1
      | .none =>
        if r.tag ≠ 0 then refuseMb (addR s F.SEC_BAD_TAGS 1) r cmd 2
        else if roles none then body s
        else refuseMb s r cmd no4
      | .slot i =>
        let x := sess s i
        if r.seq ≠ (if x.isOpen then x.seq else 0) then refuseMb (addR s F.SEC_BAD_SEQ 1) r cmd 3
        else if r.tag ≠ wantTag s r i cmd p then badTag s r i cmd
        else
          let s1 := putSess s i { x with badRun := 0 }
          if mbMay s1 i cmd roles then
            body (if x.isOpen then putSess s i { x with badRun := 0, seq := x.seq + 1 } else s1)
          else refuseMb s1 r cmd no4

/-- Roles of Table 14-8. -/
def anyRole (x : Option Nat) : Bool := x.isSome
def onlyRole (k : Nat) (x : Option Nat) : Bool := decide (x = some k)

/-- A command served by firmware of pair `pair`: during that pair's reset it ends FAILED_FIRMWARE_SERVICE (R336, R359). -/
def serviced (pair : Nat) (r : MbReq) (cmd : Nat) (body : State → State) (s : State) : State :=
  if pairDown s pair then reply_ (addR s F.MGMT_FW_SVC_FAILS 1) r cmd 0x308 0 [] else body s

/-- A command of pair B that writes partition `k` of the flash; a failed partition's writes end FAILED_FIRMWARE_SERVICE
(15 R370). -/
def stored (k : Nat) (r : MbReq) (cmd : Nat) (body : State → State) (s : State) : State :=
  serviced 1 r cmd (fun s => if partFailed s k then reply_ (addR s F.MGMT_FW_SVC_FAILS 1) r cmd 0x308 0 [] else body s) s

/-! ## Opening and closing sessions (R338 to R340) -/

/-- Why OPEN is refused (R331, R332, R339), in the order of R339. -/
def openRefusal (s : State) (role iface minSvn : Nat) : Option Nat :=
  let v := reg s F.SEC_IFACE_IFACE
  if reg s F.SEC_STATE_KEYS_READY = 0 ∨ flag s F.SEC_STATE_ZEROISED = true ∨ s.sec.entropyBad = true ∨ s.power.testEn = true then some 12
  else if 4 < role ∨ (roleKey s role).isNone ∨ s.sec.lostRoles.testBit role = true then some 4
  else if iface % 2 ^ 16 ≠ v then some 5
  else if (upto 16).all (fun i => (sess s i).isOpen || (sess s i).pending) then some 7
  else if reg s F.SEC_IFACE_SVN < minSvn ∧ role ≠ 3 then some 6
  else none

/-- OPEN: a session slot is taken, and the device answers with a nonce tagged under the role key; the next XMSS leaf is at least
HWM (R338, R339, R352). OPEN and PROVE are served while a management pair is in reset, as Tables 14-8 and 15-2 have it of the
Locksmith; Table 1-4 lists session opening among the firmware services (log entry 123). -/
def execOpenOp (r : MbReq) (role iface minSvn hwm hostNonce : Nat) (s : State) : Out :=
  .next (whenLive s (mailbox 1 r (openPayload role iface minSvn hwm hostNonce) (fun x => x.isNone) 4 (fun s =>
    match openRefusal s role iface minSvn, (upto 16).find? (fun i => !(sess s i).isOpen && !(sess s i).pending) with
    | none, some i =>
      let nd := (fresh s).1 % 2 ^ 256
      let s1 := putSess (fresh s).2 i {
        gen := (sess s i).gen % 4095 + 1, pending := true, role := role, minSvn := minSvn, iface := iface, hwm := hwm,
        hostNonce := hostNonce, devNonce := nd, restricted := decide (reg s F.SEC_IFACE_SVN < minSvn), openedAt := s.now }
      let leaf := maxOf [reg s1 F.SEC_XMSS, if hwm < 2 ^ 20 then hwm else 2 ^ 20]
      let t := { (setR s1 F.SEC_XMSS leaf) with sec := { (setR s1 F.SEC_XMSS leaf).sec with resp := {} } }
      let tag := Config.kmac256 ((roleKey s role).getD 0) (transcript t i) 256 "LK6424 CHAL"
      let u := respond t r (tagOf t i) 1 0 0 (le 32 nd) none
      { u with sec := { u.sec with resp := { u.sec.resp with tag := tag } } }
    | some reason, _ => refuseMb s r 1 reason
    | none, none => refuseMb s r 1 7)))

/-- PROVE: the host's tag has verified: K_s is derived and the session is open (R338). -/
def execProve (r : MbReq) (s : State) : Out :=
  .next (whenLive s (mailbox 2 r [] (fun _ => false) 4 (fun s =>
    let i := r.session % 16
    let x := sess s i
    let ks := Config.kmac256 ((roleKey s x.role).getD 0) (transcript s i) 256 "LK6424 SESSION"
    done_ (addR (putSess s i { x with isOpen := true, pending := false, key := ks, seq := 1 }) F.SEC_OPENS 1) r 2 [])))

/-- CHALLENGE_EXPIRY: a pending challenge expires 1.00 s after OPEN (R338). -/
def execChallengeExpiry (slot : Nat) (s : State) : Out :=
  .next (whenLive s fun s =>
    guardOn (decide (slot < 16) && (sess s slot).pending && decide ((sess s slot).openedAt + second ≤ s.now)) s fun s =>
      closeSession s slot)

/-- CLOSE: the session closes once its request has ended (R340). -/
def execClose (r : MbReq) (s : State) : Out :=
  .next (whenLive s (mailbox 3 r [] anyRole 4 (fun s => closeSession (done_ s r 3 []) (r.session % 16))))

/-! ## Role and model keys (R333, R344) -/

/-- SEC_STATE.ROLES_SET: bit r is set while the key of role r is set. -/
def refreshRoles (s : State) : State :=
  setR s F.SEC_STATE_ROLES_SET ((upto 5).foldl (fun a k => if (tget none s.sec.flashRole k).isSome then setBit a k else a) 0)

/-- PROVISION: an unset role key is set once from an encapsulated secret (R333). A role whose record is lost is refused (15
Table 15-8), as is any while the device root is missing. -/
def execProvision (r : MbReq) (role : Nat) (ct : List Byte) (s : State) : Out :=
  .next (whenLive s (mailbox 4 r (Config.mbPayload 4 [role]) (fun x => x.isNone) 4 (fun s =>
    if 4 < role ∨ (tget none s.sec.flashRole role).isSome ∨ s.sec.lostRoles.testBit role = true then refuseMb s r 4 4
    else if reg s F.SEC_STATE_PUF_OK = 0 then refuseMb s r 4 12
    else stored 3 r 4 (fun s =>
      let k := Config.kmac256 (Config.mlkemDecap Config.deviceRoot ct) (le 1 role) 256 "LK6424 ROLE"
      let s1 := { s with sec := { s.sec with
        roleKeys := tset none s.sec.roleKeys role (some k), flashRole := tset none s.sec.flashRole role (some k) } }
      done_ (refreshRoles (writeRecord s1 5 role)) r 4 (kcv k)) s)))

/-- May a session of role `x` clear the key of role `t`? (R333) -/
def mayClear (t : Nat) (x : Option Nat) : Bool :=
  match x with
  | some k => decide (t ≤ 4) && (decide (t = k) || decide (k = 4) || (decide (k = 3) && decide (t ≤ 2)))
  | none => false

/-- Every model key is deleted, in the Locksmith and in flash. -/
def dropModelKeys (s : State) : State :=
  s.sec.flashModel.foldl (fun t k => dropRecord t 6 k.1) { s with sec := { s.sec with modelKeys := [], flashModel := [] } }

/-- ROLE_CLEAR: the key of the TARGET role returns to unset; with the Model owner key go the model keys (R333). -/
def execRoleClear (r : MbReq) (role : Nat) (s : State) : Out :=
  .next (whenLive s (mailbox 5 r (le 1 role ++ [0, 0, 0]) (mayClear role) 4 (fun s =>
    if (tget none s.sec.flashRole role).isNone ∧ s.sec.lostRoles.testBit role = false then serviced 1 r 5 (fun s => done_ s r 5 []) s
    else stored 3 r 5 (fun s =>
      let s1 := { s with sec := { s.sec with
        roleKeys := tset none s.sec.roleKeys role none, flashRole := tset none s.sec.flashRole role none,
        lostRoles := clrBit s.sec.lostRoles role } }
      let s2 := dropRecord s1 5 role
      let s3 := if role = 1 then dropModelKeys s2 else s2
      done_ (refreshRoles s3) r 5 []) s)))

/-- MODEL_KEY: a model key is stored under its KEY_ID (R344). -/
def execModelKey (r : MbReq) (keyId : Nat) (ct : List Byte) (s : State) : Out :=
  .next (whenLive s (mailbox 0x20 r (le 8 keyId ++ ct) (onlyRole 1) 4 (stored 3 r 0x20 (fun s =>
    if s.sec.modelKeys.any (fun k => decide (k.1 = keyId)) ∨ 64 ≤ s.sec.modelKeys.length then refuseMb s r 0x20 10
    else
      let k := Config.kmac256 (Config.mlkemDecap Config.deviceRoot ct) (le 8 keyId) 256 "LK6424 MODEL"
      let s1 := { s with sec := { s.sec with
        modelKeys := s.sec.modelKeys ++ [(keyId, k)], flashModel := s.sec.flashModel ++ [(keyId, k)] } }
      done_ (writeRecord s1 6 keyId) r 0x20 (kcv k)))))

/-- An installed plan names the key. -/
def keyInUse (s : State) (keyId : Nat) : Bool :=
  s.plans.any (fun p => decide (p.2.st ≠ .free) && decide (p.2.img.hdr.keyId = keyId))

/-- MODEL_KEY_DELETE: the key is removed from the table and from flash, unless an installed plan names it (R344). -/
def execModelKeyDelete (r : MbReq) (keyId : Nat) (s : State) : Out :=
  .next (whenLive s (mailbox 0x21 r (le 8 keyId) (onlyRole 1) 4 (stored 3 r 0x21 (fun s =>
    if keyInUse s keyId then refuseMb s r 0x21 10
    else
      let s1 := { s with sec := { s.sec with
        modelKeys := s.sec.modelKeys.filter (fun k => decide (k.1 ≠ keyId)),
        flashModel := s.sec.flashModel.filter (fun k => decide (k.1 ≠ keyId)) } }
      done_ (dropRecord s1 6 keyId) r 0x21 []))))

/-- LOCKSMITH_ZEROISE: an uncorrectable read of the Locksmith's SRAM clears it and closes every session (R332). -/
def execLocksmithZeroise (s : State) : Out :=
  .next (whenLive s fun s =>
    closeAllAfter (setR (setR { s with sec := { s.sec with roleKeys := [], modelKeys := [] } } F.SEC_STATE_ZEROISED 1)
      F.SEC_STATE_KEYS_READY 0))

/-- KEYS_RELOADED: pair B has unwrapped the keys again (R332). -/
def execKeysReloaded (s : State) : Out :=
  .next (whenLive s fun s =>
    guardOn (flag s F.SEC_STATE_ZEROISED && !pairDown s 1 && flag s F.SEC_STATE_PUF_OK) s fun s =>
      setR (setR { s with sec := { s.sec with roleKeys := s.sec.flashRole, modelKeys := s.sec.flashModel } }
        F.SEC_STATE_ZEROISED 0) F.SEC_STATE_KEYS_READY 1)

/-- ENTROPY_HEALTH_TEST: while the entropy source fails its tests, OPEN is refused NOT_READY (R332). -/
def execEntropyHealthTest (pass_ : Bool) (s : State) : Out :=
  .next (whenLive s fun s => { s with sec := { s.sec with entropyBad := !pass_ } })

/-! ## Slots and unlocks (R341, R348) -/

/-- ADOPT: the caller takes every open slot of the mask whose owning session is no longer open; the response lists those left
(R341). -/
def execAdopt (r : MbReq) (mask : Nat) (s : State) : Out :=
  .next (whenLive s (mailbox 0x11 r (Config.mbPayload 0x11 [mask]) (onlyRole 0) 4 (fun s =>
    let mine := (upto 76).filter (fun n => mask.testBit n && (slotAt s n).isOpen)
    let owned (n : Nat) : Bool := tagOpen s (regS s F.ADM_POOL_SESSION n) none
    let s1 := (mine.filter (fun n => !owned n)).foldl (fun t n => putBoth t F.ADM_POOL_SESSION 0 n 0 r.session) s
    done_ s1 r 0x11 (Config.mbReply 0x11 (mine.filter owned)))))

/-- UNLOCK_STREAM: ENC_n commits may name the given open compressed or live slots (R348). -/
def execUnlockStream (r : MbReq) (mask : Nat) (s : State) : Out :=
  .next (whenLive s (mailbox 0x30 r (Config.mbPayload 0x30 [mask]) (onlyRole 2) 4 (fun s =>
    if decide (2 ^ 72 ≤ mask) || (upto 72).any (fun n => mask.testBit n && !slotOpen s n) then refuseMb s r 0x30 13
    else
      let new := ((upto 72).filter (fun n => mask.testBit n && !s.sec.streamUnlocks.contains (r.session, n))).map (fun n => (r.session, n))
      done_ (refreshUnlocks { s with sec := { s.sec with streamUnlocks := s.sec.streamUnlocks ++ new } }) r 0x30 [])))

/-- UNLOCK_TENSOR: one output of the next `count` items of a plan that end done is released (R348). -/
def execUnlockTensor (r : MbReq) (plan output count : Nat) (s : State) : Out :=
  .next (whenLive s (mailbox 0x31 r (Config.mbPayload 0x31 [plan, output, count]) (onlyRole 2) 4 (fun s =>
    if 15 < output ∨ count = 0 ∨ 255 < count then refuseMb s r 0x31 9
    else if !planInstalled s plan then refuseMb s r 0x31 13
    else done_ { s with sec := { s.sec with tensorUnlocks := s.sec.tensorUnlocks ++
        [{ session := r.session, plan := plan, output := output, count := count }] } } r 0x31 [])))

/-- An entry of EMB_READ: track ID and 128 bytes. -/
def embEntry (id : Nat) (e : List Int) : List Byte := le 4 id ++ padTo 0 128 (e.map (fun v => BitVec.ofInt 8 v))

/-- EMB_READ: up to 30 embeddings of a slot's live tracks from a track ID on, in ascending ID, sealed (R348). -/
def execEmbRead (r : MbReq) (slot first count : Nat) (s : State) : Out :=
  .next (whenLive s (mailbox 0x32 r (Config.mbPayload 0x32 [slot, first, count]) (onlyRole 2) 4 (fun s =>
    let l := ((liveOf s slot).filter (fun e => e.2.embValid && decide (first ≤ e.2.id))).take (if count < 30 then count else 30)
    let p := l.flatMap (fun e => embEntry e.2.id (tget [] s.trk.embs e.1))
    done_ s r 0x32 (sealRsp ((keyOf s r.session).getD 0) r.seq p))))

/-- LOCK: the session withdraws its unlocks of the given slots and of the given plan (R348). -/
def execLock (r : MbReq) (mask plan : Nat) (s : State) : Out :=
  .next (whenLive s (mailbox 0x33 r (Config.mbPayload 0x33 [mask, plan]) (onlyRole 2) 4 (fun s =>
    let s1 := withdrawStreams s (fun t n => decide (t = r.session) && mask.testBit n)
    done_ (withdrawTensors s1 (fun t p => decide (t = r.session) && decide (p = plan) && decide (plan ≠ 0))) r 0x33 [])))

/-- LOCK_ACK: the present release is acknowledged, and the next one enters the window (R348). -/
def execLockAck (r : MbReq) (s : State) : Out :=
  .next (whenLive s (mailbox 0x34 r [] (onlyRole 2) 4 (fun s =>
    done_ (nextRelease { s with sec := { s.sec with window := none } }) r 0x34 [])))

/-! ## Attestation (R351, R352) -/

/-- An entry of the disabled-unit map as 8 bytes (15 R374). -/
def dumEntry (e : DumEntry) : List Byte := le 1 e.kind ++ le 2 e.unit ++ le 2 e.sub ++ le 3 e.value

/-- DUM_DIGEST: over the header with its sequence field 0, and the entries (15 R374). -/
def dumDigest (s : State) : Nat :=
  Config.shake256 (le 2 1 ++ le 2 s.mgmt.dum.length ++ le 4 0 ++ le 8 0 ++ s.mgmt.dum.flatMap dumEntry) 256

/-- PLAN_DIGEST (Table 14-10). -/
def planDigests (s : State) : Nat :=
  Config.shake256 ((s.plans.filter (fun p => decide (p.2.st = .installed))).flatMap (fun p =>
    le 2 (planIdAt s p.1) ++ le 32 (Config.planDigest p.2.img))) 256

/-- CFG_DIGEST (Table 14-10): over the committed RWS fields. -/
def cfgDigest (s : State) : Nat :=
  let rws := (allFields.filter (fun f => decide (f.acc = .rws))).map (fun f => f.id)
  Config.cfgDigest (s.rf.live.filter (fun e => rws.contains (keyId e.1)))

/-- Bytes 0x000 to 0x0FF of the report (Table 14-10). -/
def reportBody (s : State) (nonce role leaf : Nat) : List Byte :=
  le 32 nonce ++ le 32 Config.deviceId ++ le 4 (reg s F.MGMT_FW_VERSION) ++ le 2 (reg s F.SEC_IFACE_SVN) ++
    le 2 (reg s F.SEC_IFACE_IFACE) ++ le 1 s.phase ++ le 1 role ++ le 1 (bnat s.gradeSC) ++ le 1 0 ++ le 4 leaf ++ le 8 s.now ++
    le 8 0 ++ le 32 (dumDigest s) ++ le 32 (planDigests s) ++ le 32 (cfgDigest s) ++ le 64 0

/-- ATTEST: a report signed with the next leaf; a reservation is persisted first when next has reached the end (R351, R352). -/
def execAttest (r : MbReq) (nonce : Nat) (s : State) : Out :=
  .next (whenLive s (mailbox 0x40 r (le 32 nonce) anyRole 4 (serviced 1 r 0x40 (fun s =>
    let leaf := reg s F.SEC_XMSS
    if 2 ^ 20 ≤ leaf then reply_ s r 0x40 0x202 11 []
    else if reg s F.SEC_XMSS_END ≤ leaf ∧ partFailed s 4 = true then reply_ (addR s F.MGMT_FW_SVC_FAILS 1) r 0x40 0x308 0 []
    else
      let s1 := if reg s F.SEC_XMSS_END ≤ leaf then
          logWrite { (setR s F.SEC_XMSS_END (leaf + 256)) with flash := { s.flash with xmssEnd := leaf + 256 } } .xmss
        else s
      let body := reportBody s1 nonce (sess s1 (r.session % 16)).role leaf
      done_ (setR s1 F.SEC_XMSS (leaf + 1)) r 0x40 (body ++ padTo 0 2820 (Config.xmssSign leaf body))))))

/-- GET_CERT: part 0 or 1 of the identity certificate (R351). -/
def execGetCert (r : MbReq) (part : Nat) (s : State) : Out :=
  .next (whenLive s (mailbox 0x41 r (Config.mbPayload 0x41 [part]) (fun _ => true) 4 (serviced 1 r 0x41 (fun s =>
    if 1 < part then refuseMb s r 0x41 9
    else done_ s r 0x41 ((Config.certificate.drop (4032 * part)).take 4032)))))

/-! ## Maintenance and service commands -/

/-- REPAIR_AUTH: firmware holds the authorisation for a hard repair of a row (10 R246). -/
def execRepairAuth (r : MbReq) (ch row : Nat) (s : State) : Out :=
  .next (whenLive s (mailbox 0x51 r (Config.mbPayload 0x51 [ch, row]) (onlyRole 3) 4 (serviced 1 r 0x51 (fun s =>
    done_ { s with sec := { s.sec with repairAuth := s.sec.repairAuth ++ [(ch, row)] } } r 0x51 []))))

/-- A cause of the safe state is still present (13 R306). -/
def safeCause (s : State) : Bool :=
  flag s F.THERM_STATE_CRIT || s.faults.selfCheck || (pairDown s 0 && pairDown s 1) ||
    (upto 64).any (fun p => (pipe s p).bad && decide (regS s F.REEVE_CFG_EN p ≠ 0) && decide (regS s F.REEVE_CFG_SAFE p ≠ 0))

/-- RECOVER: the safe state is left for RECOVERY once its cause has gone (13 R306, 07 R168). While it has not, the service is
unavailable; outside the safe state there is nothing to do. -/
def execRecover (r : MbReq) (s : State) : Out :=
  .next (whenLive s (mailbox 0x52 r [] (onlyRole 3) 4 (serviced 1 r 0x52 (fun s =>
    if !s.inSafe then done_ s r 0x52 []
    else if safeCause s then reply_ (addR s F.MGMT_FW_SVC_FAILS 1) r 0x52 0x308 0 []
    else
      let s1 := setR (setR s F.SYS_STATUS_SAFE 0) F.REEVE_FAULT_SAFE_STATE 0
      done_ (setPhase { s1 with winnow := { s1.winnow with provingSince := s1.now } } 3) r 0x52 []))))

/-- TEST_MODE: a Service session enters TEST, or leaves it for the phase it came from (07 R168, Table 7-4). -/
def execTestMode (r : MbReq) (on : Bool) (s : State) : Out :=
  .next (whenLive s (mailbox 0x60 r (Config.mbPayload 0x60 [bnat on]) (onlyRole 4) 4 (serviced 1 r 0x60 (fun s =>
    let s1 :=
      if on then enterTest s r.session
      else if s.phase = 2 ∧ s.sec.testBy = some r.session then leaveTest s
      else s
    done_ s1 r 0x60 []))))

/-- Every decrypted plan is deleted: what names it ends, and its entry is free (R354). Items that have been launched end
FAILED_RESET, those that wait are refused with REFUSED_PLAN (log entry 33). -/
def dropPlans (s : State) : State :=
  let s1 := endItems s (fun i => i.launched) 0x306
  let s2 := endItems s1 (fun _ => true) 0x205
  s2.plans.foldl (fun t p => if p.2.st = .installed ∨ p.2.st = .removing then
      settlePlan (modPlan t p.1 (fun x => { x with st := .removing })) p.1 else t) s2

/-- JTAG_UNLOCK: model keys and plans are deleted, every other session closes, TEST is entered, and the debug instructions are
open until the next fundamental reset (R354). -/
def execJtagUnlock (r : MbReq) (s : State) : Out :=
  .next (whenLive s (mailbox 0x62 r [] (onlyRole 4) 4 (stored 3 r 0x62 (fun s =>
    let s1 := dropModelKeys (dropPlans s)
    let s2 := ((upto 16).filter (fun i => decide (i ≠ r.session % 16))).foldl closeSession s1
    let s3 := enterTest s2 r.session
    done_ (setR s3 F.SEC_STATE_JTAG_OPEN 1) r 0x62 []))))

/-- UNLISTED_COMMAND: a code not listed in Table 14-8 is refused with reason FORMAT (R356), in the place of check 4. -/
def execUnlistedCommand (r : MbReq) (code : Nat) (s : State) : Out :=
  .next (whenLive s (mailbox code r (Config.mbPayload code []) (fun _ => false) 9 id))

end Sys2Proof.Machine
end

