-- ==== Sys2Proof/Machine/Mgmt.lean ====
section
/-!
DEFINITION. Sys2Proof/Machine/Mgmt.lean: reports at the fault collector (13_functional_safety.md R308) and the management pairs: their
resets, the fault journal and the disabled-unit map (15_management_firmware_and_storage.md R357 to R360, R373 to R375).
-/

namespace Sys2Proof.Machine

/-! ## Pair resets (R358, R359) -/

/-- The plan-table entry an INSTALL has taken is free again, its generation unchanged (R160). -/
def yieldEntry (s : State) (i : Option Nat) : State :=
  match i with
  | some i => addR (modPlan s i (fun p => { gen := p.gen })) F.PLAN_FREE 1
  | none => s

/-- Requests that pair B was serving end FAILED_FIRMWARE_SERVICE; the entry an INSTALL had taken is free again (Table 15-2). -/
def dropServices (s : State) : State :=
  let s1 := match s.sec.install with
    | some x =>
      let t := dropReads { s with sec := { s.sec with install := none } } (fun (k : ReadKind) => decide (k = ReadKind.planImage))
      reply_ (addR (yieldEntry t x.idx) F.MGMT_FW_SVC_FAILS 1) x.req 0x22 0x308 0 []
    | none => s
  match s1.sec.fwUpdate with
  | some x =>
    let t := dropReads { s1 with sec := { s1.sec with fwUpdate := none } } (fun (k : ReadKind) => decide (k = ReadKind.fwImage))
    reply_ (addR t F.MGMT_FW_SVC_FAILS 1) x.req 0x50 0x308 0 []
  | none => s1

/-- A fault of pair `pair` resets that pair only (R358); a handover in progress is abandoned with pair A, and pair B's open requests
fail (Table 15-2). -/
def pairFault (s : State) (pair cause : Nat) : State :=
  guardOn (decide (pair < 2) && !pairDown s pair) s fun s =>
    let s1 := resetPair (addR s (if cause = 1 then F.MGMT_DIVERGENCES else F.MGMT_WDOG_EXPIRIES) 1) pair cause
    if pair = 0 then
      let s2 := s1.winnow.handovers.foldl (fun t h => putF t F.WINNOW_CLU_STATE 0 0 h.1 0) s1
      { s2 with winnow := { s2.winnow with handovers := [] } }
    else dropServices (flashReset s1)

/-- DIVERGENCE: the comparator of a pair finds a mismatch (R358). -/
def execDivergence (pair : Nat) (s : State) : Out := .next (whenLive s fun s => pairFault s pair 1)

/-- WATCHDOG_EXPIRY: a management round passed without a write of the pair's watchdog (R358). -/
def execWatchdogExpiry (pair : Nat) (s : State) : Out := .next (whenLive s fun s => pairFault s pair 2)

/-- PAIR_RESTART_DONE: a reset pair is back in service; pair B first replays the operation journal (R359). -/
def execPairRestartDone (pair : Nat) (s : State) : Out :=
  .next (whenLive s fun s =>
    guardOn (decide (pair < 2) && pairDown s pair) s fun s =>
      let s1 := setR { s with mgmt := { s.mgmt with resetAt := tset none s.mgmt.resetAt pair none } }
        (if pair = 0 then F.MGMT_STATE_PAIR_A else F.MGMT_STATE_PAIR_B) 1
      if pair = 1 then flashReplay s1 else s1)

/-- BOTH_PAIRS_RESET_TIMEOUT: both pairs have been in reset at once for more than 13,000,000 ticks (R359, 13 R306). -/
def execBothPairsResetTimeout (s : State) : Out :=
  .next (whenLive s fun s =>
    match tget none s.mgmt.resetAt 0, tget none s.mgmt.resetAt 1 with
    | some a, some b => if (if a < b then b else a) + 13000000 < s.now then enterSafe s else s
    | _, _ => s)

/-! ## Reports (13 R308) -/

/-- A decode core reports an uncorrectable error in its memories; the second in one boot retires it, and the decode spare, if there
is one, takes pictures (15 R375). What the core writes of its present picture from there is poison (R11). -/
def decoderFault (s : State) (c : Nat) : State :=
  let n := (dec s c).ueCount + 1
  let s1 := addI (modDec s c (fun d => { d with ueCount := n, ue := true })) F.ERR_COUNT_UE (96 + c) 1
  let m := reg s1 F.MGMT_SERVICE_DEC
  if n = 2 ∧ m.testBit c = true then
    let sp := reg s1 F.MGMT_SERVICE_DEC_SPARE
    let m1 := clrBit m c
    fwEvent (setR (setR s1 F.MGMT_SERVICE_DEC (if sp < 9 then setBit m1 sp else m1)) F.MGMT_SERVICE_DEC_SPARE 15) 0x800C c
  else if n = 2 ∧ reg s1 F.MGMT_SERVICE_DEC_SPARE = c then fwEvent (setR s1 F.MGMT_SERVICE_DEC_SPARE 15) 0x800C c
  else s1

/-- An uncorrectable error in the track memories: a ledger entry is retired at the step that reads it (08 R191); an embedding, numbered
from 32,768 on, loses EMB_VALID and its track continues (08 R194). -/
def trackFault (s : State) (i : Nat) : State :=
  let e := i % 32768
  if (tget {} s.trk.tracks e).st = .free then s
  else
    let s1 := addI s F.ERR_COUNT_UE 15 1
    { s1 with trk := { s1.trk with tracks := tmod {} s1.trk.tracks e (fun t =>
        if i < 32768 then { t with ue := true } else { t with embValid := false }) } }

/-- FAULT_REPORT: a report reaches the fault collector, and the reaction of its class starts (R308). A test-tagged report has no
reaction (R317). -/
def execFaultReport (f : FaultRep) (s : State) : Out :=
  .next (whenLive s fun s =>
    if f.test then s
    else match f.cls with
      | .core p col adder =>
        if p < 72 then coreFault (addI s F.CORE_RESIDUE_ERR p 1) p (col % 64 + 256 * bnat adder) else s
      | .memory kind unit addr poison decPoison ps => memoryFault s kind unit addr poison decPoison ps (itemsOn s ps)
      | .dark k b ps => if k < 8 ∧ b < 17 then darkFault s k b (itemsOn s ps) else s
      | .link p => if portUp s p then portDown s p false else s
      | .management pair cause => pairFault s pair cause
      | .trackLedger i => trackFault s i
      | .thermal => compareTemps s
      | .decoder c => if c < 9 then decoderFault s c else s
      | .selfCheck => enterSafe { s with faults := { s.faults with selfCheck := true } })

/-! ## Fault journal (R373) -/

/-- Entries that partition FAULT holds: 64 to a page, 64 pages to a block. -/
def journalRoom (s : State) : Nat := 4096 * goodBlocks s 6

/-- FAULT_JOURNAL_WRITE: pair B writes up to 64 buffered entries as a page of the fault journal. When FAULT is full, its oldest block
is erased for new entries (R373). -/
def execFaultJournalWrite (s : State) : Out :=
  .next (whenLive s fun s =>
    guardOn (!pairDown s 1 && !partFailed s 6 && !s.mgmt.fjBuf.isEmpty) s fun s =>
      let all := s.mgmt.fjAll ++ s.mgmt.fjBuf.take 64
      let kept := if journalRoom s < all.length then all.drop 4096 else all
      let rest := s.mgmt.fjBuf.drop 64
      let first := ((kept.head?).map (fun e => e.number)).getD 0
      let next := (all.getLast?.map (fun e => e.number + 1)).getD 0
      let s1 := { s with mgmt := { s.mgmt with fjBuf := rest, fjAll := kept } }
      logWrite (setR (setR s1 F.MGMT_FJ_FIRST first) F.MGMT_FJ_NEXT next) .faultPage)

/-- Bytes of a fault-journal entry (Table 15-9). -/
def fjBytes (e : FjEntry) : List Byte :=
  le 8 e.number ++ le 8 e.tally ++ le 4 e.boot ++ le 2 e.code ++ le 1 e.severity ++ le 1 e.unitKind ++ le 2 e.unit ++ le 2 e.plan ++
    le 4 0 ++ le 8 e.detail ++ List.replicate 24 0

/-- Firmware places the entry whose number has low 32 bits `n` in the data registers, zeros when none is held, and sets READY. -/
def fjPlace (s : State) (n : Nat) : State :=
  let b := match s.mgmt.fjAll.find? (fun e => decide (e.number % 2 ^ 32 = n % 2 ^ 32)) with
    | some e => fjBytes e
    | none => []
  setR ((upto 16).foldl (fun t k => setX t F.MGMT_FJ_DATA k (unle ((b.drop (4 * k)).take 4))) s) F.MGMT_FJ_READY 1

/-- MGMT_FJ_SEL_WRITE: a host write of MGMT_FJ_SEL clears READY, and firmware places the selected entry (R373). The two fall in one
step; while pair A is in reset READY stays 0 (log entry 34). -/
def execMgmtFjSelWrite (n : Nat) (s : State) : Out :=
  .next (whenLive s fun s =>
    guardOn (pageUp s 8) s fun s =>
      let s1 := setR (setR s F.MGMT_FJ_SEL n) F.MGMT_FJ_READY 0
      if pairDown s 0 then s1 else fjPlace s1 n)

/-! ## Disabled-unit map (R374, R375) -/

/-- Order of map entries: (KIND, UNIT, SUB). -/
def DumEntry.key (e : DumEntry) : Nat := e.kind * 2 ^ 32 + e.unit * 2 ^ 16 + e.sub

/-- The map with an entry placed in order; an entry of the same kind, unit and sub is replaced. -/
def putDum (l : List DumEntry) (e : DumEntry) : List DumEntry :=
  insertBy (fun a b => decide (a.key < b.key)) e (l.filter (fun x => decide (x.key ≠ e.key)))

/-- A row unit of 1,024 rows of physical bank `p` is retired: the rows above it are renumbered down (09 R218), so what stood at
their offsets stands 64 KiB lower, rows that wait for write-back among it; the capacity of the bank's logical bank follows. -/
def retireUnit (s : State) (k p u : Nat) : State :=
  let old := tget 0 (clu s k).retiredUnits p
  if old.testBit u then s
  else
    let pos := ((upto u).filter (fun j => !old.testBit j)).length
    let lo := physAddr p (pos * 65536)
    let hi := physAddr (p + 1) 0
    let move (m : Tbl Nat) (z : Nat) : Tbl Nat := m.filterMap (fun (e : Nat × Nat) =>
      if e.1 < lo / z ∨ hi / z ≤ e.1 then some e else if e.1 < (lo + 65536) / z then none else some (e.1 - 65536 / z, e.2))
    let moveB (m : Tbl Byte) : Tbl Byte := m.filterMap (fun (e : Nat × Byte) =>
      if e.1 < lo ∨ hi ≤ e.1 then some e else if e.1 < lo + 65536 then none else some (e.1 - 65536, e.2))
    let row (r : Nat) : Option Nat := if r < pos * 1024 then some r else if r < (pos + 1) * 1024 then none else some (r - 1024)
    let s1 := modClu s k (fun c => { c with
      mem := { data := moveB c.mem.data, err := move c.mem.err 16 }, retiredUnits := tset 0 c.retiredUnits p (setBit old u)
      wbq := c.wbq.filterMap (fun e => if e.1 = p then (row e.2).map (fun r => (p, r)) else some e)
      wbIn := c.wbIn.filterMap (fun e => if e.1 = p then (row e.2.1).map (fun r => (p, r, e.2.2)) else some e)
      scrub := match tget {} c.scrub p with
        | { full := true, row := r } => (match row r with
          | some q => tset {} c.scrub p { full := true, row := q }
          | none => terase c.scrub p)
        | _ => c.scrub })
    match logicalOf s k p with
    | some b => putF s1 F.CLU_BANK_CAP_UNITS k 0 b (31 - ((upto 32).filter (fun j => old.testBit j)).length)
    | none => s1

/-- A bank of cluster `k` is retired (09 R218); a cluster that has already lost a bank goes out of service (R375). -/
def retireBank (s : State) (k p : Nat) : State :=
  let old := (clu s k).retiredBanks
  let s1 := modClu s k (fun c => { c with retiredBanks := setBit c.retiredBanks p })
  let s2 := match logicalOf s k p with
    | some b => putF s1 F.CLU_BANK_CAP_UNITS k 0 b (bankUnits s1 k p)
    | none => s1
  if old ≠ 0 ∧ old.testBit p = false then clusterOut s2 k else s2

/-- Pseudo-channel and row that an entry of kind 8 withholds (Table 15-10). -/
def withheldRow (e : DumEntry) : Nat × Nat :=
  let pc := 2 * e.unit + bitsOf e.value 20 20
  (pc, rowId pc (bitsOf e.value 22 21 * 16 + bitsOf e.value 19 18 * 4 + bitsOf e.value 17 16) (bitsOf e.value 13 0))

/-- Does the retirement that an entry of the map records stand? (Table 15-10) -/
def dumStands (s : State) (e : DumEntry) : Bool :=
  match e.kind with
  | 1 => decide (e.unit < 72) && decide (regI s F.CORE_STATE_STATE e.unit = 6)
  | 2 => decide (e.unit < 72) && decide (e.value = regI s F.CORE_PSUM_MASK e.unit) && decide (e.value ≠ 0)
  | 3 => decide (e.unit < 8) && decide (e.sub < 17)
  | 4 => decide (e.unit < 8) && decide (e.sub < 17) && decide (e.value < 32) &&
      (decide (((upto 32).filter (fun j => (tget 0 (clu s e.unit).retiredUnits e.sub).testBit j)).length < 4) ||
        (tget 0 (clu s e.unit).retiredUnits e.sub).testBit e.value)
  | 5 => decide (e.unit < 8) && decide (e.sub < 16) && decide (e.value = bankOf s e.unit e.sub) && decide (e.value ≠ e.sub)
  | 6 => decide (e.unit < 9) && !(reg s F.MGMT_SERVICE_DEC).testBit e.unit && decide (reg s F.MGMT_SERVICE_DEC_SPARE ≠ e.unit)
  | 7 => decide (e.unit < 16) && decide (e.sub / 8 < 2) && decide (e.sub % 8 < 5) && inRange 1 (if e.sub % 8 = 4 then 4 else 8) e.value
  | 8 => decide (e.unit < 16) && s.hbm.withheld.contains (withheldRow e)
  | 9 => decide (e.unit < 8) && (clu s e.unit).outOfService
  | _ => false

/-- The retirements that have no mechanism of their own take effect with their entry: a Granary bank or row unit (09 R218). -/
def applyDum (s : State) (e : DumEntry) : State :=
  if e.kind = 3 then retireBank s e.unit e.sub
  else if e.kind = 4 then retireUnit s e.unit e.sub e.value
  else s

/-- DUM_WRITE: after a retirement pair A commits a new disabled-unit map, with its sequence one up, and it is written to flash as
a configuration record (R374, R375). -/
def execDumWrite (kind unit sub value : Nat) (s : State) : Out :=
  .next (whenLive s fun s =>
    let e : DumEntry := { kind := kind, unit := unit, sub := sub, value := value % 2 ^ 24 }
    guardOn (!pairDown s 0 && dumStands s e && !s.mgmt.dum.contains e) s fun s =>
      let s1 := applyDum s e
      let l := putDum s1.mgmt.dum e
      let s2 := { s1 with mgmt := { s1.mgmt with dum := l, dumSeq := s1.mgmt.dumSeq + 1 } }
      writeRecord (setR (setR s2 F.MGMT_DUM_ENTRIES l.length) F.MGMT_DUM_SEQ s2.mgmt.dumSeq) 1 0)

end Sys2Proof.Machine
end

