-- ==== Sys2Proof/Machine/Winnow.lean ====
section
/-!
DEFINITION. Sys2Proof/Machine/Winnow.lean: Winnow (13_functional_safety.md R317 to R325): checker segments, golden windows' cutoff, spare
rotation, latent intervals, and the commit of SERVICE after the first full pass (07_plans_tiling_and_mapping.md R168).
-/

namespace Sys2Proof.Machine

/-! ## Segments (Table 13-6) -/

/-- Worst-case duration W of a segment, in ticks. -/
def segTicks (seg : Nat) : Nat := nth 256 [2048, 1024, 1024, 1024, 544, 2000, 4096, 256, 1300000] seg

/-- Kind of unit a segment tests: those of Table 8-10, 9 a cluster's Granary, 10 the fault collector. -/
def segKind (seg : Nat) : Nat :=
  match seg with
  | 4 => 9
  | 5 => 6
  | 6 => 5
  | 7 => 10
  | 8 => 7
  | _ => 1

/-- The unit is there to be tested: a core that is not retired, a cluster in service, an HBM channel, an up port, the collector, a
management pair. -/
def segUnit (s : State) (kind unit : Nat) : Bool :=
  match kind with
  | 1 => decide (unit < 72) && decide (regI s F.CORE_STATE_STATE unit ≠ 6)
  | 9 => decide (unit < 8) && !(clu s unit).outOfService
  | 6 => decide (unit < 16)
  | 5 => portUp s unit
  | 10 => decide (unit = 0)
  | 7 => decide (unit < 2)
  | _ => false

/-- Every segment on every unit. -/
def allSegs (s : State) : List (Nat × Nat × Nat) :=
  (upto 9).flatMap (fun g => ((upto 72).filter (segUnit s (segKind g))).map (fun u => (g, segKind g, u)))

/-- Every segment on every unit has passed since `t` (R317, 07 R168). -/
def fullPass (s : State) (t : Nat) : Bool :=
  (allSegs s).all (fun x => decide (t < tget 0 s.winnow.passAt (winKey x.1 x.2.1 x.2.2)))

/-- A segment runs on the unit. -/
def segRuns (s : State) (kind unit : Nat) : Bool :=
  s.winnow.segs.any (fun g => decide (g.unitKind = kind) && decide (g.unit = unit))

/-- Start of core `l`'s next reservation, if it has one; one whose item still waits for its launch counts (R318). -/
def nextResv (s : State) (l : Nat) : Option Nat :=
  (s.disp.resv.filter (fun r => r.cores.contains l && (decide (s.now < r.lo) ||
    (decide (s.now < r.hi) && ((item? s r.item).map (fun i => decide (i.st = .decided))).getD false)))).foldl (fun a r => match a with
    | none => some r.lo
    | some x => some (if r.lo < x then r.lo else x)) none

/-- A pooled head can be placed on logical core `l` now (R259). -/
def headWants (s : State) (l : Nat) : Bool :=
  (upto 4).any (fun p => match (waitingAt s p).find? (headReady s) with
    | some it => ((placeable s it).map (fun ls => ls.contains l)).getD false
    | none => false)

/-- The three conditions of R318 on physical core `p`; on the spare, that it is warm. -/
def coreGap (s : State) (p w : Nat) : Bool :=
  match logicalCore s p with
  | some l => coreIdle s l && !headWants s l &&
      (match nextResv s l with
       | some t => decide (s.now + w + 16 ≤ t)
       | none => true)
  | none => decide (spareOf s (p / 9) = some p) && decide (getF s F.WINNOW_CLU_STATE 0 0 (p / 9) = 0)

/-- WINNOW_SEGMENT_START: a segment starts on an idle unit in a gap, or is deferred (R318; while pair A is in reset there are no new
segments, Table 13-7). -/
def execWinnowSegmentStart (g : SegReq) (s : State) : Out :=
  .next (whenLive s fun s =>
    guardOn (flag s F.WINNOW_CTRL_EN && decide (g.seg < 9) && decide (g.unitKind = segKind g.seg) && segUnit s g.unitKind g.unit &&
      !segRuns s g.unitKind g.unit) s fun s =>
      if pairDown s 0 || (decide (g.unitKind = 1) && !coreGap s g.unit (segTicks g.seg)) then addR s F.WINNOW_DEFERRALS 1
      else { s with winnow := { s.winnow with
        segs := s.winnow.segs ++ [{ seg := g.seg, unitKind := g.unitKind, unit := g.unit, start := s.now }] } })

/-! ## SERVICE (07 R168) -/

/-- Firmware's commit of SERVICE after a full pass: at the first one in service the wear baselines are recorded (R325); the device is
session-ready (15 R362). -/
def commitService (s : State) : State :=
  let s1 := setPhase s 1
  let s2 := if s1.mgmt.firstService then s1 else
    writeRecord { s1 with mgmt := { s1.mgmt with
      firstService := true, ageBase := tsetList 0 [] 0 ((upto 72).map (fun p => regI s1 F.CORE_AGE p)) } } 7 0
  if flag s2 F.SYS_STATUS_READY then s2 else setR (setR s2 F.SYS_STATUS_READY 1) F.MGMT_BOOT_MS (s2.now / 1300000)

/-- SERVICE is committed from START_UP or RECOVERY once every segment on every unit has passed; never after a boot that did not bring
up HBM, or with TEST_EN high at power-on (10 R231, R249; 19 Table 19-11). -/
def proveService (s : State) : State :=
  if (s.phase = 0 ∨ s.phase = 3) ∧ s.hbm.reserved ∧ !s.power.testEn ∧ !s.inSafe ∧ !pairDown s 0 ∧ fullPass s s.winnow.provingSince then commitService s else s

/-! ## Findings (R317, R319) -/

/-- Unit kind and unit of a SAF record about a tested unit (Table 8-10 has no kind for a cluster or the collector, log entry 35). -/
def safUnit (s : State) (kind unit : Nat) : State × Nat × Nat :=
  if kind = 9 then ((fresh s).2, 2, 17 * unit + (fresh s).1 % 17)
  else if kind = 10 then (s, 0, 0)
  else (s, kind, unit)

/-- A severity-1 finding: on a core it is a core-class fault with no affected items, on any other unit it drives FAULT_N (R319). -/
def finding (s : State) (seg kind unit : Nat) : State :=
  let (s1, k, u) := safUnit (addR s F.WINNOW_FINDINGS 1) kind unit
  let s2 := safNow s1 0xB 1 k u 0 seg 0
  if kind = 1 then coreFault s2 unit 0
  else
    let key := winKey seg kind unit
    latchFault { s2 with winnow := { s2.winnow with
      findings := s2.winnow.findings.filter (fun x => decide (x ≠ key)) ++ [key] } } F.REEVE_FAULT_FINDING

/-- The run on a unit ends. -/
def dropRun (s : State) (g : SegRun) : State :=
  { s with winnow := { s.winnow with segs := s.winnow.segs.filter (fun x => decide (x ≠ g)) } }

/-- WINNOW_SEGMENT_END: the segment has passed, or its checker did not report the injection (R317). -/
def execWinnowSegmentEnd (unitKind unit : Nat) (pass_ : Bool) (s : State) : Out :=
  .next (whenLive s fun s =>
    match s.winnow.segs.find? (fun g => decide (g.unitKind = unitKind) && decide (g.unit = unit)) with
    | none => s
    | some g =>
      let key := winKey g.seg unitKind unit
      let s1 := dropRun s g
      let s2 := { s1 with winnow := { s1.winnow with overruns := terase s1.winnow.overruns key } }
      if pass_ then
        let s3 := testPassed (addR s2 F.WINNOW_SEGMENTS 1) key
        proveService { s3 with winnow := { s3.winnow with findings := s3.winnow.findings.filter (fun x => decide (x ≠ key)) } }
      else finding s2 g.seg unitKind unit)

/-- TEST_OVERRUN: a segment still running at its start + W is stopped: a notice, or, twice in a row, a severity-1 finding (R319). -/
def execTestOverrun (unitKind unit : Nat) (s : State) : Out :=
  .next (whenLive s fun s =>
    match s.winnow.segs.find? (fun g => decide (g.unitKind = unitKind) && decide (g.unit = unit)) with
    | none => s
    | some g =>
      guardOn (decide (g.start + segTicks g.seg ≤ s.now)) s fun s =>
        let key := winKey g.seg unitKind unit
        let n := tget 0 s.winnow.overruns key
        let s1 := dropRun s g
        let s2 := { s1 with winnow := { s1.winnow with overruns := tset 0 s1.winnow.overruns key 1 } }
        if n = 0 then
          let (s3, k, u) := safUnit (addR s2 F.WINNOW_OVERRUNS 1) unitKind unit
          safNow s3 0xC 0 k u 0 g.seg 0
        else finding s2 g.seg unitKind unit)

/-! ## Golden windows (R320) -/

/-- GOLDEN_WINDOW_CUTOFF: a golden item not at END when its window ends is cut off; its cores are free (Table 13-7). -/
def execGoldenWindowCutoff (item : Nat) (s : State) : Out :=
  .next (whenLive s fun s =>
    match item? s item with
    | none => s
    | some it =>
      guardOn (it.golden && it.launched && decide (it.e.launch + windowLen s it ≤ s.now)) s fun s =>
        let (u, s1) := match pipeOf s it.e.plan with
          | some p => (p, s)
          | none => ((fresh s).1 % 2 ^ 16, (fresh s).2)
        endItem (safNow (addR s1 F.WINNOW_OVERRUNS 1) 0xC 0 8 u it.e.plan it.e.plan 0) item 0)

/-! ## Spare rotation (R322, R323, R325) -/

/-- Wear of core `p` in ‰ against its baseline, 0 when the count is not below it (R325). -/
def wearOf (s : State) (p : Nat) : Nat :=
  let b := tget 0 s.mgmt.ageBase p
  if b = 0 then 0 else 1000 * (b - regI s F.CORE_AGE p) / b

/-- The core of cluster `k` that follows index `c` in rotation: the next one that is not retired. -/
def nextInRotation (s : State) (k c : Nat) : Nat :=
  (((rangeFrom (c + 1) 9).map (fun i => i % 9)).find? (fun i => decide (regI s F.CORE_STATE_STATE (9 * k + i) ≠ 6))).getD c

/-- Firmware starts the handover of core index `c` next: it is next in rotation, or worn to twice the threshold (R322, R325). -/
def handoverDue (s : State) (k c : Nat) : Bool :=
  decide (c = getF s F.WINNOW_CLU_NEXT 0 0 k) || decide (2 * reg s F.WINNOW_AGE_THR ≤ wearOf s (9 * k + c))

/-- HANDOVER_START: the copy from physical core `core` (0 to 8) of the cluster to its warm spare begins (R322). The rotation's interval
counts from the handover of its last core. -/
def execHandoverStart (clu core : Nat) (s : State) : Out :=
  .next (whenLive s fun s =>
    match spareOf s clu, logicalCore s (9 * clu + core) with
    | some q, some l =>
      guardOn (decide (clu < 8) && decide (core < 9) && flag s F.WINNOW_CTRL_ROTATE && !pairDown s 0 &&
        decide (getF s F.WINNOW_CLU_STATE 0 0 clu = 0) && (tget none s.faults.reactions clu).isNone &&
        !segRuns s 1 q && handoverDue s clu core) s fun s =>
        let s1 := putF s F.WINNOW_CLU_STATE 0 0 clu 1
        let n := nextInRotation s clu core
        let s2 :=
          if core = getF s F.WINNOW_CLU_NEXT 0 0 clu then
            let t := putF s1 F.WINNOW_CLU_NEXT 0 0 clu n
            if n ≤ core then testPassed t (winKey 14 9 clu) else t
          else s1
        let h : Handover := { logical := l, phys := 9 * clu + core, spare := q, start := s.now }
        { s2 with winnow := { s2.winnow with handovers := tset none s2.winnow.handovers clu (some h) } }
    | _, _ => s)

/-- Least ticks of a copy: 1,024 rows, one per phase-3 cycle, which comes every 2 ticks. -/
def copyTicks : Nat := 2048

/-- The spare holds the weight bin, the table store and the residents of the core it takes the place of (R322). -/
def CoreS.handOver (c : CoreS) : CoreS :=
  { wbin := c.wbin, written := tfilter (fun k => decide (k < 4096)) c.written, tstore := c.tstore, tstorePlan := c.tstorePlan,
    resident := c.resident }

/-- HANDOVER_SUBSTITUTION: after the copy, at the first decision at which the logical core runs no item, the spare stands for it; the
core that left goes to test, or is retired for wear (R322, R325). -/
def execHandoverSubstitution (clu : Nat) (s : State) : Out :=
  .next (whenLive s fun s =>
    match tget none s.winnow.handovers clu with
    | none => s
    | some h =>
      guardOn (decide (h.start + copyTicks ≤ s.now) && coreIdle s h.logical && !segRuns s 1 h.phys && !pairDown s 0) s fun s =>
        let c := core s h.phys
        let s1 := addR (setPlace { s with winnow := { s.winnow with handovers := terase s.winnow.handovers clu } } h.logical h.spare)
          F.SYS_PLACE_GEN 1
        let s2 := addR (setI (modCore s1 h.spare (fun _ => c.handOver)) F.CORE_STATE_STATE h.spare 0) F.WINNOW_HANDOVERS 1
        let s3 := setTag s2 h.spare (regI s F.CORE_RESIDENT_TAG h.phys) (regI s F.CORE_RESIDENT_PLAN h.phys)
        let s4 := clearTag s3 h.phys
        let d := wearOf s h.phys
        if reg s F.WINNOW_AGE_THR ≤ d then
          safNow (addR (setSpare (retireCore s4 h.phys) clu none 3) F.WINNOW_WEAR_RETIRED 1) 0x12 0 1 h.phys 0 d 0
        else
          let s5 := setI (setSpare s4 clu (some h.phys) 2) F.CORE_STATE_STATE h.phys 5
          { s5 with winnow := { s5.winnow with testing := tset none s5.winnow.testing clu (some s.now) } })

/-- CORE_TEST_DONE: the core that left rotation has been tested and its CORE_AGE read; it is the warm spare, or it is retired and the
cluster has no spare (R322, R310). -/
def execCoreTestDone (core : Nat) (pass_ : Bool) (age : Nat) (s : State) : Out :=
  .next (whenLive s fun s =>
    let k := core / 9
    guardOn (decide (core < 72) && (tget none s.winnow.testing k).isSome && decide (spareOf s k = some core)) s fun s =>
      let s1 := setI { s with winnow := { s.winnow with testing := tset none s.winnow.testing k none } } F.CORE_AGE core age
      let s2 := modCore s1 core (fun _ => {})
      if pass_ then setI (setSpare s2 k (some core) 0) F.CORE_STATE_STATE core 4
      else checkCluster (safNow (setSpare (retireCore s2 core) k none 3) 0xE 1 1 core 0 k 0) k)

/-! ## Latent intervals (R324) -/

/-- Interval of a test: a rotation's in seconds, any other's in milliseconds. -/
def latentTicks (s : State) (seg : Nat) : Nat :=
  if seg = 14 then reg s F.WINNOW_LATENT_ROT_S * second else msTicks (reg s F.WINNOW_LATENT_MS)

/-- Does the test exist? 14 is a cluster's rotation, 15 a plan's golden test (kind 8, the unit its plan-table index). -/
def latentUnit (s : State) (seg kind unit : Nat) : Bool :=
  if seg = 14 then decide (kind = 9) && decide (unit < 8) && !(clu s unit).outOfService &&
    decide (getF s F.WINNOW_CLU_STATE 0 0 unit ≠ 3)
  else if seg = 15 then decide (kind = 8) && decide ((planAt s unit).st = .installed) && (timelineOf s unit).golden.isSome
  else decide (seg < 9) && decide (kind = segKind seg) && segUnit s kind unit

/-- The tick from which a test's interval runs: its last pass, or the last record of its lateness, or the start of the phase. -/
def latentFrom (s : State) (seg kind unit : Nat) : Nat :=
  let key := winKey seg kind unit
  maxOf [tget 0 s.winnow.passAt key - 1, tget 0 s.winnow.overdueAt key - 1, s.winnow.provingSince]

/-- LATENT_OVERDUE: a test has not passed within its latent interval: one record per interval (R324). -/
def execLatentOverdue (seg unitKind unit : Nat) (s : State) : Out :=
  .next (whenLive s fun s =>
    guardOn (latentUnit s seg unitKind unit && decide (latentFrom s seg unitKind unit + latentTicks s seg ≤ s.now)) s fun s =>
      let key := winKey seg unitKind unit
      let plan := if seg = 15 then planIdAt s unit else 0
      let (s1, k, u, d) :=
        if seg = 14 then ((fresh s).2, 0, unit, (fresh s).1 % 2 ^ 64)
        else if seg = 15 then
          match pipeOf s plan with
          | some p => (s, 8, p, plan)
          | none => ((fresh s).2, 8, (fresh s).1 % 2 ^ 16, plan)
        else ((safUnit s unitKind unit).1, (safUnit s unitKind unit).2.1, (safUnit s unitKind unit).2.2, seg)
      let s2 := safNow (addR s1 F.WINNOW_OVERDUE 1) 0xD 1 k u plan d 0
      let s3 := { s2 with winnow := { s2.winnow with
        overdueAt := tset 0 s2.winnow.overdueAt key (s.now + 1),
        overdueOpen := s2.winnow.overdueOpen.filter (fun x => decide (x ≠ key)) ++ [key] } }
      if flag s3 F.WINNOW_CTRL_OVERDUE_FAULT then latchFault s3 F.REEVE_FAULT_LATENT_OVERDUE else s3)

end Sys2Proof.Machine
end

