-- ==== Sys2Proof/Machine/Program.lean ====
section
/-!
DEFINITION. Sys2Proof/Machine/Program.lean: what plan install checks in a plan's tile programs (07_plans_tiling_and_mapping.md Table 7-3,
checks 4 to 7, 10, 11 and 13): the checks on each instruction as it stands, and those the static run has made.
-/

namespace Sys2Proof.Machine

/-! ## Instructions as they stand -/

/-- Reduction lengths the array takes (R86, R89). -/
def MMOp.lengthOk (o : MMOp) : Bool :=
  decide (1 ≤ o.m) && decide (1 ≤ o.n) && decide (1 ≤ o.k) && decide (o.blocks.length ≤ o.tiles.length) &&
    (match o.mode with
     | .b16 => true
     | .c16 => decide (o.k ≤ 32767)
     | _ => decide (o.k ≤ 131071))

/-- Mode, format and dataflow go together (R88, R91, Table 4-13). -/
def MMOp.modeOk (o : MMOp) : Bool :=
  match o.mode with
  | .i8 => true
  | .b16 => decide (o.fp16 = o.wfp16)
  | _ => decide (o.flow = .ws) || decide (o.flow = .os)

/-- Rows of the stages of the frequency-domain path have 64 elements in a transform and C_IN in the channel mix (Table 6-7). -/
def MMOp.stageOk (o : MMOp) (f : Feed) (d : OpDesc) : Bool :=
  inRange 2 6 f.stage && (decide (o.flow = .ws) || decide (o.flow = .os)) &&
    (if f.stage = 4 then decide (o.k = d.cIn) && decide (f.chan + o.n ≤ d.cOut) && decide (f.fbin < 4096)
     else decide (o.k = 64) && decide (o.n ≤ 64))

/-- The descriptor that feeds an operation agrees with it (R133, R138, R140, R141, R145), and the operand holds the input rows that its
output rows read (R156). -/
def MMOp.feedOk (o : MMOp) (img : PlanImage) : Bool :=
  match o.feed with
  | none => true
  | some f =>
    match img.ops[f.op]? with
    | none => false
    | some d =>
      decide (d.op = 1) && decide (d.mode = o.mode.num) && (decide (o.mode ≠ .b16) || decide (d.fp16 = o.fp16)) &&
        (if d.path = 2 then o.stageOk f d
         else decide (o.k = d.cg * d.kh * d.kw) && decide (f.chan + o.n ≤ d.cOut) &&
           (let ow := (d.outDims d.hMax d.wMax).2
            decide (f.row0 ≤ (d.inRows d.hMax (f.pos / ow) (f.pos / ow)).1)) &&
           (match d.path with
            | 1 => decide (o.flow = .diag)
            | 3 => decide (o.flow ≠ .diag) && decide (f.chan % (d.cOut / d.groups) + o.n ≤ d.cOut / d.groups)
            | _ => decide (o.flow ≠ .diag)))

/-- A table function's parameters (R96). -/
def TabPar.ok (p : TabPar) : Bool :=
  decide (p.tab < 8) && decide (p.sh ≤ 26) && decide (p.r ≤ 31) && decide (p.f ≤ 30) && decide (p.g ≤ 30)

/-- G of a staged tensor lies from −30 to 30 (R118). -/
def StageScale.ok : StageScale → Bool
  | .fixed _ => true
  | .prod _ _ g => decide (-30 ≤ g) && decide (g ≤ 30)
  | .pow g => decide (-30 ≤ g) && decide (g ≤ 30)

/-- INT32 or FP32 (Table 4-6). -/
def Fmt.wide (f : Fmt) : Bool := decide (f = .i32) || decide (f = .fp32)

/-- A conversion of Table 5-2 that needs no scale record (R116). -/
def convOk (src dst : Fmt) : Bool :=
  match src, dst with
  | .i8, .i32 => true
  | .i16, .i32 => true
  | .i32, .fp32 => true
  | .i32, .bf16 => true
  | .i32, .fp16 => true
  | .fp32, .i32 => true
  | .fp32, .bf16 => true
  | .fp32, .fp16 => true
  | .bf16, .fp32 => true
  | .fp16, .fp32 => true
  | _, _ => false

/-- Limits of a vector operation that are seen statically (Table 4-6, R96, R99, R116, R119, R122, Table 4-13); one with an operator
descriptor works in the descriptor's format. -/
def VecOp.limitsOk : VecOp → Bool
  | .relu f _ _ _ => f.wide
  | .clip f _ _ _ _ _ => f.wide
  | .requantise f _ _ _ _ _ => f.wide || decide (f = .bf16)
  | .tableFn _ p _ _ => p.ok
  | .maxAbs f n _ _ => (f.wide || decide (f = .bf16)) && decide (n ≤ 2 ^ 24)
  | .softmax n f _ d _ _ => inRange 1 16384 n && f.wide && decide (d ≠ .i32)
  | .layerNorm n _ _ _ _ _ => inRange 1 16384 n
  | .boxDecode p _ _ _ _ =>
    inRange 1 2048 p.cap && inRange 1 256 p.classes && decide (p.anchors ≤ 65536) && decide (p.frac ≤ 24) && (p.dist || p.tab.ok)
  | .add f _ _ _ _ _ o => f.wide || o.isSome
  | .mul f _ _ _ _ => f.wide
  | .fma f _ _ _ _ _ o => f.wide || o.isSome
  | .min f _ _ _ _ => f.wide
  | .max f _ _ _ _ o => f.wide || o.isSome
  | .convert a b _ _ _ _ => convOk a b
  | .derive_ f s _ _ _ _ => (f.wide || decide (f = .bf16)) && s.ok
  | .biasq _ _ _ _ _ => true

/-- The operator descriptor a vector operation names is of a kind that it stands for. -/
def VecOp.operOk (op : VecOp) (img : PlanImage) : Bool :=
  let kind (i : Nat) (l : List Nat) : Bool := (img.ops[i]?).any (fun d => l.contains d.op)
  (op.outMap.all (fun m => kind m.op [1])) && (match op with
    | .add _ _ _ _ _ _ (some i) => kind i [3, 4]
    | .max _ _ _ _ _ (some i) => kind i [2]
    | .fma _ _ _ _ _ _ (some i) => kind i [5]
    | _ => true)

/-- Element count of a vector operation, for the whole-tile condition (R169). -/
def VecOp.count : VecOp → Nat
  | .relu _ n _ _ => n
  | .clip _ n _ _ _ _ => n
  | .requantise _ n _ _ _ _ => n
  | .tableFn n _ _ _ => n
  | .maxAbs _ n _ _ => n
  | .softmax n _ _ _ _ _ => n
  | .layerNorm n _ _ _ _ _ => n
  | .boxDecode p _ _ _ _ => p.anchors
  | .add _ _ n _ _ _ _ => n
  | .mul _ n _ _ _ => n
  | .fma _ n _ _ _ _ _ => n
  | .min _ n _ _ _ => n
  | .max _ n _ _ _ _ => n
  | .convert _ _ n _ _ _ => n
  | .derive_ _ _ _ _ _ _ => 0
  | .biasq n _ _ _ _ => n

/-- An instruction as it stands, for check 5: lengths, limits, tokens, tables. -/
def insOk (img : PlanImage) (c : TileCmd) : Bool :=
  decide (c.tok.waits.length ≤ 2) && (c.tok.waits ++ c.tok.sets.toList).all (fun t => decide (t < 32)) &&
    (match c.ins with
     | .ld _ (.table t) _ => decide (t < 8)
     | .mm o => o.lengthOk && o.feedOk img
     | .vec op => op.limitsOk && op.operOk img
     | _ => true)

/-- A program as it stands: at most 1,024 instructions, END last (R107). -/
def progOk (img : PlanImage) (l : List TileCmd) : Bool :=
  decide (l.length ≤ 1024) && decide ((l.getLast?).map (fun x => x.ins) = some .end_) && l.all (insOk img)

/-! ## The checks of Table 7-3 on the programs -/

/-- All instructions of an image. -/
def allCmds (img : PlanImage) : List TileCmd := img.progs.flatMap (fun p => p.2)

/-- Its array operations. -/
def allMms (img : PlanImage) : List MMOp := (allCmds img).filterMap (fun c => match c.ins with
  | .mm o => some o
  | _ => none)

/-- 4 TAGS: every LDW tag from 1 to TAGS. -/
def tagsOk (img : PlanImage) : Bool :=
  decide (img.hdr.tags ≤ 255) && (allCmds img).all (fun c => match c.ins with
    | .ldw _ _ _ t => inRange 1 img.hdr.tags t
    | _ => true)

/-- 5 PROGRAM and 7 MODE. -/
def programOk (img : PlanImage) (l : List SRun) : Bool := img.progs.all (fun p => progOk img p.2) && l.all (fun x => !x.badProgram)
def modesOk (img : PlanImage) (l : List SRun) : Bool := (allMms img).all MMOp.modeOk && l.all (fun x => !x.badMode)

/-- 10 RECORDS (R118, R124): what the static run found; the records of the RECORDS section are static, their DERIVED flag clear (R124,
Table 5-3). -/
def recordsOk (img : PlanImage) (l : List SRun) : Bool := l.all (fun x => !x.badRecords) && img.staticRecs.all (fun r => !r.testBit 83)

/-- Rows of a region as the program defines it last. -/
def regionLen (l : List TileCmd) (b : Bin) (r : Nat) : Nat :=
  (l.reverse.findSome? (fun c => match c.ins with
    | .reg b2 r2 _ len _ => if b2 = b ∧ r2 = r then some len else none
    | _ => none)).getD 0

/-- Every WAIT on a semaphore directly follows a BND (11 R266). -/
def waitsOk : List TileCmd → Bool
  | a :: b :: r =>
    (match b.ins with
     | .wait (.sem _) => (match a.ins with
       | .bnd _ => true
       | _ => false)
     | .wait (.semScratch _) => (match a.ins with
       | .bnd _ => true
       | _ => false)
     | _ => true) && waitsOk (b :: r)
  | _ => true

/-- 6 BOUNDARY: a pooled plan reaches a BND at least every 5,200 cycles, with at most 16 KiB of live rows (R108, 11 R263). -/
def boundaryOk (img : PlanImage) (l : List SRun) : Bool :=
  decide (img.hdr.cls = 1) || (l.all (fun x => decide (x.spacing ≤ 5200)) && img.progs.all (fun p => waitsOk p.2 && p.2.all (fun c =>
    match c.ins with
    | .bnd live => decide (sumN (live.map (fun x => regionLen p.2 x.1 x.2 * x.1.row)) ≤ 16384)
    | _ => true)))

/-- The highest partial-sum tile index an image names. -/
def topTile (img : PlanImage) : Nat := maxOf ((allMms img).flatMap (fun o => o.tiles))

/-- 11 PSUM (R174). -/
def psumOk (img : PlanImage) : Bool :=
  let want := 4 * (topTile img - 11)
  inRange 12 16 img.hdr.psumAssumed && decide (topTile img ≤ 31) && inRange 64 80 img.hdr.spillKib &&
    decide (img.hdr.spillKib = (if want < 64 then 64 else want))

/-- Whole tiles throughout the programs (R169). -/
def wholeMms (img : PlanImage) : Bool :=
  (allMms img).all (fun o => decide (o.m % 32 = 0) && decide (o.n % 32 = 0) &&
    decide (o.k % (if o.mode = .l4 ∨ o.mode = .l3 then 64 else 32) = 0)) &&
  (allCmds img).all (fun c => match c.ins with
    | .vec o => decide (o.count % 32 = 0)
    | _ => true)

/-- 13 WHOLE_TILE (R169). -/
def wholeOk (img : PlanImage) : Bool :=
  !img.hdr.wholeTile || (wholeMms img && (enumFrom 0 img.ops).all (fun x =>
    decide (maxDims img (img.ops.length + 1) x.1 = (x.2.hMax, x.2.wMax))))

/-! ## 12 SPLIT (R172, Table 7-10) -/

/-- The array operations of rank `j` that a split's part of length `k` may be. -/
def partMms (img : PlanImage) (d : SplitDecl) (j k : Nat) : List MMOp :=
  ((img.progs.filter (fun p => decide (p.1 = j))).flatMap (fun p => p.2)).filterMap (fun c => match c.ins with
    | .mm o => if o.mode = d.mode ∧ o.k = k then some o else none
    | _ => none)

/-- An array operation that cannot be split along K: of the diagonal or the frequency-domain path (Table 7-10). -/
def MMOp.noSplit (o : MMOp) (img : PlanImage) : Bool :=
  decide (o.flow = .diag) || (match o.feed.bind (fun f => img.ops[f.op]?) with
    | some d => decide (d.path = 1) || decide (d.path = 2)
    | none => false)

/-- A K split: c parts on ranks 0 to c − 1, whose ascending boundaries from 0 to K are multiples of k_t, each part an array operation of its
rank's program, with a combine region inside the plan's claim of `bytes` bytes. -/
def splitOk (img : PlanImage) (bytes : Nat) (d : SplitDecl) : Bool :=
  let parts := (d.bounds.zip (d.bounds.drop 1)).map (fun x => (x.1, x.2 - x.1))
  let mms := (enumFrom 0 parts).map (fun x => partMms img d x.1 x.2.2)
  inRange 2 64 parts.length && decide (parts.length = img.hdr.cores) && d.bounds.all (fun b => decide (b % d.mode.consts.kt = 0)) &&
    decide (nth 1 d.bounds 0 = 0) && parts.all (fun x => decide (0 < x.2)) && decide (d.bounds.getLast? = some d.k) &&
    mms.all (fun l => l.any (fun o => !o.noSplit img)) && decide (d.combine + d.len ≤ bytes) && decide (0 < d.len)

end Sys2Proof.Machine
end

