-- ==== Sys2Proof/Machine/Plans.lean ====
section
/-!
DEFINITION. Sys2Proof/Machine/Plans.lean: plan install and uninstall (07_plans_tiling_and_mapping.md R158 to R166, Table 7-3; pinned
admission R166; the FABRIC section, 12_determinism_and_fabric.md R295) and their commands.
-/

namespace Sys2Proof.Machine

/-! ## 1 FORMAT, 2 AUTH (R158, 14 R345) -/

/-- Two sections overlap. -/
def Section.meets (a b : Section) : Bool := overlap a.off (a.off + a.len) b.off (b.off + b.len)

/-- No two elements of a list are related by `p`. -/
def noPair {α : Type} (p : α → α → Bool) : List α → Bool
  | [] => true
  | x :: xs => xs.all (fun y => !p x y) && noPair p xs

/-- The section table: known types, each once but PROGRAM, inside the image, without overlap. -/
def tableOk (img : PlanImage) : Bool :=
  inRange 1 128 img.table.length && decide (img.hdr.sections = img.table.length) &&
    img.table.all (fun x => inRange 1 11 x.ty && decide (256 + 16 * img.table.length ≤ x.off) && decide (x.off + x.len ≤ img.len)) &&
    noPair (fun (a b : Section) => a.meets b || (decide (a.ty = b.ty) && decide (a.ty ≠ 1))) img.table

/-- A program for each rank. -/
def ranksOk (img : PlanImage) : Bool :=
  decide (img.progs.length = img.hdr.cores) && (upto img.hdr.cores).all (fun r => img.progs.any (fun p => decide (p.1 = r))) &&
    decide ((img.table.filter (fun x => decide (x.ty = 1))).length = img.hdr.cores)

/-- 1 FORMAT: the header's ranges (Table 7-1), the sections, and TIMELINE with pinned plans only (Table 7-10). -/
def formatOk (img : PlanImage) (len : Nat) : Bool :=
  let h := img.hdr
  decide (h.magic = 0x4C504B4C) && decide (h.format / 256 = 1) && decide (h.format % 256 ≤ 2) && decide (img.len ≤ 2 ^ 31) &&
    decide (img.len = len) && decide (h.cls ≤ 1) && decide (h.flags < 16) && inRange 1 255 h.maxBatch && inRange 1 64 h.cores &&
    (!h.oneCluster || decide (h.cores ≤ 8)) && decide (h.granKib ≤ 32768) && decide (h.hbmKib ≤ 25165824) &&
    decide (img.timeline.isSome = decide (h.cls = 1)) && tableOk img && ranksOk img

/-- 2 AUTH: the model key is held and the tag verifies. -/
def authOk (s : State) (img : PlanImage) : Bool :=
  match s.sec.modelKeys.find? (fun k => decide (k.1 = img.hdr.keyId)) with
  | some k => decide (Config.planTag k.2 img = img.hdr.tag)
  | none => false

/-- 3 TABLE_FULL: the lowest free plan-table entry. -/
def freePlanIdx (s : State) : Option Nat := (upto 256).find? (fun i => decide ((planAt s i).st = .free))

/-! ## 8 OPERATOR, 9 SHAPING, 10 RECORDS, 12 SPLIT -/

/-- A scaler coefficient table (03 R62). -/
def coefOk (d : ShapeDesc) : Bool :=
  !d.filter || (decide (d.table.length = 64) && d.table.all (fun p =>
    decide (p.length = 8) && p.all (fun c => decide (-256 ≤ c) && decide (c ≤ 511)) && decide (sumI p = 256)))

/-- A shaping descriptor (Table 3-1). -/
def ShapeDesc.ok (d : ShapeDesc) : Bool :=
  inRange 1 4096 d.outW && inRange 1 4096 d.outH && decide (d.rot ≤ 3) && decide (d.matrix ≤ 3) && decide (d.outFmt ≤ 2) &&
    decide (d.shift ≤ 31) && decide (d.mult < 2 ^ 16) && d.off.all (fun x => decide (x ≤ 255)) && coefOk d

/-- The fixed header of a box list (03 R65). -/
def BoxHdr.ok (h : BoxHdr) : Bool :=
  decide (h.count ≤ 4096) && inRange 7 64 h.outW && inRange 7 64 h.outH && inRange 1 255 h.targets && decide (h.binding ≤ 15)

/-- Packer settings of a stage (03 R71, R72, Table 3-7). -/
def packOk (st : ShapeStage) (c : PackCfg) : Bool :=
  inRange 32 4096 c.rowW &&
    (if c.tile then !c.forTokens && decide (c.guard_ ≤ 15) && decide (((st.hdr.map (fun h => h.outW)).getD st.desc.outW) + c.guard_ ≤ c.rowW)
     else decide (c.rowW % 32 = 0) && st.hdr.isNone)

/-- A picture binding of a stage: an RGB8 source gives RGB alone (Table 3-7), and a scaler stage keeps the ratio at its maxima. -/
def stageSrcOk (st : ShapeStage) (b : BindDecl) : Bool :=
  let w := nth 0 b.dims 0
  let h := nth 0 b.dims 1
  let (rw, rh) := if st.desc.rot % 2 = 1 then (h, w) else (w, h)
  (decide (b.fmt ≠ 3) || decide (st.desc.outFmt = 0)) &&
    (decide (st.unit ≠ .scaler) || (ratioOk rw st.desc.outW && ratioOk rh st.desc.outH))

/-- A shaping stage: a scaler stage takes its exact duration (03 R59, R60, R62). -/
def stageOk (img : PlanImage) (st : ShapeStage) : Bool :=
  st.desc.ok && (st.binding :: st.more).all (fun i => decide (i ≤ 15)) &&
    (match st.unit with
     | .scaler => st.hdr.isNone && (st.binding :: st.more).all (fun i => stageSrcOk st (declOf img i)) && decide (st.duration = scalerTicks st (sumN ((st.binding :: st.more).map (fun i =>
         let b := declOf img i
         srcGranules b.fmt (nth 0 b.dims 0) (nth 0 b.dims 1) 0 st.desc.outFmt))))
     | _ => (match st.hdr with
       | some hd => hd.ok && stageSrcOk st (declOf img hd.binding)
       | none => false)) &&
    (match st.pack with
     | some c => packOk st c
     | none => true)

/-! ## 14 WCET (R164) -/

/-- The WCET section equals the computed values, each below 2^32. -/
def wcetOk (img : PlanImage) (l : List SRun) : Bool :=
  decide (img.wcet.map some = l.map SRun.wcet) && img.wcet.all (fun x => decide (x < 2 ^ 32))

/-! ## 15 RESOURCES (R207, R435) -/

/-- Bytes in each bank of a plan's Granary claim: (GRANARY_KIB + (SPILL_KIB − 64) · min(CORES, 8)) KiB over 16 banks (R174). -/
def claimBytes (h : PlanHdr) : Nat := (h.granKib + (h.spillKib - 64) * (if h.cores < 8 then h.cores else 8)) * 64

/-- Two claims share a bank and overlap in it. -/
def GranClaim.meets (a b : GranClaim) : Bool := overlap a.bank (a.bank + a.width) b.bank (b.bank + b.width) &&
  overlap a.start (a.start + a.perBank) b.start (b.start + b.perBank)

/-- Every bank of every cluster in service is on and large enough for a claim. -/
def claimFits (s : State) (c : GranClaim) : Bool :=
  (upto 8).all (fun k => (clu s k).outOfService || (rangeFrom c.bank c.width).all (fun b =>
    (regI s F.CLU_BANK_PWR k).testBit (bankOf s k b) && !bankDark s k (bankOf s k b) && decide (c.start + c.perBank ≤ bankCap s k b)))

/-- The claim of plan-table entry `i`, at the lowest offset that has room beside every other claim; none when there is no room. -/
def placeClaim (s : State) (i : Nat) (h : PlanHdr) : Option GranClaim :=
  let at_ (o : Nat) : GranClaim := { owner := i, width := 16, bank := 0, start := o, perBank := claimBytes h }
  if claimBytes h = 0 then some (at_ 0)
  else
    let starts := sortBy (fun (a b : Nat) => decide (a < b)) (0 :: s.claims.map (fun c => c.start + c.perBank))
    (starts.map at_).find? (fun c => claimFits s c && s.claims.all (fun d => !c.meets d))

/-- The HBM address of a claim of `kib` KiB: the lowest between the Cooper area and firmware's other reservations that meets no plan's
claim and no withheld row (log entry 14; R246, 15 R375). -/
def placeHbm (s : State) (kib : Nat) : Option Nat :=
  let used := (s.plans.filter (fun p => decide (p.2.img.hdr.hbmKib ≠ 0) && (decide (p.2.st = .installed) || decide (p.2.st = .removing)))).map
    (fun p => (p.2.hbmBase, p.2.hbmBase + 1024 * p.2.img.hdr.hbmKib)) ++ withheldSpans s
  let base := cooperBase + 1024 * reg s F.COOPER_AREA
  if reg s F.PLAN_FREE_HBM < kib then none
  else if kib = 0 then some base
  else
    (sortBy (fun (a b : Nat) => decide (a < b)) (base :: used.map (fun u => u.2))).find? (fun a =>
      decide (a + 1024 * kib ≤ 1024 * hbmBelowKib) && used.all (fun u => !overlap a (a + 1024 * kib) u.1 u.2))

/-- The Cooper minima a plan names can be reserved (R225, R227). -/
def poolsOk (s : State) (img : PlanImage) : Bool :=
  img.poolMins.all (fun m => decide (m.1 < 8) && img.hdr.pools.testBit m.1 && canReserve s m.1 m.2) &&
    noPair (fun (a b : Nat × Nat) => decide (a.1 = b.1)) img.poolMins

/-! ## 16 SEMAPHORE (R267) -/

/-- Installed plans, with their plan-table indices. -/
def installed (s : State) : List (Nat × PlanS) := s.plans.filter (fun p => decide (p.2.st = .installed))

/-- No semaphore of the plan is declared by an installed plan of the other class. -/
def semsOk (s : State) (img : PlanImage) : Bool :=
  img.sems.all (fun d => decide (d.n < 4096) && (installed s).all (fun p =>
    decide (p.2.img.hdr.cls = img.hdr.cls) || p.2.img.sems.all (fun e => decide (e.n ≠ d.n))))

/-! ## 17 TIMELINE: pinned admission (R166) -/

/-- A pinned plan as admission sees it. -/
structure Adm where
  idx : Nat
  img : PlanImage
  wcet : Nat
deriving DecidableEq, Repr

/-- A launch decision of admission: launch offset in the hyperperiod, plan-table index, order in the TIMELINE section, the length of
its window, cores, and whether they must lie in one cluster. -/
structure Decision where
  t : Nat
  idx : Nat
  ord : Nat
  len : Nat
  n : Nat
  one : Bool
deriving DecidableEq, Repr

/-- The timeline of an image. -/
def PlanImage.tl (img : PlanImage) : Timeline := img.timeline.getD { period := 0, offsets := [] }

/-- The admitted pinned plans and the new one. -/
def admSet (s : State) (i : Nat) (img : PlanImage) : List Adm :=
  ((installed s).filter (fun p => decide (p.2.img.hdr.cls = 1))).map (fun p =>
    { idx := p.1, img := p.2.img, wcet := wcetMax s p.1 }) ++ [{ idx := i, img := img, wcet := nth 0 img.wcet (img.hdr.maxBatch - 1) }]

/-- The hyperperiod: the least common multiple of the periods. -/
def hyper (l : List Adm) : Nat := l.foldl (fun a p => Nat.lcm a p.img.tl.period) 1

/-- A decision stands before another: launch offset, plan-table index, order. -/
def Decision.before (a b : Decision) : Bool :=
  decide (a.t < b.t) || (decide (a.t = b.t) && (decide (a.idx < b.idx) || (decide (a.idx = b.idx) && decide (a.ord < b.ord))))

/-- The decisions of one plan within a hyperperiod. -/
def planDecisions (hp : Nat) (p : Adm) : List Decision :=
  let tl := p.img.tl
  let h := p.img.hdr
  (upto (hp / tl.period)).flatMap (fun r =>
    (enumFrom 0 tl.offsets).map (fun o =>
      ({ t := r * tl.period + o.2, idx := p.idx, ord := o.1, len := p.wcet, n := h.cores, one := h.oneCluster } : Decision)) ++
    tl.golden.toList.map (fun g =>
      ({ t := r * tl.period + g.offset, idx := p.idx, ord := tl.offsets.length, len := g.length, n := h.cores,
         one := h.oneCluster } : Decision)))

/-- All decisions of a hyperperiod in the order R257 takes them. -/
def decisions (hp : Nat) (l : List Adm) : List Decision := sortBy Decision.before (l.flatMap (planDecisions hp))

/-- A reservation of admission: from, to, cores. -/
abbrev AdmResv := Nat × Nat × List Nat

/-- The decisions of one hyperperiod on the given reservations, over the logical cores in service: the reservations after it and the
core sets chosen; none when a decision does not find its cores. -/
def runDecisions (inSvc : List Nat) : List Decision → List AdmResv → List (List Nat) → Option (List AdmResv × List (List Nat))
  | [], rs, acc => some (rs, acc)
  | d :: r, rs, acc =>
    let free := inSvc.filter (fun l => !rs.any (fun x => decide (x.1 ≤ d.t) && decide (d.t < x.2.1) && x.2.2.contains l))
    match pickCores d.n d.one free with
    | some ls => runDecisions inSvc r (rs ++ [(d.t, d.t + d.len, ls)]) (acc ++ [ls])
    | none => none

/-- Reservations that cross the end of a hyperperiod, in the next one's ticks. -/
def carryOver (hp : Nat) (rs : List AdmResv) : List AdmResv :=
  (rs.filter (fun x => decide (hp < x.2.1))).map (fun x => (x.1 - hp, x.2.1 - hp, x.2.2))

/-- Hyperperiod after hyperperiod until one chooses the core sets of the one before: the reservations of that one. -/
def admitFrom (inSvc : List Nat) (hp : Nat) (ds : List Decision) : Nat → List AdmResv → Option (List (List Nat)) → Option (List AdmResv)
  | 0, _, _ => none
  | f + 1, rs, prev =>
    match runDecisions inSvc ds rs [] with
    | none => none
    | some (rs2, sets) => if prev = some sets then some rs2 else admitFrom inSvc hp ds f (carryOver hp rs2) (some sets)

/-- Logical cores in service; those whose spare is being put in count (R179, Table 7-11). -/
def svcCores (s : State) : List Nat := (upto 64).filter (fun l => (physOf s l).isSome || beingReplaced s l)

/-- The largest number of cores held at any tick. -/
def peakOf (rs : List AdmResv) : Nat :=
  maxOf (rs.map (fun x => sumN ((rs.filter (fun y => decide (y.1 ≤ x.1) && decide (x.1 < y.2.1))).map (fun y => y.2.2.length))))

/-- Admission of a set of pinned plans, within 8 hyperperiods of at most 2^40 ticks. -/
def admitted (s : State) (l : List Adm) : Option (List AdmResv) :=
  let hp := hyper l
  if 2 ^ 40 < hp ∨ l.any (fun p => decide (p.img.tl.period = 0)) then none
  else admitFrom (svcCores s) hp (decisions hp l) 8 [] none

/-- The timeline of the new plan is well formed (R166, R320). -/
def timelineOk (img : PlanImage) : Bool :=
  let tl := img.tl
  inRange 65536 (2 ^ 32 - 1) tl.period && tl.offsets.all (fun o => decide (o < tl.period)) &&
    (match tl.golden with
     | some g => decide (g.offset < tl.period) && decide (nth 0 img.wcet 0 + 16 ≤ g.length) && decide (1 ≤ g.every) &&
         decide (g.input + goldenOffset img img.binds.length ≤ img.weights.length)
     | none => true)

/-- Two intervals of a hyperperiod meet, either of them running on into the next. -/
def meetsIn (hp : Nat) (a b : Nat × Nat) : Bool :=
  overlap a.1 a.2 b.1 b.2 || overlap (a.1 + hp) (a.2 + hp) b.1 b.2 || overlap a.1 a.2 (b.1 + hp) (b.2 + hp)

/-- Launch ticks of a plan's items in a hyperperiod. -/
def launches (hp : Nat) (p : Adm) : List Nat :=
  (upto (hp / p.img.tl.period)).flatMap (fun r => p.img.tl.offsets.map (fun o => r * p.img.tl.period + o))

/-- 18 WINDOW: reserved windows of a unit do not meet (03 R59). -/
def windowsOk (l : List Adm) : Bool :=
  let hp := hyper l
  [ShapeUnit.scaler, .sickle0, .sickle1].all (fun u =>
    noPair (meetsIn hp) (l.flatMap (fun p => (launches hp p).flatMap (fun t =>
      (p.img.shaping.filter (fun g => decide (g.unit = u))).map (fun g => (t + g.offset, t + g.offset + g.duration))))))

/-! ## 19 FABRIC (12 R295) -/

/-- A transfer over a link: the chip is not standalone (Table 12-6); where it is the sender, the port is up to the chip named and near
enough. -/
def xferOk (s : State) (f : FabSec) (x : FabXfer) : Bool :=
  x.relay || (decide (reg s F.TALLY_CTRL_ROLE ≠ 0) && (decide (x.srcChip ≠ chipId s) ||
    (decide (x.port < 4) && portUp s x.port && decide (regI s F.LINK_PEER_CHIP x.port = x.dstChip) &&
      decide (regI s F.LINK_HOP x.port ≤ f.hMax))))

/-- The source of a transfer this chip sends is complete in a static run before START. -/
def sourceOk (s : State) (x : FabXfer) (r : SRun) : Bool :=
  decide (x.srcChip ≠ chipId s) || (match item? r.s 0 with
    | some it => (spanPlaces (rankCore 0) (claimSpan r.s (rankCore 0) it x.srcAddr) (64 * flitsOf x.bytes)).all
        (fun a => decide (tget 0 r.landed a ≤ x.start))
    | none => true)

/-- The fields of an entry (Table 12-4). -/
def xferRanges (x : FabXfer) : Bool :=
  inRange 64 65536 x.bytes && decide (x.bytes % 64 = 0) && inRange 1 4095 x.sem && (decide (x.port < 4) || decide (x.relay = true))

/-- The windows in which units hold port `p`'s data lane. -/
def laneWindows (s : State) (hp p : Nat) (l : List Adm) : List (Nat × Nat) :=
  l.flatMap (fun a => (launches hp a).flatMap (fun t => ((a.img.fabric.getD {}).xfers.filter (fun x =>
    !x.relay && decide (x.srcChip = chipId s) && decide (x.port = p))).map (fun x =>
      (t + x.start, t + x.start + flitTicks (flitsOf x.bytes)))))

/-- The FABRIC section of the new plan, beside those of the admitted plans. -/
def fabricOk (s : State) (img : PlanImage) (l : List Adm) (runs : List SRun) : Bool :=
  match img.fabric with
  | none => !img.hdr.fabricPlan
  | some f =>
    f.chips.contains (chipId s) && f.xfers.all xferRanges && f.xfers.all (xferOk s f) && f.xfers.all (fun x => runs.all (sourceOk s x)) &&
      (decide (img.hdr.cls = 0) || (upto 4).all (fun p => noPair (meetsIn (hyper l)) (laneWindows s (hyper l) p l)))

/-! ## The checks in order (Table 7-3) -/

/-- The first of checks 4 to 19 that fails for entry `i`, 0 when all pass. -/
def installReason (s : State) (i : Nat) (img : PlanImage) : Nat :=
  let l := admSet s i img
  let pinned := decide (img.hdr.cls = 1)
  let runs := staticRuns s i img
  if !tagsOk img then 4
  else if !programOk img runs then 5
  else if !boundaryOk img runs then 6
  else if !modesOk img runs then 7
  else if !img.ops.all (fun d => d.ok) then 8
  else if !img.shaping.all (stageOk img) then 9
  else if !recordsOk img runs then 10
  else if !psumOk img then 11
  else if !img.splits.all (splitOk img (16 * claimBytes img.hdr)) then 12
  else if !wholeOk img then 13
  else if !wcetOk img runs then 14
  else if (placeClaim s i img.hdr).isNone || (placeHbm s img.hdr.hbmKib).isNone || !poolsOk s img then 15
  else if !semsOk s img then 16
  else if pinned && (!timelineOk img || (admitted s l).isNone) then 17
  else if pinned && !windowsOk l then 18
  else if !fabricOk s img (if pinned then l else []) runs then 19
  else 0

/-! ## Outcomes -/

/-- PLAN_LAST (R160, R163). -/
def planLast (s : State) (status reason i : Nat) : State :=
  setR (setR (setR s F.PLAN_LAST_STATUS status) F.PLAN_LAST_REASON reason) F.PLAN_LAST_INDEX (i % 256)

/-- An install ends with `status` and a reason of Table 7-3: its entry is free again. -/
def installEnds (s : State) (x : Install) (status reason : Nat) : State :=
  let s1 := yieldEntry { s with sec := { s.sec with install := none } } x.idx
  reply_ (planLast s1 status reason (x.idx.getD 0)) x.req 0x22 status reason []

/-- The image has been read, or could not be: checks 1 to 3, and the entry is taken (R160). -/
def gotPlanImage (s : State) (ok : Bool) : State :=
  match s.sec.install with
  | none => s
  | some x =>
    if !ok then installEnds s x 0x303 0
    else if !formatOk x.img x.len then installEnds s x 0x205 1
    else if !authOk s x.img then installEnds s x 0x205 2
    else match freePlanIdx s with
      | none => installEnds s x 0x205 3
      | some i =>
        let t := { s with sec := { s.sec with install := some { x with idx := some i } } }
        addR (modPlan t i (fun p => { p with st := .installing, img := x.img })) F.PLAN_FREE 511

/-- PLAN_PINNED follows the admitted plans. -/
def putPeak (s : State) : State :=
  let l := ((installed s).filter (fun p => decide (p.2.img.hdr.cls = 1))).map (fun p =>
    ({ idx := p.1, img := p.2.img, wcet := wcetMax s p.1 } : Adm))
  setR s F.PLAN_PINNED (match l with
    | [] => 0
    | _ => ((admitted s l).map peakOf).getD 0)

/-- A plan's semaphores at their initial values, where no installed plan named them before (R267). -/
def startSems (s : State) (img : PlanImage) : State :=
  img.sems.foldl (fun t d =>
    if (installed s).any (fun p => p.2.img.sems.any (fun e => decide (e.n = d.n))) then t
    else { t with sems := tset {} t.sems d.n {
      val := maxOf ((img.sems.filter (fun e => decide (e.n = d.n))).map (fun e => e.init)) } }) s

/-- The install channel (01 R13): pieces of the decrypted weights are written into the plan's HBM claim at `base` and its Granary claim
`c` in every cluster in service. No item can use the claims yet. -/
def putContent (s : State) (base : Nat) (c : Option GranClaim) (img : PlanImage) : State :=
  img.content.foldl (fun t x =>
    let b := (img.weights.drop x.from_).take x.len
    if x.hbm then (if x.at_ + b.length ≤ 1024 * img.hdr.hbmKib then hbmPut t (base + x.at_) b else t)
    else match c with
      | none => t
      | some g =>
        if x.at_ + b.length ≤ 16 * g.perBank then
          ((upto 8).filter (fun k => !(clu t k).outOfService)).foldl (fun u k =>
            (granWriteN k g.width g.bank (g.start + x.at_ / 1024 * 64) (g.start + g.perBank) (cdiv b.length 64) (x.at_ / 64 % 16) b [] u).1) t
        else t) s

/-- The install commit: entry, claims and reservations change in one tick, once the plan's content stands in its claims (R160, 01
R13). -/
def commitPlan (s : State) (i : Nat) (img : PlanImage) : State :=
  let s0 := putContent s ((placeHbm s img.hdr.hbmKib).getD 0) (placeClaim s i img.hdr) img
  let s1 := startSems s0 img
  let s2 := match placeClaim s i img.hdr with
    | some c => { s1 with claims := if c.perBank = 0 then s1.claims else s1.claims ++ [c] }
    | none => s1
  let s3 := modPlan s2 i (fun p => {
    st := .installed, gen := p.gen % 255 + 1, img := img, wcet := img.wcet, claim := placeClaim s i img.hdr,
    hbmBase := (placeHbm s img.hdr.hbmKib).getD 0 })
  let s4 := img.poolMins.foldl (fun t m => setMin t m.1 (256 + i) m.2) s3
  let s5 := setS (setS (setS (setS s4 F.PLAN_LAUNCHES i 0) F.PLAN_LATE i 0) F.PLAN_EMPTY i 0) F.PLAN_REFUSED i 0
  let s6 := setR s5 F.PLAN_FREE_HBM (reg s5 F.PLAN_FREE_HBM - img.hdr.hbmKib)
  let s7 := { s6 with winnow := { s6.winnow with goldenRun := tset 0 s6.winnow.goldenRun i 0 } }
  if img.tl.golden.isSome then
    putPeak { s7 with winnow := { s7.winnow with passAt := tset 0 s7.winnow.passAt (goldenKey i) (s.now + 1) } }
  else putPeak s7

/-- INSTALL: firmware reads the plan image from host memory (R159, 14 R345). -/
def execInstall (r : MbReq) (addr len : Nat) (img : PlanImage) (s : State) : Out :=
  .next (whenLive s (mailbox 0x22 r (Config.mbPayload 0x22 [addr, len]) (onlyRole 1) 4 (serviced 1 r 0x22 (fun s =>
    match startRead s .planImage addr len false with
    | some t => setR { t with sec := { t.sec with install := some { req := r, len := len, img := img } } } F.SEC_MB_STATE_STATE 1
    | none => reply_ (planLast (addR s F.PCIE_READ_FAILS 1) 0x303 0 0) r 0x22 0x303 0 []))))

/-- INSTALL_COMMIT: checks 4 to 19, and the install commit or the refusal (R160). -/
def execInstallCommit (s : State) : Out :=
  .next (whenLive s fun s =>
    match s.sec.install with
    | none => s
    | some x =>
      match x.idx with
      | none => s
      | some i =>
        guardOn (!pairDown s 1) s fun s =>
          let reason := installReason s i x.img
          if reason ≠ 0 then installEnds s x 0x205 reason
          else
            let s1 := planLast (commitPlan { s with sec := { s.sec with install := none } } i x.img) 0 0 i
            done_ s1 x.req 0x22 (le 2 (planIdAt s1 i)))

/-- UNINSTALL: from the uninstall commit entries of the plan are refused; once its last launched item has ended its claims are
released (R163). -/
def execUninstall (r : MbReq) (plan : Nat) (s : State) : Out :=
  .next (whenLive s (mailbox 0x23 r (Config.mbPayload 0x23 [plan]) (onlyRole 1) 4 (serviced 1 r 0x23 (fun s =>
    let i := planIdx plan
    if !planInstalled s plan then reply_ (planLast s 0x205 0 i) r 0x23 0x205 0 []
    else
      let s1 := modPlan s i (fun p => { p with st := .removing })
      let s2 := endItems s1 (fun it => decide (it.e.plan = plan) && !it.launched && !it.golden) 0x205
      let s3 := putPeak (settlePlan s2 i)
      done_ (planLast s3 0 0 i) r 0x23 []))))

end Sys2Proof.Machine
end

