-- ==== Sys2Proof/Machine/Checks.lean ====
section
/-!
DEFINITION. Sys2Proof/Machine/Checks.lean: the agreement rules a commit is checked against (18_register_map.md R420, Table 18-3, and
the rules it names). Each check reads the state before the commit and the candidate in which the snapshot's fields are live.
-/

namespace Sys2Proof.Machine

/-- The first reason of a list whose condition holds, 0 when none does. -/
def firstOf : List (Bool × Nat) → Nat
  | [] => 0
  | (c, r) :: rest => if c then r else firstOf rest

/-- A field of page instance `i`, behind selector value `n`, changes with the commit. -/
def changes (s c : State) (f : Fld) (i n : Nat) : Bool :=
  (upto f.cnt).any (fun k => decide (getF s f i n k ≠ getF c f i n k))

/-- An enable is 1 both live and in the snapshot (R417). -/
def staysOn (s c : State) (f : Fld) (n : Nat) : Bool := decide (getF s f 0 n 0 = 1) && decide (getF c f 0 n 0 = 1)

/-- Fields that may change only in START_UP, and not in the START_UP that follows a hot reset (12 R304, 16 R389). -/
def startOnly (s : State) : Bool := s.phase = 0 && !s.pcie.hotStart

/-- Bit `b` falls from word `u` to word `v`. -/
def falls (u v b : Nat) : Bool := u.testBit b && !v.testBit b

/-- Bit `b` rises from word `u` to word `v`. -/
def rises (u v b : Nat) : Bool := v.testBit b && !u.testBit b

/-! ## SYS (18 R421) -/

/-- The staged map's physical core for logical core `l`. -/
def stagedPlace (c : State) (l : Nat) : Nat := getF c (placeStagedFld l) 0 0 (l / 4)

/-- SYS: SUPERSEDED, PLACE. -/
def checkSys (s c : State) : Nat :=
  firstOf [
    (decide (reg c F.SYS_PLACE_BASE ≠ reg s F.SYS_PLACE_GEN), 1),
    ((upto 64).any (fun l =>
      let v := stagedPlace c l
      decide (v ≠ 127) && (decide (71 < v) || decide (v / 9 ≠ l / 8) || decide (regI s F.CORE_STATE_STATE v = 6) ||
        decide (regI s F.CORE_STATE_STATE v = 5) || (upto l).any (fun m => decide (stagedPlace c m = v)))), 2)]

/-! ## TALLY, LINK_n (12 R304) -/

/-- TALLY: LIVE, SOURCE, ROLE, TOL, RELAY_LIVE, RING. -/
def checkTally (s c : State) : Nat :=
  let ch (f : Fld) : Bool := changes s c f 0 0
  let fabric := (installed s).any (fun p => p.2.img.hdr.fabricPlan)
  firstOf [
    ((ch F.TALLY_CTRL_ROLE || ch F.TALLY_CHIP || ch F.TALLY_CTRL_ALIGN || ch F.TALLY_CTRL_TIME_EN || ch F.TALLY_TIME_LOAD_LO ||
      ch F.TALLY_TIME_LOAD_HI) && !startOnly s || ch F.TALLY_CHIP && fabric, 35),
    (decide (reg c F.TALLY_CTRL_ROLE = 2) && !portUp s (reg c F.TALLY_CTRL_SRC_PORT), 46),
    (flag c F.TALLY_CTRL_TIME_EN && decide (reg c F.TALLY_CTRL_ROLE ≠ 1), 47),
    (decide (reg c F.TALLY_TIME_TOL < 13), 48),
    (staysOn s c F.RELAY_CFG_EN 0 && (ch F.RELAY_IN_BASE_LO || ch F.RELAY_IN_BASE_HI || ch F.RELAY_IN_CFG ||
      ch F.RELAY_IN_PIDX_ADDR_LO || ch F.RELAY_IN_PIDX_ADDR_HI), 49),
    (decide (reg c F.RELAY_IN_CFG < 4) || decide (12 < reg c F.RELAY_IN_CFG) || decide (reg c F.RELAY_IN_BASE_LO % 4096 ≠ 0), 12)]

/-- LINK_n: BUSY. -/
def checkLink (s c : State) (n : Nat) : Nat := firstOf [(decide (regI c F.LINK_CTRL n = 0) && !(itemsOver s n).isEmpty, 50)]

/-! ## DISP, CARTER (11 R276) -/

/-- DISP: LEDGER, ALIGN, LEDGER_LIVE, PERIOD, LEASE, BOUND. -/
def checkDisp (s c : State) : Nat :=
  let ch (f : Fld) : Bool := changes s c f 0 0
  firstOf [
    (decide (reg c F.DISP_LEDGER_CFG_LOG2 < 6) || decide (16 < reg c F.DISP_LEDGER_CFG_LOG2), 21),
    (decide (reg c F.DISP_LEDGER_BASE_LO % 4096 ≠ 0), 33),
    (staysOn s c F.DISP_LEDGER_CFG_EN 0 && (ch F.DISP_LEDGER_BASE_LO || ch F.DISP_LEDGER_BASE_HI || ch F.DISP_LEDGER_CFG_LOG2 ||
      ch F.DISP_PIDX_ADDR_LO || ch F.DISP_PIDX_ADDR_HI || ch F.DISP_CIDX_ADDR_LO || ch F.DISP_CIDX_ADDR_HI), 41),
    (decide (reg c F.DISP_PERIOD < 1024), 42),
    (decide (reg c F.DISP_LEASE_MS < 10) || decide (10000 < reg c F.DISP_LEASE_MS), 43),
    (decide (reg c F.DISP_QUEUE < 1) || decide (1024 < reg c F.DISP_QUEUE), 44)]

/-- Bytes per bank of Carter's warm store of `n` frames of 16,640 bytes over 16 banks (R435). -/
def warmBytes (n : Nat) : Nat := roundUp (cdiv (n * 16640) 16) 64

/-- Firmware's Granary reservations with a warm store of `n` frames: the base spill areas, 512 KiB, and the warm store, as stripes
of 16 banks from offset 0 (R435; log entry 14). -/
def fwClaims (n : Nat) : List GranClaim :=
  [{ owner := 256, width := 16, bank := 0, start := 0, perBank := 32768 },
   { owner := 256, width := 16, bank := 0, start := 32768, perBank := warmBytes n }]

/-- CARTER: WARM, LIVE. -/
def checkCarter (s c : State) : Nat :=
  let n := reg c F.CARTER_WARM
  let plans := s.claims.filter (fun (d : GranClaim) => decide (d.owner ≠ 256))
  firstOf [
    (decide (n < 8) || decide (252 < n) || (fwClaims n).any (fun d => !claimFits s d || plans.any d.meets), 45),
    (decide (s.phase ≠ 0) || changes s c F.CARTER_WARM 0 0 && !startOnly s, 35)]

/-! ## COOPER, CLU_n (09 R230) -/

/-- Bytes of a pool's buffers. -/
def poolSpan (c : State) (p : Nat) : Nat := poolSize c p * poolCount c p

/-- COOPER, pool `p`: AREA, POOL_LIVE, MINIMA, ALIGN. -/
def checkCooper (s c : State) (p : Nat) : Nat :=
  let ch (f : Fld) : Bool := changes s c f 0 p
  let sz := regS c F.COOPER_POOL_CFG_SIZE p
  let n := poolCount c p
  let lo := regS c F.COOPER_POOL_BASE p * 1024
  firstOf [
    (poolEn c p && (decide (sz < 1) || decide (8192 < sz) || decide (n < 1) || decide (2048 < n) ||
      decide (reg c F.COOPER_AREA * 1024 < lo + poolSpan c p) ||
      (upto 8).any (fun q => decide (q ≠ p) && poolEn c q && overlap lo (lo + poolSpan c p) (regS c F.COOPER_POOL_BASE q * 1024)
        (regS c F.COOPER_POOL_BASE q * 1024 + poolSpan c q))), 30),
    (staysOn s c F.COOPER_POOL_CFG_EN p && (ch F.COOPER_POOL_CFG_SIZE || ch F.COOPER_POOL_CFG_COUNT || ch F.COOPER_POOL_CFG_LIST), 31),
    (poolEn s p && !poolEn c p && (decide (heldIn s p ≠ 0) || !(pool s p).minima.isEmpty), 31),
    (decide (n < sumN ((pool s p).minima.map (fun m => m.2))), 32),
    (decide (regS c F.COOPER_POOL_BASE p % 64 ≠ 0), 33)]

/-- CLU_n: MAP, CLAIMED, COPY, SCRUB. -/
def checkClu (s c : State) (k : Nat) : Nat :=
  let m := (upto 16).map (bankOf c k)
  let claimed (b : Nat) : Bool := s.claims.any (fun (d : GranClaim) => decide (d.perBank ≠ 0) && decide (d.bank ≤ b) &&
    decide (b < d.bank + d.width))
  firstOf [
    (m.any (fun p => decide (16 < p) || (clu s k).retiredBanks.testBit p) || !noPair (fun (a b : Nat) => decide (a = b)) m, 26),
    ((upto 16).any (fun b => claimed b && falls (regI s F.CLU_BANK_PWR k) (regI c F.CLU_BANK_PWR k) (bankOf s k b)), 27),
    ((upto 16).any (fun b => decide (bankOf c k b ≠ bankOf s k b) &&
      !(decide ((clu s k).copyDone = some (bankOf s k b)) && decide (spareBank s k = some (bankOf c k b)))), 28),
    (decide (65535 < regI c F.CLU_SCRUB_INTERVAL k), 29)]

/-! ## REEVE, WINNOW (13 R328) -/

/-- REEVE, pipeline `p`: PLAN, BOUNDS, SAFE. -/
def checkReeve (s c : State) (p : Nat) : Nat :=
  let en := decide (regS c F.REEVE_CFG_EN p ≠ 0)
  firstOf [
    (en && !planInstalled s (regS c F.REEVE_CFG_PLAN p), 51),
    (en && decide (regS c F.REEVE_AGE p = 0) && decide (regS c F.REEVE_PERIOD p = 0), 52),
    (decide (regS c F.REEVE_CFG_SAFE p ≠ 0) && decide (regS c F.REEVE_CFG_FAULT p = 0), 53)]

/-- WINNOW: LATENT, ROT, WEAR. -/
def checkWinnow (c : State) : Nat :=
  firstOf [
    (decide (reg c F.WINNOW_LATENT_MS < 10) || decide (60000 < reg c F.WINNOW_LATENT_MS), 54),
    (decide (reg c F.WINNOW_LATENT_ROT_S < 14), 55),
    (decide (reg c F.WINNOW_AGE_THR = 0), 56)]

/-! ## PWR, THERM (17 R413) -/

/-- The bit of a domain in PWR_DOM_ON falls. -/
def domFalls (s c : State) (d : Nat) : Bool := falls (regX s F.PWR_DOM_ON (d / 32)) (regX c F.PWR_DOM_ON (d / 32)) (d % 32)

/-- Domain 219 must stay on: a slot has a tracking plan, or an installed plan a Sickle stage (R399). -/
def sickleNeeded (s : State) : Bool :=
  (upto 72).any (fun n => decide (regS s F.TRK_CTRL_EN n ≠ 0)) ||
    (installed s).any (fun p => p.2.img.shaping.any (fun g => decide (g.unit ≠ .scaler)))

/-- PWR: IN_SERVICE, IN_USE, TRIM. -/
def checkPwr (s c : State) : Nat :=
  firstOf [
    ((upto 72).any (fun d => domFalls s c d && ((logicalCore s d).isSome || decide (spareOf s (d / 9) = some d))), 20),
    ((upto 9).any (fun i => domFalls s c (208 + i) && ((reg s F.MGMT_SERVICE_DEC).testBit i || decide (reg s F.MGMT_SERVICE_DEC_SPARE = i))) ||
      (upto 2).any (fun i => domFalls s c (217 + i) && decide (regI s F.ENC_CTRL_EN i ≠ 0)) ||
      (upto 8).any (fun i => domFalls s c (220 + i / 2) && (slotAt s (64 + i)).isOpen) ||
      (upto 4).any (fun i => domFalls s c (224 + i / 2) && decide (regI s F.LINK_CTRL i ≠ 0)) ||
      domFalls s c 219 && sickleNeeded s, 58),
    (changes s c F.PWR_TRIM_CODE 0 0 && decide (s.phase ≠ 0) || decide (reg c F.PWR_TRIM_CODE < 20) ||
      decide (40 < reg c F.PWR_TRIM_CODE), 59)]

/-- The grade's reset value of THERM_WARN, °C (17 Table 17-6). -/
def gradeWarn (s : State) : Nat := if s.gradeSC then 100 else 110

/-- THERM: RANGE. -/
def checkTherm (s c : State) : Nat :=
  firstOf [(decide (gradeWarn s < reg c F.THERM_WARN) || decide (reg c F.THERM_WARN < 60), 60)]

/-- PCIE: SOURCES (16 R396). -/
def checkPcie (c : State) : Nat :=
  firstOf [(flag c F.PCIE_WATCH_EN && !flag c F.PCIE_WATCH_SAF && !flag c F.PCIE_WATCH_CONFIRMED && !flag c F.PCIE_WATCH_LOST &&
    !flag c F.PCIE_WATCH_PLAN_EVT && !flag c F.PCIE_WATCH_PIN, 57)]

/-! ## INTAKE (02 R31 to R34, R57) -/

/-- H.264 levels by ten times their number: MaxMBPS, MaxFS, MaxDpbMbs (ITU-T H.264 Table A-1, which 02 R45 names). -/
def avcLevel (l : Nat) : Option (Nat × Nat × Nat) :=
  match l with
  | 9 => some (1485, 99, 396)
  | 10 => some (1485, 99, 396)
  | 11 => some (3000, 396, 900)
  | 12 => some (6000, 396, 2376)
  | 13 => some (11880, 396, 2376)
  | 20 => some (11880, 396, 2376)
  | 21 => some (19800, 792, 4752)
  | 22 => some (20250, 1620, 8100)
  | 30 => some (40500, 1620, 8100)
  | 31 => some (108000, 3600, 18000)
  | 32 => some (216000, 5120, 20480)
  | 40 => some (245760, 8192, 32768)
  | 41 => some (245760, 8192, 32768)
  | 42 => some (522240, 8704, 34816)
  | 50 => some (589824, 22080, 110400)
  | 51 => some (983040, 36864, 184320)
  | 52 => some (2073600, 36864, 184320)
  | _ => none

/-- H.265 levels by ten times their number: MaxLumaSr, MaxLumaPs (ITU-T H.265 Tables A.8 and A.9). -/
def hevcLevel (l : Nat) : Option (Nat × Nat) :=
  match l with
  | 10 => some (552960, 36864)
  | 20 => some (3686400, 122880)
  | 21 => some (7372800, 245760)
  | 30 => some (16588800, 552960)
  | 31 => some (33177600, 983040)
  | 40 => some (66846720, 2228224)
  | 41 => some (133693440, 2228224)
  | 50 => some (267386880, 8912896)
  | 51 => some (534773760, 8912896)
  | _ => none

/-- AV1 levels by seq_level_idx: MaxDecodeRate, MaxPicSize, MaxHSize, MaxVSize (AV1 specification, Annex A.3). -/
def av1Level (l : Nat) : Option (Nat × Nat × Nat × Nat) :=
  match l with
  | 0 => some (5529600, 147456, 2048, 1152)
  | 1 => some (10454400, 278784, 2816, 1584)
  | 4 => some (24969600, 665856, 4352, 2448)
  | 5 => some (39938400, 1065024, 5504, 3096)
  | 8 => some (77856768, 2359296, 6144, 3456)
  | 9 => some (155713536, 2359296, 6144, 3456)
  | 12 => some (273715200, 8912896, 8192, 4352)
  | 13 => some (547430400, 8912896, 8192, 4352)
  | _ => none

/-- The admitted level's maximum luma sample rate L (R45); for JPEG, A times the frame-rate bound. -/
def levelRate (c : State) (n : Nat) : Nat :=
  let l := regS c F.ADM_CODEC_LEVEL n
  match admCodec c n with
  | 1 => 256 * ((avcLevel l).map (fun x => x.1)).getD 0
  | 2 => ((hevcLevel l).map (fun x => x.1)).getD 0
  | 3 => ((av1Level l).map (fun x => x.1)).getD 0
  | _ => rateOf c n

/-- The decode budget B = ⌊k · A / L · 10⁹⌋ of an admission record, k = FACTOR / 8 (R45). -/
def decodeBudget (c : State) (n : Nat) : Nat :=
  let f := if regS c F.ADM_BUDGET n = 0 then 16 else regS c F.ADM_BUDGET n
  let a := areaOf (admCodec c n) (regS c F.ADM_DIMS_WIDTH n) (regS c F.ADM_DIMS_HEIGHT n)
  f * a * 10 ^ 9 / (8 * levelRate c n)

/-- Profile, level and HIBIT go with the codec (Table 2-3, Table 2-12). -/
def profileOk (c : State) (n : Nat) : Bool :=
  let pr := regS c F.ADM_CODEC_PROFILE n
  let l := regS c F.ADM_CODEC_LEVEL n
  let hi := decide (regS c F.ADM_CODEC_HIBIT n ≠ 0)
  match admCodec c n with
  | 1 => decide (pr ≤ 2) && !hi && (avcLevel l).isSome
  | 2 => decide (pr ≤ 1) && (hevcLevel l).isSome
  | 3 => decide (pr = 0) && (av1Level l).isSome
  | _ => decide (pr = 0) && decide (l = 0) && !hi

/-- The dimensions keep note (a) of Table 2-3 and the level's maximum picture size. -/
def dimsFit (c : State) (n : Nat) : Bool :=
  let w := regS c F.ADM_DIMS_WIDTH n
  let h := regS c F.ADM_DIMS_HEIGHT n
  let l := regS c F.ADM_CODEC_LEVEL n
  let wm := cdiv w 16
  let hm := cdiv h 16
  decide (16 ≤ w) && decide (w ≤ 8192) && decide (16 ≤ h) && decide (h ≤ 8192) && decide (w * h ≤ 8912896) &&
    (match admCodec c n with
     | 1 => (match avcLevel l with
       | some (_, fs, _) => decide (wm * hm ≤ fs) && decide (wm * wm ≤ 8 * fs) && decide (hm * hm ≤ 8 * fs)
       | none => false)
     | 2 => (match hevcLevel l with
       | some (_, ps) => decide (w * h ≤ ps) && decide (w * w ≤ 8 * ps) && decide (h * h ≤ 8 * ps)
       | none => false)
     | 3 => (match av1Level l with
       | some (_, ps, mh, mv) => decide (w * h ≤ ps) && decide (w ≤ mh) && decide (h ≤ mv)
       | none => false)
     | _ => true)

/-- The largest decoded-picture-buffer count of a record: 16, or the level's limit for its dimensions (R57). -/
def dpbMax (c : State) (n : Nat) : Nat :=
  let w := regS c F.ADM_DIMS_WIDTH n
  let h := regS c F.ADM_DIMS_HEIGHT n
  let l := regS c F.ADM_CODEC_LEVEL n
  match admCodec c n with
  | 1 => (match avcLevel l with
    | some (_, _, d) => minOf 16 [d / (cdiv w 16 * cdiv h 16)]
    | none => 0)
  | 2 => (match hevcLevel l with
    | some (_, ps) => if w * h ≤ ps / 4 then 16 else if w * h ≤ ps / 2 then 12 else if w * h ≤ 3 * ps / 4 then 8 else 6
    | none => 0)
  | _ => 16

/-- The minimum that the open of slot `n` reserves in its pool: DPB + 2 picture buffers and 4 bitstream buffers, 4 bitstream buffers,
or 3 full fields and 3 · COUNT windows (R34, 09 R225). -/
def slotMin (c : State) (n : Nat) : Nat :=
  if n < 64 then regS c F.ADM_DPB_RATE_DPB n + 6
  else if n < 72 then 3 + 3 * regI c F.ROI_CTRL_COUNT (n - 64)
  else 4

/-- Is the code of ADM_CODEC.CODEC one of the slot's class? -/
def codecOf (n codec : Nat) : Bool :=
  if n < 64 then decide (1 ≤ codec) && decide (codec ≤ 4) else if n < 72 then decide (codec = 8) else decide (codec = 9)

/-- INTAKE, slot `n`, committed by the session of tag `t`. -/
def checkIntake (s c : State) (n t : Nat) : Nat :=
  let codec := admCodec c n
  let p := regS c F.ADM_POOL_POOL n
  let w := regS c F.ADM_DIMS_WIDTH n
  let h := regS c F.ADM_DIMS_HEIGHT n
  let fps := regS c F.ADM_DPB_RATE_FPS n
  let fac := regS c F.ADM_BUDGET n
  let ent := regS c F.INTAKE_RING_CFG n
  let coded := decide (n < 64)
  let live := decide (64 ≤ n) && decide (n < 72)
  let mine := decide (regS c F.ADM_POOL_SESSION n = t)
  if codec = 0 then
    firstOf [(!mine || ((slotAt s n).isOpen && decide (regS s F.ADM_POOL_SESSION n ≠ t)), 5)]
  else
    firstOf [
      (decide (5 ≤ codec) && decide (codec ≤ 7) || decide (10 ≤ codec), 4),
      ((slotAt s n).isOpen, 3),
      (!codecOf n codec, 4),
      (coded && !profileOk c n, 9),
      (coded && !dimsFit c n, 10),
      (coded && (decide (regS c F.ADM_DPB_RATE_DPB n < 1) || decide (dpbMax c n < regS c F.ADM_DPB_RATE_DPB n)), 11),
      (coded && (decide (fps < 1) || decide (240 < fps)), 18),
      (coded && decide (fac ≠ 0) && (decide (fac < 8) || decide (128 < fac)), 61),
      (coded && decide (poolSize s p < picBytes codec w h (decide (regS c F.ADM_CODEC_HIBIT n ≠ 0))), 7),
      (!canReserve s p (slotMin c n), 8),
      (!live && (!(upto 9).any (fun k => decide (ent = 2 ^ (k + 4))) || decide (regS c F.INTAKE_RING_BASE_LO n % 64 ≠ 0) ||
        decide (regS c F.PIDX_ADDR_LO n % 4 ≠ 0)), 12),
      (coded && (decide (4160000000 < loadSum s + rateOf c n) ||
        decide ((if codec = 4 then 520000000 else 2080000000) < rateOf c n)), 6),
      (!mine, 5)]

/-! ## CSI_n, REC (02 R50, R57) -/

/-- CSI_n: FORMAT, SCALE_DIMS. -/
def checkCsi (c : State) (n : Nat) : Nat :=
  let dt := regI c F.CSI_CFG_DT n
  let out := regI c F.CSI_CFG_OUT n
  let raw := decide (dt = 0x2A) || decide (dt = 0x2B) || decide (dt = 0x2C)
  let w := regI c F.CSI_FRAME_SIZE_WIDTH n
  let h := regI c F.CSI_FRAME_SIZE_HEIGHT n
  let sc := regI c F.CSI_CFG_SCALE n
  let m := 2 ^ depthOf dt - 1
  firstOf [
    (!(raw && decide (out ≤ 1) || decide (dt = 0x1E) && decide (out = 2) && decide (regI c F.CSI_CFG_DEFECT n = 0)), 13),
    (decide (sc = 1) && (decide (w % 4 ≠ 0) || decide (h % 4 ≠ 0)) || decide (sc = 2) && (decide (w % 8 ≠ 0) || decide (h % 8 ≠ 0)), 14),
    ((upto 16).any (fun k =>
      let g (f : Fld) : Nat := getF c f n 0 k
      decide (g F.ROI_POS_X % 2 ≠ 0) || decide (g F.ROI_POS_Y % 2 ≠ 0) || decide (g F.ROI_SIZE_W % 2 ≠ 0) ||
        decide (g F.ROI_SIZE_H % 2 ≠ 0) || decide (g F.ROI_SIZE_W < 32) || decide (1024 < g F.ROI_SIZE_W) ||
        decide (g F.ROI_SIZE_H < 32) || decide (1024 < g F.ROI_SIZE_H)), 14),
    (raw && (upto 4).any (fun k => decide (m < blackOf c n k)), 13)]

/-- REC: FORMAT. -/
def checkRec (c : State) : Nat :=
  firstOf [((upto 4).any (fun k => decide (regX c F.REC_CFG_AUDIO k ≠ 0) &&
    (decide (regX c F.REC_CFG_CHANNELS k < 1) || decide (8 < regX c F.REC_CFG_CHANNELS k))), 13)]

/-! ## ENC_n (03 R81, R84) -/

/-- The frame dimensions of a slot: its admitted or its live frame dimensions. -/
def slotDims (s : State) (n : Nat) : Nat × Nat :=
  if n < 64 then (regS s F.ADM_DIMS_WIDTH n, regS s F.ADM_DIMS_HEIGHT n) else (csiW s (n - 64), csiH s (n - 64))

/-- ENC_n, committed by the session of tag `t`: SLOT_CLASS, EVIDENCE, RATIO, LOAD, SLICE, RATE. -/
def checkEnc (s c : State) (e t : Nat) : Nat :=
  let n := regI c F.ENC_SRC_SLOT e
  let d := slotDims s n
  let (w, h) := if regI c F.ENC_SRC_ROT e % 2 = 1 then (d.2, d.1) else d
  let ctu := if regI c F.ENC_CTRL_CODEC e = 2 then 64 else 16
  firstOf [
    (decide (72 ≤ n), 4),
    (!(slotOpen s n && s.sec.streamUnlocks.any (fun u => decide (u.2 = n) && (decide (u.1 = t) || decide (regI c F.ENC_CTRL_EN e = 0)))), 15),
    (!(ratioOk w (regI c F.ENC_SIZE_W e) && ratioOk h (regI c F.ENC_SIZE_H e)), 16),
    (decide (250000000 < regI c F.ENC_SIZE_W e * regI c F.ENC_SIZE_H e * regI c F.ENC_RATE_FPS e), 6),
    (decide (cdiv (regI c F.ENC_SIZE_H e) ctu < regI c F.ENC_GOP_SLICE_ROWS e), 17),
    (decide (regI c F.ENC_CTRL_RC e = 1) && decide (regI c F.ENC_RATE_KBPS e < 100), 18)]

/-! ## CORE_n (04 R113), TRACK (08 R205), HBMC and HBMC_CH_c (10 R250) -/

/-- CORE_n: PSUM_MIN, IN_SERVICE. -/
def checkCore (s c : State) (p : Nat) : Nat :=
  firstOf [
    (decide (((upto 16).filter (fun t => !(regI c F.CORE_PSUM_MASK p).testBit t)).length < 12), 19),
    (decide (regI c F.CORE_CTRL_RETIRE p ≠ 0) && (logicalCore s p).isSome, 20)]

/-- TRACK, slot `n` and ring `k`: SLOT_CLASS, LEDGER, LIFE, KF, EMB_PLAN, RING, RING_LIVE. -/
def checkTrack (s c : State) (n k : Nat) : Nat :=
  let g (f : Fld) : Nat := regS c f n
  let ch (f : Fld) : Bool := changes s c f 0 k
  firstOf [
    (decide (g F.TRK_CTRL_EN ≠ 0) && decide (72 ≤ n), 4),
    (decide (32768 < sumN ((upto 72).map (fun m => if regS c F.TRK_CTRL_EN m ≠ 0 then regS c F.TRK_QUOTA_QUOTA m else 0))), 21),
    (decide (g F.TRK_LIFE_N_CONFIRM = 0) || decide (g F.TRK_LIFE_N_LOST = 0) || decide (g F.TRK_LIFE_N_RETIRE = 0), 22),
    (decide (g F.TRK_KF_R_R_POS = 0) || decide (g F.TRK_KF_R_R_SIZE = 0), 23),
    (decide (g F.TRK_CTRL_EMB ≠ 0) && (decide (g F.TRK_EMB_PLAN = g F.TRK_DET) || decide (g F.TRK_EMB_PLAN = 0)), 24),
    (decide (regS c F.TRACK_RING_CFG_SIZE k < 12) || decide (24 < regS c F.TRACK_RING_CFG_SIZE k) ||
      decide (regS c F.TRACK_RING_BASE_LO k % 64 ≠ 0), 12),
    (staysOn s c F.TRACK_RING_CFG_EN k && (ch F.TRACK_RING_BASE_LO || ch F.TRACK_RING_BASE_HI || ch F.TRACK_RING_CFG_SIZE ||
      ch F.WIDX_ADDR_LO || ch F.WIDX_ADDR_HI), 25)]

/-- HBMC: GRAIN, LIVE, POWER_STATE. -/
def checkHbmc (s c : State) : Nat :=
  firstOf [
    (decide (reg c F.HBMC_MAP_GRAIN < 8), 34),
    ((changes s c F.HBMC_MAP_GRAIN 0 0 || changes s c F.HBMC_MAP_FOLD 0 0) && (!startOnly s || s.hbm.reserved), 35),
    (flag c F.HBMC_SREF && (s.d0 || flag s F.PCIE_POWER_WATCH), 36)]

/-- The row that a repair of channel `c` names, numbered within the channel: pseudo-channel, bank, row. -/
def repairRow (c : State) (ch : Nat) : Nat :=
  rowId (regI c F.HBMC_CH_REPAIR_PC ch) (regI c F.HBMC_CH_REPAIR_SID ch * 16 + regI c F.HBMC_CH_REPAIR_BG ch * 4 +
    regI c F.HBMC_CH_REPAIR_BA ch) (regI c F.HBMC_CH_REPAIR_ROW ch)

/-- The repair of channel `ch` starts with the commit: GO is set and no repair of the channel runs. -/
def repairGoes (s c : State) (ch : Nat) : Bool :=
  decide (regI c F.HBMC_CH_REPAIR_GO ch ≠ 0) && decide (tget none s.hbm.repairs ch = none)

/-- HBMC_CH_c: TIMER, SCRUB, LANE, LIVE, AUTH, SPARE. -/
def checkCh (s c : State) (ch : Nat) : Nat :=
  let t := regI c F.HBMC_CH_PD ch
  let lanes (f : Fld) : Bool := (upto 5).all (fun g => decide (regI c f ch / 16 ^ g % 16 ≤ (if g = 4 then 4 else 8)))
  let cf (f : Fld) : Bool := changes s c f ch 0
  firstOf [
    (decide (t ≠ 0) && (decide (t < 64) || decide (16777216 < t)), 37),
    (decide (regI c F.HBMC_CH_SCRUB_INTERVAL ch < 64), 29),
    (!(lanes F.HBMC_CH_LANE_PC0 && lanes F.HBMC_CH_LANE_PC1), 38),
    ((cf F.HBMC_CH_LANE_PC0 || cf F.HBMC_CH_LANE_PC1 || cf F.HBMC_CH_DLY_RD || cf F.HBMC_CH_DLY_WR) &&
      decide (regI s F.HBMC_CH_STATE_MODE ch ≠ 0), 35),
    (repairGoes s c ch && decide (regI c F.HBMC_CH_REPAIR_HARD ch ≠ 0) && !s.sec.repairAuth.contains (ch, repairRow c ch), 39),
    (repairGoes s c ch && decide (Config.spareRowsPerBank ≤ spareUsed s (128 * ch + repairRow c ch / 16384)), 40)]

/-! ## A snapshot -/

/-- The first reason for which snapshot `x` is refused, 0 when every check passes (R417, Table 18-3). -/
def checkSnap (s c : State) (x : Snap) : Nat :=
  let p := x.page
  if p = 0 then checkSys s c
  else if p = 1 then checkTally s c
  else if p = 2 then checkDisp s c
  else if p = 3 then checkCarter s c
  else if p = 4 then checkCooper s c x.sel
  else if p = 5 then checkReeve s c x.sel
  else if p = 6 then checkWinnow c
  else if p = 10 then checkPwr s c
  else if p = 12 then checkTherm s c
  else if p = 13 then checkPcie c
  else if p = 14 then checkIntake s c x.sel x.session
  else if p = 15 then checkTrack s c (x.sel % 128) (x.sel / 128)
  else if p < 88 then checkCore s c (p - 16)
  else if p < 96 then checkClu s c (p - 88)
  else if p < 105 then 0
  else if p < 107 then checkEnc s c (p - 105) x.session
  else if p < 115 then checkCsi c (p - 107)
  else if p = 115 then checkRec c
  else if p = 118 then checkHbmc s c
  else if p < 135 then checkCh s c (p - 119)
  else checkLink s c (p - 135)

end Sys2Proof.Machine
end

