-- ==== Sys2Proof/Machine/Commit.lean ====
section
/-!
DEFINITION. Sys2Proof/Machine/Commit.lean: staging and commit (18_register_map.md R417 to R419): snapshots, commit points, what a
commit that passes its checks does, and the commands PAGE_COMMIT_HOST, PAGE_COMMIT_FW, COMMIT_POINT and FRAME_START.
-/

namespace Sys2Proof.Machine

/-! ## Snapshots (R417, R418) -/

/-- The selector value through which a snapshot of scope `sel` reaches field `f`; the TRACK page has two, slot + 128 · ring. -/
def selOf (f : Fld) (sel : Nat) : Nat :=
  match f.sel with
  | .none => 0
  | .tslot => sel % 128
  | .ring => sel / 128
  | _ => sel

/-- Keys of the staged fields of one writer on page `p` that the selectors `sel` reach. -/
def stagedKeys (p : Nat) (fw : Bool) (sel : Nat) : List Nat :=
  ((ownFields p).filter (fun f => decide (f.acc = .rws) && (decide (f.wr = .fw) == fw))).flatMap
    (fun f => (upto f.cnt).map (fun k => f.key (f.inst p) (selOf f sel) k))

/-- The snapshots without the one of a writer on a page. -/
def dropSnap (s : State) (p : Nat) (fw : Bool) : State :=
  { s with rf := { s.rf with snaps := s.rf.snaps.filter (fun x => !(decide (x.page = p) && (x.fw == fw))) } }

/-- Where PAGE_COMMIT_STATUS shows a writer's state. -/
def stateFld (fw : Bool) : Fld := if fw then F.PAGE_COMMIT_STATUS_FW_STATE else F.PAGE_COMMIT_STATUS_HOST_STATE

/-- The commit changes the window list of port `p`: its COUNT, SRC, a position or a size. A later commit that changes none of them
does not make a frame ROI-stale (log entry 119). -/
def roiChanges (s c : State) (p : Nat) : Bool :=
  changes s c F.ROI_CTRL_COUNT p 0 || changes s c F.ROI_CTRL_SRC p 0 || changes s c F.ROI_POS_X p 0 || changes s c F.ROI_POS_Y p 0 ||
    changes s c F.ROI_SIZE_W p 0 || changes s c F.ROI_SIZE_H p 0

/-- Every field of a snapshot live. -/
def goLive (s : State) (x : Snap) : State :=
  { s with rf := { s.rf with live := x.vals.foldl (fun t kv => tset 0 t kv.1 kv.2) s.rf.live } }

/-- A window commit later than the frame start of the frame in capture marks that frame (02 R29). -/
def noteStale (s : State) (p : Nat) (late : Bool) : State :=
  if late && (csi s p).busy then modCsi s p (fun x => { x with stale := true }) else s

/-- A write of PAGE_COMMIT: a snapshot of the writer's shadows is pending, in place of an earlier one of the same writer. A page
without staged fields of the writer ignores it (R419). A commit on a CSI page needs the port's domain (17 R399). -/
def takeSnap (s : State) (p : Nat) (fw : Bool) (sel t : Nat) : State :=
  match stagedKeys p fw sel with
  | [] => s
  | ks =>
    let x : Snap := { page := p, fw := fw, sel := sel, session := t, at_ := s.now,
                      vals := ks.map (fun k => (k, tget 0 s.rf.shadow k)) }
    let s1 := dropSnap s p fw
    let s2 := setI { s1 with rf := { s1.rf with snaps := s1.rf.snaps ++ [x] } } (stateFld fw) p 1
    if 107 ≤ p ∧ p < 115 then noteStale (switchOn s2 (220 + (p - 107) / 2)) (p - 107) (roiChanges s (goLive s x) (p - 107)) else s2

/-! ## What an applied commit does -/

/-- SYS (18 R421): the staged map is active, and its generation rises. A core that the map no longer names is a spare, and a
spare that it names is idle. -/
def sysApplied (c : State) : State :=
  let t1 := (upto 64).foldl (fun t l => putF t (placeFld l) 0 0 (l / 4) (stagedPlace c l)) c
  let t2 := (upto 72).foldl (fun t p =>
    match logicalCore t p with
    | some l =>
      let u := setI t F.CORE_STATE_LOGICAL p l
      if regI u F.CORE_STATE_STATE p = 4 then setI u F.CORE_STATE_STATE p 0 else u
    | none =>
      let u := setI t F.CORE_STATE_LOGICAL p 127
      if (logicalCore c p).isSome then setI u F.CORE_STATE_STATE p 4 else u) t1
  let t3 := (upto 8).foldl (fun t k =>
    match spareOf t k with
    | some p =>
      if (logicalCore t p).isSome then
        setSpare { t with winnow := { t.winnow with handovers := terase t.winnow.handovers k } } k
          ((rangeFrom (9 * k) 9).find? (fun q => decide (regI t F.CORE_STATE_STATE q = 4))) 0
      else t
    | none =>
      match (rangeFrom (9 * k) 9).find? (fun q => decide (regI t F.CORE_STATE_STATE q = 4)) with
      | some q => setSpare t k (some q) 0
      | none => t) t2
  addR t3 F.SYS_PLACE_GEN 1

/-- An item runs on a logical core whose place the staged map changes: the commit waits for it (log entry 41). -/
def placeWaits (s c : State) : Bool :=
  (upto 64).any (fun l => match physOf s l with
    | some p => decide (stagedPlace c l ≠ p) && (core s p).item.isSome
    | none => false)

/-- TALLY (12 R286, R288): ALIGN arms a follower, TIME_EN arms the domain master. -/
def tallyApplied (s c : State) : State :=
  let t1 := if !flag s F.TALLY_CTRL_ALIGN && flag c F.TALLY_CTRL_ALIGN && decide (reg c F.TALLY_CTRL_ROLE = 2) then
      setR { c with fab := { c.fab with armed := true } } F.TALLY_STATE_STATE 1
    else c
  if flag s F.TALLY_CTRL_TIME_EN == flag c F.TALLY_CTRL_TIME_EN then t1
  else { t1 with fab := { t1.fab with timeArmed := flag c F.TALLY_CTRL_TIME_EN, expected := none } }

/-- The ledger stops being polled: the lease ends with it, and a poll in flight is discarded (11 R271). -/
def stopLedger (s : State) : State :=
  setR { endPoll (dropReads s (fun k => decide (k = .ledgerPidx))) with disp := { (endPoll s).disp with leaseEnd := none, leaseSuspended := false } }
    F.SYS_STATUS_LEASE 0

/-- The host lease starts, or is renewed, in this tick, with the MS in force (11 R271). -/
def startLease (s : State) : State :=
  setR (setR { s with disp := { s.disp with leaseEnd := some (s.now + msTicks (reg s F.DISP_LEASE_MS)) } } F.DISP_LEASE_EXPIRED 0)
    F.SYS_STATUS_LEASE 1

/-- DISP (11 R251, R271): EN rising writes the consumer index and starts the lease; EN falling stops polling. -/
def dispApplied (s c : State) : State :=
  match flag s F.DISP_LEDGER_CFG_EN, flag c F.DISP_LEDGER_CFG_EN with
  | false, true => writeCidx (startLease { c with disp := { c.disp with leaseSuspended := false } })
  | true, false => stopLedger c
  | _, _ => c

/-- COOPER (09 R224): a pool is enabled with its buffers, or disabled. -/
def cooperApplied (s c : State) (p : Nat) : State :=
  match poolEn s p, poolEn c p with
  | false, true => enablePool c p
  | true, false => { c with pools := terase c.pools p }
  | _, _ => c

/-- REEVE (13 R314): the period of an enabled pipeline runs from its commit. -/
def reeveApplied (s c : State) (p : Nat) : State :=
  if regS c F.REEVE_CFG_EN p = 0 then { c with reeve := terase c.reeve p }
  else if regS s F.REEVE_CFG_EN p = 0 then { c with reeve := tset {} c.reeve p { since := c.now, last := c.now, live := true, bad := false } }
  else c

/-- PWR (17 R398): domains whose bit rises are switched on in ascending number, those whose bit falls are switched off. -/
def pwrApplied (s c : State) : State :=
  (upto 230).foldl (fun t d =>
    if domFalls s c d then switchOff t d
    else if rises (regX s F.PWR_DOM_ON (d / 32)) (regX c F.PWR_DOM_ON (d / 32)) (d % 32) then switchOn t d
    else t) c

/-- INTAKE (02 R31, R34, R45): the slot opens with its reservation and its decode budget, or closes. -/
def intakeApplied (c : State) (n : Nat) : State :=
  if admCodec c n = 0 then closeSlot c n
  else
    let t := setMin (modSlot c n (fun _ => { isOpen := true, budget := if n < 64 then decodeBudget c n else 0 })) (regS c F.ADM_POOL_POOL n) n
      (slotMin c n)
    refreshLoad (setS (setS t F.SLOT_STATE_STATE n 1) F.SLOT_STATE_CIDX n 0)

/-- TRACK (08 R191, R200 to R202): a slot's tracking plan is disabled; a ring is enabled or disabled; a commit of RING_IRQ may
make a message due. -/
def trackApplied (s c : State) (n k : Nat) : State :=
  let t := if regS s F.TRK_CTRL_EN n ≠ 0 ∧ regS c F.TRK_CTRL_EN n = 0 then closeTracks c n else c
  let t1 := match ringEn s k, ringEn c k with
    | false, true => enableRing t k
    | true, false => orphanQueue t k
    | _, _ => t
  ringSignal t1 k

/-- CORE_n (04 R105, R107, R113): partial-sum tiles in service, the resident tag, retirement. -/
def coreApplied (s c : State) (p : Nat) : State :=
  let t := setI c F.CORE_BIN_CAP_PSUM_TILES p ((upto 16).filter (fun b => !(regI c F.CORE_PSUM_MASK p).testBit b)).length
  let t1 := if regI c F.CORE_CTRL_FLUSH_RESIDENT p = 0 then t
    else putBoth (clearTag t p) F.CORE_CTRL_FLUSH_RESIDENT p 0 0 0
  if regI c F.CORE_CTRL_RETIRE p = 0 ∨ regI s F.CORE_STATE_STATE p = 6 then t1
  else
    let t2 := retireCore t1 p
    if spareOf t2 (p / 9) = some p then setSpare t2 (p / 9) none 3 else t2

/-- Bank `b` of cluster `k` is forced off: the writes on their way to it are dropped and counted, and the items that wrote end (09 R222). -/
def dropWrites (s : State) (k b : Nat) : State :=
  let gone := (clu s k).inflight.filter (fun e => decide (e.1 = b) && decide (s.now < e.2.1))
  let keys := (gone.filterMap (fun e => e.2.2)).foldl (fun (l : List Nat) x => if l.contains x then l else l ++ [x]) []
  let s1 := addI (modClu s k (fun c => { c with inflight := c.inflight.filter (fun e => !gone.contains e) })) F.CLU_DARK_WRITES k gone.length
  if keys.isEmpty then s1 else darkFault s1 k b keys

/-- CLU_n, bank `b` (09 R221 to R223): forced off, requested on, or draining before it is switched off. A copy that loses its
source or its spare ends. -/
def bankApplied (s c : State) (k : Nat) (t : State) (b : Nat) : State :=
  let pw (x : State) : Nat := regI x F.CLU_BANK_PWR k
  let fo (x : State) : Nat := regI x F.CLU_BANK_FORCE k
  let dr := regI t F.CLU_BANK_STATE_DRAINING k
  let d := 72 + 17 * k + b
  if rises (fo s) (fo c) b then
    let u := switchOff (setI (dropWrites t k b) F.CLU_BANK_STATE_DRAINING k (clrBit dr b)) d
    if (clu u k).copyRow.isSome && (decide (regI u F.CLU_BANK_STATE_COPY_SRC k = b) || decide (spareBank u k = some b)) then
      setI (modClu u k (fun x => { x with copyRow := none })) F.CLU_BANK_STATE_COPYING k 0
    else u
  else if (fo c).testBit b then t
  else if falls (pw s) (pw c) b then setI t F.CLU_BANK_STATE_DRAINING k (setBit dr b)
  else if rises (pw s) (pw c) b || (falls (fo s) (fo c) b && (pw c).testBit b) then
    switchOn (setI t F.CLU_BANK_STATE_DRAINING k (clrBit dr b)) d
  else t

/-- CLU_n (09 R218, R220): the bank map places the spare, whose capacity then counts. -/
def cluApplied (s c : State) (k : Nat) : State :=
  let t := (upto 16).foldl (fun t b =>
    if bankOf c k b = bankOf s k b then t
    else putF (modClu t k (fun x => { x with copyDone := none })) F.CLU_BANK_CAP_UNITS k 0 b
      (bankUnits c k (bankOf c k b))) c
  refreshDark ((upto 17).foldl (bankApplied s c k) t) k

/-- ENC_n (03 R81): the encoder starts for the session that commits, or stops. -/
def encApplied (s c : State) (e t : Nat) : State :=
  match decide (regI s F.ENC_CTRL_EN e ≠ 0), decide (regI c F.ENC_CTRL_EN e ≠ 0) with
  | false, true => modEnc c e (fun _ => { due := c.now, session := t })
  | true, true => modEnc c e (fun x => { x with session := t })
  | true, false => { addI c F.ENC_DISCARDED e (enc_ c e).queue.length with strm := { c.strm with encs := terase c.strm.encs e } }
  | _, _ => c

/-- The stack enters self-refresh: admitted requests are finished, and from then on none is admitted (10 R244). A
stack whose bring-up failed stays FAILED (R231). -/
def enterSref (s : State) : State :=
  if reg s F.HBMC_STATE_STATE = 4 then s else
  let t := (upto 32).foldl (fun u p => drainQ p (hbmQ u p).length u) s
  setR { (upto 16).foldl (fun u c => if chUp u c then setI u F.HBMC_CH_STATE_MODE c 3 else u) t with
    hbm := { t.hbm with srefExit := none } } F.HBMC_STATE_STATE 3

/-- Self-refresh is left: the channels are in service 13,000 ticks later (10 R244). -/
def exitSref (s : State) : State := { s with hbm := { s.hbm with srefExit := some s.now } }

/-- HBMC (10 R233, R244): a map change leaves the stack's contents undefined (log entry 8); self-refresh is entered or left. -/
def hbmcApplied (s c : State) : State :=
  let t := if changes s c F.HBMC_MAP_GRAIN 0 0 || changes s c F.HBMC_MAP_FOLD 0 0 then { c with hbm := { c.hbm with mem := {} } } else c
  match flag s F.HBMC_SREF, flag c F.HBMC_SREF with
  | false, true => enterSref t
  | true, false => exitSref t
  | _, _ => t

/-- HBMC_CH_c (10 R246): a repair starts and holds its bank; a hard repair uses up its authorisation. -/
def chApplied (s c : State) (ch : Nat) : State :=
  if !repairGoes s c ch then c
  else
    let r := repairRow c ch
    let hard := decide (regI c F.HBMC_CH_REPAIR_HARD ch ≠ 0)
    let x : Repair := { pc := r / 16384 / 64, bank := r / 16384 % 64, row := r % 16384, hard := hard, start := c.now }
    { c with
      hbm := { c.hbm with repairs := tset none c.hbm.repairs ch (some x) },
      sec := { c.sec with repairAuth := if hard then c.sec.repairAuth.erase (ch, r) else c.sec.repairAuth } }

/-- LINK_n (12 R293): an enabled port trains; a disabled one is down. A FAILED port stays so until the next fundamental reset. -/
def linkApplied (c : State) (n : Nat) : State :=
  let st := regI c F.LINK_STATE_STATE n
  if st = 4 then c
  else if regI c F.LINK_CTRL n = 0 then setI (modLink c n (fun x => { spareUsed := x.spareUsed })) F.LINK_STATE_STATE n 0
  else if st = 0 then setI c F.LINK_STATE_STATE n 1
  else c

/-- What snapshot `x` does once its fields are live. -/
def applied (s c : State) (x : Snap) : State :=
  let p := x.page
  if p = 0 then keepMap s (sysApplied c) x.fw
  else if p = 1 then tallyApplied s c
  else if p = 2 then dispApplied s c
  else if p = 3 then { c with claims := fwClaims (reg c F.CARTER_WARM) ++ c.claims.filter (fun (d : GranClaim) => decide (d.owner ≠ 256)) }
  else if p = 4 then cooperApplied s c x.sel
  else if p = 5 then reeveApplied s c x.sel
  else if p = 10 then pwrApplied s c
  else if p = 14 then intakeApplied c x.sel
  else if p = 15 then trackApplied s c (x.sel % 128) (x.sel / 128)
  else if p < 16 then c
  else if p < 88 then coreApplied s c (p - 16)
  else if p < 96 then cluApplied s c (p - 88)
  else if p < 105 then c
  else if p < 107 then encApplied s c (p - 105) x.session
  else if p < 118 then c
  else if p = 118 then hbmcApplied s c
  else if p < 135 then chApplied s c (p - 119)
  else linkApplied c (p - 135)

/-! ## Latency tolerance (16 R394) -/

/-- The latency tolerance in nanoseconds: half the smaller of the two periods while polling or intake reading is enabled, else none. -/
def ltrValue (s : State) : Option Nat :=
  let p := reg s F.DISP_PERIOD
  let q := reg s F.INTAKE_PERIOD
  if flag s F.DISP_LEDGER_CFG_EN || (upto 64 ++ rangeFrom 72 4).any (fun n => (slotAt s n).isOpen) then
    some ((if p < q then p else q) * 10 / 26)
  else none

/-- An LTR message goes out when the tolerance changes. -/
def noteLtr (s c : State) : State := if ltrValue s = ltrValue c then c else emit c (.ltr (ltrValue c))

/-! ## Commit points (Table 18-1) -/

/-- The domain that must be on for the commit (17 R399). -/
def needDom (c : State) (x : Snap) : Option Nat :=
  let p := x.page
  if p = 14 then if 64 ≤ x.sel ∧ x.sel < 72 ∧ admCodec c x.sel ≠ 0 then some (220 + (x.sel - 64) / 2) else none
  else if p = 105 ∨ p = 106 then if regI c F.ENC_CTRL_EN (p - 105) ≠ 0 then some (217 + (p - 105)) else none
  else if 135 ≤ p then if regI c F.LINK_CTRL (p - 135) ≠ 0 then some (224 + (p - 135) / 2) else none
  else none

/-- The present tick is the commit point of snapshot `x`, whose candidate is `c`; `frame` tells that a frame starts on a CSI page. A
snapshot taken in a tick is applied in a later one (R418). -/
def atPoint (s c : State) (x : Snap) (frame : Bool) : Bool :=
  let p := x.page
  decide (x.at_ < s.now) &&
    (if p = 0 then !placeWaits s c
     else if p = 1 then decide (s.now % 13 = 0)
     else if p = 15 then (stepOf s (x.sel % 128)).isNone ||
       !(allFields.any (fun f => decide (f.sel = .tslot) && changes s c f 0 (x.sel % 128)))
     else if p < 16 then true
     else if p < 88 then (core s (p - 16)).item.isNone
     else if p < 96 then decide (s.now % 32 = 0)
     else if p < 105 then (dec s (p - 96)).gang.isEmpty
     else if p < 107 then !(enc_ s (p - 105)).started
     else if p < 115 then frame
     else true)

/-- A snapshot at its commit point: checked, and applied whole or refused whole; it waits while a domain it needs comes on. -/
def commitOne (s : State) (x : Snap) : State :=
  let s0 := dropSnap s x.page x.fw
  let c := goLive s0 x
  match checkSnap s0 c x with
  | 0 =>
    match (needDom c x).filter (fun d => !domOn s d) with
    | some d => switchOn s d
    | none => setI (noteLtr s0 (applied s0 c x)) (stateFld x.fw) x.page 2
  | r =>
    let t := setI (addI s0 F.PAGE_COMMIT_STATUS_REFUSALS x.page 1) (stateFld x.fw) x.page 3
    setI (setI t F.PAGE_COMMIT_STATUS_REASON x.page r) F.PAGE_COMMIT_STATUS_WHO x.page (bnat x.fw)

/-- The pending snapshot of a writer on page `p`, at its commit point. -/
def commitBy (s : State) (p : Nat) (fw frame : Bool) : State :=
  match s.rf.snaps.find? (fun x => decide (x.page = p) && (x.fw == fw)) with
  | some x => if atPoint s (goLive s x) x frame then commitOne s x else s
  | none => s

/-- The commit point of page `p`: the firmware snapshot first, then the host's against the result (R418). -/
def commitPage (s : State) (p : Nat) (frame : Bool) : State := commitBy (commitBy s p true frame) p false frame

/-! ## Commands -/

/-- PAGE_COMMIT_HOST: a write of PAGE_COMMIT.HOST. `session` none is a direct write through BAR 0, accepted on an open page only; some
tag is a write within REG_WRITE, with `sel` the selector value of the command (R415, R417; 14 R342, R343). -/
def execPageCommitHost (page sel : Nat) (session : Option Nat) (s : State) : Out :=
  .next (whenLive s fun s =>
    guardOn (decide (page < 139) && pageUp s page) s fun s =>
      match session with
      | none => if pageLevel page = 0 then takeSnap s page false 0 0 else violation s page
      | some t => guardOn (tagOpen s t (some (pageRole page)) && decide (pageLevel page ≠ 0)) s fun s => takeSnap s page false sel t)

/-- PAGE_COMMIT_FW: firmware writes PAGE_COMMIT.FW; on the REEVE page the pipeline is the one REEVE_SEL names (R417). -/
def execPageCommitFw (page : Nat) (s : State) : Out :=
  .next (whenLive s fun s =>
    guardOn (decide (page < 139) && pageUp s page) s fun s => takeSnap s page true (if page = 5 then reg s F.REEVE_SEL else 0) 0)

/-- COMMIT_POINT: the commit point of page `page` (R417 to R419, Table 18-1). That of a CSI page is its FRAME_START. -/
def execCommitPoint (page : Nat) (s : State) : Out := .next (whenLive s fun s => commitPage s page false)

/-- ENCODE_PICTURE_DONE: the picture in work is complete; pending snapshots of the page meet their commit point, and the next picture
starts (03 R78 to R80, Table 18-1). In D3hot the encoder stops at this picture boundary (16 R391). -/
def execEncodePictureDone (enc : Nat) (s : State) : Out :=
  .next (whenLive s fun s =>
    let x := enc_ s enc
    match x.queue with
    | [] => s
    | p :: rest =>
      guardOn (decide (enc < 2) && decide (regI s F.ENC_CTRL_EN enc ≠ 0) && x.started && decide (x.slice = p.slices)) s fun s =>
        let s1 := commitPage (finishEnc s enc p rest) (105 + enc) false
        if regI s1 F.ENC_CTRL_EN enc = 0 then s1
        else if s1.d0 then startEnc s1 enc
        else stopEncoder s1 enc)

/-- FRAME_START: a frame-start pulse of port `port` (02 R29, R49, R52): a frame that lacked its frame end is closed, the pending
snapshots of the page meet their commit point, and the frame begins. -/
def execFrameStart (port : Nat) (s : State) : Out :=
  .next (whenLive s fun s =>
    guardOn (decide (port < 8) && domOn s (220 + port / 2)) s fun s =>
      let s1 := if csiRuns s port then earlyStart s port else s
      let s2 := commitPage s1 (107 + port) true
      let late := s2.rf.snaps.any (fun x => decide (x.page = 107 + port) && roiChanges s2 (goLive s2 x) port)
      if csiRuns s2 port then noteStale (beginFrame s2 port) port late else s2)

end Sys2Proof.Machine
end

