-- ==== Sys2Proof/Machine/Regs.lean ====
section
/-!
DEFINITION. Sys2Proof/Machine/Regs.lean: reads and writes of register pages (00_scope.md R7 to R9, 01_architecture.md R16,
14_security_and_sessions.md R342 and R343, 16_host_interface.md R381, 18_register_map.md R415 and R416), and the commands that
are register writes with a behaviour of their own.
-/

namespace Sys2Proof.Machine

/-! ## Selectors (R343) -/

/-- A view of the selector registers: the direct one, or that of one REG_WRITE command. -/
structure Sels where
  slot : Nat := 0
  tslot : Nat := 0
  ring : Nat := 0
  pool : Nat := 0
  pipe : Nat := 0
  session : Nat := 0
  plan : Nat := 0
  batch : Nat := 1
  ctx : Nat := 0
deriving DecidableEq, Repr

/-- The direct view: the selector registers as they stand. -/
def directSels (s : State) : Sels :=
  { slot := reg s F.INTAKE_SLOT_SEL, tslot := reg s F.TRK_SLOT_SEL, ring := reg s F.RING_SEL, pool := reg s F.COOPER_POOL_SEL,
    pipe := reg s F.REEVE_SEL, session := reg s F.SEC_SESS_SEL, plan := reg s F.PLAN_SEL_INDEX, batch := reg s F.PLAN_SEL_BATCH,
    ctx := reg s F.CARTER_CTX_SEL }

/-- The selector value that reaches field `f`. -/
def Sels.of (x : Sels) (f : Fld) : Nat :=
  match f.sel with
  | .none => 0
  | .slot => x.slot
  | .tslot => x.tslot
  | .ring => x.ring
  | .pool => x.pool
  | .pipe => x.pipe
  | .session => x.session
  | .plan => x.plan
  | .ctx => x.ctx

/-- A selector field of a guarded page, which a command's view holds apart. -/
def isViewSel (f : Fld) : Bool :=
  decide (f.id = F.INTAKE_SLOT_SEL.id) || decide (f.id = F.TRK_SLOT_SEL.id) || decide (f.id = F.RING_SEL.id) ||
    decide (f.id = F.COOPER_POOL_SEL.id) || decide (f.id = F.PLAN_SEL_INDEX.id) || decide (f.id = F.PLAN_SEL_BATCH.id)

/-- What a selector holds after a write of `v`: slots above 75 read back as 75 (02 INTAKE_SLOT_SEL), batch 0 as 1 (07 PLAN_SEL). -/
def selValue (f : Fld) (v : Nat) : Nat :=
  if (f.id = F.INTAKE_SLOT_SEL.id ∨ f.id = F.TRK_SLOT_SEL.id) ∧ 75 < v then 75
  else if f.id = F.PLAN_SEL_BATCH.id ∧ v = 0 then 1
  else v

/-- The view with a selector written. -/
def Sels.put (x : Sels) (f : Fld) (v : Nat) : Sels :=
  if f.id = F.INTAKE_SLOT_SEL.id then { x with slot := v }
  else if f.id = F.TRK_SLOT_SEL.id then { x with tslot := v }
  else if f.id = F.RING_SEL.id then { x with ring := v }
  else if f.id = F.COOPER_POOL_SEL.id then { x with pool := v }
  else if f.id = F.PLAN_SEL_INDEX.id then { x with plan := v }
  else if f.id = F.PLAN_SEL_BATCH.id then { x with batch := v }
  else x

/-- The selector value a commit of page `p` takes its scope from (R417). -/
def Sels.scope (x : Sels) (p : Nat) : Nat :=
  if p = 14 then x.slot
  else if p = 15 then x.tslot + 128 * x.ring
  else if p = 4 then x.pool
  else if p = 5 then x.pipe
  else 0

/-! ## Reading -/

/-- Every staged field of a writer on page `p` has its shadow equal to its live value (R416 HOST_SYNC, FW_SYNC). -/
def inSync (s : State) (p : Nat) (fw : Bool) : Bool :=
  let mine (k : Nat) : Bool := decide (keyPage k = p) && (keyFw k == fw) &&
    allFields.any (fun f => decide (f.id = keyId k) && decide (f.acc = .rws))
  s.rf.shadow.all (fun e => !mine e.1 || decide (tget 0 s.rf.live e.1 = e.2)) &&
    s.rf.live.all (fun e => !mine e.1 || decide (tget 0 s.rf.shadow e.1 = e.2))

/-- Code of PLAN_ENTRY.STATE. -/
def PlanSt.code : PlanSt → Nat
  | .free => 0
  | .installing => 1
  | .installed => 2
  | .removing => 3

/-- Fields of the plan-table entry that PLAN_SEL names (07 PLAN_ENTRY to PLAN_WCET); none for the counters, which the register
file holds. -/
def planView (s : State) (x : Sels) (f : Fld) : Option Nat :=
  let e := planAt s x.plan
  let h := e.img.hdr
  if f.sel ≠ .plan then none
  else if e.st = .free then some 0
  else if f.id = F.PLAN_ENTRY_STATE.id then some e.st.code
  else if f.id = F.PLAN_ENTRY_PINNED.id then some h.cls
  else if f.id = F.PLAN_ENTRY_WHOLE_TILE.id then some (bnat (h.flags.testBit 0))
  else if f.id = F.PLAN_ENTRY_AUTONOMOUS.id then some (bnat (h.flags.testBit 1))
  else if f.id = F.PLAN_ENTRY_FABRIC.id then some (bnat (h.flags.testBit 2))
  else if f.id = F.PLAN_ENTRY_ONE_CLUSTER.id then some (bnat (h.flags.testBit 3))
  else if f.id = F.PLAN_ENTRY_PSUM_ASSUMED.id then some h.psumAssumed
  else if f.id = F.PLAN_ENTRY_CORES.id then some h.cores
  else if f.id = F.PLAN_ENTRY_MAX_BATCH.id then some h.maxBatch
  else if f.id = F.PLAN_ID.id then some (if e.st = .installing then 0 else planIdAt s x.plan)
  else if f.id = F.PLAN_CLAIM_GRANARY_KIB.id then some (h.granKib + (h.spillKib - 64) * (if h.cores < 8 then h.cores else 8))
  else if f.id = F.PLAN_CLAIM_SPILL_KIB.id then some h.spillKib
  else if f.id = F.PLAN_HBM.id then some h.hbmKib
  else if f.id = F.PLAN_WCET.id then some (if x.batch ≤ h.maxBatch then nth 0 e.wcet (x.batch - 1) else 0)
  else none

/-- Code of CARTER_CTX.STATE; an entry whose item is returning reads restoring. -/
def CtxSt.code : CtxSt → Nat
  | .free => 0
  | .save => 1
  | .warm => 2
  | .cold => 3
  | .moving => 4
  | .restoring => 5

/-- Fields of the context-table entry that CARTER_CTX_SEL names (11 CARTER_CTX, CARTER_CTX_SEQ). -/
def ctxView (s : State) (x : Sels) (f : Fld) : Option Nat :=
  let c := tget {} s.ctxs x.ctx
  if f.sel ≠ .ctx then none
  else
    match item? s c.item with
    | none => some 0
    | some i =>
      if c.st = .free then some 0
      else if f.id = F.CARTER_CTX_STATE.id then some (if i.st = .restoring then 5 else c.st.code)
      else if f.id = F.CARTER_CTX_BLOCKED.id then some (bnat c.blocked)
      else if f.id = F.CARTER_CTX_RANK.id then some c.rank
      else if f.id = F.CARTER_CTX_CLUSTER.id then some c.cluster
      else if f.id = F.CARTER_CTX_INHERIT.id then some (bnat i.inherit)
      else if f.id = F.CARTER_CTX_PLAN.id then some i.e.plan
      else some i.e.seq

/-- Fields that follow from other state: the Tally, grade and serial number, queues, the lease, pools, the event summary. -/
def stateView (s : State) (x : Sels) (p : Nat) (f : Fld) (k : Nat) : Option Nat :=
  if f.id = F.TALLY_LO.id then some s.now
  else if f.id = F.TALLY_HI.id then some (s.now / 2 ^ 32)
  else if f.id = F.SYS_STATUS_GRADE.id then some (bnat s.gradeSC)
  else if f.id = F.SYS_SERIAL_LO.id then some s.serial
  else if f.id = F.SYS_SERIAL_HI.id then some (s.serial / 2 ^ 32)
  else if f.id = F.PAGE_COMMIT_STATUS_HOST_SYNC.id then some (bnat (inSync s p false))
  else if f.id = F.PAGE_COMMIT_STATUS_FW_SYNC.id then some (bnat (inSync s p true))
  else if f.id = F.DISP_QUEUE_STATE_POOLED.id then
    some (s.disp.items.filter (fun i => decide (i.e.cls ≠ 1) &&
      (decide (i.st = .pooled) || decide (i.st = .saving) || decide (i.st = .out)))).length
  else if f.id = F.DISP_QUEUE_STATE_PINNED.id then
    some (s.disp.items.filter (fun i => decide (i.e.cls = 1) && !i.golden &&
      (decide (i.st = .pinned) || decide (i.st = .decided)))).length
  else if f.id = F.DISP_LEASE_LEFT.id then
    some (match s.disp.leaseEnd with
      | some t => if leaseRuns s then (t - s.now) / msTicks 1 else 0
      | none => 0)
  else if f.id = F.COOPER_POOL_STATE_FREE.id then some (if poolEn s x.pool then poolFree s x.pool else 0)
  else if f.id = F.COOPER_POOL_STATE_UNMET.id then some (poolUnmet s x.pool)
  else if f.id = F.COOPER_POOL_STATE_OWNERS.id then some (pool s x.pool).minima.length
  else if f.id = F.SICKLE_STATE_BUSY.id then some ((sickleState s (p - 116)).1)
  else if f.id = F.SICKLE_STATE_PINNED.id then some ((sickleState s (p - 116)).2.1)
  else if f.id = F.SICKLE_STATE_REMAINING.id then some (sickleState s (p - 116)).2.2
  else if f.id = F.PCIE_EVT_SUM.id then some (evtSum s k)
  else if f.id = F.HBMC_CH_TRAIN_BUSY.id then some (bnat (tget false s.hbm.trainRun (p - 119)))
  else none

/-- What a read of field `f` on page `p` gives (00 R9): a write-only field 0, a staged field its shadow, any other its value. -/
def readFld (s : State) (x : Sels) (p : Nat) (f : Fld) (k : Nat) : Nat :=
  match f.acc with
  | .wo => 0
  | .rws => getSh s f (f.inst p) (x.of f) k
  | _ =>
    match planView s x f, ctxView s x f, stateView s x p f k with
    | some v, _, _ => v % 2 ^ f.width
    | none, some v, _ => v % 2 ^ f.width
    | none, none, some v => v % 2 ^ f.width
    | none, none, none => getF s f (f.inst p) (x.of f) k

/-- The value of the register at offset `off` of page `p`; reserved bits and offsets read as 0, as does a page that is not up. -/
def readReg (s : State) (x : Sels) (p off : Nat) : Nat :=
  if pageUp s p then
    (fieldsAt p off).foldl (fun a (e : Fld × Nat) => a + readFld s x p e.1 e.2 * 2 ^ e.1.lo) 0
  else 0

/-- The `_LO` halves of the 64-bit registers (00 R7). -/
def pairLows : List Fld :=
  [F.INTAKE_RING_BASE_LO, F.PIDX_ADDR_LO, F.DEC_BUSY_LO, F.ENC_BYTES_LO, F.CORE_BUSY_LO, F.CORE_MACS_LO, F.CORE_GATED_LO,
   F.TRACK_RING_BASE_LO, F.WIDX_ADDR_LO, F.COOPER_POOL_HEAD_LO, F.CH_READS_LO, F.CH_WRITES_LO, F.DISP_LEDGER_BASE_LO,
   F.DISP_PIDX_ADDR_LO, F.DISP_CIDX_ADDR_LO, F.TALLY_LO, F.TALLY_TIME_LOAD_LO, F.TALLY_TIME_STAMP_LO, F.RELAY_IN_BASE_LO,
   F.RELAY_IN_PIDX_ADDR_LO, F.REEVE_BREACH_LO, F.SEC_EGRESS_LAST_LO, F.ERR_LAST_ADDR_LO, F.SYS_SERIAL_LO]

/-- Is the register at offset `off` of page `p` a `_LO` half? -/
def isLow (p off : Nat) : Bool := pairLows.any (fun f => f.onPage p && decide (f.off = off))

/-- A read of the register at BAR 0 address `a` = page `p` + `off` by host software: its value, and the state after it (R7, R9). A
`_LO` half captures its `_HI` half; the next read of that `_HI` half returns the copy and drops it; an RC field is cleared. -/
def hostReadReg (s : State) (p off : Nat) : Nat × State :=
  let a := pageBase p + off
  let x := directSels s
  match tget 0 s.rf.hold a with
  | h + 1 => (h, { s with rf := { s.rf with hold := terase s.rf.hold a } })
  | 0 =>
    let v := readReg s x p off
    let s1 := if isLow p off then { s with rf := { s.rf with hold := tset 0 s.rf.hold (a + 4) (readReg s x p (off + 4) + 1) } } else s
    if pageUp s p then
      (v, ((fieldsAt p off).filter (fun e => decide (e.1.acc = .rc))).foldl
        (fun t (e : Fld × Nat) => putF t e.1 (e.1.inst p) (x.of e.1) e.2 0) s1)
    else (v, s1)

/-- A memory request of the host is served: Memory Space Enable is 1 and the function is in D0 (16 R381). -/
def memServed (s : State) : Bool := s.pcie.memSpace && s.d0

/-- A read of `size` bytes of BAR 0 at `addr` (16 R381). -/
def barRead (s : State) (addr size : Nat) : State :=
  if !memServed s then emit (aer s .unsupportedRead) .unsupported
  else if addr % 4 ≠ 0 ∨ size ≠ 4 then emit (addR s F.PCIE_BAD_ACCESS 1) (.readReply 0)
  else
    match pageAt addr with
    | some p => let r := hostReadReg s p (addr % 0x1000); emit r.2 (.readReply r.1)
    | none => emit s (.readReply 0)

/-! ## Writing -/

/-- Who writes: host software through BAR 0, firmware, or a session's REG_WRITE with its tag and role. -/
inductive By where
  | direct
  | fw
  | cmd (tag role : Nat)
deriving DecidableEq, Repr

/-- The direct fields of guarded pages (R342). -/
def isDirect (f : Fld) : Bool :=
  isViewSel f || decide (f.id = F.RING_RIDX.id) || decide (f.id = F.DISP_JOURNAL_RIDX.id) || decide (f.id = F.RELAY_OUT_RIDX.id) ||
    decide (f.id = F.DISP_LEASE_RENEW.id)

/-- A session of role `r` writes host field `f` of page `p` through REG_WRITE (R342, Table 14-6); INT_FORCE also on open pages, for an
Operator (R416). -/
def roleMay (r p : Nat) (f : Fld) : Bool :=
  if pageLevel p = 0 then decide (f.id = F.INT_FORCE.id) && decide (r = 0) else decide (r = pageRole p)

/-- The writer reaches field `f` of page `p` (R16, R342, R415). -/
def mayWrite (b : By) (p : Nat) (f : Fld) : Bool :=
  match b with
  | .fw => decide (f.wr = .fw)
  | .direct => decide (f.wr = .host) && decide (f.id ≠ F.INT_FORCE.id) && (decide (pageLevel p = 0) || isDirect f)
  | .cmd _ r => decide (f.wr = .host) && roleMay r p f

/-- The fields of a register that take writes (R9), with their array elements. -/
def writableAt (p off : Nat) : List (Fld × Nat) := (fieldsAt p off).filter (fun e => decide (e.1.acc ≠ .ro) && decide (e.1.acc ≠ .rc))

/-- The bits of a written value that fall in field `f`. -/
def Fld.slice (f : Fld) (v : Nat) : Nat := v / 2 ^ f.lo % 2 ^ f.width

/-- The domain bits of word `k` of PWR_DOM_ON that firmware cannot write: banks, and domains 226 to 229 (17 PWR_DOM_ON). -/
def domFixed (k : Nat) : Nat :=
  (upto 32).foldl (fun a j => if (72 ≤ 32 * k + j ∧ 32 * k + j < 208) ∨ 226 ≤ 32 * k + j then setBit a j else a) 0

/-- A window-list field of a port (02 R51; log entry 43). -/
def isRoiList (f : Fld) : Bool :=
  decide (f.id = F.ROI_POS_X.id) || decide (f.id = F.ROI_POS_Y.id) || decide (f.id = F.ROI_SIZE_W.id) || decide (f.id = F.ROI_SIZE_H.id)

/-- A write of 1 to DISP_LEASE.RENEW renews the lease when it arrives in or before the expiry tick (11 R271). -/
def renewLease (s : State) : State :=
  match s.disp.leaseEnd with
  | some t => if leaseRuns s && decide (s.now ≤ t) then startLease s else s
  | none => s

/-- A write of 1 to HBMC_CH_TRAIN.GO: every lane's count is cleared and a pattern run starts (10 R247). -/
def startTraining (s : State) (c : Nat) : State :=
  let t := (upto 72).foldl (fun t k => putF t F.HBMC_CH_LANE_ERR c 0 k 0) s
  { t with hbm := { t.hbm with trainRun := tset false t.hbm.trainRun c true } }

/-- ERR_CLR: the last failing address and syndrome of the page are cleared (R416). -/
def clearErr (s : State) (p : Nat) : State :=
  setI (setI (setI s F.ERR_LAST_ADDR_LO p 0) F.ERR_LAST_ADDR_HI p 0) F.ERR_LAST_SYNDROME p 0

/-- The effect of a write of `v` to field `f`, element `k`, of page `p`, in the view `x`. -/
def writeFld (b : By) (x : Sels) (s : State) (p : Nat) (f : Fld) (k v : Nat) : State :=
  let i := f.inst p
  match f.acc with
  | .ro => s
  | .rc => s
  | .rws =>
    if isRoiList f && decide (regI s F.ROI_CTRL_SRC (p - 107) = 1) then violation s p
    else if f.id = F.PWR_DOM_ON.id then
      let keep := domFixed k
      putSh s f i 0 k ((getSh s f i 0 k).land keep + (v.land (keep.xor (2 ^ 32 - 1))))
    else putSh s f i (x.of f) k v
  | .w1c => putF s f i (x.of f) k ((getF s f i (x.of f) k).xor ((getF s f i (x.of f) k).land v))
  | .rw =>
    if isViewSel f then
      match b with
      | .cmd _ _ => s
      | _ => putF s f i 0 k (selValue f v)
    else if f.id = F.INT_ENABLE.id then setIntEnable s p v
    else if f.id = F.INTAKE_PERIOD.id then setR s f (if v < 256 then 256 else v)
    else if f.id = F.RING_RIDX.id then writeRidx s k v
    else if f.id = F.DISP_JOURNAL_RIDX.id then writeJournalRidx s v
    else if f.id = F.RELAY_OUT_RIDX.id then writeRelayRidx s v
    else if f.id = F.MGMT_FJ_SEL.id then
      let s1 := setR (setR s F.MGMT_FJ_SEL v) F.MGMT_FJ_READY 0
      if pairDown s 0 then s1 else fjPlace s1 v
    else putF s f i (x.of f) k v
  | .wo =>
    if f.id = F.INT_FORCE.id then raiseInt s p v
    else if v = 0 then s
    else if f.id = F.PAGE_CTRL.id then clearErr s p
    else if f.id = F.PAGE_COMMIT_HOST.id then
      takeSnap s p false (x.scope p) (match b with
        | .cmd t _ => t
        | _ => 0)
    else if f.id = F.PAGE_COMMIT_FW.id then takeSnap s p true (x.scope p) 0
    else if f.id = F.DISP_LEASE_RENEW.id then renewLease s
    else if f.id = F.REEVE_FAULT_CLR.id then clearFaults s
    else if f.id = F.HBMC_CH_TRAIN_GO.id then startTraining s (p - 119)
    else if f.id = F.SEC_MB_GO.id then (if reg s F.SEC_MB_STATE_STATE = 1 then violation s 7 else setR s F.SEC_MB_STATE_STATE 1)
    else s

/-- Bits of the write that fall in a field the writer does not reach count only when they are neither 0 nor the field's present
read value (R16, R342). -/
def foreignBits (s : State) (x : Sels) (p v : Nat) (e : Fld × Nat) : Bool :=
  decide (e.1.slice v ≠ 0) && decide (e.1.slice v ≠ readFld s x p e.1 e.2)

/-- The write sets the access-violation flag: it reaches none of its own fields, or carries bits for another's. -/
def flags (b : By) (s : State) (x : Sels) (p off v : Nat) : Bool :=
  let w := writableAt p off
  let own := w.filter (fun e => mayWrite b p e.1)
  let others := w.filter (fun e => !mayWrite b p e.1 &&
    (match b with
     | .cmd _ _ => decide (e.1.wr = .fw)
     | _ => true))
  !others.isEmpty && (own.isEmpty || others.any (foreignBits s x p v))

/-- A 32-bit write of `v` to the register at offset `off` of page `p`: the state and the view after it. A page that is not up
ignores writes (16 R379). -/
def writeReg (b : By) (x : Sels) (s : State) (p off v : Nat) : State × Sels :=
  if !pageUp s p then (s, x)
  else
    let own := (writableAt p off).filter (fun e => mayWrite b p e.1)
    let s0 := if flags b s x p off v then violation s p else s
    own.foldl (fun (a : State × Sels) (e : Fld × Nat) =>
      (writeFld b a.2 a.1 p e.1 e.2 (e.1.slice v),
       if isViewSel e.1 then a.2.put e.1 (selValue e.1 (e.1.slice v)) else a.2)) (s0, x)

/-- The write reaches a field its writer owns. -/
def reaches (b : By) (s : State) (p off : Nat) : Bool := pageUp s p && (writableAt p off).any (fun e => mayWrite b p e.1)

/-! ## REG_WRITE (R343) -/

/-- A REG_WRITE under way: the state, the command's view, what it has counted, and the shadows to return to: page, key, stored
value before. -/
structure RegRun where
  st : State
  view : Sels := {}
  applied : Nat := 0
  ignored : Nat := 0
  first : Nat := 0xFFFF
  commits : Nat := 0
  refused : Nat := 0
  saved : List (Nat × Nat × Nat) := []

/-- The pages whose commit point for host fields is the next tick (Table 18-1), and which REG_WRITE reaches. -/
def nextTickPages : List Nat := [2, 4, 14, 15, 135, 136, 137, 138]

/-- The next tick's commit point of one page, for a snapshot just taken (log entry 42): the state, and whether it was refused. -/
def passPage (s : State) (p : Nat) : State × Nat :=
  match s.rf.snaps.find? (fun x => decide (x.page = p) && !x.fw) with
  | some x =>
    if p = 15 ∧ (stepOf s (x.sel % 128)).isSome ∧
        allFields.any (fun f => decide (f.sel = .tslot) && changes s (goLive s x) f 0 (x.sel % 128)) then (s, 0)
    else
      let t := commitOne s x
      (t, if regI t F.PAGE_COMMIT_STATUS_REFUSALS p = regI s F.PAGE_COMMIT_STATUS_REFUSALS p then 0 else 1)
  | none => (s, 0)

/-- The commit points between two writes of a command. -/
def passPages (r : RegRun) : RegRun :=
  nextTickPages.foldl (fun (a : RegRun) p => let q := passPage a.st p; { a with st := q.1, refused := a.refused + q.2 }) r

/-- One write of the command, number `i`. -/
def regStep (tag role : Nat) (r : RegRun) (i : Nat) (w : RegW) : RegRun :=
  let b := By.cmd tag role
  let skip (t : State) : RegRun := { r with st := t, ignored := r.ignored + 1, first := if r.first = 0xFFFF then i else r.first }
  match (pageAt w.base).filter (fun _ => decide (w.base % 0x1000 = 0) && decide (w.off < 0x1000) && decide (w.off % 4 = 0)) with
  | none => skip r.st
  | some p =>
    let q := writeReg b r.view r.st p w.off w.value
    if !reaches b r.st p w.off then skip q.1
    else
      let staged := ((writableAt p w.off).filter (fun e => mayWrite b p e.1 && decide (e.1.acc = .rws))).map
        (fun (e : Fld × Nat) => e.1.key (e.1.inst p) (r.view.of e.1) e.2)
      let new := (staged.filter (fun k => !r.saved.any (fun z => decide (z.2.1 = k)))).map (fun k => (p, k, tget 0 r.st.rf.shadow k))
      let took := q.1.rf.snaps.any (fun x => decide (x.page = p) && !x.fw) && decide (w.off = F.PAGE_COMMIT_HOST.off) && w.value.testBit 0
      passPages { r with
        st := q.1
        view := q.2
        applied := r.applied + 1
        commits := r.commits + bnat took
        saved := if w.off = F.PAGE_COMMIT_HOST.off ∧ w.value.testBit 0 = true then r.saved.filter (fun z => decide (z.1 ≠ p))
          else r.saved ++ new }

/-- Stagings that no later write of the command committed return to their shadows before it. -/
def revert (s : State) (l : List (Nat × Nat × Nat)) : State :=
  { s with rf := { s.rf with shadow := l.foldl (fun t z => tset 0 t z.2.1 z.2.2) s.rf.shadow } }

/-- The payload of REG_WRITE (R343). -/
def regPayload (count : Nat) (l : List RegW) : List Byte :=
  le 4 count ++ l.flatMap (fun w => le 4 w.base ++ le 2 w.off ++ le 2 0 ++ le 4 w.value)

/-- Roles that Table 14-6 gives a page: Operator, Evidence, Maintainer. -/
def regRoles (x : Option Nat) : Bool := decide (x = some 0) || decide (x = some 2) || decide (x = some 3)

/-- REG_WRITE: the writes are applied in order, with the command's own selectors; stagings left over revert, and the response counts
what was applied, ignored, committed and refused (R343). -/
def execRegWrite (r : MbReq) (count : Nat) (writes : List RegW) (s : State) : Out :=
  .next (whenLive s (mailbox 0x10 r (regPayload count writes) regRoles 4 (fun s =>
    if count = 0 ∨ 335 < count ∨ writes.length ≠ count then refuseMb s r 0x10 9
    else
      let role := (sess s (r.session % 16)).role
      let q := (enumFrom 0 writes).foldl (fun (a : RegRun) (e : Nat × RegW) => regStep r.session role a e.1 e.2) { st := s }
      done_ (revert q.st q.saved) r 0x10
        (le 2 q.applied ++ le 2 q.ignored ++ le 2 q.first ++ le 2 q.commits ++ le 2 q.refused ++ le 6 0))))

/-! ## Register commands with a row of their own -/

/-- A register write of a session, or a direct one: the command of `session` reaches page `p` when its tag is open with a role that
Table 14-6 gives the page. -/
def writeBy (s : State) (session : Option Nat) (p off v : Nat) : State :=
  match session with
  | none => (writeReg .direct (directSels s) s p off v).1
  | some t => if tagOpen s t none then (writeReg (.cmd t (sess s (t % 16)).role) {} s p off v).1 else s

/-- INT_STATUS_CLEAR: a write of a register with W1C fields (R415): directly on an open page, else by a session of the page's role. -/
def execIntStatusClear (addr value : Nat) (session : Option Nat) (s : State) : Out :=
  .next (whenLive s fun s =>
    match pageAt addr with
    | some p =>
      guardOn ((fieldsAt p (addr % 0x1000)).any (fun e => decide (e.1.acc = .w1c)) && (session.isSome || memServed s)) s fun s =>
        writeBy s session p (addr % 0x1000) value
    | none => s)

/-- INT_FORCE: the chosen causes of a page are set, by a session of the page's role, or an Operator on an open page (R416). -/
def execIntForce (page bits session : Nat) (s : State) : Out :=
  .next (whenLive s fun s => guardOn (decide (page < 139)) s fun s => writeBy s (some session) page F.INT_FORCE.off (bits % 2 ^ 32))

/-- ERR_CLR: PAGE_CTRL.ERR_CLR clears the page's last error address and syndrome (R416). -/
def execErrClr (page : Nat) (session : Option Nat) (s : State) : Out :=
  .next (whenLive s fun s =>
    guardOn (decide (page < 139) && (session.isSome || memServed s)) s fun s => writeBy s session page F.PAGE_CTRL.off 1)

/-- LEASE_RENEW: a direct write of 1 to DISP_LEASE.RENEW (11 R271, R342). -/
def execLeaseRenew (s : State) : Out := .next (whenLive s fun s => guardOn (pageUp s 2 && memServed s) s renewLease)

/-- REEVE_FAULT_CLR: latched causes whose condition has ended are released (13 R316). The REEVE page is guarded: a direct write
is ignored and flagged. -/
def execReeveFaultClr (session : Option Nat) (s : State) : Out :=
  .next (whenLive s fun s => guardOn (session.isSome || memServed s) s fun s => writeBy s session 5 F.REEVE_FAULT_CLR.off 1)

/-- TRAINING_RUN: firmware writes HBMC_CH_TRAIN with GO set (10 R247). -/
def execTrainingRun (ch value : Nat) (s : State) : Out :=
  .next (whenLive s fun s =>
    guardOn (decide (ch < 16)) s fun s =>
      (writeReg .fw {} s (119 + ch) F.HBMC_CH_TRAIN_GO.off (setBit value F.HBMC_CH_TRAIN_GO.lo)).1)

/-- TRAINING_RUN_DONE: a pattern run has ended with the mismatches of the 72 lanes, each count saturating at 24 bits (10 R247). -/
def execTrainingRunDone (ch : Nat) (mism : List Nat) (s : State) : Out :=
  .next (whenLive s fun s =>
    guardOn (decide (ch < 16) && tget false s.hbm.trainRun ch) s fun s =>
      let t := (upto 72).foldl (fun t k =>
        putF t F.HBMC_CH_LANE_ERR ch 0 k (if nth 0 mism k < 2 ^ 24 then nth 0 mism k else 2 ^ 24 - 1)) s
      { t with hbm := { t.hbm with trainRun := tset false t.hbm.trainRun ch false } })

/-- A firmware commit of one page at its next-tick commit point, which passes before the command's response. -/
def passFw (s : State) (p : Nat) : State :=
  match s.rf.snaps.find? (fun x => decide (x.page = p) && x.fw) with
  | some x => commitOne s x
  | none => s

/-- REEVE_SET: pair A stages and commits the configuration of one pipeline (13 R314; Table 14-8). -/
def execReeveSet (r : MbReq) (pipe cfg age period : Nat) (s : State) : Out :=
  .next (whenLive s (mailbox 0x12 r (Config.mbPayload 0x12 [pipe, cfg, age, period]) (onlyRole 0) 4 (serviced 0 r 0x12 (fun s =>
    if 63 < pipe then refuseMb s r 0x12 9
    else
      let put (t : State) (f : Fld) (v : Nat) : State := putSh t f 0 pipe 0 v
      let s1 := [F.REEVE_CFG_EN, F.REEVE_CFG_FAULT, F.REEVE_CFG_SAFE, F.REEVE_CFG_PLAN].foldl (fun t f => put t f (f.slice cfg)) s
      let s2 := put (put s1 F.REEVE_AGE age) F.REEVE_PERIOD period
      done_ (passFw (takeSnap s2 5 true pipe 0) 5) r 0x12 []))))

/-- PLACEMENT_EDIT: a Service session gives logical cores their physical cores; the map is staged against the present generation and
committed, and is active from the next tick with no launch decision in progress (18 R421; Table 14-8). -/
def execPlacementEdit (r : MbReq) (edits : List (Nat × Nat)) (s : State) : Out :=
  .next (whenLive s (mailbox 0x61 r (Config.mbPayload 0x61 (edits.flatMap (fun e => [e.1, e.2]))) (onlyRole 4) 4 (serviced 1 r 0x61 (fun s =>
    let s1 := edits.foldl (fun t e => if e.1 < 64 then putSh t (placeStagedFld e.1) 0 0 (e.1 / 4) e.2 else t) s
    let s2 := takeSnap (putSh s1 F.SYS_PLACE_BASE 0 0 0 (reg s F.SYS_PLACE_GEN)) 0 true 0 0
    done_ s2 r 0x61 []))))

end Sys2Proof.Machine
end

