-- ==== Sys2Proof/Machine/HostIf.lean ====
section
/-!
DEFINITION. Sys2Proof/Machine/HostIf.lean: the host interface (16_host_interface.md R376 to R395, R434): how device reads end, MSI-X
and Bus Master Enable, accesses to BAR 2, BAR 4 and configuration space, FW_UPDATE (15 R364), the lease's expiry (11 R271), and
the power states D0 and D3hot.
-/

namespace Sys2Proof.Machine

/-! ## FW_UPDATE (14 R349, 15 R364) -/

/-- Pages of an image, 4,096 bytes each (15 Table 15-5). -/
def fwPages (len : Nat) : Nat := cdiv len 4096

/-- The slot that is not active, 0 FW_A or 1 FW_B. -/
def idleSlot (s : State) : Nat := 1 - s.flash.bootSlot

/-- The state with the image in a firmware slot replaced. -/
def putFwSlot (s : State) (slot : Nat) (x : Option FwImage) : State :=
  if slot = 0 then { s with flash := { s.flash with slotA := x } } else { s with flash := { s.flash with slotB := x } }

/-- The good blocks of a firmware slot that the image goes to: those with the lowest erase counts (15 R368). -/
def fwBlocks (s : State) (part n : Nat) : List Nat :=
  let g := (rangeFrom (partition part).1 (partition part).2.1).filter (fun b => decide ((fblock s b).bad = 0))
  let e (b : Nat) : Nat := (fblock s b).erases + (if (fblock s b).pages = 0 then 0 else 1)
  (sortBy (fun a b => decide (e a < e b)) g).take n

/-- The flash operations of steps 3 to 5 of R364: the slot is erased, programmed, read back, and a boot record is programmed. -/
def fwOps (s : State) (len : Nat) : List FlashOp :=
  let part := 1 + idleSlot s
  let n := fwPages len
  let bs := fwBlocks s part (cdiv n 64)
  let used := (rangeFrom (partition part).1 (partition part).2.1).filter (fun b =>
    decide ((fblock s b).bad = 0) && decide ((fblock s b).pages ≠ 0))
  let at_ (k : FlashKind) (i : Nat) : FlashOp := { kind := k, use := .fwImage, block := nth 0 bs (i / 64), page := i % 64 }
  used.flatMap (fun b => journalled [{ kind := .erase, use := .blockErase, block := b }]) ++
    journalled ((upto n).map (at_ .program) ++ (upto n).map (at_ .read)) ++ journalled [{ kind := .program, use := .bootRecord }]

/-- FW_UPDATE ends without effect, with a status and a reason. -/
def fwEnds (s : State) (x : FwUpdate) (status reason : Nat) : State :=
  reply_ { s with sec := { s.sec with fwUpdate := none } } x.req 0x50 status reason []

/-- The firmware image has been read, or could not be (R364 steps 1 and 2; Table 16-5). The reason for a signature that does not verify
is not stated: a free value (log entry 44). -/
def gotFwImage (s : State) (ok : Bool) : State :=
  match s.sec.fwUpdate with
  | none => s
  | some x =>
    if !ok then fwEnds s x 0x303 0
    else if !x.img.sigOk then
      let (v, t) := fresh s
      fwEnds t x 0x204 (v % 256)
    else if x.img.svn < (sess s (x.req.session % 16)).minSvn then fwEnds s x 0x204 6
    else
      let t := { s with sec := { s.sec with fwUpdate := some { x with fetched := true } } }
      queueOps t (fwOps t x.len)

/-- What a flash operation that has succeeded means for the firmware slots: an erased slot holds no image, a programmed one holds the new
image, and a boot record makes it the active one from the next boot (R364). -/
def fwStep (o : FlashOp) (s : State) : State :=
  if o.kind = .erase ∧ o.use = .blockErase ∧ partOf o.block = 1 + idleSlot s then putFwSlot s (idleSlot s) none
  else if o.kind ≠ .program then s
  else
    match o.use, s.sec.fwUpdate with
    | .fwImage, some x =>
      if s.flash.ops.any (fun p => decide (p.use = .fwImage) && decide (p.kind = .program)) then s
      else putFwSlot s (idleSlot s) (some x.img)
    | .bootRecord, u =>
      let t := { s with flash := { s.flash with bootSlot := idleSlot s, bootSeq := s.flash.bootSeq + 1 } }
      match u with
      | some x => fwEnds t x 0 0
      | none => t
    | _, _ => s

/-- FLASH_OPERATION_DONE: the operation issued by pair B completes, or fails and is made on another block (15 R364, R367, R372; 16
R393). -/
def execFlashOperationDone (ok : Bool) (s : State) : Out :=
  .next (whenLive s fun s =>
    match s.flash.ops with
    | [] => s
    | o :: _ => if ok then fwStep o (flashDone ok s) else flashDone ok s)

/-- FW_UPDATE: pair B reads the image, and then carries the update out (R349, R364). -/
def execFwUpdate (r : MbReq) (addr len : Nat) (img : FwImage) (s : State) : Out :=
  .next (whenLive s (mailbox 0x50 r (Config.mbPayload 0x50 [addr, len]) (onlyRole 3) 4 (stored (1 + idleSlot s) r 0x50 (fun s =>
    if len = 0 ∨ 294912 < len then refuseMb s r 0x50 9
    else
      match startRead s .fwImage addr len false with
      | some t => setR { t with sec := { t.sec with fwUpdate := some { req := r, img := img, len := len } } } F.SEC_MB_STATE_STATE 1
      | none => reply_ (addR s F.PCIE_READ_FAILS 1) r 0x50 0x303 0 []))))

/-! ## How a device read ends (R383, R434, Table 16-5) -/

/-- What the reading block does when its read has failed. -/
def readFailed (s : State) (k : ReadKind) : State :=
  match k with
  | .ledgerPidx => endPoll (addR s F.DISP_FETCH_TIMEOUTS 1)
  | .ledgerEntries first n => gotEntries s first n none
  | .inputBlock i => settle (modItem s i (fun x => { x with inputF := .failed }))
  | .perturb i => settle (modItem s i (fun x => { x with perturbF := .failed }))
  | .intakePidx n => modSlot s n (fun x => { x with pidxPending := false })
  | .intakeDesc n _ => modSlot s n (fun x => { x with descPending := 0 })
  | .auBytes n => gotAu s n true []
  | .planImage => gotPlanImage s false
  | .fwImage => gotFwImage s false
  | .relayPidx => addR s F.DISP_FETCH_TIMEOUTS 1
  | .relayDesc _ => addR s F.DISP_FETCH_TIMEOUTS 1
  | .relayUnit => addR s F.DISP_FETCH_TIMEOUTS 1

/-- What the reading block does with its data. -/
def readDone (s : State) (k : ReadKind) (b : List Byte) : State :=
  match k with
  | .ledgerPidx => gotLedgerPidx s (unle (b.take 4))
  | .ledgerEntries first n => gotEntries s first n (some b)
  | .inputBlock i => settle (modItem s i (fun x => { x with inputF := .done, inputB := b }))
  | .perturb i => settle (modItem s i (fun x => { x with perturbF := .done, perturbB := b }))
  | .intakePidx n => gotIntakePidx s n (unle (b.take 4))
  | .intakeDesc n m => gotDescs s n m b
  | .auBytes n => gotAu s n false b
  | .planImage => gotPlanImage s true
  | .fwImage => gotFwImage s true
  | .relayPidx => gotRelayPidx s (unle (b.take 4))
  | .relayDesc m => gotRelayDescs s m b
  | .relayUnit => gotRelayUnit s

/-- A read leaves the table; completions of its other requests will be discarded. -/
def dropRead (s : State) (r : HostRead) (tag : Option Nat) : State :=
  { s with pcie := { s.pcie with
    reads := s.pcie.reads.filter (fun (x : HostRead) => decide (x.id ≠ r.id)),
    dropTags := s.pcie.dropTags ++ (r.reqs.filter (fun q => q.data.isNone && decide (some q.tag ≠ tag))).map (fun q => q.tag) } }

/-- A read fails, in the tick its first request fails; `tag` is that request's, or none for one that could not be issued. -/
def failRead (s : State) (r : HostRead) (tag : Option Nat) : State :=
  readFailed (addR (dropRead s r tag) F.PCIE_READ_FAILS 1) r.kind

/-- Reads that wait for tags issue further requests; one that falls due while the device may issue none fails (R382, R434). -/
def pumpReads (s : State) : State :=
  s.pcie.reads.foldl (fun t (r : HostRead) =>
    match t.pcie.reads.find? (fun x => decide (x.id = r.id)) with
    | some x => if x.len ≤ x.next ∨ (freeTag t).isNone then t else if t.mayRead then issueRead x.id 257 t else failRead t x none
    | none => t) s

/-- The outstanding read and request of a tag. -/
def reqOf (s : State) (tag : Nat) : Option (HostRead × Req) :=
  match s.pcie.reads.find? (fun r => r.reqs.any (fun q => decide (q.tag = tag) && q.data.isNone)) with
  | some r => (r.reqs.find? (fun q => decide (q.tag = tag) && q.data.isNone)).map (fun q => (r, q))
  | none => none

/-- A dropped tag is free again. -/
def freeDropped (s : State) (tag : Nat) : State := { s with pcie := { s.pcie with dropTags := s.pcie.dropTags.erase tag } }

/-- The data of request `q` of read `r` have arrived. -/
def gotData (s : State) (r : HostRead) (q : Req) (b : List Byte) : State :=
  let r1 := { r with reqs := r.reqs.map (fun (x : Req) => if x.tag = q.tag ∧ x.data.isNone then { x with data := some b } else x) }
  if r1.len ≤ r1.next ∧ r1.reqs.all (fun x => x.data.isSome) then
    readDone (dropRead s r1 none) r.kind (r1.reqs.flatMap (fun x => x.data.getD []))
  else
    { s with pcie := { s.pcie with reads := s.pcie.reads.map (fun (x : HostRead) => if x.id = r.id then r1 else x) } }

/-- COMPLETION_RECEIVED: a completion returns a request's data, or fails its read; one of a dropped read is discarded, and any other is
an unexpected completion (R383, R384, R434). -/
def execCompletionReceived (tag : Nat) (status : CplStatus) (bytes : List Byte) (s : State) : Out :=
  .next (whenLive s fun s =>
    match reqOf s tag with
    | none => if s.pcie.dropTags.contains tag then pumpReads (freeDropped s tag) else aer s .unexpectedCompletion
    | some (r, q) =>
      pumpReads (match status with
        | .ok => if r.keep && decide (bytes.length ≠ q.len) then failRead (aer s .malformed) r (some tag) else gotData s r q bytes
        | .ur => failRead s r (some tag)
        | .ca => failRead s r (some tag)
        | .poisoned => failRead (aer s .poisonedTlp) r (some tag)
        | .malformed => failRead (aer s .malformed) r (some tag)))

/-- COMPLETION_TIMEOUT: a request's timer, of PCIE_CTO microseconds from its issue, has expired (R383, R434). -/
def execCompletionTimeout (tag : Nat) (s : State) : Out :=
  .next (whenLive s fun s =>
    match reqOf s tag with
    | none => if s.pcie.dropTags.contains tag then pumpReads (freeDropped s tag) else s
    | some (r, q) =>
      guardOn (decide (q.issued + usTicks (reg s F.PCIE_CTO) ≤ s.now)) s fun s =>
        pumpReads (failRead (addR (aer s .completionTimeout) F.PCIE_CPL_TIMEOUTS 1) r (some tag)))

/-! ## MSI-X and Bus Master Enable (R382, R385) -/

/-- A vector whose pending bit is set sends its message once nothing holds it back. -/
def flushVector (s : State) (v : Nat) : State :=
  let e := tget ({} : MsixEnt) s.pcie.msix v
  if s.pcie.pba.testBit v && s.pcie.msixEn && !s.pcie.fnMask && !e.mask && s.canIssue then
    emit (setPba s v false) (.msix v e.addr e.data)
  else s

/-- Every vector. -/
def flushVectors (s : State) : State := (upto 64).foldl flushVector s

/-- The mask bit of a vector. -/
def maskVector (s : State) (v : Nat) (m : Bool) : State :=
  { s with pcie := { s.pcie with msix := tmod {} s.pcie.msix v (fun (e : MsixEnt) => { e with mask := m }) } }

/-- MSIX_UNMASK: a vector is unmasked; with its PBA bit set one message is sent and the bit cleared (R385). -/
def execMsixUnmask (vector : Nat) (s : State) : Out :=
  .next (whenLive s fun s => guardOn (decide (vector < 64) && memServed s) s fun s => flushVector (maskVector s vector false) vector)

/-- The device may issue requests again: held messages, records and the consumer index go out, and reads go on. -/
def resumeIssue (s : State) : State :=
  let s1 := flushVectors s
  let s2 := (upto 16).foldl (fun t k => if ringEn t k then drain t k else t) s1
  pumpReads (if s2.disp.cidxHeld then writeCidx s2 else s2)

/-- BUS_MASTER_ENABLE_SET (R382). -/
def execBusMasterEnableSet (s : State) : Out :=
  .next (whenLive s fun s => guardOn (!s.pcie.bme) s fun s => resumeIssue { s with pcie := { s.pcie with bme := true } })

/-- BUS_MASTER_ENABLE_CLEAR: no request is issued from now on; a read with a request still to be issued fails (R382, R434). -/
def execBusMasterEnableClear (s : State) : Out :=
  .next (whenLive s fun s => pumpReads { s with pcie := { s.pcie with bme := false } })

/-! ## BAR 2, BAR 4 and configuration space (R380, R381; log entry 7) -/

/-- A 32-bit write of dword `d` of the MSI-X table (entry d / 4): address, upper address, data, vector control. -/
def msixWrite (s : State) (d v : Nat) : State :=
  let n := d / 4
  let put (f : MsixEnt → MsixEnt) : State := { s with pcie := { s.pcie with msix := tmod {} s.pcie.msix n f } }
  match d % 4 with
  | 0 => put (fun e => { e with addr := e.addr / 2 ^ 32 * 2 ^ 32 + v })
  | 1 => put (fun e => { e with addr := e.addr % 2 ^ 32 + v * 2 ^ 32 })
  | 2 => put (fun e => { e with data := v })
  | _ => flushVector (put (fun e => { e with mask := v.testBit 0 })) n

/-- A write to BAR 4: aligned dwords and quadwords of the table; the PBA is read-only. -/
def bar4Write (s : State) (addr size v : Nat) : State :=
  if addr + size ≤ 1024 ∧ size = 4 ∧ addr % 4 = 0 then msixWrite s (addr / 4) (v % 2 ^ 32)
  else if addr + size ≤ 1024 ∧ size = 8 ∧ addr % 8 = 0 then
    msixWrite (msixWrite s (addr / 4) (v % 2 ^ 32)) (addr / 4 + 1) (v / 2 ^ 32 % 2 ^ 32)
  else s

/-- Bytes of the request buffer, written from `addr` on. -/
def reqPut : Nat → List Byte → Tbl Byte → Tbl Byte
  | _, [], t => t
  | a, b :: r, t => reqPut (a + 1) r (tset 0 t a b)

/-- A write to BAR 2: 1 to 64 bytes within 64 reach the request buffer, which cannot be written while the mailbox is busy; every
other write is ignored (R381, 14 R334). -/
def bar2Write (s : State) (addr size v : Nat) : State :=
  if addr < 0x1000 ∧ 1 ≤ size ∧ size ≤ 64 ∧ addr % 64 + size ≤ 64 then
    if reg s F.SEC_MB_STATE_STATE = 1 then violation s 7
    else { s with sec := { s.sec with reqBuf := reqPut addr (le size v) s.sec.reqBuf } }
  else s

/-- Upper end, in microseconds, of the completion timeout range that Device Control 2 selects (R383). -/
def ctoMicros (v : Nat) : Nat :=
  match v with
  | 1 => 100
  | 2 => 10000
  | 5 => 55000
  | 6 => 210000
  | 9 => 900000
  | 10 => 3500000
  | 13 => 13000000
  | 14 => 64000000
  | _ => 50000

/-- Power of two that a payload or request size field codes. -/
def sizeOfCode (c : Nat) : Nat := 128 * 2 ^ c

/-- Bits of `v` among those of `m`. -/
def onlyBits (v m : Nat) : Nat := v &&& m

/-- Bits written as 1 are cleared. -/
def clearOnes (v w : Nat) : Nat := v ^^^ (v &&& w)

/-- A write to the AER capability: status bits clear where 1 is written, and with the bit of the error whose header is logged the header
log is free; masks and severities are those written (R384; log entry 124). -/
def aerWrite (p : PcieS) (addr v : Nat) : PcieS :=
  if addr = 0x104 then
    let gone := ((p.aerFirst.bind (fun n => p.aer[n]?)).map (fun e => v.testBit e.bit)).getD false
    { p with aerStatus := clearOnes p.aerStatus v, aerFirst := if gone then none else p.aerFirst }
  else if addr = 0x108 then { p with aerMask := onlyBits v 0x5F7010 }
  else if addr = 0x10C then { p with aerSeverity := onlyBits v 0x5F7010 }
  else if addr = 0x110 then { p with aerCor := clearOnes p.aerCor v }
  else if addr = 0x114 then { p with aerCorMask := onlyBits v 0x71C1 }
  else p

/-- A 32-bit write to configuration space: Memory Space Enable, PME_En, MSI-X Enable and Function Mask, the sizes, the completion
timeout, the base addresses (sizes of Table 16-4), the AER registers. Bus Master Enable, PowerState, PME_Status and Initiate FLR have commands of their own. -/
def cfgWrite (s : State) (addr v : Nat) : State :=
  if addr = 0x04 then { s with pcie := { s.pcie with memSpace := v.testBit 1 } }
  else if 0x10 ≤ addr ∧ addr ≤ 0x24 then
    let i := (addr - 0x10) / 4
    let low := nth 0 [2 ^ 26, 1, 2 ^ 24, 1, 2 ^ 14, 1] i
    { s with pcie := { s.pcie with bars := tset 0 s.pcie.bars i (v / low * low) } }
  else if addr = 0x44 then { s with pcie := { s.pcie with pmeEn := v.testBit 8 } }
  else if addr = 0x50 then flushVectors { s with pcie := { s.pcie with msixEn := v.testBit 31, fnMask := v.testBit 30 } }
  else if addr = 0x78 then
    let a := bitsOf v 7 5
    let b := bitsOf v 14 12
    { s with pcie := { s.pcie with
      maxPayload := sizeOfCode (if a < 2 then a else 2)
      maxRead := sizeOfCode (if b < 5 then b else 5) } }
  else if addr = 0x98 then
    setR { s with pcie := { s.pcie with ctoSel := v % 16 } } F.PCIE_CTO (ctoMicros (v % 16))
  else if 0x104 ≤ addr ∧ addr ≤ 0x114 then { s with pcie := aerWrite s.pcie addr v }
  else s

/-- REGISTER_WRITE: a write of host software to a BAR or to configuration space, or of firmware to a register page (01 R16, 16
R381). -/
def execRegisterWrite (by_ : Writer) (space : Space) (addr size value : Nat) (s : State) : Out :=
  .next (whenLive s fun s =>
    match by_, space with
    | .none, _ => s
    | .fw, .bar0 =>
      match pageAt addr with
      | some p => if addr % 4 = 0 ∧ size = 4 then (writeReg .fw (directSels s) s p (addr % 0x1000) (value % 2 ^ 32)).1 else s
      | none => s
    | .fw, _ => s
    | .host, .cfg => if flag s F.PCIE_LINK_STATE && decide (addr % 4 = 0) && decide (size = 4) then cfgWrite s addr (value % 2 ^ 32) else s
    | .host, .bar0 =>
      if !memServed s then aer s .unsupportedRequest
      else if addr % 4 ≠ 0 ∨ size ≠ 4 then addR s F.PCIE_BAD_ACCESS 1
      else
        match pageAt addr with
        | some p => (writeReg .direct (directSels s) s p (addr % 0x1000) (value % 2 ^ 32)).1
        | none => s
    | .host, .bar2 => if !memServed s then aer s .unsupportedRequest else bar2Write s addr size value
    | .host, .bar4 => if !memServed s then aer s .unsupportedRequest else bar4Write s addr size value)

/-! ## The lease's expiry (11 R271) -/

/-- The plan of an item is AUTONOMOUS and pinned. -/
def isAuto (s : State) (i : Item) : Bool := (imgOf s i.e).hdr.autonomous

/-- LEASE_EXPIRY: at the expiry tick polling stops, every ring and the ledger are disabled, queued pooled entries and queued pinned
entries of other plans are refused, sessions close and encoders stop. Launched items run on (R271). -/
def execLeaseExpiry (s : State) : Out :=
  .next (whenLive s fun s =>
    match s.disp.leaseEnd with
    | none => s
    | some t =>
      guardOn (leaseRuns s && decide (t ≤ s.now)) s fun s =>
        let s1 := endPoll (dropReads s (fun k => decide (k = .ledgerPidx)))
        let s2 := putBoth ((upto 16).foldl (fun t k => if ringEn t k then disableRing t k else t) s1) F.DISP_LEDGER_CFG_EN 0 0 0 0
        let s3 := setR (setR { s2 with disp := { s2.disp with leaseEnd := none } } F.DISP_LEASE_EXPIRED 1) F.SYS_STATUS_LEASE 0
        let s4 := endItems s3 (fun i => !i.launched && !i.golden && !isAuto s i) 0x204
        raiseInt ((upto 2).foldl stopEncoder (closeAllAfter s4)) 2 2)

/-! ## Link and power states (R379, R390 to R393) -/

/-- PCIE_LINK_UP: link training completes and the link is in L0 (R379). -/
def execPcieLinkUp (speed width : Nat) (s : State) : Out :=
  .next (whenLive s fun s =>
    guardOn (decide (1 ≤ speed) && decide (speed ≤ 5) && [1, 2, 4, 8].contains width && decide (reg s F.PCIE_LINK_STATE ≤ 1)) s fun s =>
      setR (setR (setR s F.PCIE_LINK_SPEED speed) F.PCIE_LINK_WIDTH width) F.PCIE_LINK_STATE 2)

/-- D3HOT_ENTRY: polling, intake reading and relay stop, the lease is suspended, queued entries are refused; encoders stop at their next
picture boundary. Without watch mode, once no launched item is left, the Granary banks are switched off and firmware commits self-
refresh (R391, R392; 10 R244). -/
def execD3hotEntry (s : State) : Out :=
  .next (whenLive s fun s =>
    guardOn (s.d0 && flag s F.PCIE_LINK_STATE) s fun s =>
      let s1 := setR (setR s F.PCIE_POWER_DSTATE 3) F.PCIE_POWER_WATCH (reg s F.PCIE_WATCH_EN)
      let s2 := endPoll (dropReads s1 (fun k => match k with
        | .ledgerPidx => true
        | .intakePidx _ => true
        | .intakeDesc _ _ => true
        | .relayPidx => true
        | .relayDesc _ => true
        | .relayUnit => true
        | _ => false))
      let s3 := { s2 with
        disp := { s2.disp with leaseSuspended := s2.disp.leaseEnd.isSome }
        strm := { s2.strm with slots := s2.strm.slots.map (fun (e : Nat × SlotS) => (e.1, { e.2 with pidxPending := false, descPending := 0 })) } }
      let s4 := endItems s3 (fun i => !i.launched && !i.golden) 0x204
      let s5 := (upto 2).foldl (fun t e => if (enc_ t e).started then t else stopEncoder t e) s4
      let s6 := d3Settle s5
      if flag s6 F.PCIE_POWER_WATCH || s6.disp.items.any (fun i => i.launched) || flag s6 F.HBMC_SREF then s6
      else enterSref (putBoth s6 F.HBMC_SREF 0 0 0 1))

/-- The banks that D3hot switched off power up again (R391, 09 R223). -/
def banksUp (s : State) : State :=
  (upto 8).foldl (fun t k => refreshDark ((upto 17).foldl (fun u b =>
    let d := 72 + 17 * k + b
    if (regI u F.CLU_BANK_PWR k).testBit b && !(regI u F.CLU_BANK_FORCE k).testBit b && (clu u k).offBanks.testBit b then switchOn u d
    else u) t) k) s

/-- The function is in D0 again: banks power up, self-refresh is left, the lease restarts in full, polling resumes (R390, R391). -/
def toD0 (s : State) : State :=
  if s.d0 then s
  else
    let s1 := setR (setR s F.PCIE_POWER_DSTATE 0) F.PCIE_POWER_WATCH 0
    let s2 := banksUp s1
    let s3 := if flag s2 F.HBMC_SREF then exitSref (putBoth s2 F.HBMC_SREF 0 0 0 0) else s2
    if s3.disp.leaseSuspended then startLease { s3 with disp := { s3.disp with leaseSuspended := false } } else s3

/-- D0_RETURN (R390, R391). -/
def execD0Return (s : State) : Out :=
  .next (whenLive s fun s => guardOn (!s.d0) s fun s => resumeIssue (toD0 s))

/-- PME_TURN_OFF: launching stops; PME_TO_Ack is sent once the flash operation in progress has ended (R393). -/
def execPmeTurnOff (s : State) : Out :=
  .next (whenLive s fun s =>
    let s1 := { s with pcie := { s.pcie with turnedOff := true } }
    if s1.flash.ops.isEmpty then setR (emit s1 .pmeToAck) F.PCIE_LINK_STATE 6
    else { s1 with pcie := { s1.pcie with ackPending := true } })

/-- PME_STATUS_CLEAR: the host clears PME_Status, and WAKE_N is released (R393). -/
def execPmeStatusClear (s : State) : Out :=
  .next (whenLive s fun s =>
    setR { s with pcie := { s.pcie with pmeStatus := false }, power := { s.power with wakeN := false } } F.PCIE_POWER_WAKE 0)

end Sys2Proof.Machine
end

