-- ==== Sys2Proof/Machine/Boot.lean ====
section
/-!
DEFINITION. Sys2Proof/Machine/Boot.lean: the fundamental resets and the boot after them (15_management_firmware_and_storage.md R361, R362,
R371, R375; 17_power_clocks_and_reset.md R401 to R409; 10_hbm_controller.md R248, R249). The boot sequence is made in one step
(log entry 30).
-/

namespace Sys2Proof.Machine

/-! ## Fundamental resets (16 Table 16-7, 17 Table 17-5) -/

/-- Fields of the always-on domain, which a fundamental reset keeps: the cause registers, the sensors and their comparators. -/
def aonFields : List Fld :=
  [F.CLK_LOSS, F.PWR_RESET_CAUSE, F.THERM_TEMP_DEG, F.THERM_TEMP_MAX, F.THERM_STATE_WARN, F.THERM_STATE_CRIT, F.THERM_STATE_HOT]

/-- THERM_WARN and THERM_CRIT of the server grade (Table 17-6). -/
def gradeLevels (s : State) : State :=
  if s.gradeSC then setR (putBoth s F.THERM_WARN 0 0 0 100) F.THERM_CRIT 110 else s

/-- What the flash holds for the management plane outlives every reset: the disabled-unit map, the fault journal, the boot count, BASE
and the wear baselines, the power-on rounds. -/
def MgmtS.stored (m : MgmtS) (rounds : Nat) : MgmtS :=
  { fjAll := m.fjAll, fjNext := m.fjNext, dum := m.dum, dumSeq := m.dumSeq, bootCount := m.bootCount, rounds := rounds, vidBase := m.vidBase,
    ageBase := m.ageBase, firstService := m.firstService }

/-- Everything but the always-on domain and what is not volatile is lost; the always-on registers stay when `aon` holds. -/
def fundamental (s : State) (aon : Bool) (p : PowerS) : State :=
  gradeLevels
    { pending := s.pending
      freeCtr := s.freeCtr
      gradeSC := s.gradeSC
      serial := s.serial
      rf := { live := if aon then tfilter (fun k => aonFields.any (fun f => decide (f.id = keyId k))) s.rf.live else [] }
      power := p
      pcie := { out := s.pcie.out }
      hbm := { spareRows := s.hbm.spareRows }
      sec := { flashRole := s.sec.flashRole, flashModel := s.sec.flashModel, lostRoles := s.sec.lostRoles }
      mgmt := s.mgmt.stored (roundNow s)
      flash := s.flash }

/-- The always-on domain's power state in a fundamental reset: every switched domain off, XSPI_CS_N high, WAKE_N released, FAULT_N
asserted (R402, 16 R393); a flash operation in progress is interrupted. -/
def resetPower (s : State) (perst hold : Bool) : PowerS :=
  { perst := perst
    clkHold := hold
    testEn := s.power.testEn
    smbAddr := s.power.smbAddr
    smbAlert := s.power.smbAlert || !flag s F.REEVE_FAULT_ASSERTED }

/-- VDD_AON_POWER_ON: the always-on domain comes up, PERST_N asserted; the straps are sampled (R401, R409; 19 R426, R429). -/
def execVddAonPowerOn (sc : Bool) (serial : Nat) (testEn : Bool) (smbAddr : Nat) (s : State) : Out :=
  .next (guardOn (!s.power.vddAon) s fun s =>
    gradeLevels { s with gradeSC := sc, serial := serial % 2 ^ 64, power := { testEn := testEn, smbAddr := smbAddr % 4 } })

/-- VDD_AON_POWER_LOSS: with VDD_AON everything volatile is lost (R402, R409). -/
def execVddAonPowerLoss (s : State) : Out :=
  .next (guardOn s.power.vddAon s fun s =>
    { fundamental s false { vddAon := false, smbAlert := false } with rf := {} })

/-- PERST_N_ASSERT: a fundamental reset; one that ends a clock-loss hold keeps that cause (R402, R408, R409). -/
def execPerstNAssert (s : State) : Out :=
  .next (guardOn (s.power.vddAon && !s.power.perst) s fun s =>
    let t := fundamental s true (resetPower s true s.power.clkHold)
    if s.power.clkHold then t else setR t F.PWR_RESET_CAUSE 1)

/-! ## Records and keys (15 R371, Table 15-8; 14 R331, R349, R352) -/

/-- Every copy of a record is unreadable. -/
def FRec.lost (r : FRec) : Bool := decide (r.blockA = 4096) && decide (r.blockB = 4096)

/-- A lost record's consequence (Table 15-8). -/
def loseRecord (s : State) (r : FRec) : State :=
  let s1 := fwEvent s 0x8005 r.ty
  match r.ty with
  | 1 => { s1 with mgmt := { s1.mgmt with dum := [] } }
  | 3 => { s1 with flash := { s1.flash with softRows := [] } }
  | 5 => { s1 with sec := { s1.sec with
      flashRole := tset none s1.sec.flashRole r.key none
      lostRoles := setBit s1.sec.lostRoles r.key } }
  | 6 => { s1 with sec := { s1.sec with flashModel := s1.sec.flashModel.filter (fun k => decide (k.1 ≠ r.key)) } }
  | 7 => { s1 with mgmt := { s1.mgmt with firstService := false, vidBase := 0, ageBase := [] } }
  | 8 => { s1 with mgmt := { s1.mgmt with rounds := 0 } }
  | _ => s1

/-- The configuration records are read; those lost are gone. -/
def bootRecords (s : State) : State :=
  let gone := s.flash.recs.filter (fun r => r.lost)
  gone.foldl loseRecord { s with flash := { s.flash with recs := s.flash.recs.filter (fun r => !r.lost) } }

/-- The configuration partition holds a readable record of the type and key. -/
def hasRec (s : State) (ty key : Nat) : Bool := s.flash.recs.any (fun r => decide (r.ty = ty) && decide (r.key = key) && !r.lost)

/-- The device root is reconstructed and the keys are unwrapped, or not (R331). -/
def bootKeys (s : State) (ok : Bool) : State :=
  if ok && hasRec s 4 0 then
    refreshRoles (setR (setR { s with sec := { s.sec with roleKeys := s.sec.flashRole, modelKeys := s.sec.flashModel } } F.SEC_STATE_PUF_OK 1)
      F.SEC_STATE_KEYS_READY 1)
  else fwEvent (refreshRoles s) 0x8004 0

/-- The slot that is booted: the active one, or, where it does not verify, the other (R361). -/
def bootSlotOf (s : State) : Option (Nat × FwImage × Bool) :=
  let at_ (k : Nat) : Option FwImage := (if k = 0 then s.flash.slotA else s.flash.slotB).filter (fun i => i.sigOk)
  let a := s.flash.bootSlot
  match at_ a, at_ (1 - a) with
  | some i, _ => some (a, i, false)
  | none, some i => some (1 - a, i, true)
  | none, none => none

/-- The image runs: its version, interface and SVN show, the leaf counter starts at the persisted end, the fault journal's numbers and the
flash's registers follow. -/
def bootImage (s : State) (slot : Nat) (i : FwImage) (fallback : Bool) : State :=
  let s1 := setR (setR (setR s F.MGMT_BOOT_SLOT slot) F.MGMT_BOOT_FALLBACK (bnat fallback)) F.MGMT_FW_VERSION i.version
  let s2 := setR (setR (setR (setR s1 F.SEC_IFACE_IFACE i.iface) F.SEC_IFACE_SVN i.svn) F.SEC_XMSS s1.flash.xmssEnd) F.SEC_XMSS_END s1.flash.xmssEnd
  let s3 := setR (setR s2 F.MGMT_FJ_FIRST (((s2.mgmt.fjAll.head?).map (fun e => e.number)).getD 0)) F.MGMT_FJ_NEXT
    ((s2.mgmt.fjAll.getLast?.map (fun e => e.number + 1)).getD 0)
  let s4 := setR (setR (setR s3 F.MGMT_STATE_PAIR_A 1) F.MGMT_STATE_PAIR_B 1) F.FLASH_STATE_MODE 2
  let s5 := fwEvent s4 0x8001 i.version
  refreshFlash (flashReplay (if fallback then fwEvent s5 0x8008 slot else s5))

/-! ## The disabled-unit map at boot (R374, R375) -/

/-- A field of 5 bits of the bank map replaced. -/
def placeBank (s : State) (k b p : Nat) : State :=
  let f := if b < 6 then F.CLU_BANK_MAP_0 else if b < 12 then F.CLU_BANK_MAP_1 else F.CLU_BANK_MAP_2
  let w := regI s f k
  putBoth s f k 0 0 (w - w / 32 ^ (b % 6) % 32 * 32 ^ (b % 6) + p * 32 ^ (b % 6))

/-- One entry of the map is applied; a cluster out of service is left out here. -/
def applyEntry (s : State) (e : DumEntry) : State :=
  match e.kind with
  | 1 => setI s F.CORE_STATE_STATE e.unit 6
  | 2 => setI (putBoth s F.CORE_PSUM_MASK e.unit 0 0 e.value) F.CORE_BIN_CAP_PSUM_TILES e.unit
      ((upto 16).filter (fun b => !e.value.testBit b)).length
  | 3 => modClu s e.unit (fun c => { c with retiredBanks := setBit c.retiredBanks e.sub })
  | 4 => modClu s e.unit (fun c => { c with retiredUnits := tset 0 c.retiredUnits e.sub (setBit (tget 0 c.retiredUnits e.sub) e.value) })
  | 5 => placeBank s e.unit e.sub e.value
  | 7 =>
    let f := if e.sub / 8 = 0 then F.HBMC_CH_LANE_PC0 else F.HBMC_CH_LANE_PC1
    let w := regI s f e.unit
    putBoth s f e.unit 0 0 (w - w / 16 ^ (e.sub % 8) % 16 * 16 ^ (e.sub % 8) + e.value % 16 * 16 ^ (e.sub % 8))
  | 8 =>
    { s with hbm := { s.hbm with withheld := s.hbm.withheld ++ [withheldRow e] } }
  | _ => s

/-- The map holds an entry of the kind for the unit. -/
def dumHas (s : State) (kind unit : Nat) : Bool := s.mgmt.dum.any (fun e => decide (e.kind = kind) && decide (e.unit = unit))

/-- Entries join the map. -/
def addDum (s : State) (l : List DumEntry) : State :=
  { s with mgmt := { s.mgmt with dum := l.foldl putDum s.mgmt.dum } }

/-- What the boot test found (R362, R375): cores and decode cores are retired; a failing bank is retired and the spare placed in its
stead. -/
def testEntries (s : State) (b : BootIn) : List DumEntry :=
  (b.badCores.filter (fun p => decide (p < 72))).map (fun p => { kind := 1, unit := p, sub := 0, value := 0 }) ++
  (b.badDecs.filter (fun d => decide (d < 9))).map (fun d => { kind := 6, unit := d, sub := 0, value := 0 }) ++
  (b.badBanks.filter (fun x => decide (x.1 < 8) && decide (x.2 < 17))).flatMap (fun x =>
    { kind := 3, unit := x.1, sub := x.2, value := 0 } ::
      (match logicalOf s x.1 x.2, spareBank s x.1 with
       | some l, some q => [{ kind := 5, unit := x.1, sub := l, value := q }]
       | _, _ => []))

/-- The map and the boot test: failures are added, and a changed or lost map is written (R375, Table 15-8). -/
def bootMap (s : State) (b : BootIn) : State :=
  let s1 := s.mgmt.dum.foldl applyEntry s
  let l := (testEntries s1 b).filter (fun e => !s1.mgmt.dum.contains e)
  let s2 := l.foldl applyEntry (addDum s1 l)
  if l.isEmpty && (hasRec s 1 0 || decide (s.mgmt.dumSeq = 0)) then s2
  else writeRecord { s2 with mgmt := { s2.mgmt with dumSeq := s2.mgmt.dumSeq + 1 } } 1 0

/-! ## Voltage trim (17 R404, R405) -/

/-- Cores that are not retired. -/
def liveCores (s : State) : List Nat := (upto 72).filter (fun p => decide (regI s F.CORE_STATE_STATE p ≠ 6))

/-- The lowest VID code at which a core's replica passes; above 40 where it passes at none. -/
def replicaOf (b : BootIn) (p : Nat) : Nat := nth 27 b.replica p

/-- The lowest code at which every replica passes, and 3 above it. -/
def trimOf (s : State) (b : BootIn) : Nat := maxOf ((liveCores s).map (replicaOf b)) + 3

/-- The code committed for `t`: never above BASE + 6 or 40, nor below 20, the lowest that the trim range holds. -/
def clampTrim (base t : Nat) : Nat :=
  let c := minOf (base + 6) [t, 40]
  if c < 20 then 20 else c

/-- VDD_CORE is trimmed; where the clamp applies, the cores whose replicas fail at the committed code − 3 are retired (R405). -/
def bootTrim (s : State) (b : BootIn) : State :=
  let t := trimOf s b
  let base := if s.mgmt.firstService then s.mgmt.vidBase else (if t < 34 then t else 34)
  let c := clampTrim base t
  let bad := if c < t then (liveCores s).filter (fun p => decide (c - 3 < replicaOf b p)) else []
  let s1 := addDum (bad.foldl (fun u p => setI u F.CORE_STATE_STATE p 6) s)
    (bad.map (fun p => { kind := 1, unit := p, sub := 0, value := 0 }))
  let s2 := if bad.isEmpty then s1 else writeRecord { s1 with mgmt := { s1.mgmt with dumSeq := s1.mgmt.dumSeq + 1 } } 1 0
  let c2 := if bad.isEmpty then c else clampTrim base (trimOf s2 b)
  let s3 := setR (putBoth { s2 with mgmt := { s2.mgmt with vidBase := base } } F.PWR_TRIM_CODE 0 0 0 c2) F.PWR_TRIM_BASE base
  setR (setR s3 F.PWR_TRIM_RESERVE_MV (5 * (c2 - base))) F.PWR_VCORE b.mv

/-! ## HBM bring-up (10 R231, R248, R249; 15 Table 15-4) -/

/-- A channel's stored training record. -/
def trainRec (s : State) (c : Nat) : TrainRec := tget {} s.flash.training c

/-- Channel `c` takes the fast path: it has a record of this stack, of a temperature within 20 °C of the present one, and passes. -/
def fastPath (s : State) (b : BootIn) (c : Nat) : Bool :=
  let r := trainRec s c
  hasRec s 2 c && decide (r.stack = b.stack) && decide (r.deg ≤ b.stackDeg + 20) && decide (b.stackDeg ≤ r.deg + 20) && b.fastMask.testBit c

/-- The delays and lane remaps of a record are in force on channel `c`. -/
def putTraining (s : State) (c : Nat) (r : TrainRec) : State :=
  let lanes := (enumFrom 0 [F.HBMC_CH_LANE_PC0, F.HBMC_CH_LANE_PC1]).foldl (fun t e => putBoth t e.2 c 0 0 (nth 0 r.lanes e.1)) s
  let rd := (enumFrom 0 (r.rd.take 72)).foldl (fun t e => putBoth t F.HBMC_CH_DLY_RD c 0 e.1 e.2) lanes
  (enumFrom 0 (r.wr.take 72)).foldl (fun t e => putBoth t F.HBMC_CH_DLY_WR c 0 e.1 e.2) rd

/-- The lane remaps of a record as entries of the disabled-unit map (15 Table 15-8). -/
def laneEntries (c : Nat) (r : TrainRec) : List DumEntry :=
  (upto 10).filterMap (fun n =>
    let v := nth 0 r.lanes (n / 5) / 16 ^ (n % 5) % 16
    if v = 0 then none else some { kind := 7, unit := c, sub := 8 * (n / 5) + n % 5, value := v })

/-- A channel that was trained in full: its results are in force and go to flash, new lane remaps into the disabled-unit map. -/
def fullTrained (s : State) (b : BootIn) (c : Nat) : State :=
  let r := { tget {} b.trained c with stack := b.stack, deg := b.stackDeg }
  let l := (laneEntries c r).filter (fun e => !s.mgmt.dum.contains e)
  let s1 := putTraining { s with flash := { s.flash with training := tset {} s.flash.training c r } } c r
  let s2 := writeRecord s1 2 c
  if l.isEmpty then s2
  else
    let s3 := addDum s2 l
    writeRecord { s3 with mgmt := { s3.mgmt with dumSeq := s3.mgmt.dumSeq + 1 } } 1 0

/-- Firmware enables the pool of the codec cores at the base of the Cooper area, where it fits, and reserves each core's minimum in it for
owner 0x200 + n (09 R225; log entry 40). -/
def bootCodecs (s : State) (c : CodecPool) : State :=
  let s1 := setR s F.COOPER_CODEC c.pool
  if inRange 1 8192 c.size && inRange 1 2048 c.count && decide (c.pool < 8) && decide (4 * c.size * c.count ≤ reg s F.COOPER_AREA) then
    let s2 := putBoth (putBoth s1 F.COOPER_POOL_CFG_SIZE 0 c.pool 0 c.size) F.COOPER_POOL_CFG_COUNT 0 c.pool 0 c.count
    let s3 := enablePool (putBoth s2 F.COOPER_POOL_CFG_EN 0 c.pool 0 1) c.pool
    (enumFrom 0 c.mins).foldl (fun t e => if canReserve t c.pool e.2 then setMin t c.pool (0x200 + e.1) e.2 else t) s3
  else s1

/-- HBM is trained and firmware's areas are reserved; a channel that fails full training, or another stack than Table 10-1's, ends
bring-up. -/
def bootHbm (s : State) (b : BootIn) : State :=
  let bad := (upto 16).filter (fun c => !fastPath s b c && !b.fullMask.testBit c)
  if !b.stackOk then setR s F.HBMC_STATE_STATE 4
  else if !bad.isEmpty then setR (bad.foldl (fun t c => fwEvent t 0x8003 c) s) F.HBMC_STATE_STATE 4
  else
    let full := (upto 16).filter (fun c => !fastPath s b c)
    let s0 := ((upto 16).filter (fun c => fastPath s b c)).foldl (fun t c => putTraining t c (trainRec s c)) s
    let s1 := if full.isEmpty then setR s0 F.HBMC_STATE_FAST 1
      else full.foldl (fun t c => fullTrained t b c) (fwEvent (setR s0 F.MGMT_BOOT_FULL_TRAIN 1) 0x8002 (full.foldl setBit 0))
    let s2 := (upto 16).foldl (fun t c => setI t F.HBMC_CH_STATE_MODE c 1) (setR (setR s1 F.HBMC_STATE_STATE 2) F.HBMC_STATE_READY 0xFFFF)
    let d := satI 8 b.stackDeg
    let s3 := setR (setR (putTemp s2 12 d) F.HBMC_TEMP_DEG (enc 8 d)) F.HBMC_TEMP_DOUBLE (bnat (decide (stackHotDeg < d)))
    let s4 := putBoth (putBoth s3 F.HBMC_MAP_GRAIN 0 0 0 b.grain) F.HBMC_MAP_FOLD 0 0 0 (bnat b.fold)
    let area := if b.areaKib < hbmBelowKib then b.areaKib else hbmBelowKib
    bootCodecs (setR (setR { s4 with hbm := { s4.hbm with reserved := true } } F.COOPER_AREA area) F.PLAN_FREE_HBM (hbmBelowKib - area)) b.codec

/-! ## Placement and domains at boot (R375, 17 R399) -/

/-- The domain is on and usable. -/
def domainUp (s : State) (d : Nat) : State := setDom (reqDom s d true) d true

/-- The banks of cluster `k` that logical banks map to are on and zero-filled, the others off; capacities follow. -/
def bootBanks (s : State) (k : Nat) : State :=
  let s1 := (upto 17).foldl (fun t p => setDom t (72 + 17 * k + p) (logicalOf s k p).isSome) s
  let on := (upto 17).foldl (fun a p => if (logicalOf s k p).isSome then setBit a p else a) 0
  let s2 := modClu (putBoth s1 F.CLU_BANK_PWR k 0 0 on) k (fun c => { c with offBanks := 2 ^ 17 - 1 - on })
  (upto 16).foldl (fun t b => putF t F.CLU_BANK_CAP_UNITS k 0 b
    (bankUnits s k (bankOf s k b))) s2

/-- The active map names core `p` for logical core `l`, live and staged. -/
def bootPlace (s : State) (l p : Nat) : State :=
  setI (putBoth (setPlace s l p) (placeStagedFld l) 0 0 (l / 4) p) F.CORE_STATE_STATE p 0

/-- Cluster `k` at boot: its spare is the highest core not retired, its logical cores take the others in ascending order; a cluster
that would run fewer than 7 cores, or that has lost two banks, is out of service (R375). -/
def bootCluster (s : State) (k : Nat) : State :=
  let cs := (rangeFrom (9 * k) 9).filter (fun p => decide (regI s F.CORE_STATE_STATE p ≠ 6))
  let others := cs.take (cs.length - 1)
  if dumHas s 9 k then
    let s1 := (upto 17).foldl (fun t b => setDom t (72 + 17 * k + b) false) s
    modClu s1 k (fun c => { c with outOfService := true, offBanks := 2 ^ 17 - 1 })
  else
    let s1 := setR s F.MGMT_SERVICE_CLUSTER (setBit (reg s F.MGMT_SERVICE_CLUSTER) k)
    let s2 := cs.foldl domainUp (bootBanks s1 k)
    let s3 := (enumFrom 0 (others.take 8)).foldl (fun t e => bootPlace t (8 * k + e.1) e.2) s2
    let s4 := match cs.getLast? with
      | some q => putF (setI (setSpare s3 k (some q) 0) F.CORE_STATE_STATE q 4) F.WINNOW_CLU_NEXT 0 0 k (nextInRotation s3 k (coreIdx q))
      | none => setSpare s3 k none 3
    if others.length < 7 ∨ 1 < ((upto 17).filter (fun p => (clu s k).retiredBanks.testBit p)).length then clusterOut s4 k
    else s4

/-- Decode cores: the spare is the highest one not retired, the others are in service (R375). -/
def bootDecs (s : State) : State :=
  let ds := (upto 9).filter (fun d => !dumHas s 6 d)
  let s1 := ds.foldl (fun t d => domainUp t (208 + d)) s
  setR (setR s1 F.MGMT_SERVICE_DEC ((ds.take (ds.length - 1)).foldl setBit 0)) F.MGMT_SERVICE_DEC_SPARE (ds.getLast?.getD 15)

/-- Every page is brought up, the ageing counts are read, and MGMT_DUM follows. -/
def bootPages (s : State) (b : BootIn) : State :=
  let s1 := (upto 139).foldl (fun t p => setI t F.PAGE_STATUS_UP p 1) s
  let s2 := (enumFrom 0 (b.ages.take 72)).foldl (fun t e => setI t F.CORE_AGE e.1 e.2) s1
  setR (setR s2 F.MGMT_DUM_ENTRIES s2.mgmt.dum.length) F.MGMT_DUM_SEQ s2.mgmt.dumSeq

/-- The boot of a verified image. -/
def bootDevice (s : State) (b : BootIn) (slot : Nat) (i : FwImage) (fallback : Bool) : State :=
  let s1 := bootImage s slot i fallback
  let s2 := bootTrim (bootMap (bootKeys (bootRecords s1) b.pufOk) b) b
  let s3 := bootHbm s2 b
  let s4 := domainUp (bootDecs ((upto 8).foldl bootCluster s3)) 219
  let s5 := bootPages s4 b
  compareTemps (setR { s5 with claims := fwClaims (reg s5 F.CARTER_WARM) } F.THERM_STATE_CRIT 0)

/-- PERST_N_RELEASE: the PLLs lock, the Tally starts at 0, link training starts, and firmware boots; when no slot verifies the device
halts in START_UP (R403, 12 R283, 15 R361). -/
def execPerstNRelease (boot : BootIn) (s : State) : Out :=
  .next (guardOn (s.power.vddAon && s.power.perst) s fun s =>
    let s1 := { s with
      tally := 0
      tallyRun := true
      power := { s.power with perst := false, clkHold := false, xspiCsHigh := false }
      mgmt := { s.mgmt with bootCount := s.mgmt.bootCount + 1 } }
    let s2 := setR (setR (setR s1 F.CLK_PLL 63) F.PCIE_LINK_STATE 1) F.MGMT_BOOT_COUNT s1.mgmt.bootCount
    match bootSlotOf s2 with
    | some (slot, i, fb) => bootDevice s2 boot slot i fb
    | none => setR (setR (setR s2 F.MGMT_STATE_PAIR_A 3) F.MGMT_STATE_PAIR_B 3) F.SYS_STATUS_HALTED 1)

end Sys2Proof.Machine
end

