-- ==== Sys2Proof/Machine/HostRead.lean ====
section
/-!
DEFINITION. Sys2Proof/Machine/HostRead.lean: what host reads return (16_host_interface.md R377, R378, R380, R381, R384;
14_security_and_sessions.md R334, R335, R348): configuration space, the exchange window of BAR 2, the MSI-X structures of
BAR 4; and the commands LO_READ and RC_READ.
-/

namespace Sys2Proof.Machine

/-! ## Configuration space (R377, R378)

The values are those of Tables 16-2 and 16-3; the places of their bits, the capability IDs and the chain of the lists are those
of the PCI base specifications (log entry 124). -/

/-- An extended capability's header: ID, version 1, offset of the next one. -/
def extHdr (id next : Nat) : Nat := id + 2 ^ 16 + next * 2 ^ 20

/-- Subsystem ID of the part (Table 16-2). -/
def subsystemId (s : State) : Nat := if s.gradeSC then 0x00C1 else 0x00A1

/-- Code of a payload or request size. -/
def codeOfSize (n : Nat) : Nat := ((upto 6).find? (fun c => decide (sizeOfCode c = n))).getD 0

/-- The error whose header the header log holds. -/
def PcieS.firstErr (p : PcieS) : Option AerErr := p.aerFirst.bind (fun n => p.aer[n]?)

/-- Dword `j` of the header log (R384). -/
def PcieS.headerLog (p : PcieS) (j : Nat) : Nat := (p.aerFirst.map (fun n => Config.tlpHeader n j % 2 ^ 32)).getD 0

/-- The dword of configuration space at `a`. -/
def cfgRead (s : State) (a : Nat) : Nat :=
  let p := s.pcie
  match a with
  | 0x00 => 0x1F7A + 0x6424 * 2 ^ 16
  | 0x04 => 2 * bnat p.memSpace + 4 * bnat p.bme + 0x10 * 2 ^ 16
  | 0x08 => 0x01 + 0x120000 * 2 ^ 8
  | 0x10 => tget 0 p.bars 0 + 4
  | 0x14 => tget 0 p.bars 1
  | 0x18 => tget 0 p.bars 2 + 12
  | 0x1C => tget 0 p.bars 3
  | 0x20 => tget 0 p.bars 4 + 4
  | 0x24 => tget 0 p.bars 5
  | 0x2C => 0x1F7A + subsystemId s * 2 ^ 16
  | 0x34 => 0x40
  | 0x40 => 0x01 + 0x50 * 2 ^ 8 + (3 + 0b11001 * 2 ^ 11) * 2 ^ 16
  | 0x44 => reg s F.PCIE_POWER_DSTATE + 8 + 2 ^ 8 * bnat p.pmeEn + 2 ^ 15 * bnat p.pmeStatus
  | 0x50 => 0x11 + 0x70 * 2 ^ 8 + (63 + 2 ^ 14 * bnat p.fnMask + 2 ^ 15 * bnat p.msixEn) * 2 ^ 16
  | 0x54 => 0x0000 + 4
  | 0x58 => 0x2000 + 4
  | 0x70 => 0x10 + 2 * 2 ^ 16
  | 0x74 => 2 + 2 ^ 28
  | 0x78 => 2 ^ 5 * codeOfSize p.maxPayload + 2 ^ 12 * codeOfSize p.maxRead
  | 0x7C => 5 + 8 * 2 ^ 4 + 2 * 2 ^ 10 + 2 ^ 18
  | 0x80 => (reg s F.PCIE_LINK_SPEED + reg s F.PCIE_LINK_WIDTH * 2 ^ 4) * 2 ^ 16
  | 0x94 => 15 + 2 ^ 11
  | 0x98 => p.ctoSel
  | 0x100 => extHdr 0x0001 0x148
  | 0x104 => p.aerStatus
  | 0x108 => p.aerMask
  | 0x10C => p.aerSeverity
  | 0x110 => p.aerCor
  | 0x114 => p.aerCorMask
  | 0x118 => (p.firstErr.map AerErr.bit).getD 0
  | 0x11C => p.headerLog 0
  | 0x120 => p.headerLog 1
  | 0x124 => p.headerLog 2
  | 0x128 => p.headerLog 3
  | 0x148 => extHdr 0x0019 0x168
  | 0x168 => extHdr 0x0025 0x178
  | 0x178 => extHdr 0x0026 0x1A0
  | 0x1A0 => extHdr 0x0027 0x1D0
  | 0x1D0 => extHdr 0x002A 0x200
  | 0x200 => extHdr 0x0018 0x208
  | 0x208 => extHdr 0x001E 0
  | 0x20C => 0x1F
  | _ => 0

/-! ## BAR 2, the exchange window (14 R334, Table 14-4) -/

/-- The response buffer (Table 14-5): header, TAG, payload. -/
def respBytes (s : State) : List Byte :=
  let r := s.sec.resp
  rspHeader r.session r.cmd r.status r.reason r.seq r.payload.length ++ le 32 r.tag ++ r.payload

/-- The evidence window (14 R348): the 32-byte header of the release it holds, then its bytes sealed under K_enc of its session. -/
def windowBytes (s : State) : List Byte :=
  match s.sec.window with
  | none => []
  | some r =>
    let k := sealKey (sess s (r.session % 16)).key
    let iv := r.number % 2 ^ 64 + 2 * 2 ^ 64
    let c := Config.gcmSeal k iv [] r.bytes
    padTo 0 32 (Config.windowHeader r.number r.plan r.seq c.length (Config.gcmTag k iv [] c)) ++ c

/-- Byte `x` of a ring's window, which starts at the read index rounded down to 4 KiB; 0 outside the data written and not yet
freed. -/
def ringByte (s : State) (base size w r x : Nat) : Byte :=
  let at_ := (r / 4096 * 4096 + x) % 2 ^ 32
  if r % 4096 ≤ x ∧ x - r % 4096 < (w + 2 ^ 32 - r) % 2 ^ 32 then s.hbm.mem.byte (base + at_ % size) else 0

/-- An Operator session is open. -/
def operatorOpen (s : State) : Bool := (upto 16).any (fun i => (sess s i).isOpen && decide ((sess s i).role = 0))

/-- Byte `a` of BAR 2. -/
def bar2Byte (s : State) (a : Nat) : Byte :=
  if a < 0x1000 then tget 0 s.sec.reqBuf a
  else if a < 0x2000 then nth 0 (respBytes s) (a - 0x1000)
  else if a < 0x100000 then 0
  else if a < 0x400000 then nth 0 (windowBytes s) (a - 0x100000)
  else if a < 0x800000 then
    if operatorOpen s then
      ringByte s relayBase (relaySize s) (reg s F.RELAY_OUT_WIDX) (reg s F.RELAY_OUT_RIDX) (a - 0x400000) else 0
  else if operatorOpen s then
    ringByte s journalBase (journalSize s) (reg s F.DISP_JOURNAL_WIDX) (reg s F.DISP_JOURNAL_RIDX) (a - 0x800000)
  else 0

/-- A read of BAR 2: 1 to 64 bytes within 64 are served; the spec gives any other no outcome, and the model answers zeros (R381;
log entry 124). -/
def bar2Read (s : State) (a n : Nat) : List Byte :=
  if 1 ≤ n ∧ n ≤ 64 ∧ a % 64 + n ≤ 64 then (rangeFrom a n).map (bar2Byte s) else List.replicate n 0

/-! ## BAR 4, the MSI-X structures (R380, R381, R385) -/

/-- Dword `d` of BAR 4: the table, then the PBA. -/
def bar4Dword (s : State) (d : Nat) : Nat :=
  let e := tget {} s.pcie.msix (d / 4)
  if d < 256 then
    match d % 4 with
    | 0 => e.addr % 2 ^ 32
    | 1 => e.addr / 2 ^ 32
    | 2 => e.data
    | _ => bnat e.mask
  else if d = 0x800 then s.pcie.pba % 2 ^ 32
  else if d = 0x801 then s.pcie.pba / 2 ^ 32
  else 0

/-- A read of BAR 4: aligned dwords and quadwords. -/
def bar4Read (s : State) (a n : Nat) : List Byte :=
  if n = 4 ∧ a % 4 = 0 then le 4 (bar4Dword s (a / 4))
  else if n = 8 ∧ a % 8 = 0 then le 4 (bar4Dword s (a / 4)) ++ le 4 (bar4Dword s (a / 4 + 1))
  else List.replicate n 0

/-! ## Commands -/

/-- LO_READ: a read of host software. Through BAR 0 a `_LO` half captures its `_HI` half, and a `_HI` half returns a copy held for
it (00 R7); the other spaces are read without effect. Configuration requests are answered from link-up (R379). -/
def execLoRead (space : Space) (addr size : Nat) (s : State) : Out :=
  .next (whenLive s fun s =>
    match space with
    | .bar0 => barRead s addr size
    | .bar2 => if memServed s then emit s (.readBytes (bar2Read s addr size)) else emit (aer s .unsupportedRead) .unsupported
    | .bar4 => if memServed s then emit s (.readBytes (bar4Read s addr size)) else emit (aer s .unsupportedRead) .unsupported
    | .cfg => guardOn (flag s F.PCIE_LINK_STATE) s fun s => emit s (.readReply (cfgRead s (addr / 4 * 4))))

/-- RC_READ: a read through BAR 0; an RC field is returned and cleared (00 R9). -/
def execRcRead (addr : Nat) (s : State) : Out := .next (whenLive s fun s => barRead s addr 4)

end Sys2Proof.Machine
end

