-- ==== Sys2Proof/Machine/Reset.lean ====
section
/-!
DEFINITION. Sys2Proof/Machine/Reset.lean: hot reset, link down, function-level reset (16_host_interface.md R387 to R389), clock-loss reset
(17 R408), and what runs on VDD_AON alone: the SMBus target (19 R429), WAKE_N in D3cold (16 R393) and the TAP (14 R354).
-/

namespace Sys2Proof.Machine

/-! ## The reset part of a function-level or hot reset (R388) -/

/-- A host-owned field that the reset returns to its reset value: not a TALLY, LINK_n or COOPER pool field (Table 16-7), nor the orphan
journal's read index, which stays with the journal. -/
def resetField (f : Fld) (p : Nat) : Bool :=
  decide (f.wr = .host) && (decide (f.acc = .rws) || decide (f.acc = .rw)) && decide (f.id ≠ F.DISP_JOURNAL_RIDX.id) &&
    (decide (f.id = F.INT_ENABLE.id) || !(decide (p = 1) || decide (p = 4) || decide (135 ≤ p)))

/-- The key is that of a host-owned field that returns to its reset value. -/
def resetKey (k : Nat) : Bool := allFields.any (fun f => decide (f.id = keyId k) && resetField f (keyPage k))

/-- Host-owned fields return to their reset values, live and staged, and host snapshots are gone. -/
def resetHostFields (s : State) : State :=
  let gone := s.rf.snaps.filter (fun x => !x.fw)
  gone.foldl (fun t x => setI t (stateFld false) x.page 0)
    { s with rf := { s.rf with
      live := tfilter (fun k => !resetKey k) s.rf.live
      shadow := tfilter (fun k => !resetKey k) s.rf.shadow
      snaps := s.rf.snaps.filter (fun x => x.fw) } }

/-- Of an update whose boot record is not yet programmed nothing more is issued but the operation in progress: the old record stands
(15 R364, R395). -/
def dropUpdateOps (s : State) : State :=
  { s with flash := { s.flash with ops := s.flash.ops.take 1 ++ (s.flash.ops.drop 1).filter (fun o =>
    decide (o.use ≠ .fwImage) && decide (o.use ≠ .bootRecord)) } }

/-- Device reads, the mailbox command, the ledger, relay and rings end. -/
def stopHostWork (s : State) : State :=
  let s1 := dropReads s (fun _ => true)
  let s2 := match s1.sec.install with
    | some x => yieldEntry { s1 with sec := { s1.sec with install := none } } x.idx
    | none => s1
  let s3 := if s2.sec.fwUpdate.isSome then dropUpdateOps { s2 with sec := { s2.sec with fwUpdate := none } } else s2
  let s4 := if reg s3 F.SEC_MB_STATE_STATE = 1 then setR s3 F.SEC_MB_STATE_STATE 0 else s3
  let s5 := endPoll { s4 with
    sec := { s4.sec with closeAfter := false }
    disp := { s4.disp with leaseEnd := none, leaseSuspended := false, repeats := [], cidxHeld := false }
    fab := { s4.fab with relayReady := 0 } }
  let s6 := (upto 16).foldl (fun t k => if ringEn t k then disableRing t k else t) s5
  setR (putBoth (putBoth s6 F.DISP_LEDGER_CFG_EN 0 0 0 0) F.RELAY_CFG_EN 0 0 0 0) F.SYS_STATUS_LEASE 0

/-- Sessions close, every item ends FAILED_RESET without relaunch, encoders stop, slots close. Golden windows run on. -/
def endHostWork (s : State) : State :=
  let s1 := (upto 2).foldl stopEncoder (closeAll s)
  let s2 := { s1 with faults := { s1.faults with reactions := s1.faults.reactions.map (fun (e : Nat × Option Reaction) =>
    (e.1, e.2.map (fun r => { r with items := [] }))) } }
  let s3 := endItems s2 (fun i => !i.golden) 0x306
  (upto 76).foldl closeSlot s3

/-- Configuration space after the reset; PME_En, PME_Status and the AER registers are sticky, and a function-level reset keeps Max_Payload_Size (log entry
7). -/
def resetConfig (s : State) (hot : Bool) : State :=
  setR { s with pcie := { s.pcie with
    bme := false
    memSpace := false
    msixEn := false
    fnMask := false
    bars := []
    maxPayload := if hot then 128 else s.pcie.maxPayload
    maxRead := 512
    ctoSel := 0
    msix := []
    pba := 0
    turnedOff := false
    ackPending := false } } F.PCIE_CTO 50000

/-- Banks that CLU_BANK_FORCE held off power up again once it reads 0 (09 R222, R223). -/
def unforce (s c : State) : State :=
  (upto 8).foldl (fun t k => if regI s F.CLU_BANK_FORCE k = regI c F.CLU_BANK_FORCE k then t else cluApplied s t k) c

/-- The reset part of a function-level or hot reset, from the tick at which it reaches CLK_FAB (R388). Table 16-7 gives what it keeps. -/
def funcReset (s : State) (hot : Bool) : State :=
  let s1 := toD0 s
  let s2 := endHostWork (stopHostWork s1)
  let s3 := unforce s2 (resetHostFields s2)
  noteLtr s1 (resetConfig s3 hot)

/-- A hot reset (R387, R389): START_UP follows, and SERVICE once Winnow has passed again. -/
def hotReset (s : State) : State :=
  let s1 := funcReset s true
  let s2 := { s1 with pcie := { s1.pcie with hotStart := true }, winnow := { s1.winnow with provingSince := s1.now } }
  let s3 := setPhase (setR s2 F.SYS_STATUS_READY 0) 0
  setR (setR (setR (setR s3 F.PWR_RESET_CAUSE 3) F.PCIE_LINK_STATE 1) F.PCIE_LINK_SPEED 0) F.PCIE_LINK_WIDTH 0

/-- HOT_RESET (R387). -/
def execHotReset (s : State) : Out :=
  .next (whenLive s fun s => guardOn (decide (2 ≤ reg s F.PCIE_LINK_STATE)) s fun s =>
    setR (addR (hotReset s) F.PCIE_HOT_RESETS 1) F.PCIE_POWER_LAST_RESET 1)

/-- The link goes down: in D0 a hot reset, in D3hot the link's state alone (R387, R395). -/
def linkDown (s : State) : State :=
  if s.d0 then setR (addR (hotReset s) F.PCIE_LINK_DOWNS 1) F.PCIE_POWER_LAST_RESET 3
  else setR (setR (setR s F.PCIE_LINK_STATE 0) F.PCIE_LINK_SPEED 0) F.PCIE_LINK_WIDTH 0

/-- LINK_DOWN (R387). -/
def execLinkDown (s : State) : Out :=
  .next (whenLive s fun s => guardOn (decide (2 ≤ reg s F.PCIE_LINK_STATE)) s linkDown)

/-- FUNCTION_LEVEL_RESET: one requested in D3hot returns the function to D0 first (R388, R395). -/
def execFunctionLevelReset (s : State) : Out :=
  .next (whenLive s fun s => guardOn (decide (2 ≤ reg s F.PCIE_LINK_STATE)) s fun s =>
    setR (setR (addR (funcReset s false) F.PCIE_FLRS 1) F.PCIE_POWER_LAST_RESET 2) F.PWR_RESET_CAUSE 4)

/-! ## Clock loss (17 R408) -/

/-- CLOCK_LOSS_RESET: a lost clock holds the device in reset until PERST_N has been asserted and released; a lost PCIe PLL brings the link
down, a lost link transmit PLL every link port. `cause` is a bit number of CLK_LOSS. -/
def execClockLossReset (cause : Nat) (s : State) : Out :=
  .next (whenLive s fun s =>
    if cause < 5 then
      setR (setR (fundamental s true (resetPower s false true)) F.CLK_LOSS (2 ^ cause)) F.PWR_RESET_CAUSE 2
    else if cause = 5 then
      let s1 := setR (setR s F.CLK_LOSS 32) F.CLK_PLL (clrBit (reg s F.CLK_PLL) 3)
      if 2 ≤ reg s1 F.PCIE_LINK_STATE then linkDown s1 else s1
    else if cause = 6 then
      let s1 := setR (setR s F.CLK_LOSS 64) F.CLK_PLL (clrBit (reg s F.CLK_PLL) 5)
      (upto 4).foldl (fun t p => if portUp t p then portDown t p false else t) s1
    else s)

/-! ## SMBus (19 R429) -/

/-- SMBUS_READ_TEMPERATURE: Read Byte of code 0x00 to 0x0C. -/
def execSmbusReadTemperature (sensor : Nat) (s : State) : Out :=
  .next (guardOn (s.power.vddAon && decide (sensor < 13)) s fun s => emit s (.smbus (regX s F.THERM_TEMP_DEG sensor)))

/-- SMBUS_READ_VCORE: Read Word of code 0x20; 0x8000 while the base domain is off. -/
def execSmbusReadVcore (s : State) : Out :=
  .next (guardOn s.power.vddAon s fun s => emit s (.smbus (if s.live then reg s F.PWR_VCORE else 0x8000)))

/-- The status byte of code 0x21. -/
def smbusStatus (s : State) : Nat :=
  reg s F.SYS_STATUS_PHASE % 8 + 8 * reg s F.SYS_STATUS_READY + 16 * reg s F.SYS_STATUS_SAFE + 32 * reg s F.REEVE_FAULT_ASSERTED +
    64 * reg s F.THERM_STATE_WARN + 128 * reg s F.THERM_STATE_CRIT

/-- SMBUS_READ_STATUS: Read Byte of code 0x21. -/
def execSmbusReadStatus (s : State) : Out := .next (guardOn s.power.vddAon s fun s => emit s (.smbus (smbusStatus s)))

/-- SMBUS_READ_TRIM: Read Byte of code 0x22. -/
def execSmbusReadTrim (s : State) : Out := .next (guardOn s.power.vddAon s fun s => emit s (.smbus (reg s F.PWR_TRIM_CODE)))

/-- SMBUS_WAKE: Write Byte of 0x01 to code 0x57 asserts WAKE_N in D3cold, where main power is off and PERST_N asserted (16 R393). -/
def execSmbusWake (s : State) : Out :=
  .next (guardOn (s.power.vddAon && s.power.perst) s fun s =>
    setR { s with power := { s.power with wakeN := true } } F.PCIE_POWER_WAKE 1)

/-- ALERT_RESPONSE: the Alert Response Address cycle releases SMB_ALERT_N. -/
def execAlertResponse (s : State) : Out :=
  .next (guardOn s.power.vddAon s fun s => { s with power := { s.power with smbAlert := false } })

/-! ## TAP (14 R354) -/

/-- What an instruction other than BYPASS shifts out is not stated: a free value for each bit (log entry 45). -/
def shiftFree (s : State) (n : Nat) : State × List Bool :=
  (upto n).foldl (fun (a : State × List Bool) _ => ((fresh a.1).2, a.2 ++ [(fresh a.1).1.testBit 0])) (s, [])

/-- TAP_INSTRUCTION: before the unlock the TAP offers BYPASS, IDCODE, SAMPLE/PRELOAD and EXTEST, the last only while PERST_N is asserted.
BYPASS shifts its data through one stage, which captures 0 (IEEE 1149.1). JTAG_UNLOCK opens the debug instructions, of which nothing
is said; before it they are not offered (R354). -/
def execTapInstruction (ir : TapIr) (dr : List Bool) (s : State) : Out :=
  let shifted := emit (shiftFree s dr.length).1 (.tapBits (shiftFree s dr.length).2)
  if !s.power.vddAon then .next s
  else match ir with
    | .bypass => .next (emit s (.tapBits ((false :: dr).take dr.length)))
    | .idcode => .next shifted
    | .samplePreload => .next shifted
    | .extest => .next (if s.power.perst then shifted else s)
    | .debug _ => if s.live && flag s F.SEC_STATE_JTAG_OPEN then .refused .debugInstruction else .next s

end Sys2Proof.Machine
end

