-- ==== Sys2Proof/Machine/Dispatch.lean ====
section
/-!
DEFINITION. Sys2Proof/Machine/Dispatch.lean: one arm per command, each one direct call of its meaning.
-/

namespace Sys2Proof.Machine

/-- The effect of a command on everything but the queue. -/
def exec (i : Instr) (s : State) : Host.Outcome State Fault Refusal :=
  match i with
  | .vddAonPowerOn sc serial testEn smbAddr => Sys2Proof.Machine.execVddAonPowerOn sc serial testEn smbAddr s
  | .perstNAssert => Sys2Proof.Machine.execPerstNAssert s
  | .perstNRelease boot => Sys2Proof.Machine.execPerstNRelease boot s
  | .clockLossReset cause => Sys2Proof.Machine.execClockLossReset cause s
  | .hotReset => Sys2Proof.Machine.execHotReset s
  | .linkDown => Sys2Proof.Machine.execLinkDown s
  | .functionLevelReset => Sys2Proof.Machine.execFunctionLevelReset s
  | .d3hotEntry => Sys2Proof.Machine.execD3hotEntry s
  | .d0Return => Sys2Proof.Machine.execD0Return s
  | .pmeTurnOff => Sys2Proof.Machine.execPmeTurnOff s
  | .busMasterEnableClear => Sys2Proof.Machine.execBusMasterEnableClear s
  | .completionReceived tag status bytes => Sys2Proof.Machine.execCompletionReceived tag status bytes s
  | .completionTimeout tag => Sys2Proof.Machine.execCompletionTimeout tag s
  | .msixUnmask vector => Sys2Proof.Machine.execMsixUnmask vector s
  | .smbusReadTemperature sensor => Sys2Proof.Machine.execSmbusReadTemperature sensor s
  | .smbusReadVcore => Sys2Proof.Machine.execSmbusReadVcore s
  | .smbusReadStatus => Sys2Proof.Machine.execSmbusReadStatus s
  | .smbusReadTrim => Sys2Proof.Machine.execSmbusReadTrim s
  | .smbusWake => Sys2Proof.Machine.execSmbusWake s
  | .alertResponse => Sys2Proof.Machine.execAlertResponse s
  | .registerWrite by_ space addr size value => Sys2Proof.Machine.execRegisterWrite by_ space addr size value s
  | .loRead space addr size => Sys2Proof.Machine.execLoRead space addr size s
  | .rcRead addr => Sys2Proof.Machine.execRcRead addr s
  | .intStatusClear addr value session => Sys2Proof.Machine.execIntStatusClear addr value session s
  | .intForce page bits session => Sys2Proof.Machine.execIntForce page bits session s
  | .errClr page session => Sys2Proof.Machine.execErrClr page session s
  | .pageCommitHost page sel session => Sys2Proof.Machine.execPageCommitHost page sel session s
  | .pageCommitFw page => Sys2Proof.Machine.execPageCommitFw page s
  | .commitPoint page => Sys2Proof.Machine.execCommitPoint page s
  | .ringRidxWrite ring idx => Sys2Proof.Machine.execRingRidxWrite ring idx s
  | .dispJournalRidxWrite idx => Sys2Proof.Machine.execDispJournalRidxWrite idx s
  | .relayOutRidxWrite idx => Sys2Proof.Machine.execRelayOutRidxWrite idx s
  | .leaseRenew => Sys2Proof.Machine.execLeaseRenew s
  | .reeveFaultClr session => Sys2Proof.Machine.execReeveFaultClr session s
  | .mgmtFjSelWrite n => Sys2Proof.Machine.execMgmtFjSelWrite n s
  | .trainingRun ch value => Sys2Proof.Machine.execTrainingRun ch value s
  | .trainingRunDone ch mism => Sys2Proof.Machine.execTrainingRunDone ch mism s
  | .openOp r role iface minSvn hwm hostNonce => Sys2Proof.Machine.execOpenOp r role iface minSvn hwm hostNonce s
  | .prove r => Sys2Proof.Machine.execProve r s
  | .challengeExpiry slot => Sys2Proof.Machine.execChallengeExpiry slot s
  | .close r => Sys2Proof.Machine.execClose r s
  | .provision r role ct => Sys2Proof.Machine.execProvision r role ct s
  | .roleClear r role => Sys2Proof.Machine.execRoleClear r role s
  | .regWrite r count writes => Sys2Proof.Machine.execRegWrite r count writes s
  | .adopt r mask => Sys2Proof.Machine.execAdopt r mask s
  | .reeveSet r pipe cfg age period => Sys2Proof.Machine.execReeveSet r pipe cfg age period s
  | .modelKey r keyId ct => Sys2Proof.Machine.execModelKey r keyId ct s
  | .modelKeyDelete r keyId => Sys2Proof.Machine.execModelKeyDelete r keyId s
  | .install r addr len img => Sys2Proof.Machine.execInstall r addr len img s
  | .installCommit => Sys2Proof.Machine.execInstallCommit s
  | .uninstall r plan => Sys2Proof.Machine.execUninstall r plan s
  | .unlockStream r mask => Sys2Proof.Machine.execUnlockStream r mask s
  | .unlockTensor r plan output count => Sys2Proof.Machine.execUnlockTensor r plan output count s
  | .embRead r slot first count => Sys2Proof.Machine.execEmbRead r slot first count s
  | .lock r mask plan => Sys2Proof.Machine.execLock r mask plan s
  | .lockAck r => Sys2Proof.Machine.execLockAck r s
  | .attest r nonce => Sys2Proof.Machine.execAttest r nonce s
  | .getCert r part => Sys2Proof.Machine.execGetCert r part s
  | .fwUpdate r addr len img => Sys2Proof.Machine.execFwUpdate r addr len img s
  | .repairAuth r ch row => Sys2Proof.Machine.execRepairAuth r ch row s
  | .recover r => Sys2Proof.Machine.execRecover r s
  | .testMode r on => Sys2Proof.Machine.execTestMode r on s
  | .placementEdit r edits => Sys2Proof.Machine.execPlacementEdit r edits s
  | .jtagUnlock r => Sys2Proof.Machine.execJtagUnlock r s
  | .locksmithZeroise => Sys2Proof.Machine.execLocksmithZeroise s
  | .keysReloaded => Sys2Proof.Machine.execKeysReloaded s
  | .intakePoll => Sys2Proof.Machine.execIntakePoll s
  | .descriptorRead slot => Sys2Proof.Machine.execDescriptorRead slot s
  | .auCopyDone slot => Sys2Proof.Machine.execAuCopyDone slot s
  | .pictureDecodeStart claims => Sys2Proof.Machine.execPictureDecodeStart claims s
  | .decodeComplete core d => Sys2Proof.Machine.execDecodeComplete core d s
  | .decodeBudgetExpiry core => Sys2Proof.Machine.execDecodeBudgetExpiry core s
  | .frameStart port => Sys2Proof.Machine.execFrameStart port s
  | .csiPacket port pkt => Sys2Proof.Machine.execCsiPacket port pkt s
  | .frameEnd port => Sys2Proof.Machine.execFrameEnd port s
  | .frameEndTimeout port => Sys2Proof.Machine.execFrameEndTimeout port s
  | .recordItem slot => Sys2Proof.Machine.execRecordItem slot s
  | .scalerStageStart item stage => Sys2Proof.Machine.execScalerStageStart item stage s
  | .scalerStageDone => Sys2Proof.Machine.execScalerStageDone s
  | .sickleStageStart unit item stage => Sys2Proof.Machine.execSickleStageStart unit item stage s
  | .sickleGranuleRead unit => Sys2Proof.Machine.execSickleGranuleRead unit s
  | .sickleBoxStart unit => Sys2Proof.Machine.execSickleBoxStart unit s
  | .sickleBoxEnd unit => Sys2Proof.Machine.execSickleBoxEnd unit s
  | .pack item stage samples => Sys2Proof.Machine.execPack item stage samples s
  | .encoderPictureTake enc slot src => Sys2Proof.Machine.execEncoderPictureTake enc slot src s
  | .encodeSliceDone enc => Sys2Proof.Machine.execEncodeSliceDone enc s
  | .encodePictureDone enc => Sys2Proof.Machine.execEncodePictureDone enc s
  | .ledgerPoll => Sys2Proof.Machine.execLedgerPoll s
  | .ledgerEntryArrival => Sys2Proof.Machine.execLedgerEntryArrival s
  | .pinnedLaunchDecision item => Sys2Proof.Machine.execPinnedLaunchDecision item s
  | .pinnedLaunch item => Sys2Proof.Machine.execPinnedLaunch item s
  | .pooledPlacement => Sys2Proof.Machine.execPooledPlacement s
  | .eviction => Sys2Proof.Machine.execEviction s
  | .deadlineRefusal item => Sys2Proof.Machine.execDeadlineRefusal item s
  | .preemptionArrival core => Sys2Proof.Machine.execPreemptionArrival core s
  | .contextSave core => Sys2Proof.Machine.execContextSave core s
  | .contextSaveLanded core => Sys2Proof.Machine.execContextSaveLanded core s
  | .contextMove ctx => Sys2Proof.Machine.execContextMove ctx s
  | .contextMoveDone ctx => Sys2Proof.Machine.execContextMoveDone ctx s
  | .contextRestore item => Sys2Proof.Machine.execContextRestore item s
  | .creditReturnTimeout core => Sys2Proof.Machine.execCreditReturnTimeout core s
  | .leaseExpiry => Sys2Proof.Machine.execLeaseExpiry s
  | .autonomousRepeat plan offset => Sys2Proof.Machine.execAutonomousRepeat plan offset s
  | .ld core g d bytes tok => Sys2Proof.Machine.execLd core g d bytes tok s
  | .st core x g bytes tok => Sys2Proof.Machine.execSt core x g bytes tok s
  | .ldw core g x bytes tag tok => Sys2Proof.Machine.execLdw core g x bytes tag tok s
  | .cb core x tok => Sys2Proof.Machine.execCb core x tok s
  | .mm core op tok residueErr => Sys2Proof.Machine.execMm core op tok residueErr s
  | .relu core fmt n x y tok => Sys2Proof.Machine.execRelu core fmt n x y tok s
  | .clip core fmt n lo hi x y tok => Sys2Proof.Machine.execClip core fmt n lo hi x y tok s
  | .requantise core src n x scl y om tok => Sys2Proof.Machine.execRequantise core src n x scl y om tok s
  | .tableFunction core n p x y tok => Sys2Proof.Machine.execTableFunction core n p x y tok s
  | .maxAbs core fmt n x y tok => Sys2Proof.Machine.execMaxAbs core fmt n x y tok s
  | .softmax core n src scale dst x y tok => Sys2Proof.Machine.execSoftmax core n src scale dst x y tok s
  | .layerNormalisation core n eps x gamma beta y tok => Sys2Proof.Machine.execLayerNormalisation core n eps x gamma beta y tok s
  | .boxDecoding core p anchors scores regs y tok => Sys2Proof.Machine.execBoxDecoding core p anchors scores regs y tok s
  | .add core fmt psum n x1 x2 y opr tok => Sys2Proof.Machine.execAdd core fmt psum n x1 x2 y opr tok s
  | .multiply core fmt n x1 x2 y tok => Sys2Proof.Machine.execMultiply core fmt n x1 x2 y tok s
  | .fusedMultiplyAdd core fmt n x1 x2 x3 y opr tok => Sys2Proof.Machine.execFusedMultiplyAdd core fmt n x1 x2 x3 y opr tok s
  | .min core fmt n x1 x2 y tok => Sys2Proof.Machine.execMin core fmt n x1 x2 y tok s
  | .max core fmt n x1 x2 y opr tok => Sys2Proof.Machine.execMax core fmt n x1 x2 y opr tok s
  | .convert core src dst n x y om tok => Sys2Proof.Machine.execConvert core src dst n x y om tok s
  | .derive core fmt sStage clip int16 x y tok => Sys2Proof.Machine.execDerive core fmt sStage clip int16 x y tok s
  | .biasq core n sa sw b y tok => Sys2Proof.Machine.execBiasq core n sa sw b y tok s
  | .reg core bin r base len circ tok => Sys2Proof.Machine.execReg core bin r base len circ tok s
  | .loop core n strides tok => Sys2Proof.Machine.execLoop core n strides tok s
  | .endl core tok => Sys2Proof.Machine.execEndl core tok s
  | .wait core w tok => Sys2Proof.Machine.execWait core w tok s
  | .sig core n tok => Sys2Proof.Machine.execSig core n tok s
  | .bnd core live tok => Sys2Proof.Machine.execBnd core live tok s
  | .endOp core tok => Sys2Proof.Machine.execEndOp core tok s
  | .trackStepStart => Sys2Proof.Machine.execTrackStepStart s
  | .embWaitExpiry slot => Sys2Proof.Machine.execEmbWaitExpiry slot s
  | .trackStepEnd slot => Sys2Proof.Machine.execTrackStepEnd slot s
  | .recordWrite => Sys2Proof.Machine.execRecordWrite s
  | .ringIrqTimer ring => Sys2Proof.Machine.execRingIrqTimer ring s
  | .scrubSlot clu => Sys2Proof.Machine.execScrubSlot clu s
  | .bankDrainEnd clu bank => Sys2Proof.Machine.execBankDrainEnd clu bank s
  | .bankZeroFillDone clu bank => Sys2Proof.Machine.execBankZeroFillDone clu bank s
  | .domainUsable dom => Sys2Proof.Machine.execDomainUsable dom s
  | .cooperAllocation owner bytes mask => Sys2Proof.Machine.execCooperAllocation owner bytes mask s
  | .cooperFree handle => Sys2Proof.Machine.execCooperFree handle s
  | .cooperRefill pool => Sys2Proof.Machine.execCooperRefill pool s
  | .listLinkRead pool => Sys2Proof.Machine.execListLinkRead pool s
  | .hbmRequest req => Sys2Proof.Machine.execHbmRequest req s
  | .hbmReadData pch id => Sys2Proof.Machine.execHbmReadData pch id s
  | .refresh pch => Sys2Proof.Machine.execRefresh pch s
  | .stackTemperatureRead deg => Sys2Proof.Machine.execStackTemperatureRead deg s
  | .hbmPatrolRead pch => Sys2Proof.Machine.execHbmPatrolRead pch s
  | .powerDownEntry ch => Sys2Proof.Machine.execPowerDownEntry ch s
  | .repairDone ch ok => Sys2Proof.Machine.execRepairDone ch ok s
  | .probe port => Sys2Proof.Machine.execProbe port s
  | .probeReceived port t1 => Sys2Proof.Machine.execProbeReceived port t1 s
  | .echoReceived port t1 t2 t3 => Sys2Proof.Machine.execEchoReceived port t1 t2 t3 s
  | .marker => Sys2Proof.Machine.execMarker s
  | .markerReceived port value => Sys2Proof.Machine.execMarkerReceived port value s
  | .markerAbsent => Sys2Proof.Machine.execMarkerAbsent s
  | .timeInEdge => Sys2Proof.Machine.execTimeInEdge s
  | .timeInAbsent => Sys2Proof.Machine.execTimeInAbsent s
  | .timeOutStart => Sys2Proof.Machine.execTimeOutStart s
  | .timeOutEnd => Sys2Proof.Machine.execTimeOutEnd s
  | .flitReceived port f => Sys2Proof.Machine.execFlitReceived port f s
  | .nakReceived port seq => Sys2Proof.Machine.execNakReceived port seq s
  | .linkUp port peer peerPort laneErrs ok => Sys2Proof.Machine.execLinkUp port peer peerPort laneErrs ok s
  | .creditReturn port lane n => Sys2Proof.Machine.execCreditReturn port lane n s
  | .transferUnitStart item entry => Sys2Proof.Machine.execTransferUnitStart item entry s
  | .unitLanded item entry => Sys2Proof.Machine.execUnitLanded item entry s
  | .dueTick item entry => Sys2Proof.Machine.execDueTick item entry s
  | .slackExpiry item entry => Sys2Proof.Machine.execSlackExpiry item entry s
  | .relayUnitLanded u => Sys2Proof.Machine.execRelayUnitLanded u s
  | .faultReport f => Sys2Proof.Machine.execFaultReport f s
  | .spareResetCheckDone clu ok => Sys2Proof.Machine.execSpareResetCheckDone clu ok s
  | .periodBreach pipe => Sys2Proof.Machine.execPeriodBreach pipe s
  | .divergence pair => Sys2Proof.Machine.execDivergence pair s
  | .watchdogExpiry pair => Sys2Proof.Machine.execWatchdogExpiry pair s
  | .pairRestartDone pair => Sys2Proof.Machine.execPairRestartDone pair s
  | .bothPairsResetTimeout => Sys2Proof.Machine.execBothPairsResetTimeout s
  | .faultJournalWrite => Sys2Proof.Machine.execFaultJournalWrite s
  | .dumWrite kind unit sub value => Sys2Proof.Machine.execDumWrite kind unit sub value s
  | .winnowSegmentStart g => Sys2Proof.Machine.execWinnowSegmentStart g s
  | .winnowSegmentEnd unitKind unit pass_ => Sys2Proof.Machine.execWinnowSegmentEnd unitKind unit pass_ s
  | .testOverrun unitKind unit => Sys2Proof.Machine.execTestOverrun unitKind unit s
  | .goldenWindowCutoff item => Sys2Proof.Machine.execGoldenWindowCutoff item s
  | .handoverStart clu core => Sys2Proof.Machine.execHandoverStart clu core s
  | .handoverSubstitution clu => Sys2Proof.Machine.execHandoverSubstitution clu s
  | .coreTestDone core pass_ age => Sys2Proof.Machine.execCoreTestDone core pass_ age s
  | .latentOverdue seg unitKind unit => Sys2Proof.Machine.execLatentOverdue seg unitKind unit s
  | .flashPatrol block page bits => Sys2Proof.Machine.execFlashPatrol block page bits s
  | .wearLevelMove part => Sys2Proof.Machine.execWearLevelMove part s
  | .thermalConversion degs => Sys2Proof.Machine.execThermalConversion degs s
  | .unlistedCommand r code => Sys2Proof.Machine.execUnlistedCommand r code s
  | .flashOperationDone ok => Sys2Proof.Machine.execFlashOperationDone ok s
  | .pcieLinkUp speed width => Sys2Proof.Machine.execPcieLinkUp speed width s
  | .busMasterEnableSet => Sys2Proof.Machine.execBusMasterEnableSet s
  | .pmeStatusClear => Sys2Proof.Machine.execPmeStatusClear s
  | .spareBankCopyStart clu bank => Sys2Proof.Machine.execSpareBankCopyStart clu bank s
  | .deferredDomainSwitchOn => Sys2Proof.Machine.execDeferredDomainSwitchOn s
  | .selfRefreshExitDone => Sys2Proof.Machine.execSelfRefreshExitDone s
  | .tapInstruction ir dr => Sys2Proof.Machine.execTapInstruction ir dr s
  | .vddAonPowerLoss => Sys2Proof.Machine.execVddAonPowerLoss s
  | .entropyHealthTest pass_ => Sys2Proof.Machine.execEntropyHealthTest pass_ s

end Sys2Proof.Machine
end

