-- ==== Sys2Proof/Safety.lean ====
section
/-!
DEFINITION. Sys2Proof/Safety.lean: the terms the claims use: what belongs to the part, its rails and its clock; the invariant of
a running device; what a read of a register or a memory byte sees; frames.
-/

namespace Sys2Proof.Machine

/-- What only the clock and the resets change: the queue, the Tally (12_determinism_and_fabric.md R283), the part's grade and
serial number, the rails and straps (17_power_clocks_and_reset.md R402, R409), and a Tally step that waits for a SYSREF edge. -/
structure Base where
  pending : List Instr
  tally : Tally
  tallyRun : Bool
  gradeSC : Bool
  serial : Nat
  vddAon : Bool
  perst : Bool
  clkHold : Bool
  testEn : Bool
  smbAddr : Nat
  step : Option Int
deriving DecidableEq, Repr

/-- The base part of a state. -/
def State.base (s : State) : Base :=
  ⟨s.pending, s.tally, s.tallyRun, s.gradeSC, s.serial, s.power.vddAon, s.power.perst, s.power.clkHold, s.power.testEn,
    s.power.smbAddr, s.fab.step⟩

/-- A cluster's memory is canonical. -/
abbrev CluS.canon (c : CluS) : Bool := c.mem.wf

/-- A core's bins are canonical. -/
abbrev CoreS.canon (c : CoreS) : Bool := c.wbin.wf && c.abin.wf && c.pbin.wf

/-- The register file and every memory of the device (HBM, the Granary of each cluster, the bins of each
core and of each saved context, and the mailbox's request buffer) are in canonical form: numbers strictly rising, nothing listed that equals its default. -/
def State.Canon (s : State) : Prop :=
  twf 0 s.rf.live = true ∧ twf 0 s.rf.shadow = true ∧ s.hbm.mem.wf = true ∧
    (∀ k, (tget {} s.clus k).canon = true) ∧ (∀ k, (tget {} s.cores k).canon = true) ∧
    (∀ k, (tget {} s.ctxCores k).canon = true) ∧ twf 0 s.sec.reqBuf = true

/-- What every step keeps: canonical memories; a Tally that counts exactly while the base domain runs
(17_power_clocks_and_reset.md R402, R403); and a waiting Tally step of a multiple of 13 ticks (12 R283, R286, R288), which exists
only while the base domain runs. -/
def State.Inv (s : State) : Prop :=
  s.Canon ∧ s.tallyRun = s.live ∧ ∀ d, s.fab.step = some d → 13 ∣ d ∧ s.live = true

/-- Nothing moves by itself in a tick: no instruction in flight, no request on its way to HBM, no write-back that waits (log entry 1). -/
def State.atRest (s : State) : Bool :=
  s.cores.all (fun e => e.2.flights.all (fun f => f.2.isNone)) && s.hbm.ports.isEmpty && s.hbm.flying.isEmpty && s.hbm.wbq.isEmpty &&
    s.clus.all (fun e => e.2.wbIn.isEmpty)

/-- A host read has begun: it is listed under the next number, and its requests that may go out have gone out (16 R382). -/
def readBegun (s : State) (kind : ReadKind) (addr len : Nat) (keep : Bool) : State :=
  issueRead s.pcie.readId 257 { s with pcie := { s.pcie with
    reads := s.pcie.reads ++ [{ id := s.pcie.readId, kind := kind, addr := addr, len := len, next := 0, reqs := [], keep := keep }],
    readId := s.pcie.readId + 1 } }

/-! ## Register writes (00_scope.md R9; 14_security_and_sessions.md R342) -/

/-- A write of field `f` of page `p`, directly or by the session of a tag, is served and reaches it: the page is up, and the field is the
host's on an open page or a direct one, or the open session's role may write it. -/
def WritesTo (s : State) (session : Option Nat) (p : Nat) (f : Fld) : Prop :=
  s.live = true ∧ pageUp s p = true ∧ match session with
    | none => memServed s = true ∧ mayWrite .direct p f = true
    | some t => tagOpen s t none = true ∧ mayWrite (.cmd t (sess s (t % 16)).role) p f = true

/-- A W1C field after a write of `v`: each 1 clears its bit. -/
def cleared (s : State) (f : Fld) (i v : Nat) : State := putF s f i 0 0 ((getF s f i 0 0).xor ((getF s f i 0 0).land (f.slice v)))

/-! ## Mailbox requests (14_security_and_sessions.md R336, R337) -/

/-- The session slot a request names. -/
def asker (s : State) (r : MbReq) : Sess := sess s (r.session % 16)

/-- The request, with command code `cmd` and payload `p`, passes every check of R337: the base domain runs, the mailbox is free, the
request names an open session by its tag, carries that session's next sequence number and the tag over header and payload, and
the session's role may give the command. -/
def Asks (s : State) (r : MbReq) (cmd : Nat) (p : List Byte) (roles : Option Nat → Bool) : Prop :=
  s.live = true ∧ pageUp s 7 = true ∧ reg s F.SEC_MB_STATE_STATE ≠ 1 ∧ r.session ≠ 0 ∧ tagOf s (r.session % 16) = r.session ∧
    (asker s r).isOpen = true ∧ r.seq = (asker s r).seq ∧ r.tag = reqTag (asker s r).key r.session cmd r.seq p ∧
    mbMay s (r.session % 16) cmd roles = true

/-- The state in which an accepted request's command acts: the request is counted, and the session's sequence number is used up. -/
def asked (s : State) (r : MbReq) : State :=
  putSess (addR s F.SEC_COMMANDS 1) (r.session % 16) { asker s r with badRun := 0, seq := (asker s r).seq + 1 }

/-- A request outside every session that passes the checks of R337: OPEN, PROVISION and GET_CERT. -/
def AsksOpenly (s : State) (r : MbReq) : Prop :=
  s.live = true ∧ pageUp s 7 = true ∧ reg s F.SEC_MB_STATE_STATE ≠ 1 ∧ r.session = 0 ∧ r.tag = 0

/-! ## Tile instructions (04_compute_core.md R87 to R90, R104) -/

/-- What is in flight on core `p` has gone on, and instruction `c` of its item `it` may issue to engine `e`: the state `s` is that
of the issue (log entry 133). -/
def Issues (s0 : State) (p : Nat) (c : TileCmd) (e : Engine) (it : Item) (s : State) : Prop :=
  s0.live = true ∧ pumpCore s0 p = s ∧ itemOn s p = some it ∧ issueOk s p it.key c e = true

/-- The operands of an instruction that stand in bins are there to read at once, and its results have room there. -/
def Feeds (s : State) (p : Nat) (it : Item) (rd wr : List (Oper × Nat)) : Prop :=
  opersReady s p it rd = true ∧ wr.all (operRoom s p it) = true ∧ (rd ++ wr).any (fun x => x.1.isGran) = false

/-- The state after the issue of instruction `c` to engine `e` for `n` CLK_ARITH cycles, in which it takes effect. -/
def issueOn (s : State) (p : Nat) (c : TileCmd) (e : Engine) (n : Nat) : State := issued (flushBins s p) p c e n

/-- The effect of an instruction that issues with operands `rd` for `n` cycles: they are read, `post` makes of their bytes what is to be
written, and that is written, unless they could not be delivered: then the item has ended. -/
def effectOn (s : State) (p : Nat) (it : Item) (c : TileCmd) (e : Engine) (n : Nat) (rd : List (Oper × Nat)) (post : Post) : State :=
  let a := readOpers (issueOn s p c e n) p it rd
  let b := runPost a.1 p it (infoOf a.2) (a.2.map (fun b => b.bytes)) post
  b.2.foldl (fun t o => writeOper t p it o (2 * s.now + n)) b.1

/-- What a vector operation writes: its result at `y`, an unstated element as a free value; wraps and non-finite inputs are noted. -/
def resultAt (p : Nat) (y : Oper) (f : CoreS → List (List Byte) → VRes) : Post := fun it bs t =>
  let r := vecResult t p it (f (core t p) bs)
  (r.1, [(y, r.2)])

end Sys2Proof.Machine

namespace Sys2Proof

/-- The commands that change the base part: power, PERST_N and clock loss, and the two events that set a Tally step. -/
def Instr.changesBase : Instr → Bool
  | .vddAonPowerOn _ _ _ _ => true
  | .vddAonPowerLoss => true
  | .perstNAssert => true
  | .perstNRelease _ => true
  | .clockLossReset _ => true
  | .markerReceived _ _ => true
  | .timeInEdge => true
  | _ => false

/-- The one command, and the one state, that end in a refusal: a debug instruction of the TAP once JTAG_UNLOCK has opened it
(14_security_and_sessions.md R354: the spec does not say what a debug instruction does). -/
def Instr.stopsAt (i : Instr) (s : Machine.State) : Prop :=
  match i with
  | .tapInstruction (.debug _) _ => s.power.vddAon = true ∧ s.live = true ∧ Machine.flag s Machine.F.SEC_STATE_JTAG_OPEN = true
  | _ => False

end Sys2Proof
end

