-- ==== Sys2Proof/Certificates/Slice0/Obligations.lean ====
section
/-!
DEFINITION. Sys2Proof/Certificates/Slice0/Obligations.lean: the statements for the provers. Each docstring gives the title; the statement
in words, its kind and what it cites stand in OBLIGATIONS.json.
-/

open Sys2Proof.Machine

/-- A step runs the command at the front of the queue. -/
def Obligations.StepRunsFront : Prop :=
  ∀ (c : Sys2Proof.Instr) (rest : List Sys2Proof.Instr) (s : State),
    step { s with pending := c :: rest } = exec c { s with pending := rest }

/-- With nothing waiting a step is one tick of the Tally, and a waiting alignment step is made at a SYSREF edge. -/
def Obligations.IdleTick : Prop :=
  ∀ s : State, s.pending = [] →
    (s.tallyRun = false → step s = .next s) ∧
    (s.tallyRun = true → s.fab.step = none → ∃ t, step s = .next t ∧ t.base = { s.base with tally := s.tally + 1 }) ∧
    (∀ d, s.tallyRun = true → s.fab.step = some d → (s.tally + 1).toNat % 13 ≠ 0 →
      ∃ t, step s = .next t ∧ t.base = { s.base with tally := s.tally + 1 }) ∧
    (∀ d, s.tallyRun = true → s.fab.step = some d → (s.tally + 1).toNat % 13 = 0 →
      ∃ t, step s = .next t ∧ t.base = { s.base with tally := s.tally + 1 + BitVec.ofInt 64 d, step := none }) ∧
    (s.tallyRun = true → s.atRest = true → (s.fab.step = none ∨ (s.tally + 1).toNat % 13 ≠ 0) →
      step s = .next { s with tally := s.tally + 1 }) ∧
    (∀ d, s.tallyRun = true → s.atRest = true → s.fab.step = some d → (s.tally + 1).toNat % 13 = 0 → s.fab.stepAligns = true →
      ∃ t, step s = .next t ∧ reg t F.TALLY_STATE_STATE = 2 ∧ reg t F.TALLY_CTRL_ALIGN = 0)

/-- What the machine holds right after reset. -/
def Obligations.ResetState : Prop :=
  State.reset.pending = [] ∧ State.reset.power.vddAon = true ∧ State.reset.power.perst = true ∧ State.reset.live = false ∧
    State.reset.tally = 0 ∧ State.reset.tallyRun = false ∧ State.reset.hbm.mem = {} ∧ State.reset.clus = [] ∧ State.reset.cores = [] ∧
    State.reset.plans = [] ∧ State.reset.disp.items = [] ∧ State.reset.ctxs = [] ∧ State.reset.power.xspiCsHigh = true ∧
    ∀ (f : Fld) (i k x : Nat), getF State.reset f i k x = f.reset i x ∧ getSh State.reset f i k x = f.reset i x

/-- The invariant holds right after reset. -/
def Obligations.ResetInv : Prop :=
  State.reset.Inv

/-- Every step keeps the invariant. -/
def Obligations.StepInv : Prop :=
  ∀ s t : State, s.Inv → step s = .next t → t.Inv

/-- No command but power, PERST_N, clock loss, a phase marker and a TIME_IN edge changes the Tally, the rails or the part's
identity. -/
def Obligations.OnlyTheseTouchTheBase : Prop :=
  ∀ (c : Sys2Proof.Instr) (rest : List Sys2Proof.Instr) (s t : State), c.changesBase = false →
    step { s with pending := c :: rest } = .next t → t.base = { s.base with pending := rest }

/-- A phase marker or a TIME_IN edge changes no more of the base part than a waiting Tally step, and that step is a multiple of
13. -/
def Obligations.MarkersAndEdgesStepBy13 : Prop :=
  (∀ (port value : Nat) (s : State), ∃ t, exec (.markerReceived port value) s = .next t ∧
    (t.base = s.base ∨ ∃ d : Int, 13 ∣ d ∧ t.base = { s.base with step := some d })) ∧
  (∀ s : State, ∃ t, exec .timeInEdge s = .next t ∧
    (t.base = s.base ∨ ∃ d : Int, 13 ∣ d ∧ t.base = { s.base with step := some d }))

/-- Every command answers a next state in every state, but for a debug instruction of the opened TAP. -/
def Obligations.EveryCommandAnswers : Prop :=
  ∀ (c : Sys2Proof.Instr) (s : State),
    (∃ t, exec c s = .next t) ∨ (exec c s = .refused .debugInstruction ∧ c.stopsAt s)

/-- A register field reads as written, and nothing else of the register file changes. -/
def Obligations.RegisterReadAfterWrite : Prop :=
  ∀ (s : State) (f g : Fld) (i k x v j l y : Nat),
    getF (putF s f i k x v) f i k x = v % 2 ^ f.width ∧ getSh (putF s f i k x v) g j l y = getSh s g j l y ∧
    getSh (putSh s f i k x v) f i k x = v % 2 ^ f.width ∧ getF (putSh s f i k x v) g j l y = getF s g j l y ∧
    (f.id < 1024 → g.id < 1024 → k < 1024 → l < 1024 → x < 128 → y < 128 →
      (f.base + i ≠ g.base + j ∨ f.id ≠ g.id ∨ k ≠ l ∨ x ≠ y) →
      getF (putF s f i k x v) g j l y = getF s g j l y ∧ getSh (putSh s f i k x v) g j l y = getSh s g j l y)

/-- A memory reads as it was written, codewords outside the write are untouched, and a write leaves good codewords. -/
def Obligations.MemoryReadAfterWrite : Prop :=
  ∀ (m : Mem) (a : Nat) (b : List Sys2Proof.Byte),
    (m.write a b).read a b.length = b ∧
    (∀ x, (x / 16 < a / 16 ∨ (a + b.length - 1) / 16 < x / 16) → (m.write a b).byte x = m.byte x ∧ (m.write a b).pat (x / 16) = m.pat (x / 16)) ∧
    (∀ w, 0 < b.length → a / 16 ≤ w → w ≤ (a + b.length - 1) / 16 → (m.write a b).pat w = 0) ∧
    (m.wf = true → (m.write a b).wf = true)

/-- Two canonical memories that hold the same are the same data. -/
def Obligations.CanonicalMemoriesAreEqual : Prop :=
  ∀ m n : Mem, m.wf = true → n.wf = true → (∀ a, tget 0 m.data a = tget 0 n.data a) → (∀ w, m.pat w = n.pat w) → m = n

/-- What power-on, power loss, PERST_N asserted and PERST_N released leave. -/
def Obligations.PowerAndResetPins : Prop :=
  (∀ (sc : Bool) (serial : Nat) (testEn : Bool) (smbAddr : Nat) (s : State), s.power.vddAon = false →
    exec (.vddAonPowerOn sc serial testEn smbAddr) s = .next (gradeLevels { s with
      gradeSC := sc, serial := serial % 2 ^ 64, power := { testEn := testEn, smbAddr := smbAddr % 4 } })) ∧
  (∀ s : State, s.power.vddAon = true → ∃ t, exec .vddAonPowerLoss s = .next t ∧ t.power.vddAon = false ∧ t.rf = {} ∧ t.tally = 0 ∧
    t.tallyRun = false ∧ t.cores = [] ∧ t.clus = [] ∧ t.hbm.mem = {} ∧ t.plans = [] ∧ t.disp.items = [] ∧ t.sec.sess = [] ∧
    t.flash = s.flash ∧ t.pending = s.pending) ∧
  (∀ s : State, s.power.vddAon = true → s.power.perst = false → ∃ t, exec .perstNAssert s = .next t ∧ t.live = false ∧
    t.power.perst = true ∧ t.power.xspiCsHigh = true ∧ t.tally = 0 ∧ t.tallyRun = false ∧ t.cores = [] ∧ t.clus = [] ∧ t.hbm.mem = {} ∧
    t.ctxs = [] ∧ t.plans = [] ∧ t.disp.items = [] ∧ t.sec.sess = [] ∧ t.flash = s.flash ∧ t.mgmt.fjAll = s.mgmt.fjAll ∧
    t.mgmt.dum = s.mgmt.dum ∧ t.power.testEn = s.power.testEn ∧ t.power.smbAddr = s.power.smbAddr ∧ t.pending = s.pending ∧
    (s.power.clkHold = false → reg t F.PWR_RESET_CAUSE = 1)) ∧
  (∀ (b : BootIn) (s : State), s.power.vddAon = true → s.power.perst = true →
    let s1 := { s with
      tally := 0
      tallyRun := true
      power := { s.power with perst := false, clkHold := false, xspiCsHigh := false }
      mgmt := { s.mgmt with bootCount := s.mgmt.bootCount + 1 } }
    let s2 := setR (setR (setR s1 F.CLK_PLL 63) F.PCIE_LINK_STATE 1) F.MGMT_BOOT_COUNT s1.mgmt.bootCount
    (∀ slot img fb, bootSlotOf s2 = some (slot, img, fb) → exec (.perstNRelease b) s = .next (bootDevice s2 b slot img fb)) ∧
    (bootSlotOf s2 = none → exec (.perstNRelease b) s =
      .next (setR (setR (setR s2 F.MGMT_STATE_PAIR_A 3) F.MGMT_STATE_PAIR_B 3) F.SYS_STATUS_HALTED 1)))

/-- What a hot reset, link down, a function-level reset and a loss of each clock do. -/
def Obligations.LinkResetsAndClockLoss : Prop :=
  (∀ s : State, s.live = true → 2 ≤ reg s F.PCIE_LINK_STATE →
    let started (t : State) : Prop := reg t F.PCIE_LINK_STATE = 1 ∧ reg t F.PCIE_LINK_SPEED = 0 ∧ reg t F.PCIE_LINK_WIDTH = 0 ∧
      reg t F.PWR_RESET_CAUSE = 3 ∧ reg t F.SYS_STATUS_PHASE = 0 ∧ reg t F.SYS_STATUS_READY = 0 ∧ t.pcie.hotStart = true ∧
      t.pcie.bme = false ∧ t.pcie.memSpace = false ∧ t.pcie.msixEn = false ∧ t.pcie.maxPayload = 128 ∧ t.pcie.maxRead = 512
    (∃ t, exec .hotReset s = .next t ∧ t = setR (addR (hotReset s) F.PCIE_HOT_RESETS 1) F.PCIE_POWER_LAST_RESET 1 ∧ started t ∧
      reg t F.PCIE_POWER_LAST_RESET = 1) ∧
    (s.d0 = true → ∃ t, exec .linkDown s = .next t ∧ t = setR (addR (hotReset s) F.PCIE_LINK_DOWNS 1) F.PCIE_POWER_LAST_RESET 3 ∧
      started t ∧ reg t F.PCIE_POWER_LAST_RESET = 3) ∧
    (s.d0 = false → exec .linkDown s =
      .next (setR (setR (setR s F.PCIE_LINK_STATE 0) F.PCIE_LINK_SPEED 0) F.PCIE_LINK_WIDTH 0)) ∧
    (∃ t, exec .functionLevelReset s = .next t ∧
      t = setR (setR (addR (funcReset s false) F.PCIE_FLRS 1) F.PCIE_POWER_LAST_RESET 2) F.PWR_RESET_CAUSE 4 ∧
      reg t F.PCIE_POWER_LAST_RESET = 2 ∧ reg t F.PWR_RESET_CAUSE = 4 ∧ reg t F.PCIE_CTO = 50000 ∧ t.pcie.bme = false ∧
      t.pcie.memSpace = false ∧ t.pcie.msixEn = false ∧ t.pcie.fnMask = false ∧ t.pcie.maxRead = 512)) ∧
  (∀ (cause : Nat) (s : State), s.live = true → cause < 5 → ∃ t, exec (.clockLossReset cause) s = .next t ∧ t.live = false ∧
    t.power.clkHold = true ∧ t.power.perst = false ∧ t.tally = 0 ∧ t.tallyRun = false ∧ t.cores = [] ∧ t.clus = [] ∧ t.hbm.mem = {} ∧
    t.plans = [] ∧ t.disp.items = [] ∧ t.flash = s.flash ∧ reg t F.CLK_LOSS = 2 ^ cause ∧ reg t F.PWR_RESET_CAUSE = 2 ∧
    regX t F.THERM_TEMP_MAX 3 = regX s F.THERM_TEMP_MAX 3) ∧
  (∀ s : State, s.live = true →
    let s1 := setR (setR s F.CLK_LOSS 32) F.CLK_PLL (clrBit (reg s F.CLK_PLL) 3)
    (2 ≤ reg s F.PCIE_LINK_STATE → exec (.clockLossReset 5) s = .next (linkDown s1)) ∧
    (reg s F.PCIE_LINK_STATE < 2 → exec (.clockLossReset 5) s = .next s1)) ∧
  (∀ s : State, s.live = true →
    exec (.clockLossReset 6) s = .next ((upto 4).foldl (fun t p => if portUp t p then portDown t p false else t)
      (setR (setR s F.CLK_LOSS 64) F.CLK_PLL (clrBit (reg s F.CLK_PLL) 5))))

/-- The reset part of a hot or function-level reset returns exactly the host-owned fields of Table 16-7 to their reset values. -/
def Obligations.HostFieldsReset : Prop :=
  ∀ (s : State) (f : Fld) (i k x : Nat), f ∈ allFields → i < f.n → k < 1024 → x < 128 →
    (resetField f (f.base + i) = true →
      getF (resetHostFields s) f i k x = f.reset i x ∧ getSh (resetHostFields s) f i k x = f.reset i x) ∧
    (resetField f (f.base + i) = false → f.id ≠ (stateFld false).id →
      getF (resetHostFields s) f i k x = getF s f i k x ∧ getSh (resetHostFields s) f i k x = getSh s f i k x)

/-- What the SMBus target answers, and what an Alert Response and a wake do. -/
def Obligations.SmbusCommands : Prop :=
  ∀ s : State, s.power.vddAon = true →
    (∀ sensor, sensor < 13 → exec (.smbusReadTemperature sensor) s = .next (emit s (.smbus (regX s F.THERM_TEMP_DEG sensor)))) ∧
    exec .smbusReadVcore s = .next (emit s (.smbus (if s.live then reg s F.PWR_VCORE else 0x8000))) ∧
    exec .smbusReadStatus s = .next (emit s (.smbus (smbusStatus s))) ∧
    exec .smbusReadTrim s = .next (emit s (.smbus (reg s F.PWR_TRIM_CODE))) ∧
    exec .alertResponse s = .next { s with power := { s.power with smbAlert := false } } ∧
    (s.power.perst = true →
      exec .smbusWake s = .next (setR { s with power := { s.power with wakeN := true } } F.PCIE_POWER_WAKE 1))

/-- What each instruction of the TAP does, and where a debug instruction stops. -/
def Obligations.TapCommands : Prop :=
  ∀ (dr : List Bool) (s : State), s.power.vddAon = true →
    exec (.tapInstruction .bypass dr) s = .next (emit s (.tapBits ((false :: dr).take dr.length))) ∧
    (∃ t bits, exec (.tapInstruction .idcode dr) s = .next (emit t (.tapBits bits)) ∧ bits.length = dr.length ∧
      t = { s with freeCtr := s.freeCtr + dr.length }) ∧
    exec (.tapInstruction .samplePreload dr) s = exec (.tapInstruction .idcode dr) s ∧
    (s.power.perst = true → exec (.tapInstruction .extest dr) s = exec (.tapInstruction .idcode dr) s) ∧
    (s.power.perst = false → exec (.tapInstruction .extest dr) s = .next s) ∧
    (∀ n, s.live = true → flag s F.SEC_STATE_JTAG_OPEN = true → exec (.tapInstruction (.debug n) dr) s = .refused .debugInstruction) ∧
    (∀ n, flag s F.SEC_STATE_JTAG_OPEN = false → exec (.tapInstruction (.debug n) dr) s = .next s)

/-- What a thermal conversion and a reading of the stack temperature do. -/
def Obligations.Temperatures : Prop :=
  (∀ (degs : List Int) (s : State), s.power.vddAon = true →
    let s1 := (enumFrom 0 (degs.take 12)).foldl (fun t e => putTemp t e.1 e.2) s
    exec (.thermalConversion degs) s = .next (if s1.live then compareTemps s1 else holdLevels s1)) ∧
  (∀ (deg : Int) (s : State), s.live = true → s.now % 2 ^ 20 = 0 → reg s F.HBMC_STATE_STATE = 2 →
    exec (.stackTemperatureRead deg) s = .next (compareTemps (putTemp
      (setR (setR s F.HBMC_TEMP_DEG (enc 8 (satI 8 deg))) F.HBMC_TEMP_DOUBLE (bnat (decide (stackHotDeg < satI 8 deg)))) 12 (satI 8 deg))))

/-- What a divergence, a watchdog expiry and the ends of a pair's reset do. -/
def Obligations.ManagementPairs : Prop :=
  ∀ s : State, s.live = true →
    (pairDown s 0 = false →
      let ends (t : State) : State :=
        { t.winnow.handovers.foldl (fun t h => putF t F.WINNOW_CLU_STATE 0 0 h.1 0) t with winnow := { t.winnow with handovers := [] } }
      exec (.divergence 0) s = .next (ends (resetPair (addR s F.MGMT_DIVERGENCES 1) 0 1)) ∧
      exec (.watchdogExpiry 0) s = .next (ends (resetPair (addR s F.MGMT_WDOG_EXPIRIES 1) 0 2))) ∧
    (pairDown s 1 = false →
      exec (.divergence 1) s = .next (dropServices (flashReset (resetPair (addR s F.MGMT_DIVERGENCES 1) 1 1))) ∧
      exec (.watchdogExpiry 1) s = .next (dropServices (flashReset (resetPair (addR s F.MGMT_WDOG_EXPIRIES 1) 1 2)))) ∧
    (pairDown s 0 = true → exec (.pairRestartDone 0) s =
      .next (setR { s with mgmt := { s.mgmt with resetAt := tset none s.mgmt.resetAt 0 none } } F.MGMT_STATE_PAIR_A 1)) ∧
    (pairDown s 1 = true → exec (.pairRestartDone 1) s = .next (flashReplay
      (setR { s with mgmt := { s.mgmt with resetAt := tset none s.mgmt.resetAt 1 none } } F.MGMT_STATE_PAIR_B 1))) ∧
    (∀ a b, tget none s.mgmt.resetAt 0 = some a → tget none s.mgmt.resetAt 1 = some b →
      (a + 13000000 < s.now → b + 13000000 < s.now → exec .bothPairsResetTimeout s = .next (enterSafe s)) ∧
      (s.now ≤ a + 13000000 ∨ s.now ≤ b + 13000000 → exec .bothPairsResetTimeout s = .next s))

/-- What the fault collector does with a report of each class, and how a spare's reset check ends a reaction. -/
def Obligations.FaultsAndReactions : Prop :=
  (∀ (f : FaultRep) (s : State), s.live = true → f.test = true → exec (.faultReport f) s = .next s) ∧
  (∀ (f : FaultRep) (s : State), s.live = true → f.test = false →
    (∀ p col adder, f.cls = .core p col adder → p < 72 →
      exec (.faultReport f) s = .next (coreFault (addI s F.CORE_RESIDUE_ERR p 1) p (col % 64 + 256 * bnat adder))) ∧
    (∀ kind unit addr poison d ps, f.cls = .memory kind unit addr poison d ps →
      exec (.faultReport f) s = .next (memoryFault s kind unit addr poison d ps (itemsOn s ps))) ∧
    (∀ k b ps, f.cls = .dark k b ps → k < 8 → b < 17 → exec (.faultReport f) s = .next (darkFault s k b (itemsOn s ps))) ∧
    (∀ p, f.cls = .link p → portUp s p = true → exec (.faultReport f) s = .next (portDown s p false)) ∧
    (∀ pair cause, f.cls = .management pair cause → exec (.faultReport f) s = .next (pairFault s pair cause)) ∧
    (∀ i, f.cls = .trackLedger i → exec (.faultReport f) s = .next (trackFault s i)) ∧
    (f.cls = .thermal → exec (.faultReport f) s = .next (compareTemps s)) ∧
    (∀ c, f.cls = .decoder c → c < 9 → exec (.faultReport f) s = .next (decoderFault s c)) ∧
    (f.cls = .selfCheck → exec (.faultReport f) s = .next (enterSafe { s with faults := { s.faults with selfCheck := true } }))) ∧
  (∀ (clu : Nat) (r : Reaction) (l q : Nat) (s : State), s.live = true → tget none s.faults.reactions clu = some r →
    r.logical = some l → r.spare = some q → r.since + 117000 ≤ s.now →
    let s1 := { s with faults := { s.faults with reactions := tset none s.faults.reactions clu none } }
    let s3 := addR (clearTag (setI (modCore (setSpare (setPlace (supersedeMap s1) l q) clu none 3) q (fun _ => {})) F.CORE_STATE_STATE q 0) q)
      F.SYS_PLACE_GEN 1
    exec (.spareResetCheckDone clu true) s = .next (nextReport (relaunchAll s3 r.items s3.now) clu) ∧
    exec (.spareResetCheckDone clu false) s = .next (nextReport (noSpare (retireCore s1 q) clu q r.items) clu)) ∧
  (∀ (clu : Nat) (ok : Bool) (r : Reaction) (s : State), s.live = true → tget none s.faults.reactions clu = some r →
    (r.logical = none ∨ r.spare = none) → r.since + 117000 ≤ s.now →
    exec (.spareResetCheckDone clu ok) s =
      .next (nextReport { s with faults := { s.faults with reactions := tset none s.faults.reactions clu none } } clu))

/-- Writing the fault journal, choosing a journal entry and writing the disabled-unit map. -/
def Obligations.JournalsAndMap : Prop :=
  ∀ s : State, s.live = true →
    (pairDown s 1 = false → partFailed s 6 = false → s.mgmt.fjBuf.isEmpty = false →
      let all := s.mgmt.fjAll ++ s.mgmt.fjBuf.take 64
      let kept := if journalRoom s < all.length then all.drop 4096 else all
      exec .faultJournalWrite s = .next (logWrite (setR (setR
        { s with mgmt := { s.mgmt with fjBuf := s.mgmt.fjBuf.drop 64, fjAll := kept } }
        F.MGMT_FJ_FIRST (((kept.head?).map (fun e => e.number)).getD 0))
        F.MGMT_FJ_NEXT ((all.getLast?.map (fun e => e.number + 1)).getD 0)) .faultPage)) ∧
    (∀ n, pageUp s 8 = true →
      let s1 := setR (setR s F.MGMT_FJ_SEL n) F.MGMT_FJ_READY 0
      exec (.mgmtFjSelWrite n) s = .next (if pairDown s 0 then s1 else fjPlace s1 n)) ∧
    (∀ kind unit sub value, pairDown s 0 = false →
      let e : DumEntry := { kind := kind, unit := unit, sub := sub, value := value % 2 ^ 24 }
      (dumStands s e = true → s.mgmt.dum.contains e = false →
        let s1 := applyDum s e
        let l := putDum s1.mgmt.dum e
        let s2 := { s1 with mgmt := { s1.mgmt with dum := l, dumSeq := s1.mgmt.dumSeq + 1 } }
        exec (.dumWrite kind unit sub value) s =
          .next (writeRecord (setR (setR s2 F.MGMT_DUM_ENTRIES l.length) F.MGMT_DUM_SEQ s2.mgmt.dumSeq) 1 0)) ∧
      (s.mgmt.dum.contains e = true → exec (.dumWrite kind unit sub value) s = .next s))

/-- The access classes of the register fields: what a read returns and what a write changes. -/
def Obligations.AccessClasses : Prop :=
  ∀ (b : By) (x : Sels) (s : State) (p : Nat) (f : Fld) (k v : Nat),
    (f.acc = .wo → readFld s x p f k = 0) ∧
    (f.acc = .rws → readFld s x p f k = getSh s f (f.inst p) (x.of f) k) ∧
    (f.acc ≠ .wo → f.acc ≠ .rws → planView s x f = none → ctxView s x f = none → stateView s x p f k = none →
      readFld s x p f k = getF s f (f.inst p) (x.of f) k) ∧
    (f.acc = .ro ∨ f.acc = .rc → writeFld b x s p f k v = s) ∧
    (f.acc = .rws → ∀ g j l y, g.id ≠ F.PAGE_STATUS_ACCESS_VIOLATION.id → g.id < 1024 → l < 1024 → y < 128 →
      getF (writeFld b x s p f k v) g j l y = getF s g j l y) ∧
    (f.acc = .rws → isRoiList f = false → f.id ≠ F.PWR_DOM_ON.id →
      getSh (writeFld b x s p f k v) f (f.inst p) (x.of f) k = v % 2 ^ f.width) ∧
    (f.acc = .w1c → ∀ n, n < f.width → (getF (writeFld b x s p f k v) f (f.inst p) (x.of f) k).testBit n =
      ((getF s f (f.inst p) (x.of f) k).testBit n && !v.testBit n)) ∧
    (∀ off e, tget 0 s.rf.hold (pageBase p + off) = 0 → pageUp s p = true → e ∈ fieldsAt p off → e.1.acc = .rc →
      getF (hostReadReg s p off).2 e.1 (e.1.inst p) ((directSels s).of e.1) e.2 = 0)

/-- Reads of each space, and writes of each space by each writer. -/
def Obligations.HostRegisterAccess : Prop :=
  ∀ s : State, s.live = true →
    (∀ a, exec (.rcRead a) s = exec (.loRead .bar0 a 4) s) ∧
    (∀ a n, memServed s = false → exec (.loRead .bar0 a n) s = .next (emit (aer s .unsupportedRead) .unsupported) ∧
      exec (.loRead .bar2 a n) s = .next (emit (aer s .unsupportedRead) .unsupported) ∧
      exec (.loRead .bar4 a n) s = .next (emit (aer s .unsupportedRead) .unsupported)) ∧
    (∀ a n, memServed s = true → (a % 4 ≠ 0 ∨ n ≠ 4) →
      exec (.loRead .bar0 a n) s = .next (emit (addR s F.PCIE_BAD_ACCESS 1) (.readReply 0))) ∧
    (∀ a, memServed s = true → a % 4 = 0 → pageAt a = none → exec (.loRead .bar0 a 4) s = .next (emit s (.readReply 0))) ∧
    (∀ a p, memServed s = true → a % 4 = 0 → pageAt a = some p →
      exec (.loRead .bar0 a 4) s = .next (emit (hostReadReg s p (a % 0x1000)).2 (.readReply (hostReadReg s p (a % 0x1000)).1)) ∧
      exec (.rcRead a) s = .next (emit (hostReadReg s p (a % 0x1000)).2 (.readReply (hostReadReg s p (a % 0x1000)).1))) ∧
    (∀ a n, memServed s = true → exec (.loRead .bar2 a n) s = .next (emit s (.readBytes (bar2Read s a n))) ∧
      exec (.loRead .bar4 a n) s = .next (emit s (.readBytes (bar4Read s a n)))) ∧
    (∀ a n, flag s F.PCIE_LINK_STATE = true → exec (.loRead .cfg a n) s = .next (emit s (.readReply (cfgRead s (a / 4 * 4))))) ∧
    (cfgRead s 0 = 0x64241F7A ∧ cfgRead s 8 = 0x12000001 ∧ cfgRead s 0x34 = 0x40 ∧
      cfgRead s 0x2C = 0x1F7A + (if s.gradeSC then 0x00C1 else 0x00A1) * 2 ^ 16) ∧
    (∀ a n v p, memServed s = true → a % 4 = 0 → n = 4 → pageAt a = some p →
      exec (.registerWrite .host .bar0 a n v) s = .next (writeReg .direct (directSels s) s p (a % 0x1000) (v % 2 ^ 32)).1) ∧
    (∀ a n v, memServed s = true → a % 4 = 0 → n = 4 → pageAt a = none → exec (.registerWrite .host .bar0 a n v) s = .next s) ∧
    (∀ a n v, memServed s = true → (a % 4 ≠ 0 ∨ n ≠ 4) →
      exec (.registerWrite .host .bar0 a n v) s = .next (addR s F.PCIE_BAD_ACCESS 1)) ∧
    (∀ a n v sp, memServed s = false → (sp = .bar0 ∨ sp = .bar2 ∨ sp = .bar4) →
      exec (.registerWrite .host sp a n v) s = .next (aer s .unsupportedRequest)) ∧
    (∀ a n v, memServed s = true → exec (.registerWrite .host .bar2 a n v) s = .next (bar2Write s a n v)) ∧
    (∀ a n v, memServed s = true → exec (.registerWrite .host .bar4 a n v) s = .next (bar4Write s a n v)) ∧
    (∀ a n v, flag s F.PCIE_LINK_STATE = true → a % 4 = 0 → n = 4 →
      exec (.registerWrite .host .cfg a n v) s = .next (cfgWrite s a (v % 2 ^ 32))) ∧
    (∀ a n v, (flag s F.PCIE_LINK_STATE = false ∨ a % 4 ≠ 0 ∨ n ≠ 4) → exec (.registerWrite .host .cfg a n v) s = .next s) ∧
    (∀ a n v p, a % 4 = 0 → n = 4 → pageAt a = some p →
      exec (.registerWrite .fw .bar0 a n v) s = .next (writeReg .fw (directSels s) s p (a % 0x1000) (v % 2 ^ 32)).1) ∧
    (∀ sp a n v, exec (.registerWrite .none sp a n v) s = .next s)

/-- The register commands with a row of their own. -/
def Obligations.RegisterCommands : Prop :=
  ∀ s : State, s.live = true →
    (∀ page v ses, page < 139 → WritesTo s ses page F.INT_STATUS →
      exec (.intStatusClear (pageBase page + F.INT_STATUS.off) v ses) s = .next (cleared s F.INT_STATUS page v)) ∧
    (∀ page v ses, page < 139 → WritesTo s ses page F.PAGE_STATUS_ACCESS_VIOLATION →
      exec (.intStatusClear (pageBase page + F.PAGE_STATUS_ACCESS_VIOLATION.off) v ses) s =
        .next (cleared s F.PAGE_STATUS_ACCESS_VIOLATION page v)) ∧
    (∀ a v ses p, pageAt a = some p → (fieldsAt p (a % 0x1000)).any (fun e => decide (e.1.acc = .w1c)) = true →
      (ses.isSome || memServed s) = true → exec (.intStatusClear a v ses) s = .next (writeBy s ses p (a % 0x1000) v)) ∧
    (∀ page bits t, page < 139 → WritesTo s (some t) page F.INT_FORCE →
      exec (.intForce page bits t) s = .next (raiseInt s page (bits % 2 ^ 32))) ∧
    (∀ page ses, page < 139 → WritesTo s ses page F.PAGE_CTRL →
      ∃ t, exec (.errClr page ses) s = .next t ∧ t = clearErr s page ∧ regI t F.ERR_LAST_ADDR_LO page = 0 ∧
        regI t F.ERR_LAST_ADDR_HI page = 0 ∧ regI t F.ERR_LAST_SYNDROME page = 0) ∧
    (∀ t, s.disp.leaseEnd = some t → pageUp s 2 = true → memServed s = true → leaseRuns s = true → s.now ≤ t →
      exec .leaseRenew s = .next (startLease s)) ∧
    ((∀ t, s.disp.leaseEnd = some t → leaseRuns s = false ∨ t < s.now) → exec .leaseRenew s = .next s) ∧
    (∀ ses, WritesTo s ses 5 F.REEVE_FAULT_CLR → exec (.reeveFaultClr ses) s = .next (clearFaults s)) ∧
    (pageUp s 5 = true → memServed s = true → exec (.reeveFaultClr none) s = .next (violation s 5)) ∧
    (∀ ring idx, ring < 16 → pageUp s 15 = true →
      ((regX s F.RING_WIDX ring + 2 ^ 32 - idx % 2 ^ 32) % 2 ^ 32 ≤ (ringSpan s ring).2 →
        exec (.ringRidxWrite ring idx) s = .next (drain (setX s F.RING_RIDX ring (idx % 2 ^ 32)) ring)) ∧
      ((ringSpan s ring).2 < (regX s F.RING_WIDX ring + 2 ^ 32 - idx % 2 ^ 32) % 2 ^ 32 →
        exec (.ringRidxWrite ring idx) s = .next (setS s F.RING_STATE_RIDX_ERR ring 1))) ∧
    (∀ idx, pageUp s 2 = true →
      ((reg s F.DISP_JOURNAL_WIDX + 2 ^ 32 - idx % 2 ^ 32) % 2 ^ 32 ≤ journalSize s →
        let s1 := setR s F.DISP_JOURNAL_RIDX (idx % 2 ^ 32)
        (2 ^ 21 < journalFree s1 → exec (.dispJournalRidxWrite idx) s = .next (setR s1 F.SYS_STATUS_JOURNAL_FULL 0)) ∧
        (journalFree s1 ≤ 2 ^ 21 → exec (.dispJournalRidxWrite idx) s = .next s1)) ∧
      (journalSize s < (reg s F.DISP_JOURNAL_WIDX + 2 ^ 32 - idx % 2 ^ 32) % 2 ^ 32 →
        exec (.dispJournalRidxWrite idx) s = .next (raiseInt s 2 8))) ∧
    (∀ idx, pageUp s 1 = true →
      ((reg s F.RELAY_OUT_WIDX + 2 ^ 32 - idx % 2 ^ 32) % 2 ^ 32 ≤ relaySize s →
        exec (.relayOutRidxWrite idx) s = .next (relayDrain s.fab.relayWait.length (setR s F.RELAY_OUT_RIDX (idx % 2 ^ 32)))) ∧
      (relaySize s < (reg s F.RELAY_OUT_WIDX + 2 ^ 32 - idx % 2 ^ 32) % 2 ^ 32 → exec (.relayOutRidxWrite idx) s = .next s)) ∧
    (∀ ch v, ch < 16 → pageUp s (119 + ch) = true →
      ∃ t, exec (.trainingRun ch v) s = .next t ∧ tget false t.hbm.trainRun ch = true ∧
        ∀ k, k < 72 → getF t F.HBMC_CH_LANE_ERR ch 0 k = 0) ∧
    (∀ ch mism, ch < 16 → tget false s.hbm.trainRun ch = true →
      ∃ t, exec (.trainingRunDone ch mism) s = .next t ∧ tget false t.hbm.trainRun ch = false ∧
        ∀ k, k < 72 → getF t F.HBMC_CH_LANE_ERR ch 0 k = if nth 0 mism k < 2 ^ 24 then nth 0 mism k else 2 ^ 24 - 1)

/-- Commits of a page, and what passes at each kind of commit point. -/
def Obligations.PageCommits : Prop :=
  ∀ s : State, s.live = true →
    (∀ page sel, page < 139 → pageUp s page = true → pageLevel page = 0 →
      exec (.pageCommitHost page sel none) s = .next (takeSnap s page false 0 0)) ∧
    (∀ page sel, page < 139 → pageUp s page = true → pageLevel page ≠ 0 →
      exec (.pageCommitHost page sel none) s = .next (violation s page)) ∧
    (∀ page sel t, page < 139 → pageUp s page = true → tagOpen s t (some (pageRole page)) = true → pageLevel page ≠ 0 →
      exec (.pageCommitHost page sel (some t)) s = .next (takeSnap s page false sel t)) ∧
    (∀ page, page < 139 → pageUp s page = true →
      exec (.pageCommitFw page) s = .next (takeSnap s page true (if page = 5 then reg s F.REEVE_SEL else 0) 0)) ∧
    (∀ page, exec (.commitPoint page) s = .next (commitPage s page false)) ∧
    (∀ x, s.rf.snaps = [x] → x.fw = false → atPoint s (goLive s x) x false = true →
      let s0 := dropSnap s x.page false
      let c := goLive s0 x
      checkSnap s0 c x = 0 → (∀ d, needDom c x = some d → domOn s d = true) →
      exec (.commitPoint x.page) s = .next (setI (noteLtr s0 (applied s0 c x)) F.PAGE_COMMIT_STATUS_HOST_STATE x.page 2)) ∧
    (∀ port, port < 8 → domOn s (220 + port / 2) = true →
      let s1 := if csiRuns s port then earlyStart s port else s
      let s2 := commitPage s1 (107 + port) true
      let late := s2.rf.snaps.any (fun x => decide (x.page = 107 + port) && roiChanges s2 (goLive s2 x) port)
      exec (.frameStart port) s = .next (if csiRuns s2 port then noteStale (beginFrame s2 port) port late else s2)) ∧
    (∀ enc p rest, enc < 2 → (enc_ s enc).queue = p :: rest → regI s F.ENC_CTRL_EN enc ≠ 0 → (enc_ s enc).started = true →
      (enc_ s enc).slice = p.slices →
      let s1 := commitPage (finishEnc s enc p rest) (105 + enc) false
      exec (.encodePictureDone enc) s =
        .next (if regI s1 F.ENC_CTRL_EN enc = 0 then s1 else if s1.d0 then startEnc s1 enc else stopEncoder s1 enc))

/-- A PCIE commit that would enable the watch without a source is refused with reason SOURCES, and the old configuration stays
whole. -/
def Obligations.PcieCommitNeedsASource : Prop :=
  ∀ (s : State) (x : Snap), s.live = true → s.rf.snaps = [x] → x.page = 13 → x.fw = false → x.at_ < s.now →
    (let c := goLive (dropSnap s 13 false) x
     flag c F.PCIE_WATCH_EN = true ∧ flag c F.PCIE_WATCH_SAF = false ∧ flag c F.PCIE_WATCH_CONFIRMED = false ∧
     flag c F.PCIE_WATCH_LOST = false ∧ flag c F.PCIE_WATCH_PLAN_EVT = false ∧ flag c F.PCIE_WATCH_PIN = false) →
    exec (.commitPoint 13) s = .next (setI (setI (setI (addI (dropSnap s 13 false) F.PAGE_COMMIT_STATUS_REFUSALS 13 1)
      F.PAGE_COMMIT_STATUS_HOST_STATE 13 3) F.PAGE_COMMIT_STATUS_REASON 13 57) F.PAGE_COMMIT_STATUS_WHO 13 0)

/-- A snapshot goes live whole or not at all. -/
def Obligations.SnapshotsGoLiveWhole : Prop :=
  ∀ (s : State) (x : Snap),
    let s0 := dropSnap s x.page x.fw
    let c := goLive s0 x
    (∀ r, checkSnap s0 c x = r → r ≠ 0 →
      commitOne s x = setI (setI (setI (addI s0 F.PAGE_COMMIT_STATUS_REFUSALS x.page 1) (stateFld x.fw) x.page 3)
        F.PAGE_COMMIT_STATUS_REASON x.page r) F.PAGE_COMMIT_STATUS_WHO x.page (bnat x.fw)) ∧
    (∀ d, checkSnap s0 c x = 0 → needDom c x = some d → domOn s d = false → commitOne s x = switchOn s d) ∧
    (checkSnap s0 c x = 0 → (∀ d, needDom c x = some d → domOn s d = true) →
      commitOne s x = setI (noteLtr s0 (applied s0 c x)) (stateFld x.fw) x.page 2)

/-- OPEN, PROVE and CLOSE. -/
def Obligations.OpeningASession : Prop :=
  (∀ (r : MbReq) (role iface minSvn hwm nonce i : Nat) (s : State), AsksOpenly s r →
    let s1 := addR s F.SEC_COMMANDS 1
    openRefusal s1 role iface minSvn = none → (upto 16).find? (fun i => !(sess s i).isOpen && !(sess s i).pending) = some i →
    let nd := Sys2Proof.Config.freeValue s.freeCtr % 2 ^ 256
    let s2 := putSess { s1 with freeCtr := s.freeCtr + 1 } i {
      gen := (sess s i).gen % 4095 + 1, pending := true, role := role, minSvn := minSvn, iface := iface, hwm := hwm,
      hostNonce := nonce, devNonce := nd, restricted := decide (reg s1 F.SEC_IFACE_SVN < minSvn), openedAt := s.now }
    let s3 := setR s2 F.SEC_XMSS (maxOf [reg s2 F.SEC_XMSS, if hwm < 2 ^ 20 then hwm else 2 ^ 20])
    let s4 := { s3 with sec := { s3.sec with resp := {} } }
    let u := respond s4 r (tagOf s4 i) 1 0 0 (Sys2Proof.Machine.le 32 nd) none
    exec (.openOp r role iface minSvn hwm nonce) s = .next { u with sec := { u.sec with resp := { u.sec.resp with
      tag := Sys2Proof.Config.kmac256 ((roleKey s1 role).getD 0) (transcript s4 i) 256 "LK6424 CHAL" } } }) ∧
  (∀ (r : MbReq) (role iface minSvn hwm nonce reason : Nat) (s : State), AsksOpenly s r →
    openRefusal (addR s F.SEC_COMMANDS 1) role iface minSvn = some reason →
    exec (.openOp r role iface minSvn hwm nonce) s = .next (refuseMb (addR s F.SEC_COMMANDS 1) r 1 reason)) ∧
  (∀ (r : MbReq) (s : State), s.live = true → pageUp s 7 = true → reg s F.SEC_MB_STATE_STATE ≠ 1 → r.session ≠ 0 →
    tagOf s (r.session % 16) = r.session → (asker s r).isOpen = false → (asker s r).pending = true → r.seq = 0 →
    r.tag = Sys2Proof.Config.kmac256 ((roleKey s (asker s r).role).getD 0) (transcript s (r.session % 16)) 256 "LK6424 PROVE" →
    let s1 := putSess (addR s F.SEC_COMMANDS 1) (r.session % 16) { asker s r with badRun := 0 }
    let ks := Sys2Proof.Config.kmac256 ((roleKey s (asker s r).role).getD 0) (transcript s1 (r.session % 16)) 256 "LK6424 SESSION"
    exec (.prove r) s = .next (done_ (addR (putSess s1 (r.session % 16) { asker s r with
      badRun := 0, isOpen := true, pending := false, key := ks, seq := 1 }) F.SEC_OPENS 1) r 2 [])) ∧
  (∀ (r : MbReq) (s : State), Asks s r 3 [] anyRole →
    exec (.close r) s = .next (closeSession (done_ (asked s r) r 3 []) (r.session % 16))) ∧
  (∀ (slot : Nat) (s : State), s.live = true → slot < 16 → (sess s slot).pending = true → (sess s slot).openedAt + second ≤ s.now →
    exec (.challengeExpiry slot) s = .next (closeSession s slot))

/-- PROVISION, ROLE_CLEAR, MODEL_KEY, MODEL_KEY_DELETE, the Locksmith's zeroising and reloading, and the entropy source. -/
def Obligations.KeysOfTheLocksmith : Prop :=
  (∀ (r : MbReq) (role : Nat) (ct : List Sys2Proof.Byte) (s : State), AsksOpenly s r →
    let s1 := addR s F.SEC_COMMANDS 1
    (role ≤ 4 → tget none s.sec.flashRole role = none → s.sec.lostRoles.testBit role = false → reg s F.SEC_STATE_PUF_OK ≠ 0 →
      pairDown s1 1 = false → partFailed s1 3 = false →
      let k := Sys2Proof.Config.kmac256 (Sys2Proof.Config.mlkemDecap Sys2Proof.Config.deviceRoot ct) (Sys2Proof.Machine.le 1 role) 256 "LK6424 ROLE"
      exec (.provision r role ct) s = .next (done_ (refreshRoles (writeRecord { s1 with sec := { s1.sec with
        roleKeys := tset none s1.sec.roleKeys role (some k), flashRole := tset none s1.sec.flashRole role (some k) } } 5 role)) r 4 (kcv k))) ∧
    ((4 < role ∨ (tget none s.sec.flashRole role).isSome = true ∨ s.sec.lostRoles.testBit role = true) →
      exec (.provision r role ct) s = .next (refuseMb s1 r 4 4))) ∧
  (∀ (r : MbReq) (role : Nat) (s : State), Asks s r 5 (Sys2Proof.Machine.le 1 role ++ [0, 0, 0]) (mayClear role) →
    let s1 := asked s r
    pairDown s1 1 = false → partFailed s1 3 = false → (tget none s1.sec.flashRole role).isSome = true →
    let s2 := dropRecord { s1 with sec := { s1.sec with
      roleKeys := tset none s1.sec.roleKeys role none, flashRole := tset none s1.sec.flashRole role none,
      lostRoles := clrBit s1.sec.lostRoles role } } 5 role
    exec (.roleClear r role) s = .next (done_ (refreshRoles (if role = 1 then dropModelKeys s2 else s2)) r 5 [])) ∧
  (∀ (r : MbReq) (keyId : Nat) (ct : List Sys2Proof.Byte) (s : State),
    Asks s r 0x20 (Sys2Proof.Machine.le 8 keyId ++ ct) (onlyRole 1) →
    let s1 := asked s r
    pairDown s1 1 = false → partFailed s1 3 = false → s1.sec.modelKeys.any (fun k => decide (k.1 = keyId)) = false →
    s1.sec.modelKeys.length < 64 →
    let k := Sys2Proof.Config.kmac256 (Sys2Proof.Config.mlkemDecap Sys2Proof.Config.deviceRoot ct) (Sys2Proof.Machine.le 8 keyId) 256 "LK6424 MODEL"
    exec (.modelKey r keyId ct) s = .next (done_ (writeRecord { s1 with sec := { s1.sec with
      modelKeys := s1.sec.modelKeys ++ [(keyId, k)], flashModel := s1.sec.flashModel ++ [(keyId, k)] } } 6 keyId) r 0x20 (kcv k))) ∧
  (∀ (r : MbReq) (keyId : Nat) (s : State), Asks s r 0x21 (Sys2Proof.Machine.le 8 keyId) (onlyRole 1) →
    let s1 := asked s r
    pairDown s1 1 = false → partFailed s1 3 = false →
    (keyInUse s1 keyId = true → exec (.modelKeyDelete r keyId) s = .next (refuseMb s1 r 0x21 10)) ∧
    (keyInUse s1 keyId = false → exec (.modelKeyDelete r keyId) s = .next (done_ (dropRecord { s1 with sec := { s1.sec with
      modelKeys := s1.sec.modelKeys.filter (fun k => decide (k.1 ≠ keyId)),
      flashModel := s1.sec.flashModel.filter (fun k => decide (k.1 ≠ keyId)) } } 6 keyId) r 0x21 []))) ∧
  (∀ s : State, s.live = true →
    exec .locksmithZeroise s = .next (closeAllAfter (setR (setR { s with sec := { s.sec with roleKeys := [], modelKeys := [] } }
      F.SEC_STATE_ZEROISED 1) F.SEC_STATE_KEYS_READY 0)) ∧
    (flag s F.SEC_STATE_ZEROISED = true → pairDown s 1 = false → flag s F.SEC_STATE_PUF_OK = true →
      exec .keysReloaded s = .next (setR (setR { s with sec := { s.sec with
        roleKeys := s.sec.flashRole, modelKeys := s.sec.flashModel } } F.SEC_STATE_ZEROISED 0) F.SEC_STATE_KEYS_READY 1)) ∧
    (∀ ok : Bool, exec (.entropyHealthTest ok) s = .next { s with sec := { s.sec with entropyBad := !ok } }))

/-- ADOPT, UNLOCK_STREAM, UNLOCK_TENSOR, EMB_READ, LOCK and LOCK_ACK. -/
def Obligations.ReleasesAndLocks : Prop :=
  (∀ (r : MbReq) (mask : Nat) (s : State), Asks s r 0x11 (Sys2Proof.Config.mbPayload 0x11 [mask]) (onlyRole 0) →
    let s1 := asked s r
    let mine := (upto 76).filter (fun n => mask.testBit n && (slotAt s1 n).isOpen)
    let owned (n : Nat) : Bool := tagOpen s1 (regS s1 F.ADM_POOL_SESSION n) none
    exec (.adopt r mask) s = .next (done_ ((mine.filter (fun n => !owned n)).foldl
      (fun t n => putBoth t F.ADM_POOL_SESSION 0 n 0 r.session) s1) r 0x11 (Sys2Proof.Config.mbReply 0x11 (mine.filter owned)))) ∧
  (∀ (r : MbReq) (mask : Nat) (s : State), Asks s r 0x30 (Sys2Proof.Config.mbPayload 0x30 [mask]) (onlyRole 2) →
    let s1 := asked s r
    (mask < 2 ^ 72 → (upto 72).any (fun n => mask.testBit n && !slotOpen s1 n) = false →
      exec (.unlockStream r mask) s = .next (done_ (refreshUnlocks { s1 with sec := { s1.sec with
        streamUnlocks := s1.sec.streamUnlocks ++ ((upto 72).filter (fun n => mask.testBit n &&
          !s1.sec.streamUnlocks.contains (r.session, n))).map (fun n => (r.session, n)) } }) r 0x30 [])) ∧
    ((2 ^ 72 ≤ mask ∨ (upto 72).any (fun n => mask.testBit n && !slotOpen s1 n) = true) →
      exec (.unlockStream r mask) s = .next (refuseMb s1 r 0x30 13))) ∧
  (∀ (r : MbReq) (plan output count : Nat) (s : State), Asks s r 0x31 (Sys2Proof.Config.mbPayload 0x31 [plan, output, count]) (onlyRole 2) →
    let s1 := asked s r
    (output < 16 → 1 ≤ count → count < 256 → planInstalled s1 plan = true →
      exec (.unlockTensor r plan output count) s = .next (done_ { s1 with sec := { s1.sec with tensorUnlocks := s1.sec.tensorUnlocks ++
        [{ session := r.session, plan := plan, output := output, count := count }] } } r 0x31 [])) ∧
    ((16 ≤ output ∨ count = 0 ∨ 256 ≤ count) → exec (.unlockTensor r plan output count) s = .next (refuseMb s1 r 0x31 9)) ∧
    (output < 16 → 1 ≤ count → count < 256 → planInstalled s1 plan = false →
      exec (.unlockTensor r plan output count) s = .next (refuseMb s1 r 0x31 13))) ∧
  (∀ (r : MbReq) (slot first count : Nat) (s : State), Asks s r 0x32 (Sys2Proof.Config.mbPayload 0x32 [slot, first, count]) (onlyRole 2) →
    let s1 := asked s r
    let l := ((liveOf s1 slot).filter (fun e => e.2.embValid && decide (first ≤ e.2.id))).take (if count < 30 then count else 30)
    exec (.embRead r slot first count) s = .next (done_ s1 r 0x32 (sealRsp ((keyOf s1 r.session).getD 0) r.seq
      (l.flatMap (fun e => embEntry e.2.id (tget [] s1.trk.embs e.1)))))) ∧
  (∀ (r : MbReq) (mask plan : Nat) (s : State), Asks s r 0x33 (Sys2Proof.Config.mbPayload 0x33 [mask, plan]) (onlyRole 2) →
    exec (.lock r mask plan) s = .next (done_ (withdrawTensors
      (withdrawStreams (asked s r) (fun t n => decide (t = r.session) && mask.testBit n))
      (fun t p => decide (t = r.session) && decide (p = plan) && decide (plan ≠ 0))) r 0x33 [])) ∧
  (∀ (r : MbReq) (s : State), Asks s r 0x34 [] (onlyRole 2) →
    let s1 := asked s r
    exec (.lockAck r) s = .next (done_ (nextRelease { s1 with sec := { s1.sec with window := none } }) r 0x34 []))

/-- ATTEST and GET_CERT. -/
def Obligations.Attestation : Prop :=
  (∀ (r : MbReq) (nonce : Nat) (s : State), Asks s r 0x40 (Sys2Proof.Machine.le 32 nonce) anyRole →
    let s1 := asked s r
    let leaf := reg s1 F.SEC_XMSS
    pairDown s1 1 = false →
    (2 ^ 20 ≤ leaf → exec (.attest r nonce) s = .next (reply_ s1 r 0x40 0x202 11 [])) ∧
    (leaf < 2 ^ 20 → (reg s1 F.SEC_XMSS_END ≤ leaf → partFailed s1 4 = false) →
      let s2 := if reg s1 F.SEC_XMSS_END ≤ leaf then
          logWrite { (setR s1 F.SEC_XMSS_END (leaf + 256)) with flash := { s1.flash with xmssEnd := leaf + 256 } } .xmss
        else s1
      let body := reportBody s2 nonce (sess s2 (r.session % 16)).role leaf
      exec (.attest r nonce) s =
        .next (done_ (setR s2 F.SEC_XMSS (leaf + 1)) r 0x40 (body ++ padTo 0 2820 (Sys2Proof.Config.xmssSign leaf body))))) ∧
  (∀ (r : MbReq) (part : Nat) (s : State), Asks s r 0x41 (Sys2Proof.Config.mbPayload 0x41 [part]) (fun _ => true) →
    let s1 := asked s r
    pairDown s1 1 = false → exec (.getCert r part) s = .next (if 1 < part then refuseMb s1 r 0x41 9
      else done_ s1 r 0x41 ((Sys2Proof.Config.certificate.drop (4032 * part)).take 4032))) ∧
  (∀ (r : MbReq) (part : Nat) (s : State), AsksOpenly s r →
    let s1 := addR s F.SEC_COMMANDS 1
    pairDown s1 1 = false → exec (.getCert r part) s = .next (if 1 < part then refuseMb s1 r 0x41 9
      else done_ s1 r 0x41 ((Sys2Proof.Config.certificate.drop (4032 * part)).take 4032)))

/-- REPAIR_AUTH, RECOVER, TEST_MODE, JTAG_UNLOCK, FW_UPDATE and a command code the table does not list. -/
def Obligations.MaintenanceCommands : Prop :=
  (∀ (r : MbReq) (ch row : Nat) (s : State), Asks s r 0x51 (Sys2Proof.Config.mbPayload 0x51 [ch, row]) (onlyRole 3) →
    let s1 := asked s r
    pairDown s1 1 = false → exec (.repairAuth r ch row) s =
      .next (done_ { s1 with sec := { s1.sec with repairAuth := s1.sec.repairAuth ++ [(ch, row)] } } r 0x51 [])) ∧
  (∀ (r : MbReq) (s : State), Asks s r 0x52 [] (onlyRole 3) →
    let s1 := asked s r
    pairDown s1 1 = false →
    (s1.inSafe = false → exec (.recover r) s = .next (done_ s1 r 0x52 [])) ∧
    (s1.inSafe = true → safeCause s1 = true →
      exec (.recover r) s = .next (reply_ (addR s1 F.MGMT_FW_SVC_FAILS 1) r 0x52 0x308 0 [])) ∧
    (s1.inSafe = true → safeCause s1 = false →
      let s2 := setR (setR s1 F.SYS_STATUS_SAFE 0) F.REEVE_FAULT_SAFE_STATE 0
      exec (.recover r) s =
        .next (done_ (setPhase { s2 with winnow := { s2.winnow with provingSince := s2.now } } 3) r 0x52 []))) ∧
  (∀ (r : MbReq) (on : Bool) (s : State), Asks s r 0x60 (Sys2Proof.Config.mbPayload 0x60 [bnat on]) (onlyRole 4) →
    let s1 := asked s r
    pairDown s1 1 = false →
    (on = true →
      let sec := { s1.sec with testBy := some r.session, testFrom := if s1.phase = 2 then s1.sec.testFrom else s1.phase }
      exec (.testMode r on) s = .next (done_ (setPhase { s1 with sec := sec } 2) r 0x60 [])) ∧
    (on = false → s1.phase = 2 → s1.sec.testBy = some r.session → exec (.testMode r on) s =
      .next (done_ (setPhase { s1 with sec := { s1.sec with testBy := none, testFrom := 1 } } s1.sec.testFrom) r 0x60 [])) ∧
    (on = false → (s1.phase ≠ 2 ∨ s1.sec.testBy ≠ some r.session) → exec (.testMode r on) s = .next (done_ s1 r 0x60 []))) ∧
  (∀ (r : MbReq) (s : State), Asks s r 0x62 [] (onlyRole 4) →
    let s1 := asked s r
    pairDown s1 1 = false → partFailed s1 3 = false →
    let s2 := ((upto 16).filter (fun i => decide (i ≠ r.session % 16))).foldl closeSession (dropModelKeys (dropPlans s1))
    let sec := { s2.sec with testBy := some r.session, testFrom := if s2.phase = 2 then s2.sec.testFrom else s2.phase }
    exec (.jtagUnlock r) s =
      .next (done_ (setR (setPhase { s2 with sec := sec } 2) F.SEC_STATE_JTAG_OPEN 1) r 0x62 [])) ∧
  (∀ (r : MbReq) (addr len : Nat) (img : FwImage) (t s : State), Asks s r 0x50 (Sys2Proof.Config.mbPayload 0x50 [addr, len]) (onlyRole 3) →
    let s1 := asked s r
    pairDown s1 1 = false → partFailed s1 (1 + idleSlot s1) = false →
    ((len = 0 ∨ 294912 < len) → exec (.fwUpdate r addr len img) s = .next (refuseMb s1 r 0x50 9)) ∧
    (1 ≤ len → len ≤ 294912 → startRead s1 .fwImage addr len false = some t → exec (.fwUpdate r addr len img) s =
      .next (setR { t with sec := { t.sec with fwUpdate := some { req := r, img := img, len := len } } } F.SEC_MB_STATE_STATE 1)) ∧
    (1 ≤ len → len ≤ 294912 → startRead s1 .fwImage addr len false = none → exec (.fwUpdate r addr len img) s =
      .next (reply_ (addR s1 F.PCIE_READ_FAILS 1) r 0x50 0x303 0 []))) ∧
  (∀ (r : MbReq) (code i : Nat) (s : State), s.live = true → pageUp s 7 = true → reg s F.SEC_MB_STATE_STATE ≠ 1 → r.session ≠ 0 →
    tagOf s (r.session % 16) = r.session → (asker s r).isOpen = true → r.seq = (asker s r).seq →
    r.tag = reqTag (asker s r).key r.session code r.seq (Sys2Proof.Config.mbPayload code []) →
    exec (.unlistedCommand r code) s = .next (refuseMb (putSess (addR s F.SEC_COMMANDS 1) (r.session % 16)
      { asker s r with badRun := 0 }) r code 9))

/-- REG_WRITE, REEVE_SET and PLACEMENT_EDIT. -/
def Obligations.ConfigurationCommands : Prop :=
  (∀ (r : MbReq) (count : Nat) (writes : List RegW) (s : State), Asks s r 0x10 (regPayload count writes) regRoles →
    let s1 := asked s r
    (1 ≤ count → count ≤ 335 → writes.length = count →
      let q := (enumFrom 0 writes).foldl (fun (a : RegRun) (e : Nat × RegW) =>
        regStep r.session (sess s1 (r.session % 16)).role a e.1 e.2) { st := s1 }
      exec (.regWrite r count writes) s = .next (done_ (revert q.st q.saved) r 0x10
        (Sys2Proof.Machine.le 2 q.applied ++ Sys2Proof.Machine.le 2 q.ignored ++ Sys2Proof.Machine.le 2 q.first ++
          Sys2Proof.Machine.le 2 q.commits ++ Sys2Proof.Machine.le 2 q.refused ++ Sys2Proof.Machine.le 6 0))) ∧
    ((count = 0 ∨ 335 < count ∨ writes.length ≠ count) → exec (.regWrite r count writes) s = .next (refuseMb s1 r 0x10 9))) ∧
  (∀ (r : MbReq) (pipe cfg age period : Nat) (s : State),
    Asks s r 0x12 (Sys2Proof.Config.mbPayload 0x12 [pipe, cfg, age, period]) (onlyRole 0) →
    let s1 := asked s r
    pairDown s1 0 = false →
    (pipe < 64 →
      let s2 := [F.REEVE_CFG_EN, F.REEVE_CFG_FAULT, F.REEVE_CFG_SAFE, F.REEVE_CFG_PLAN].foldl
        (fun t f => putSh t f 0 pipe 0 (f.slice cfg)) s1
      let s3 := putSh (putSh s2 F.REEVE_AGE 0 pipe 0 age) F.REEVE_PERIOD 0 pipe 0 period
      exec (.reeveSet r pipe cfg age period) s = .next (done_ (passFw (takeSnap s3 5 true pipe 0) 5) r 0x12 [])) ∧
    (64 ≤ pipe → exec (.reeveSet r pipe cfg age period) s = .next (refuseMb s1 r 0x12 9))) ∧
  (∀ (r : MbReq) (edits : List (Nat × Nat)) (s : State),
    Asks s r 0x61 (Sys2Proof.Config.mbPayload 0x61 (edits.flatMap (fun e => [e.1, e.2]))) (onlyRole 4) →
    let s1 := asked s r
    pairDown s1 1 = false →
    let s2 := edits.foldl (fun t e => if e.1 < 64 then putSh t (placeStagedFld e.1) 0 0 (e.1 / 4) e.2 else t) s1
    exec (.placementEdit r edits) s =
      .next (done_ (takeSnap (putSh s2 F.SYS_PLACE_BASE 0 0 0 (reg s1 F.SYS_PLACE_GEN)) 0 true 0 0) r 0x61 []))

/-- INSTALL, the end of an installation, and UNINSTALL. -/
def Obligations.PlanCommands : Prop :=
  (∀ (r : MbReq) (addr len : Nat) (img : PlanImage) (t s : State), Asks s r 0x22 (Sys2Proof.Config.mbPayload 0x22 [addr, len]) (onlyRole 1) →
    let s1 := asked s r
    pairDown s1 1 = false →
    (startRead s1 .planImage addr len false = some t → exec (.install r addr len img) s =
      .next (setR { t with sec := { t.sec with install := some { req := r, len := len, img := img } } } F.SEC_MB_STATE_STATE 1)) ∧
    (startRead s1 .planImage addr len false = none → exec (.install r addr len img) s =
      .next (reply_ (planLast (addR s1 F.PCIE_READ_FAILS 1) 0x303 0 0) r 0x22 0x303 0 []))) ∧
  (∀ (x : Install) (i : Nat) (s : State), s.live = true → s.sec.install = some x → x.idx = some i → pairDown s 1 = false →
    (installReason s i x.img = 0 →
      let s1 := planLast (commitPlan { s with sec := { s.sec with install := none } } i x.img) 0 0 i
      exec .installCommit s = .next (done_ s1 x.req 0x22 (Sys2Proof.Machine.le 2 (planIdAt s1 i)))) ∧
    (installReason s i x.img ≠ 0 → exec .installCommit s = .next (installEnds s x 0x205 (installReason s i x.img)))) ∧
  (∀ (r : MbReq) (plan : Nat) (s : State), Asks s r 0x23 (Sys2Proof.Config.mbPayload 0x23 [plan]) (onlyRole 1) →
    let s1 := asked s r
    pairDown s1 1 = false →
    (planInstalled s1 plan = false → exec (.uninstall r plan) s =
      .next (reply_ (planLast s1 0x205 0 (planIdx plan)) r 0x23 0x205 0 [])) ∧
    (planInstalled s1 plan = true →
      let s2 := endItems (modPlan s1 (planIdx plan) (fun p => { p with st := .removing }))
        (fun it => decide (it.e.plan = plan) && !it.launched && !it.golden) 0x205
      exec (.uninstall r plan) s =
        .next (done_ (planLast (putPeak (settlePlan s2 (planIdx plan))) 0 0 (planIdx plan)) r 0x23 [])))

/-- The vector instructions: operands, cycles and results. -/
def Obligations.VectorInstructions : Prop :=
  ∀ (s0 s : State) (p n : Nat) (it : Item) (tok : Toks) (x x1 x2 x3 y : BinRef),
    (∀ fmt, let c : TileCmd := { ins := .vec (.relu fmt n x y), tok := tok }
      Issues s0 p c .vector it s → Feeds s p it [(.bin x, 4 * n)] [(.bin y, 4 * n)] →
      exec (.relu p fmt n x y tok) s0 = .next (effectOn s p it c .vector (psumLead s p [(x, 4 * n)] + elemCycles n 6)
        [(.bin x, 4 * n)] (resultAt p (.bin y) (fun _ bs => map1 n bs (reluOf fmt))))) ∧
    (∀ fmt lo hi, let c : TileCmd := { ins := .vec (.clip fmt n lo hi x y), tok := tok }
      Issues s0 p c .vector it s → Feeds s p it [(.bin x, 4 * n)] [(.bin y, 4 * n)] →
      exec (.clip p fmt n lo hi x y tok) s0 = .next (effectOn s p it c .vector (psumLead s p [(x, 4 * n)] + elemCycles n 6)
        [(.bin x, 4 * n)] (resultAt p (.bin y) (fun _ bs => map1 n bs (clipOf fmt lo hi))))) ∧
    (∀ fmt, let c : TileCmd := { ins := .vec (.min fmt n x1 x2 y), tok := tok }
      Issues s0 p c .vector it s → Feeds s p it [(.bin x1, 4 * n), (.bin x2, 4 * n)] [(.bin y, 4 * n)] →
      exec (.min p fmt n x1 x2 y tok) s0 = .next (effectOn s p it c .vector (psumLead s p [(x1, 4 * n), (x2, 4 * n)] + elemCycles n 6)
        [(.bin x1, 4 * n), (.bin x2, 4 * n)] (resultAt p (.bin y) (fun _ bs => map2 n bs (minOf2 fmt))))) ∧
    (∀ fmt, let c : TileCmd := { ins := .vec (.max fmt n x1 x2 y none), tok := tok }
      Issues s0 p c .vector it s → Feeds s p it [(.bin x1, 4 * n), (.bin x2, 4 * n)] [(.bin y, 4 * n)] →
      exec (.max p fmt n x1 x2 y none tok) s0 = .next (effectOn s p it c .vector
        (psumLead s p [(x1, 4 * n), (x2, 4 * n)] + elemCycles n 6)
        [(.bin x1, 4 * n), (.bin x2, 4 * n)] (resultAt p (.bin y) (fun _ bs => map2 n bs (maxOf2 fmt))))) ∧
    (∀ fmt ps, let c : TileCmd := { ins := .vec (.add fmt ps n x1 x2 y none), tok := tok }
      Issues s0 p c .vector it s → Feeds s p it [(.bin x1, 4 * n), (.bin x2, 4 * n)] [(.bin y, 4 * n)] →
      exec (.add p fmt ps n x1 x2 y none tok) s0 = .next (effectOn s p it c .vector
        (psumLead s p [(x1, 4 * n), (x2, 4 * n)] + elemCycles n 6)
        [(.bin x1, 4 * n), (.bin x2, 4 * n)] (resultAt p (.bin y) (fun _ bs => addRes fmt ps n bs)))) ∧
    (∀ fmt, let c : TileCmd := { ins := .vec (.mul fmt n x1 x2 y), tok := tok }
      Issues s0 p c .vector it s → Feeds s p it [(.bin x1, 4 * n), (.bin x2, 4 * n)] [(.bin y, 4 * n)] →
      exec (.multiply p fmt n x1 x2 y tok) s0 = .next (effectOn s p it c .vector
        (psumLead s p [(x1, 4 * n), (x2, 4 * n)] + elemCycles n 6)
        [(.bin x1, 4 * n), (.bin x2, 4 * n)] (resultAt p (.bin y) (fun _ bs => map2 n bs (mulOf fmt))))) ∧
    (∀ fmt, let c : TileCmd := { ins := .vec (.fma fmt n x1 x2 x3 y none), tok := tok }
      Issues s0 p c .vector it s → Feeds s p it [(.bin x1, 4 * n), (.bin x2, 4 * n), (.bin x3, 4 * n)] [(.bin y, 4 * n)] →
      exec (.fusedMultiplyAdd p fmt n x1 x2 x3 y none tok) s0 = .next (effectOn s p it c .vector
        (psumLead s p [(x1, 4 * n), (x2, 4 * n), (x3, 4 * n)] + elemCycles n 6)
        [(.bin x1, 4 * n), (.bin x2, 4 * n), (.bin x3, 4 * n)] (resultAt p (.bin y) (fun _ bs => fmaRes fmt n bs)))) ∧
    (∀ src dst, let c : TileCmd := { ins := .vec (.convert src dst n x y none), tok := tok }
      Issues s0 p c .vector it s → Feeds s p it [(.bin x, src.size * n)] [(.bin y, dst.size * n)] →
      exec (.convert p src dst n x y none tok) s0 = .next (effectOn s p it c .vector
        (psumLead s p [(x, src.size * n)] + elemCycles n 6) [(.bin x, src.size * n)] (resultAt p (.bin y)
        (fun _ bs => { z := dst.size, els := (elems src.size n (nth [] bs 0)).map (fun v => some (convOf src dst v)) })))) ∧
    (∀ src, let c : TileCmd := { ins := .vec (.requantise src n x x1 y none), tok := tok }
      Issues s0 p c .vector it s → Feeds s p it [(.bin x, src.size * n), (.bin x1, 16)] [(.bin y, 2 * n)] →
      exec (.requantise p src n x x1 y none tok) s0 = .next (effectOn s p it c .vector
        (psumLead s p [(x, src.size * n), (x1, 16)] + elemCycles n 6) [(.bin x, src.size * n), (.bin x1, 16)] (resultAt p (.bin y)
        (fun _ bs =>
          let r := scaleRecOf (nth [] bs 1)
          let xs := elems src.size n (nth [] bs 0)
          { z := if r.int16 then 2 else 1, els := xs.map (fun v => some (requantOf src r v)),
            nonFinite := r.nonFinite || (!src.isInt && xs.any (fun v => nonFinite (convOf src .fp32 v))) })))) ∧
    (∀ fmt, let c : TileCmd := { ins := .vec (.maxAbs fmt n x y), tok := tok }
      Issues s0 p c .vector it s → Feeds s p it [(.bin x, fmt.size * n)] [(.bin y, 4)] →
      exec (.maxAbs p fmt n x y tok) s0 = .next (effectOn s p it c .vector (psumLead s p [(x, fmt.size * n)] + elemCycles n 12)
        [(.bin x, fmt.size * n)] (resultAt p (.bin y)
        (fun _ bs => { els := [some (maxMag fmt (elems fmt.size n (nth [] bs 0)))] })))) ∧
    (∀ fmt (sc : StageScale) clp i16, let c : TileCmd := { ins := .vec (.derive_ fmt sc clp i16 x y), tok := tok }
      let ops : List (BinRef × Nat) := (match sc with
        | .prod sa sw _ => [(sa, 4), (sw, 4)]
        | _ => []) ++ [(x, 4)]
      let rd : List (Oper × Nat) := ops.map (fun e => (.bin e.1, e.2))
      Issues s0 p c .vector it s → Feeds s p it rd [(.bin y, 16)] →
      exec (.derive p fmt sc clp i16 x y tok) s0 = .next (effectOn s p it c .vector (psumLead s p ops + 20) rd
        (resultAt p (.bin y) (fun _ bs =>
          let m := unle ((nth [] bs (ops.length - 1)).take 4)
          let v := match sc with
            | .fixed v => v
            | .prod _ _ g => scale32 g (fmul (unle ((nth [] bs 0).take 4)) (unle ((nth [] bs 1).take 4)))
            | .pow g => rne32 1 g
          { raw := (if fmt.isInt then deriveInt m v clp i16 else deriveFlt m v clp i16).bytes })))) ∧
    (let c : TileCmd := { ins := .vec (.biasq n x1 x2 x3 y), tok := tok };
      Issues s0 p c .vector it s → Feeds s p it [(.bin x1, 4), (.bin x2, 4), (.bin x3, 4 * n)] [(.bin y, 4 * n)] →
      exec (.biasq p n x1 x2 x3 y tok) s0 = .next (effectOn s p it c .vector
        (psumLead s p [(x1, 4), (x2, 4), (x3, 4 * n)] + elemCycles n 24) [(.bin x1, 4), (.bin x2, 4), (.bin x3, 4 * n)]
        (resultAt p (.bin y) (fun _ bs =>
          { els := (elems 4 n (nth [] bs 2)).map (fun v => out32 (biasOf (unle (nth [] bs 0)) (unle (nth [] bs 1)) v)) })))) ∧
    (∀ q, let c : TileCmd := { ins := .vec (.tableFn n q x y), tok := tok }
      Issues s0 p c .vector it s → Feeds s p it [(.bin x, 4 * n)] [(.bin y, 4 * n)] →
      exec (.tableFunction p n q x y tok) s0 = .next (effectOn s p it c .vector (psumLead s p [(x, 4 * n)] + elemCycles n 10)
        [(.bin x, 4 * n)] (resultAt p (.bin y) (fun k bs => map1 n bs (fun v => some (tableEl k q v)))))) ∧
    (∀ src scale dst, let c : TileCmd := { ins := .vec (.softmax n src scale dst x y), tok := tok }
      Issues s0 p c .vector it s → Feeds s p it [(.bin x, src.size * n)] [(.bin y, (softmaxDst dst).size * n)] →
      exec (.softmax p n src scale dst x y tok) s0 = .next (effectOn s p it c .vector
        (psumLead s p [(x, src.size * n)] + (3 * cdiv n 32 + 52)) [(.bin x, src.size * n)] (resultAt p (.bin y) (fun _ bs =>
          { z := (softmaxDst dst).size,
            els := (softmaxOf ((elems src.size n (nth [] bs 0)).map (softmaxIn src scale))).map
              (fun v => some (convOf .fp32 (softmaxDst dst) v)) })))) ∧
    (∀ eps, let c : TileCmd := { ins := .vec (.layerNorm n eps x x1 x2 y), tok := tok }
      Issues s0 p c .vector it s → Feeds s p it [(.bin x, 4 * n), (.bin x1, 4 * n), (.bin x2, 4 * n)] [(.bin y, 4 * n)] →
      exec (.layerNormalisation p n eps x x1 x2 y tok) s0 = .next (effectOn s p it c .vector
        (psumLead s p [(x, 4 * n), (x1, 4 * n), (x2, 4 * n)] + (3 * cdiv n 32 + 60))
        [(.bin x, 4 * n), (.bin x1, 4 * n), (.bin x2, 4 * n)] (resultAt p (.bin y) (fun _ bs =>
          { els := (layerNormOf n eps (elems 4 n (nth [] bs 0)) (elems 4 n (nth [] bs 1)) (elems 4 n (nth [] bs 2))).map some })))) ∧
    (∀ q : BoxPar, let c : TileCmd := { ins := .vec (.boxDecode q x1 x2 x3 y), tok := tok }
      let rd : List (BinRef × Nat) := [(x1, 4 * (if q.dist then 3 else 4) * q.anchors),
        (x2, (if q.score16 then 2 else 1) * q.classes * q.anchors), (x3, 16 * q.anchors)]
      q.toGran = none → Issues s0 p c .vector it s →
      Feeds s p it (rd.map (fun r => (.bin r.1, r.2))) [(.bin y, 16 + 24 * (if q.cap < q.anchors then q.cap else q.anchors))] →
      exec (.boxDecoding p q x1 x2 x3 y tok) s0 = .next (effectOn s p it c .vector
        (psumLead s p rd + (cdiv q.anchors 32 * (q.classes + 8) + 24)) (rd.map (fun r => (.bin r.1, r.2)))
        (resultAt p (.bin y) (fun k bs => { raw := boxList k q bs })))) ∧
    (∀ src dst (m : OutMap) (d : OpDesc), let op : VecOp := .convert src dst n x y (some m)
      Issues s0 p { ins := .vec op, tok := tok } .vector it s → opAt (imgOf s it.e) m.op = some d →
      let r := mappedRun s p it op m d
      Feeds s p it r.rd r.wr → exec (.convert p src dst n x y (some m) tok) s0 =
        .next (effectOn s p it { ins := .vec op, tok := tok } .vector r.cycles r.rd r.post)) ∧
    (∀ src (m : OutMap) (d : OpDesc), let op : VecOp := .requantise src n x x1 y (some m)
      Issues s0 p { ins := .vec op, tok := tok } .vector it s → opAt (imgOf s it.e) m.op = some d →
      let r := mappedRun s p it op m d
      Feeds s p it r.rd r.wr → exec (.requantise p src n x x1 y (some m) tok) s0 =
        .next (effectOn s p it { ins := .vec op, tok := tok } .vector r.cycles r.rd r.post))

/-- Max, average and global average pooling take the cycles of R149, whatever the data. -/
def Obligations.PoolingTakesItsCycles : Prop :=
  ∀ (s0 s : State) (p i n : Nat) (fmt : Fmt) (ps : Bool) (x x2 y : BinRef) (tok : Toks) (it : Item) (d : OpDesc) (c : VecOp)
    (cmd : Sys2Proof.Instr),
    (c = .max fmt n x x2 y (some i) ∧ cmd = .max p fmt n x x2 y (some i) tok ∨
      c = .add fmt ps n x x2 y (some i) ∧ cmd = .add p fmt ps n x x2 y (some i) tok) →
    Issues s0 p { ins := .vec c, tok := tok } .vector it s → opAt (imgOf s it.e) i = some d →
    let h := (opShape s it i).1
    let w := (opShape s it i).2
    let oh := (d.outDims h w).1
    let ow := (d.outDims h w).2
    let l := d.layout (x.offset (core s p)) h w
    let f := l.factor true
    let z := d.fmt.size
    let offs := poolReads d l h w
    (d.tooLarge h w = true → exec cmd s0 = .next (endItem s it.key 0x201)) ∧
    (d.tooLarge h w = false → oh = 0 → exec cmd s0 =
      .next (effectOn s p it { ins := .vec c, tok := tok } .vector 2 [] (fun _ _ t => (t, [])))) ∧
    (d.tooLarge h w = false → oh ≠ 0 → Feeds s p it (gather (core s p) x z offs) [(.bin y, z * d.outLen oh ow d.cIn)] →
      exec cmd s0 = .next (effectOn s p it { ins := .vec c, tok := tok } .vector
        (if d.op = 4 then h * w * cdiv d.cIn 32 * f + 24 else oh * ow * d.kh * d.kw * cdiv d.cIn 32 * f + 8)
        (gather (core s p) x z offs)
        (fun _ bs t => operOut z (d.poolOut l h w (gathered (core t p) x z offs bs)) [] y t)))

/-- Tensor crop-and-resize takes the cycles of R152, whatever the boxes hold. -/
def Obligations.TensorCropTakesItsCycles : Prop :=
  ∀ (s0 s : State) (p i n : Nat) (fmt : Fmt) (x bl x3 y : BinRef) (tok : Toks) (it : Item) (d : OpDesc),
    let cmd : TileCmd := { ins := .vec (.fma fmt n x bl x3 y (some i)), tok := tok }
    Issues s0 p cmd .vector it s → opAt (imgOf s it.e) i = some d → canRead s p bl 32 = true →
    let h := (opShape s it i).1
    let w := (opShape s it i).2
    let hb := peekList s p bl 32
    let hd := cropHdrOf hb.bytes
    d.tooLarge h w = false → hb.info.bad = false → 1 ≤ hd.count → hd.count ≤ 4096 → 1 ≤ hd.ow → hd.ow ≤ 64 → 1 ≤ hd.oh →
    hd.oh ≤ 64 → hd.sh ≤ 6 → h ≠ 0 → w ≠ 0 →
    let l := d.layout (x.offset (core s p)) h w
    let len := 32 + 16 * hd.count
    let boxes := cropBoxes hd.count ((peekList s p bl len).bytes.drop 32)
    let rd : List (Oper × Nat) := [(.bin bl, len)] ++ gather (core s p) x d.fmt.size (cropReads d l hd h w boxes)
    Feeds s p it rd [(.bin y, d.fmt.size * (hd.count * d.outLen hd.oh hd.ow d.cIn) + hd.count)] →
    exec (.fusedMultiplyAdd p fmt n x bl x3 y (some i) tok) s0 = .next (effectOn s p it cmd .vector
      (hd.count * hd.ow * hd.oh * hd.s ^ 2 * cdiv d.cIn 32 * 2 * l.factor true + 24) rd (cropPost p i d l h w x y))

/-- MM, CB, LD, LDW and ST. -/
def Obligations.ArrayAndLoader : Prop :=
  ∀ (s0 s : State) (p : Nat) (tok : Toks) (it : Item),
    (∀ (o : MMOp) (res : Bool), let c : TileCmd := { ins := .mm o, tok := tok }
      Issues s0 p c .array it s →
      let r := mmRun s p it o res
      (mmRefuses s it o = true → exec (.mm p o tok res) s0 = .next (endItem s it.key 0x201)) ∧
      (mmRefuses s it o = false → Feeds s p it r.rd [] →
        exec (.mm p o tok res) s0 = .next (effectOn s p it c .array r.cycles r.rd (mmPost p (mmFed s p it o) res))) ∧
      (mmRefuses s it o = false → ¬Feeds s p it r.rd [] →
        exec (.mm p o tok res) s0 = .next (startFlight (flushBins s p) p it c .array r.cycles r.rd res))) ∧
    (∀ x : BinRef, let c : TileCmd := { ins := .cb x, tok := tok }
      Issues s0 p c .array it s → Feeds s p it [(.bin x, 16)] [] →
      exec (.cb p x tok) s0 = .next (effectOn s p it c .array 1 [(.bin x, 16)] (fun _ bs t =>
        (modCore t p (fun k => { k with codebook := elemsI 1 16 (nth [] bs 0), arrayTail := none }), [])))) ∧
    (∀ (g : GranRef) (x : BinRef) (bytes : Nat), let c : TileCmd := { ins := .ld g (.bin x) bytes, tok := tok }
      Issues s0 p c .loader it s → exec (.ld p g (.bin x) bytes tok) s0 = .next (startFlight (flushBins s p) p it c .loader
        (loadCycles s p (if g.width = 0 then 1 else g.width) bytes x.bin.row) [(.gran g, bytes)] false)) ∧
    (∀ (g : GranRef) (k bytes : Nat), let c : TileCmd := { ins := .ld g (.table k) bytes, tok := tok }
      Issues s0 p c .loader it s → exec (.ld p g (.table k) bytes tok) s0 = .next (startFlight (flushBins s p) p it c .loader
        (loadCycles s p (if g.width = 0 then 1 else g.width) bytes 512) [(.gran g, bytes)] false)) ∧
    (∀ (g : GranRef) (x : BinRef) (bytes tag : Nat), let c : TileCmd := { ins := .ldw g x bytes tag, tok := tok }
      Issues s0 p c .loader it s →
      (regI s F.CORE_RESIDENT_TAG p = weightTag it tag → exec (.ldw p g x bytes tag tok) s0 =
        .next (flagItem (addI (nameTag (issueOn s p c .loader 2) p it tag) F.CORE_RESIDENT_HITS p 1) it.key 2)) ∧
      (regI s F.CORE_RESIDENT_TAG p ≠ weightTag it tag → exec (.ldw p g x bytes tag tok) s0 =
        .next (startFlight (flushBins s p) p it c .loader (loadCycles s p (if g.width = 0 then 1 else g.width) bytes x.bin.row)
          [(.gran g, bytes)] false))) ∧
    (∀ (g : GranRef) (x : BinRef) (bytes : Nat), let c : TileCmd := { ins := .st x g bytes, tok := tok }
      Issues s0 p c .loader it s → exec (.st p x g bytes tok) s0 = .next (startFlight (flushBins s p) p it c .loader
        (storeCycles s p (if g.width = 0 then 1 else g.width) bytes) [(.bin x, bytes)] false)) ∧
    (∀ (f : Flight) (g g0 : GranRef) (x : BinRef) (len : Nat),
      f.cmd.ins = .ld g0 (.bin x) len → f.rd = [(.gran g, len)] → f.read = false → f.got = [] → f.part = [] → f.info = {} →
      (core s p).flight .loader = some f → itemOn s p = some it → 0 < len → f.slotAt ≤ s.now →
      let s1 := underLoops s p f.loops
      let sp := granSpan s1 p it g
      sp.circ = none → cdiv len 64 ≤ sp.width → ((core s1 p).region x.bin x.reg).circ = false →
      let r := readOper s1 p it (.gran g, len)
      let a := afterBins (modCore r.1 p (fun k => k.busy .loader f.endAt)) p it.key r.2.info
      let t := writeOper a.1 p it (.bin x, r.2.bytes) f.endAt
      a.2 = true → stillOn a.1 p it.key = true → ((core a.1 p).region x.bin x.reg).circ = false → stillOn t p it.key = true →
      r.2.bytes ≠ [] →
      pumpEngine p s .loader = underLoops (landFlight t p .loader f) p (core s p).loops)

/-- REG, LOOP, ENDL, WAIT, SIG, BND and END. -/
def Obligations.LoopEngine : Prop :=
  ∀ (s0 s : State) (p : Nat) (it : Item) (tok : Toks),
    (∀ (bin : Bin) (r base len : Nat) (circ : Bool), let c : TileCmd := { ins := .reg bin r base len circ, tok := tok }
      Issues s0 p c .loop it s → exec (.reg p bin r base len circ tok) s0 = .next (modCore (issueOn s p c .loop 2) p (fun k => { k with
        regions := tset {} k.regions (bin.num * 8 + r) { defined := true, base := base, len := len, circ := circ } }))) ∧
    (∀ (n : Nat) (strides : List Int), let c : TileCmd := { ins := .loop n strides, tok := tok }
      Issues s0 p c .loop it s → exec (.loop p n strides tok) s0 = .next (modCore (issueOn s p c .loop 2) p (fun k => { k with
        loops := { start := k.pc, left := n - 1, iter := 0, strides := strides } :: k.loops }))) ∧
    (let c : TileCmd := { ins := .endl, tok := tok };
      Issues s0 p c .loop it s → ∃ t, exec (.endl p tok) s0 = .next t ∧
        (∀ f rest, (core s p).loops = f :: rest → 0 < f.left → (core t p).loops = { f with left := f.left - 1, iter := f.iter + 1 } :: rest ∧
          (core t p).pc = f.start) ∧
        (∀ f rest, (core s p).loops = f :: rest → f.left = 0 → (core t p).loops = rest ∧ (core t p).pc = (core s p).pc + 1)) ∧
    (∀ n, let c : TileCmd := { ins := .wait (.token n), tok := tok }
      Issues s0 p c .loop it s →
      ((core s p).tokenSet (2 * s.now) n = true → exec (.wait p (.token n) tok) s0 = .next (issueOn s p c .loop 2)) ∧
      ((core s p).tokenSet (2 * s.now) n = false → exec (.wait p (.token n) tok) s0 = .next (blockOn s p it.key none))) ∧
    (∀ n, let c : TileCmd := { ins := .wait (.tally n), tok := tok }
      Issues s0 p c .loop it s →
      ((core s p).launched + n ≤ s.now → exec (.wait p (.tally n) tok) s0 = .next (issueOn s p c .loop 2)) ∧
      (s.now < (core s p).launched + n → exec (.wait p (.tally n) tok) s0 = .next (blockOn s p it.key none))) ∧
    (∀ n, let c : TileCmd := { ins := .wait (.sem n), tok := tok }
      Issues s0 p c .loop it s →
      ((sem s n).val ≠ 0 → exec (.wait p (.sem n) tok) s0 = .next (modSem (issueOn s p c .loop 2) n (fun y => { y with
        val := y.val - 1, holder := if y.val = 1 then some it.key else y.holder }))) ∧
      ((sem s n).val = 0 → exec (.wait p (.sem n) tok) s0 = .next (blockOn s p it.key (some n)))) ∧
    (∀ r, let c : TileCmd := { ins := .wait (.semScratch r), tok := tok }
      Issues s0 p c .loop it s → exec (.wait p (.semScratch r) tok) s0 =
        .next (waitSem (scratchOf s p r).1 p it.key ((scratchOf s p r).2 % 4096) c)) ∧
    (∀ n, let c : TileCmd := { ins := .sig n, tok := tok }
      Issues s0 p c .loop it s →
      let t := signalSem (issueOn s p c .loop 2) n (some it.key)
      exec (.sig p n tok) s0 = .next t ∧ (sem t n).val = ((sem s n).val + 1) % 2 ^ 32) ∧
    (∀ live, let c : TileCmd := { ins := .bnd live, tok := tok }
      Issues s0 p c .loop it s →
      let s1 := modCore (issueOn s p c .loop 2) p (fun k => { k with atBnd := some live })
      ((core s p).preempt = none → exec (.bnd p live tok) s0 = .next s1) ∧
      (∀ t, (core s p).preempt = some t → s.now < t → exec (.bnd p live tok) s0 = .next s1) ∧
      (∀ t, (core s p).preempt = some t → t ≤ s.now → exec (.bnd p live tok) s0 = .next (stopCore s1 p live))) ∧
    (let c : TileCmd := { ins := .end_, tok := tok };
      Issues s0 p c .loop it s → enginesIdle s p = true →
      let s1 := modItem (issueOn s p c .loop 2) it.key (fun i => { i with ended := i.ended ++ [(core s p).rank] })
      ∀ x, item? s1 it.key = some x →
        (x.ended.length = x.cores.length → exec (.endOp p tok) s0 = .next (finishItem s1 it.key)) ∧
        (x.ended.length ≠ x.cores.length → (core s p).preempt = none → exec (.endOp p tok) s0 = .next s1))

/-- Pooling and tensor crop-and-resize at the corners. -/
def Obligations.OperatorCorners : Prop :=
  ∀ (s0 s : State) (p i n : Nat) (fmt : Fmt) (ps : Bool) (x x2 x3 y : BinRef) (tok : Toks) (it : Item) (d : OpDesc),
    opAt (imgOf s it.e) i = some d →
    let h := (opShape s it i).1
    let w := (opShape s it i).2
    let cmax : TileCmd := { ins := .vec (.max fmt n x x2 y (some i)), tok := tok }
    let cadd : TileCmd := { ins := .vec (.add fmt ps n x x2 y (some i)), tok := tok }
    let cfma : TileCmd := { ins := .vec (.fma fmt n x x2 x3 y (some i)), tok := tok }
    let nothing : Post := fun _ _ t => (t, [])
    (d.tooLarge h w = true →
      (Issues s0 p cmax .vector it s → exec (.max p fmt n x x2 y (some i) tok) s0 = .next (endItem s it.key 0x201)) ∧
      (Issues s0 p cadd .vector it s → exec (.add p fmt ps n x x2 y (some i) tok) s0 = .next (endItem s it.key 0x201)) ∧
      (Issues s0 p cfma .vector it s → exec (.fusedMultiplyAdd p fmt n x x2 x3 y (some i) tok) s0 = .next (endItem s it.key 0x201))) ∧
    (d.tooLarge h w = false → (d.outDims h w).1 = 0 →
      (Issues s0 p cmax .vector it s →
        exec (.max p fmt n x x2 y (some i) tok) s0 = .next (effectOn s p it cmax .vector 2 [] nothing)) ∧
      (Issues s0 p cadd .vector it s →
        exec (.add p fmt ps n x x2 y (some i) tok) s0 = .next (effectOn s p it cadd .vector 2 [] nothing))) ∧
    (let hd := cropHdrOf (peekList s p x2 32).bytes
     Issues s0 p cfma .vector it s → d.tooLarge h w = false → canRead s p x2 32 = true →
     (4096 < hd.count ∨ hd.ow = 0 ∨ hd.oh = 0 ∨ 64 < hd.ow ∨ 64 < hd.oh ∨ 6 < hd.sh ∨ hd.count = 0 ∨ h = 0 ∨ w = 0) →
     Feeds s p it [(.bin x2, 32)] [] →
     exec (.fusedMultiplyAdd p fmt n x x2 x3 y (some i) tok) s0 = .next (effectOn s p it cfma .vector 2 [(.bin x2, 32)]
       (cropPost p i d (d.layout (x.offset (core s p)) h w) h w x y))) ∧
    (∀ (l : Layout) (b : List Sys2Proof.Byte) (bs : List (List Sys2Proof.Byte)) (t : State), let hd := cropHdrOf b
      ((4096 < hd.count ∨ hd.ow = 0 ∨ hd.oh = 0 ∨ 64 < hd.ow ∨ 64 < hd.oh ∨ 6 < hd.sh) →
        cropPost p i d l h w x y it (b :: bs) t = (endItem t it.key 0x201, [])) ∧
      (1 ≤ hd.ow → hd.ow ≤ 64 → 1 ≤ hd.oh → hd.oh ≤ 64 → hd.sh ≤ 6 → hd.count ≤ 4096 → (hd.count = 0 ∨ h = 0 ∨ w = 0) →
        cropPost p i d l h w x y it (b :: bs) t = (t, [])))

/-- The ledger poll, the arrival of an entry, the lease's expiry and an autonomous repeat. -/
def Obligations.LedgerCommands : Prop :=
  ∀ s : State, s.live = true →
    (s.now % (if reg s F.DISP_PERIOD = 0 then 8192 else reg s F.DISP_PERIOD) = 0 → leaseRuns s = true → s.d0 = true →
      let s1 :=
        if s.disp.poll.isSome then addR s F.DISP_POLL_SKIPS 1
        else match startRead s .ledgerPidx (reg s F.DISP_PIDX_ADDR_LO + 2 ^ 32 * reg s F.DISP_PIDX_ADDR_HI) 4 true with
          | some t => { t with disp := { t.disp with poll := some {} } }
          | none => addR (addR s F.DISP_FETCH_TIMEOUTS 1) F.PCIE_READ_FAILS 1
      (flag s1 F.RELAY_CFG_EN = false → exec .ledgerPoll s = .next s1) ∧
      (flag s1 F.RELAY_CFG_EN = true → s1.pcie.reads = [] → exec .ledgerPoll s =
        .next (match startRead s1 .relayPidx (reg s1 F.RELAY_IN_PIDX_ADDR_LO + 2 ^ 32 * reg s1 F.RELAY_IN_PIDX_ADDR_HI) 4 true with
          | some t => t
          | none => addR (addR s1 F.DISP_FETCH_TIMEOUTS 1) F.PCIE_READ_FAILS 1))) ∧
    (∀ p : Poll, s.disp.poll = some p → (tget [] p.got p.checked).isEmpty = false → p.failedFrom = none → p.checked < p.count →
      let e := entryOf (tget [] p.got p.checked)
      let s1 := addR { s with disp := { s.disp with
        lastSeq := some e.seq, poll := some { p with checked := p.checked + 1, got := terase p.got p.checked } } } F.DISP_FETCHED 1
      (∀ st r, arrivalCheck s1 e = some (st, r) → exec .ledgerEntryArrival s = .next (settlePoll (refuseEntry s1 e st r))) ∧
      (arrivalCheck s1 e = none → exec .ledgerEntryArrival s = .next (settlePoll (keepRepeat
        (enqueue s1 { e := e, st := if e.cls = 1 then .pinned else .pooled, arrival := s.now }) e)))) ∧
    (∀ t, s.disp.leaseEnd = some t → leaseRuns s = true → t ≤ s.now →
      let s1 := endPoll (dropReads s (fun k => decide (k = .ledgerPidx)))
      let s2 := putBoth ((upto 16).foldl (fun t k => if ringEn t k then disableRing t k else t) s1) F.DISP_LEDGER_CFG_EN 0 0 0 0
      let s3 := setR (setR { s2 with disp := { s2.disp with leaseEnd := none } } F.DISP_LEASE_EXPIRED 1) F.SYS_STATUS_LEASE 0
      let s4 := endItems s3 (fun i => !i.launched && !i.golden && !isAuto s i) 0x204
      exec .leaseExpiry s = .next (raiseInt ((upto 2).foldl stopEncoder (closeAllAfter s4)) 2 2)) ∧
    (∀ (plan offset : Nat) (r : Repeat), s.disp.repeats.find? (fun r => decide (r.idx = plan) && decide (r.offset = offset)) = some r →
      (flag s F.DISP_LEASE_EXPIRED = true ∨ (s.d0 = false ∧ flag s F.PCIE_POWER_WATCH = true)) → (planAt s plan).st = .installed →
      let l := nextRepeat s r (timelineOf s plan).period
      let s1 := { s with disp := { s.disp with repeats := s.disp.repeats.map (fun (x : Repeat) =>
        if x.idx = plan ∧ x.offset = offset then { x with count := x.count + 1, lastLaunch := l } else x) } }
      exec (.autonomousRepeat plan offset) s = .next (settle (addItem s1 {
        e := { r.e with launch := l, seq := 2 ^ 63 + r.count + 1, perturb := 0, input := 0 },
        st := .pinned, arrival := s.now, isRepeat := true })))

/-- The decision of a pinned launch and the launch itself. -/
def Obligations.PinnedItems : Prop :=
  ∀ s : State, s.live = true →
    (∀ (item : Nat) (it : Item), item < goldenBase → item? s item = some it → it.st = .pinned → it.e.launch ≤ s.now + 5200 →
      firstDecision s item it.e.launch (planIdx it.e.plan) = true → goldenAfter s it.e.launch (planIdx it.e.plan) = true →
      exec (.pinnedLaunchDecision item) s = .next (decidePinned s it) ∧
      (∀ ls, let s1 := pruneResv s
        it.golden = false → pickCores (imgOf s1 it.e).hdr.cores (imgOf s1 it.e).hdr.oneCluster
          ((upto 64).filter (freeAt s1 it.e.launch)) = some ls →
        exec (.pinnedLaunchDecision item) s = .next (decideChecks
          (takeCores s1 it.key ls it.e.launch (it.e.launch + windowLen s1 it)) it.key))) ∧
    (∀ (i w : Nat), goldenDue s i = some w → flag s F.WINNOW_CTRL_EN = true → (planAt s i).st = .installed → (planAt s i).img.hdr.cls = 1 →
      s.disp.items.all (fun x => decide (x.st ≠ .pinned) || decide (w < x.e.launch) ||
        (decide (w = x.e.launch) && decide (i < planIdx x.e.plan))) = true → goldenAfter s w i = true →
      let g : Item := { e := { plan := planIdAt s i, cls := 1, batch := 1, launch := w }, st := .pinned, arrival := s.now, golden := true }
      let s1 := addItem { s with winnow := { s.winnow with goldenRun := tset 0 s.winnow.goldenRun i (w + 1) } } g
      exec (.pinnedLaunchDecision (goldenBase + i)) s = .next (decidePinned s1 { g with key := s.disp.nextKey })) ∧
    (∀ (item : Nat) (it : Item), item? s item = some it → it.st = .decided → it.e.launch ≤ s.now →
      (it.golden = true → s.noLaunch = false → it.cores.all (coreIdle s) = true →
        exec (.pinnedLaunch item) s = .next (launchItem s item it.cores it.e.launch)) ∧
      (it.golden = true → (s.noLaunch = true ∨ it.cores.all (coreIdle s) = false) →
        exec (.pinnedLaunch item) s = .next (addR (endItem s item 0) F.WINNOW_GOLDEN_DEFERRED 1)) ∧
      (it.golden = false → it.late = true → s.noLaunch = true → exec (.pinnedLaunch item) s = .next s) ∧
      (it.golden = false → it.late = true → s.noLaunch = false → it.cores.any (coreGone s) = true →
        exec (.pinnedLaunch item) s = .next (endItem s item 0x301)) ∧
      (it.golden = false → it.late = true → s.noLaunch = false → it.cores.any (coreGone s) = false → it.cores.all (coreIdle s) = true →
        exec (.pinnedLaunch item) s = .next (launchItem
          (modItem s item (fun i => { i with delay := i.delay + (s.now - it.e.launch) })) item it.cores s.now)) ∧
      (it.golden = false → it.late = true → s.noLaunch = false → it.cores.any (coreGone s) = false → it.cores.all (coreIdle s) = false →
        exec (.pinnedLaunch item) s = .next (modItem s item (fun i => { i with late := true }))) ∧
      (it.golden = false → it.late = false → s.noLaunch = true → exec (.pinnedLaunch item) s = .next (endItem s item 0x202)) ∧
      (it.golden = false → it.late = false → s.noLaunch = false → it.isRepeat = false → allReady s it = false →
        exec (.pinnedLaunch item) s = .next (endItem s item 0x206)) ∧
      (it.golden = false → it.late = false → s.noLaunch = false → it.isRepeat = false → allReady s it = true →
        (∀ st r, shapeStatus s it it.lateBinds = some (st, r) → exec (.pinnedLaunch item) s = .next (endItemWith s item st r [] false)) ∧
        (shapeStatus s it it.lateBinds = none → it.cores.all (coreIdle s) = true →
          exec (.pinnedLaunch item) s = .next (launchItem s item it.cores it.e.launch))))

/-- Pooled placement, the refusal at a deadline, and eviction. -/
def Obligations.PooledItems : Prop :=
  ∀ s : State, s.live = true →
    (s.noLaunch = false → flag s F.THERM_STATE_WARN = false →
      let hs := s.disp.items.filter (fun i => !i.isPinned && i.inherit &&
        (decide (i.st = .pooled) || decide (i.st = .saving) || decide (i.st = .out)))
      exec .pooledPlacement s = .next (match placeHolders hs s with
        | some t => t
        | none => placeLevels [0, 1, 2, 3] s) ∧
      (∀ (it : Item) (ls : List Nat), hs = [] → (waitingAt s 0).find? (headReady s) = some it → it.st = .pooled →
        pastDeadline s it = false → 64 ≤ ctxFree s → placeable s it = some ls →
        exec .pooledPlacement s = .next (launchPooled s it ls)) ∧
      (∀ (it : Item) (ls : List Nat), hs = [] → (waitingAt s 0).find? (headReady s) = some it → it.st = .out →
        it.clusterSet.any (fun c => (clu s c.1).outOfService) = false → placeable s it = some ls →
        exec .pooledPlacement s = .next (startRestore s it ls))) ∧
    (∀ (item : Nat) (it : Item), item? s item = some it → it.st = .pooled → it.e.deadline ≠ 0 →
      (allReady s it = true → pastDeadline s it = true →
        exec (.deadlineRefusal item) s = .next (addR (endItem s item 0x202) F.DISP_DEADLINE_REFUSALS 1)) ∧
      (allReady s it = false → it.e.deadline ≤ s.now → exec (.deadlineRefusal item) s = .next (endItem s item 0x206))) ∧
    (∀ (h it : Item) (k : Nat), blockedHead s [0, 1, 2, 3] = some h → longestBlocked s = some k → item? s k = some it →
      (pooledCores s).all (fun p => (core s p).blocked.isSome && !(core s p).stopped) = true →
      (s.disp.evictFor = some h.key ∨ (upto 64).any (freeFor s h.key) = false) → s.noLaunch = false →
      exec .eviction s = .next (it.cores.foldl (fun t l => match physOf t l with
        | some p => stopCore t p ((core t p).atBnd.getD [])
        | none => t) (modItem { s with disp := { s.disp with evictFor := some h.key } } k (fun i => { i with evicted := true }))))

/-- Pre-emption at a boundary, the save of a context, its moves and its restore. -/
def Obligations.ContextsSavedAndRestored : Prop :=
  ∀ s : State, s.live = true →
    (∀ (p k t : Nat) (it : Item), (core s p).item = some k → (core s p).preempt = some t → t ≤ s.now → (core s p).stopped = false →
      item? s k = some it →
      (it.st = .restoring → exec (.preemptionArrival p) s = .next (abandonRestore s k)) ∧
      (∀ live, it.st ≠ .restoring → atBoundary s p = some live → exec (.preemptionArrival p) s = .next (stopCore s p live))) ∧
    (∀ (p k e : Nat) (live : List (Bin × Nat)), (core s p).item = some k → (core s p).atBnd = some live → freeCtx s = some e →
      wantsSave s p = true → enginesIdle s p = true → saveRuns s (p / 9) = false → saveFirst s p = true →
      let it := (item? s k).getD {}
      let r := readRows s p it (liveRows (core s p) live)
      let s1 := useCarter (usePhase3 r.1 p r.2.1.length) (p / 9) (carterSlot s (p / 9) s.now (ctxGranules r.2.1))
      (r.2.2.bad = true → exec (.contextSave p) s = .next (afterBins s1 p k r.2.2).1) ∧
      (r.2.2.bad = false →
        let x : Ctx := { st := .save, blocked := (core s p).blocked.isSome, rank := (core s p).rank, cluster := p / 9,
                         core := regI s F.CORE_STATE_LOGICAL p, item := k,
                         tag := regI s F.CORE_RESIDENT_TAG p, tagPlan := regI s F.CORE_RESIDENT_PLAN p }
        exec (.contextSave p) s = .next (refreshCtx (addR (setI { s1 with
          ctxs := tset {} s1.ctxs e x, ctxCores := tset {} s1.ctxCores e (contextOf (core s1 p) r.2.1) }
          F.CORE_STATE_STATE p 2) F.CARTER_SAVES 1)))) ∧
    (∀ p k, (core s p).item = some k → regI s F.CORE_STATE_STATE p = 2 → (clu s (p / 9)).carterAt + 7 ≤ s.now →
      let s1 := clearCore s p
      ((upto 72).any (fun q => decide ((core s1 q).item = some k)) = true → exec (.contextSaveLanded p) s = .next s1) ∧
      ((upto 72).any (fun q => decide ((core s1 q).item = some k)) = false →
        exec (.contextSaveLanded p) s = .next (modItem s1 k (fun i => { i with st := .out, cores := [] })))) ∧
    (∀ ctx, (tget {} s.ctxs ctx).st = .save →
      (upto 72).all (fun p => decide ((core s p).item ≠ some (tget {} s.ctxs ctx).item) ||
        decide ((core s p).rank ≠ (tget {} s.ctxs ctx).rank)) = true →
      exec (.contextMove ctx) s = .next (match warmFrame s (tget {} s.ctxs ctx).cluster with
        | some f => { s with ctxs := tset {} s.ctxs ctx { tget {} s.ctxs ctx with st := .moving, frame := f, toCold := false } }
        | none => { s with ctxs := tset {} s.ctxs ctx { tget {} s.ctxs ctx with st := .moving, frame := ctx, toCold := true } })) ∧
    (∀ ctx, (tget {} s.ctxs ctx).st = .moving → exec (.contextMoveDone ctx) s = .next (refreshCtx (addR { s with
      ctxs := tset {} s.ctxs ctx { tget {} s.ctxs ctx with st := if (tget {} s.ctxs ctx).toCold then .cold else .warm } }
      F.CARTER_DEMOTIONS (bnat (tget {} s.ctxs ctx).toCold)))) ∧
    (∀ (item e p : Nat) (it : Item) (x : Ctx), item? s item = some it → (ctxsOf s item).find? (fun e => !e.2.restored) = some (e, x) →
      physOf s (nth 64 it.cores x.rank) = some p → it.st = .restoring → restoreWaits s (p / 9) it = false →
      let snap := tget {} s.ctxCores e
      let due := carterSlot s (p / 9) it.decision (ctxGranules snap.savedRows)
      due + 14 ≤ s.now →
      let r := restoreTag (useCarter s (p / 9) due) p snap x.tag x.tagPlan
      let s1 := modCore r.1 p (fun c =>
        let y := c.restore snap it.e.plan (regI s F.CORE_PSUM_MASK p) r.2
        { y with item := some item, rank := x.rank, preempt := c.preempt, stopped := false, atBnd := none, blocked := none })
      let s2 := usePhase3 (writeRows s1 p it snap.savedRows) p snap.written.length
      let s3 := addR { s2 with ctxs := tset {} s2.ctxs e { x with restored := true } } F.CARTER_RESTORES 1
      let s4 := if x.place = .cold then addR s3 F.CARTER_COLD_RESTORES 1 else s3
      exec (.contextRestore item) s = .next (if (ctxsOf s4 item).all (fun y => y.2.restored) then resumeItem s4 item else s4))

/-- A context holds the loop engine, the regions, the codebook and the rows it was given, and restoring it brings them back. -/
def Obligations.ASaveKeepsWhatWasLive : Prop :=
  (∀ (c x : CoreS) (rows : List SavedRow) (plan mask : Nat) (res : List (Nat × Nat)),
    let r := x.restore (contextOf c rows) plan mask res
    r.pc = c.pc ∧ r.loops = c.loops ∧ r.tokens = c.tokens ∧ r.regions = c.regions ∧ r.codebook = c.codebook ∧ r.rank = c.rank ∧
      r.launched = c.launched ∧ r.psumMask = mask ∧ r.resident = res ∧ (∀ b, r.bin b = x.bin b) ∧ (x.canon = true → r.canon = true)) ∧
  (∀ (c : CoreS) (rows : List SavedRow), (∀ q ∈ rows, q.row < 4096 ∧ q.bytes.length = q.bin.row) →
    rows.Pairwise (fun a b => a.bin ≠ b.bin ∨ a.row ≠ b.row) → ∀ q, q ∈ (contextOf c rows).savedRows ↔ q ∈ rows) ∧
  (∀ (s : State) (p n : Nat) (it : Item) (q : SavedRow), rowPlace s p it q.bin q.row = some n → q.bytes.length = q.bin.row →
    let t := writeRows s p it [q]
    ((core t p).bin q.bin).read (n * q.bin.row) q.bin.row = q.bytes ∧ (core t p).isWritten q.bin n = true)

/-- The intake poll, a descriptor, an access unit that has been copied, and an item of a record slot. -/
def Obligations.IntakeCommands : Prop :=
  ∀ s : State, s.live = true →
    (s.now % (if reg s F.INTAKE_PERIOD < 256 then 256 else reg s F.INTAKE_PERIOD) = 0 → s.d0 = true → flag s F.DISP_LEASE_EXPIRED = false →
      s.journalFull = false →
      exec .intakePoll s = .next ((rangeFrom 72 4 ++ upto 64).foldl pollSlot s) ∧
      (∀ n, (n < 64 ∨ (72 ≤ n ∧ n < 76)) → (∀ m, m ≠ n → (slotAt s m).isOpen = false) → (slotAt s n).isOpen = true →
        (slotAt s n).closing = false → (slotAt s n).pidxPending = false → (slotAt s n).descPending = 0 → waitsBuffer s n = false →
        s.mayRead = true →
        exec .intakePoll s = .next (modSlot (readBegun s (.intakePidx n) (pairS s F.PIDX_ADDR_LO F.PIDX_ADDR_HI n) 4 true) n
          (fun x => { x with pidxPending := true })))) ∧
    (∀ (n : Nat) (d : Desc) (rest : List Desc), (slotAt s n).fetched = d :: rest → (slotAt s n).isOpen = true → (slotAt s n).closing = false →
      (slotAt s n).copying = none → intakeMay s = true →
      let p := regS s F.ADM_POOL_POOL n
      ((d.len = 0 ∨ 16777216 < d.len ∨ poolSize s p < d.len) → exec (.descriptorRead n) s =
        .next (notCopied (modSlot s n (fun x => { x with fetched := rest })) n d)) ∧
      (∀ s2 r, 1 ≤ d.len → d.len ≤ 16777216 → d.len ≤ poolSize s p → cooperAlloc s n d.len (2 ^ p) none = (s2, r) →
        (r = none → exec (.descriptorRead n) s = .next s2) ∧
        (∀ h, r = some h → s2.mayRead = true → exec (.descriptorRead n) s = .next (readBegun
          (modSlot s2 n (fun x => { x with fetched := rest, copying := some (d, h) })) (.auBytes n) d.addr d.len true)))) ∧
    (∀ (n : Nat) (d : Desc) (h : Nat) (failed : Bool) (b : List Sys2Proof.Byte), (slotAt s n).copying = some (d, h) →
      (slotAt s n).copyRes = some (failed, b) →
      let arr := recent (slotAt s n).arrivals s.now ++ [s.now]
      let fast := decide (regS s F.ADM_DPB_RATE_FPS n + 4 < arr.length) && !isRecordSlot n
      let s1 := modSlot (consume s n) n (fun x => { x with
        copying := none, copyRes := none, arrivals := arr, aus := x.aus ++
          [{ d := d, arrival := s.now, handle := h, readFailed := failed, bytes := b, kind := if fast then .overRate else .plain }] })
      (failed = false ∨ isRecordSlot n = false → exec (.auCopyDone n) s = .next s1) ∧
      (failed = true → isRecordSlot n = true → exec (.auCopyDone n) s = .next (raiseInt (addX s1 F.REC_DROPS (n - 72) 1) 115 1))) ∧
    (∀ (n : Nat) (a : AU) (rest : List AU), isRecordSlot n = true → (slotAt s n).isOpen = true → (slotAt s n).aus = a :: rest →
      let r := n - 72
      let b := a.bytes.drop (recOf s r).itemPos
      let done (t : State) : State :=
        let t1 := modRec (modSlot t n (fun x => { x with aus := rest })) r (fun y => { y with itemPos := 0 })
        if a.handle < 2 ^ 30 then cooperFree t1 a.handle else t1
      (b.isEmpty = true → exec (.recordItem n) s = .next (done s)) ∧
      (b.isEmpty = false → cborItem b = none → exec (.recordItem n) s = .next (done (recDrop s n))) ∧
      (∀ m rem, b.isEmpty = false → cborItem b = some (m, rem) →
        let s1 := match takeItem s r a.arrival m with
          | some t => addX t F.REC_ITEMS r 1
          | none => recDrop s n
        exec (.recordItem n) s = .next (if rem.isEmpty then done s1
          else modRec s1 r (fun y => { y with itemPos := a.bytes.length - rem.length }))))

/-- The start of a picture's decoding, its completion and the expiry of its budget. -/
def Obligations.DecodingCommands : Prop :=
  ∀ s : State, s.live = true →
    (∀ (cl : Claims) (n : Nat) (a : AU) (g0 : Nat) (gs : List Nat), nextPicture s = some (n, a) → freeDecs s = g0 :: gs →
      (∀ o c, ((a.readFailed = false ∧ headerCheck s n a cl = some (o, c)) ∨ (a.readFailed = true ∧ a.kind = .overRate ∧ o = 4 ∧ c = 8)) →
        exec (.pictureDecodeStart cl) s = .next (refusePicture s n a cl o c (.outcome o c))) ∧
      (((a.readFailed = false ∧ headerCheck s n a cl = none) ∨ (a.readFailed = true ∧ a.kind ≠ .overRate)) →
        (∀ o c, (slotAt s n).skip = .outcome o c → (cl.rap = false ∨ a.readFailed = true) →
          exec (.pictureDecodeStart cl) s = .next (refusePicture s n a cl o c (.outcome o c))) ∧
        (∀ g s1 r, ((slotAt s n).skip = .none ∨ (cl.rap = true ∧ a.readFailed = false)) → gangOf s n cl = some g →
          cooperAlloc s n (picBytes (admCodec s n) (regS s F.ADM_DIMS_WIDTH n) (regS s F.ADM_DIMS_HEIGHT n)
            (decide (regS s F.ADM_CODEC_HIBIT n ≠ 0))) (2 ^ regS s F.ADM_POOL_POOL n) none = (s1, r) →
          (∀ h, r = some h → exec (.pictureDecodeStart cl) s = .next (startPicture s1 n a cl g h)) ∧
          (r = none → exec (.pictureDecodeStart cl) s = .next s1)))) ∧
    (∀ (core : Nat) (d : Decoded) (a : AU) (c : Claims), (dec s core).au = some a → (dec s core).claims = some c →
      let x := dec s core
      let n := x.slot
      let conc := if c.w * c.h = 0 then 0 else cdiv (1024 * lackCount (d.lost a.readFailed c.w c.h) c.w c.h) (c.w * c.h)
      let cause := if conc = 0 then 0 else if a.readFailed then 11 else if lackCount d.missing c.w c.h = 0 then 10 else 9
      let head := picHead n a.arrival (auFlags a.d c.rap (c.codec = 3 && c.grain)) (bnat (decide (conc ≠ 0))) cause conc a.d.seq c.w c.h
        d.cycles x.handle (x.gang.foldl setBit 0) 0 (bnat c.hibit)
      let p : Pic := { slot := n, seq := a.d.seq, kind := .decoded, w := c.w, h := c.h, format := bnat c.hibit,
                       base := handleAddr s x.handle, handle := x.handle, src := a.arrival, ready := false,
                       outcome := bnat (decide (conc ≠ 0)), recHead := head, user := a.d.user }
      let put := hbmPut s p.base (d.bytes a.readFailed c.hibit c.w c.h (refPlanes s n d.ref))
      let s0 := if x.gang.any (fun i => (dec s i).ue) then
          poisonPic put p.base (if d.poisoned = [] then [(0, picSize (bnat c.hibit) c.w c.h)] else d.poisoned)
        else put
      let s1 := freeGang s0 x.gang
      let s2 := if conc = 0 then s1 else addI s1 F.DEC_CONCEALED core 1
      let s3 := { s2 with strm := { s2.strm with pics := s2.strm.pics ++ [p] } }
      let s4 := if a.handle < 2 ^ 30 then cooperFree s3 a.handle else s3
      exec (.decodeComplete core d) s = .next (endDecode (d.released.foldl (fun t q => forward t n q) s4) n)) ∧
    (∀ (core : Nat) (a : AU) (c : Claims), (dec s core).au = some a → (dec s core).claims = some c →
      13 * (slotAt s (dec s core).slot).budget ≤ 10 * (s.now - (dec s core).start) →
      let x := dec s core
      let s1 := cooperFree (freeGang s x.gang) x.handle
      let s2 := refuseAu s1 x.slot a 3 14 c.w c.h (slotAt s x.slot).budget (x.gang.foldl setBit 0) c.rap
      exec (.decodeBudgetExpiry core) s =
        .next (endDecode (modSlot (addI s2 F.DEC_ABANDONED core 1) x.slot (fun y => { y with skip := .outcome 3 15 })) x.slot))

/-- A CSI-2 packet, the end of a frame and its timeout. -/
def Obligations.Csi2Commands : Prop :=
  ∀ (s : State) (port : Nat), s.live = true → csiRuns s port = true → (csi s port).busy = true →
    (∀ pkt : CsiPkt, 2 ≤ pkt.hdrErr →
      let s1 := addI s F.CSI_CRC_ERR port 1
      exec (.csiPacket port pkt) s = .next (if (csi s1 port).lines.length < csiH s1 port then badLine s1 port 12 else s1)) ∧
    (∀ pkt : CsiPkt, pkt.hdrErr < 2 →
      let s1 := if pkt.hdrErr = 1 then addI s F.CSI_ECC_CORR port 1 else s
      ((pkt.vc ≠ regI s1 F.CSI_CFG_VC port ∨ pkt.dt ≠ regI s1 F.CSI_CFG_DT port) → exec (.csiPacket port pkt) s = .next s1) ∧
      (pkt.vc = regI s1 F.CSI_CFG_VC port → pkt.dt = regI s1 F.CSI_CFG_DT port →
        (csiH s1 port ≤ (csi s1 port).lines.length → exec (.csiPacket port pkt) s = .next (addI s1 F.CSI_CRC_ERR port 1)) ∧
        ((csi s1 port).lines.length < csiH s1 port → pkt.crcOk = false →
          exec (.csiPacket port pkt) s = .next (badLine (addI s1 F.CSI_CRC_ERR port 1) port 12)) ∧
        ((csi s1 port).lines.length < csiH s1 port → pkt.crcOk = true → pkt.px.length < (if isYuv s1 port then 2 else 1) →
          exec (.csiPacket port pkt) s = .next (badLine s1 port 12)) ∧
        ((csi s1 port).lines.length < csiH s1 port → pkt.crcOk = true → (if isYuv s1 port then 2 else 1) ≤ pkt.px.length →
          let l := fitLine (isYuv s1 port) (csiW s1 port) pkt.px
          let s2 := modCsi (if lineLen s1 port < pkt.px.length then addI s1 F.CSI_CRC_ERR port 1 else s1) port (fun x => { x with
            lines := x.lines ++ [l.1], filled := x.filled + l.2,
            cause := if l.2 = 0 then x.cause else lowCause x.cause 12,
            lastGood := tset [] x.lastGood ((csi s1 port).lines.length % 2) l.1 })
          exec (.csiPacket port pkt) s = .next s2 ∧
          (isYuv s1 port = false → ∀ k, k = pkt.px.length → csiW s1 port ≤ k → l = (pkt.px.take (csiW s1 port), 0)) ∧
          (isYuv s1 port = false → ∀ k, k = pkt.px.length → k < csiW s1 port →
            l = (pkt.px ++ List.replicate (csiW s1 port - k) (nth 0 pkt.px (k - 1)), csiW s1 port - k))))) ∧
    exec (.frameEnd port) s = .next (closeFrame s port 12) ∧
    ((csi s port).s + regI s F.CSI_FE_TIMEOUT port * 65536 ≤ s.now → exec (.frameEndTimeout port) s = .next (closeFrame
      (modCsi (addI s F.CSI_FE_TIMEOUTS port 1) port (fun x => { x with cause := lowCause x.cause 13 })) port 13))

/-- A scaler stage starts with its exact duration and is done after it. -/
def Obligations.ScalerStages : Prop :=
  (∀ (s : State) (item stage : Nat) (it : Item) (st : ShapeStage) (l : List Src), s.live = true → item? s item = some it →
    (imgOf s it.e).shaping[stage]? = some st → (st.binding :: st.more).mapM (srcOf s it) = some l → st.unit = .scaler →
    let g := sumN (l.map (fun src => srcGranules src.fmt src.w src.h src.base st.desc.outFmt))
    let out := cdiv st.outBytes 16
    let dur := if l.all (fun src => decide (src.w ≠ 0) && decide (src.h ≠ 0)) then 1624 + (if out < g then g else out) else 1
    stageMay s it stage st dur = true →
    exec (.scalerStageStart item stage) s = .next { countWait s it st with shape := { (countWait s it st).shape with
      scaler := some { item := item, stage := stage, start := s.now, dur := dur, pinned := it.isPinned } } }) ∧
  (∀ (s : State) (g : StageS) (it : Item) (st : ShapeStage) (l : List Src), s.live = true → s.shape.scaler = some g → g.start + g.dur ≤ s.now →
    let s0 := { s with shape := { s.shape with scaler := none } }
    (item? s g.item = none → exec .scalerStageDone s = .next s0) ∧
    (item? s g.item = some it → (imgOf s it.e).shaping[g.stage]? = some st → (st.binding :: st.more).mapM (srcOf s it) = some l →
      (stageRoom s it st st.outBytes = false → exec .scalerStageDone s = .next s) ∧
      (∀ src rest, stageRoom s it st st.outBytes = true → l.filter (fun src => decide (0 < src.info.ue) || decide (0 < src.info.poison)) = src :: rest →
        exec .scalerStageDone s =
          .next (hbmFault s0 (src.info.lastAddr.getD src.base) (decide (src.info.ue = 0)) src.info.decPoison (some it.key))) ∧
      (stageRoom s it st st.outBytes = true → (∀ src ∈ l, src.info.ue = 0 ∧ src.info.poison = 0) →
        let s1 := markDone (modItem (stageWaits s0 it st (g.start + g.dur)) it.key
          (fun i => { i with late := i.late || decide (g.start + g.dur < s.now) })) it.key g.stage
        ((∃ src ∈ l, src.w = 0 ∨ src.h = 0) → exec .scalerStageDone s = .next s1) ∧
        ((∀ src ∈ l, src.w ≠ 0 ∧ src.h ≠ 0) → exec .scalerStageDone s = .next (putScaler s1 it g.stage st ((enumFrom 0 l).flatMap (fun p =>
          scalerOut st.desc p.2.fmt p.2.w p.2.h p.2.bytes (if it.e.perturb = 0 then none else some (pertAt it.perturbB p.1)))))))))

/-- A Sickle stage's start, its reads and its boxes, and the packer. -/
def Obligations.SickleAndPacker : Prop :=
  ∀ s : State, s.live = true →
    (∀ (unit item stage : Nat) (it : Item) (st : ShapeStage) (hd : BoxHdr) (s1 : State) (l : BoxHdr × List Box) (ok : Bool) (d : Nat),
      item? s item = some it → (imgOf s it.e).shaping[stage]? = some st → st.hdr = some hd → unit < 2 → st.unit = sickleUnit unit →
      domOn s 219 = true → listTicks s it st (stageBoxes s it st hd).2.1 = some d → stageMay s it stage st d = true →
      stageBoxes (countWait s it st) it st hd = (s1, l, ok) →
      let g : StageS := { item := item, stage := stage, start := s.now, dur := d, pinned := it.isPinned }
      let s2 := putSickle s1 unit { stage := some g, hdr := l.1, boxes := l.2, endT := s.now }
      (ok = false → exec (.sickleStageStart unit item stage) s = .next s1) ∧
      (ok = true → listLimits it l = false → exec (.sickleStageStart unit item stage) s = .next (endItem s1 item 0x201)) ∧
      (ok = true → listLimits it l = true → l.2 = [] → exec (.sickleStageStart unit item stage) s = .next (endSickle s2 unit it st g)) ∧
      (ok = true → listLimits it l = true → l.2 ≠ [] → exec (.sickleStageStart unit item stage) s = .next s2)) ∧
    (∀ (unit : Nat) (g : StageS) (it : Item) (st : ShapeStage) (src : Src), sickleCtx s unit = some (g, it, st, src) →
      let x := sickle s unit
      let need (i : Nat) : Nat := (granulesOf x it st src i).length
      (0 < x.issued → x.issueBox < x.boxes.length → x.inBuf < 2048 → g.start < s.now → maxOf (x.lastIssue.map (fun e => e.2)) < s.now →
        exec (.sickleGranuleRead unit) s = .next (putSickle s unit { x with
          issueBox := if x.issued + 1 = need x.issueBox then x.issueBox + 1 else x.issueBox,
          issued := if x.issued + 1 = need x.issueBox then 0 else x.issued + 1, inBuf := x.inBuf + 1,
          lastIssue := tset 0 x.lastIssue x.issueBox s.now })) ∧
      (x.started = false → x.box < x.boxes.length → boxIssued x (need x.box) x.box = true → x.endT ≤ s.now →
        (need x.box = 0 ∨ tget 0 x.lastIssue x.box + 1560 ≤ s.now) →
        exec (.sickleBoxStart unit) s = .next (putSickle s unit { x with started := true, startT := s.now })) ∧
      (∀ b : Box, x.started = true → x.startT + boxTicks st.desc x.hdr ≤ s.now → x.boxes[x.box]? = some b → it.golden = false →
        let i := granInfo s (granulesOf x it st src x.box)
        ((0 < i.ue ∨ 0 < i.poison) → exec (.sickleBoxEnd unit) s =
          .next (hbmFault s (i.lastAddr.getD src.base) (decide (i.ue = 0)) i.decPoison (some it.key))) ∧
        (i.ue = 0 → i.poison = 0 →
          let o := cropOut st.desc x.hdr src.fmt (planesFor src.fmt st.desc.outFmt (samplePlanes src.fmt src.w src.h src.bytes)) b
            (boxPert x.hdr it x.box)
          let s1 := addI s F.SICKLE_BOXES unit 1
          let s2 := if o.2.testBit 1 then addI s1 F.SICKLE_OUTSIDE unit 1 else s1
          let s3 := if o.2.testBit 2 then addI s2 F.SICKLE_DEGENERATE unit 1 else s2
          let s4 := if (st.pack.map (fun c => c.tile)).getD false = true then
              { s3 with shape := { s3.shape with crops := s3.shape.crops ++
                [{ item := it.key, stage := g.stage, w := x.hdr.outW, h := x.hdr.outH, bytes := o.1 }] } }
            else s3
          let s5 := putSickle s4 unit { x with
            box := x.box + 1, started := false, endT := s.now, inBuf := x.inBuf - (granulesOf x it st src x.box).length, flags := x.flags ++ [o.2] }
          (physOf s5 (nth 64 it.cores 0) = none → exec (.sickleBoxEnd unit) s = .next s5) ∧
          (∀ p, physOf s5 (nth 64 it.cores 0) = some p →
            let sp := granSpan s5 p it { st.dstGran with strides := [] }
            let r := stripeOut (targetsOf x.hdr) sp (o.1.length / 64 + 2) (x.box * o.1.length) o.1 s5
            let s6 := (targetsOf x.hdr).foldl (fun u k => nameWrites u k it.key) r.1
            let s7 := afterPut s6 it.key 0 sp 0 false r.2.2
            (∀ k, r.2.1 = some k → exec (.sickleBoxEnd unit) s =
              .next (afterPut s6 it.key k sp (cdiv ((x.box + 1) * o.1.length) 64) true false)) ∧
            (r.2.1 = none → x.box + 1 ≠ x.boxes.length → exec (.sickleBoxEnd unit) s = .next s7) ∧
            (r.2.1 = none → x.box + 1 = x.boxes.length → exec (.sickleBoxEnd unit) s = .next (endSickle s7 unit it st g)))))) ∧
    (∀ (item stage : Nat) (it : Item) (st : ShapeStage) (c : PackCfg) (samples : List PackSrc) (s0 : State) (l : List PackSample),
      item? s item = some it → (imgOf s it.e).shaping[stage]? = some st → st.pack = some c → it.st = .running →
      packReady s it stage c samples = true → packSamples s it stage c samples = (s0, l, true) →
      let tooWide (x : PackSample) : Bool := !c.tile && decide (c.rowW < x.len)
      let n := (l.filter tooWide).length
      let s1 := if n = 0 then s0 else addI s0 F.SICKLE_OVERSIZE (if st.unit = .sickle1 then 1 else 0) n
      let rows := nextFit c.rowW (if c.tile then c.guard_ else 0)
        (((enumFrom 0 l).filter (fun x => !tooWide x.2)).map (fun x => (x.1, x.2.len, x.2.bytes))) [] 0
      let out := rows.flatMap (fun r => packRow st c (maxOf (l.map (fun x => x.lines))) r ++ markVector c.rowW r ++ segTable r) ++
        l.map (fun x => if tooWide x then (8 : Sys2Proof.Byte) else 0)
      (c.tile = true → s0 = s ∧ l = (s.shape.crops.filter (fun x => decide (x.item = it.key) && decide (x.stage = stage))).map (fun x =>
        { len := x.w, lines := x.h, bytes := x.bytes })) ∧
      (c.maxRows < rows.length → exec (.pack item stage samples) s = .next (endItem s1 item 0x201)) ∧
      (rows.length ≤ c.maxRows → stageRoom s it st out.length = true →
        let s2 := { s1 with shape := { s1.shape with packRows := tset 0 s1.shape.packRows item rows.length } }
        exec (.pack item stage samples) s = .next ((itemClusters s2 it).foldl (fun t k =>
          let sp := granSpan t k.2 it { st.dstGran with strides := [] }
          let r := granPut t k.1 sp out
          afterPut r.1 item k.1 sp (cdiv out.length 64) r.2.1 r.2.2) s2)))

/-- The pictures an encoder takes and its slices, and the steps of the track engine. -/
def Obligations.EncoderAndTrackSteps : Prop :=
  ∀ s : State, s.live = true →
    (∀ (enc slot src : Nat) (p : Pic),
      s.strm.pics.find? (fun p => decide (p.slot = slot) && decide (p.src = src) && decide (p.kind = encKind s enc slot) && p.ready && !p.dead) = some p →
      enc < 2 → s.d0 = true → regI s F.ENC_CTRL_EN enc ≠ 0 → regI s F.ENC_SRC_SLOT enc = slot → p.outcome < 2 → (enc_ s enc).due ≤ src →
      p.w ≠ 0 → p.h ≠ 0 →
      let x := enc_ s enc
      let fps := regI s F.ENC_RATE_FPS enc
      let s1 := modEnc s enc (fun y => { y with
        queue := y.queue ++ [{ src := src, num := x.picNum, slot := slot, fmt := p.format, w := p.w, h := p.h,
                               bytes := s.hbm.mem.read p.base (picSize p.format p.w p.h) }],
        picNum := y.picNum + 1, due := y.due + (if fps = 0 then 0 else 1300000000 / fps) })
      (2 ≤ x.queue.length → exec (.encoderPictureTake enc slot src) s = .next (addI s F.ENC_SKIPPED enc 1)) ∧
      (x.queue = [] → exec (.encoderPictureTake enc slot src) s = .next (startEnc s1 enc)) ∧
      (x.queue.length = 1 → exec (.encoderPictureTake enc slot src) s = .next s1)) ∧
    (∀ (enc : Nat) (p : EncPic) (rest : List EncPic), (enc_ s enc).queue = p :: rest → enc < 2 →
      regI s F.ENC_CTRL_EN enc ≠ 0 → (enc_ s enc).started = true → (enc_ s enc).slice < p.slices →
      let s1 := modEnc s enc (fun y => { y with slice := y.slice + 1 })
      (p.sub = true → exec (.encodeSliceDone enc) s = .next (emitSlice s1 enc p (enc_ s enc).slice)) ∧
      (p.sub = false → exec (.encodeSliceDone enc) s = .next s1)) ∧
    (∀ h : HandOff, nextHandOff s = some h → engineBusy s = false → domOn s 219 = true →
      let early := s.trk.embHands.find? (fun e => decide (e.1 = h.slot) && decide (e.2.1 = h.seq))
      let wait := decide (regS s F.TRK_CTRL_EMB h.slot ≠ 0)
      let dets := suppress (decide (regS s F.TRK_CTRL_NMS_AGNOSTIC h.slot ≠ 0)) (regS s F.TRK_NMS_IOU_T h.slot) (maxKeep s h.slot) h.cands
      let x : TrkStep := { slot := h.slot, seq := h.seq, src := h.src, phase := if wait && early.isNone then .waiting else .active,
                           start := s.now, waitFrom := s.now, waited := 0,
                           n := h.cands.length, m := (liveOf s h.slot).length, dets := dets, embs := early.map (fun e => e.2.2), late := false }
      let s1 := { s with trk := { s.trk with
        handoffs := s.trk.handoffs.filter (fun y => decide (y ≠ h)), steps := s.trk.steps ++ [x],
        embHands := s.trk.embHands.filter (fun e => !(decide (e.1 = h.slot) && decide (e.2.1 = h.seq))) } }
      let s2 := refreshTrk (addR s1 F.TRK_SUPPRESSED (h.cands.length - dets.length)) h.slot
      (wait = false → exec .trackStepStart s = .next s2) ∧
      (wait = true → exec .trackStepStart s = .next (settle { s2 with strm := { s2.strm with lists := s2.strm.lists ++
        [{ slot := h.slot, detect := true, seq := h.seq, boxes := dets.map Cand.box, t := h.src }] } }))) ∧
    (∀ (slot : Nat) (x : TrkStep), stepOf s slot = some x →
      (x.phase = .waiting → x.waitFrom + regS s F.TRK_EMB_WAIT_UNITS slot * 256 ≤ s.now →
        let t := evtTrack { s with trk := { s.trk with steps := s.trk.steps.map (fun y =>
          if y.slot = slot then { y with phase := .ready, late := true } else y) } } slot x.src 8 0 0 x.seq 0
        (engineBusy t = true → exec (.embWaitExpiry slot) s = .next t) ∧
        (engineBusy t = false → exec (.embWaitExpiry slot) s = .next (resumeStep t))) ∧
      (x.phase = .active → x.start + x.waited + stepTicks x (stepRecords s x (stepRes s x)) ≤ s.now →
        exec (.trackStepEnd slot) s = .next (endStep s x (stepRes s x))))

/-- A record's write, the ring timer, and a missed pipeline period. -/
def Obligations.RecordsAndPeriods : Prop :=
  ∀ s : State, s.live = true →
    (∀ r rest, s.out.recq = r :: rest → r.result = none → s.d0 = true → r.orphan = false →
      let s0 := { s with out := { s.out with recq := rest } }
      let k := r.ring
      let sp := ringSpan s0 k
      let w := regX s0 F.RING_WIDX k
      let n := r.bytes.length
      (ringEn s k = true → (ringAt s k).diverted = 0 → (ringAt s k).ovf = [] → ringFits s k n = true → w % sp.2 + n ≤ sp.2 →
        let s1 := setX (hostWrite s0 (sp.1 + w % sp.2) r.bytes) F.RING_WIDX k (w + recSpan n)
        let s2 := hostWrite s1 (pairS s1 F.WIDX_ADDR_LO F.WIDX_ADDR_HI k) (le 4 (regX s1 F.RING_WIDX k))
        exec .recordWrite s = .next (ringSignal (modRing s2 k (fun x => { x with
          unsig := x.unsig + 1, firstUnsig := if x.unsig = 0 then s.now else x.firstUnsig,
          safUnsig := x.safUnsig || decide (recType r.bytes = 6) })) k)) ∧
      (ringEn s k = true → (ringAt s k).diverted = 0 → (ringAt s k).ovf ≠ [] → ovfBytes (ringAt s k).ovf + recSpan n ≤ 262144 →
        exec .recordWrite s = .next (setOvf (addR s0 F.RING_OVERFLOWS 1) k ((ringAt s k).ovf ++ [r]))) ∧
      (ringEn s k = false → recType r.bytes ≠ 7 → journalFits s n = true → exec .recordWrite s = .next (journalPut s0 k r.bytes)) ∧
      (ringEn s k = false → recType r.bytes = 7 → exec .recordWrite s = .next s0)) ∧
    (∀ k, k < 16 → (ringAt s k).unsig ≠ 0 → regS s F.RING_IRQ_COUNT k ≠ 0 → s.pcie.msixEn = true →
      (ringAt s k).firstUnsig + 256 * regS s F.RING_IRQ_TIMER k ≤ s.now →
      exec (.ringIrqTimer k) s = .next (sendMsix (((upto 16).filter (fun j => decide (regS s F.RING_IRQ_VECTOR j = regS s F.RING_IRQ_VECTOR k))).foldl
        (fun t j => modRing t j (fun r => { r with unsig := 0, firstUnsig := 0, safUnsig := false })) s) (regS s F.RING_IRQ_VECTOR k))) ∧
    (∀ p, p < 64 → regS s F.REEVE_CFG_EN p ≠ 0 → regS s F.REEVE_PERIOD p ≠ 0 → (pipe s p).live = true →
      (pipe s p).since + regS s F.REEVE_PERIOD p ≤ s.now →
      exec (.periodBreach p) s = .next (breach
        { s with reeve := tset {} s.reeve p
                        { pipe s p with since := (pipe s p).since + regS s F.REEVE_PERIOD p, bad := true } } p 9 (s.now - (pipe s p).last) s.now F.REEVE_PERIOD_BREACHES))

/-- Allocation, free, the refill of a pool's cache and the read of a list link. -/
def Obligations.CooperCommands : Prop :=
  ∀ s : State, s.live = true →
    (∀ owner bytes p, p < 8 → (pool s p).link = none → poolReady s p = true → bytes ≤ poolSize s p → mayTake s p owner = true →
      let took (u : State) (i : Nat) : State := addR (modPool u p (fun q => { q with
        bufs := tset {} q.bufs i { (tget {} q.bufs i) with owner := some owner, item := none } })) F.COOPER_ALLOCS 1
      (∀ i r, regS s F.COOPER_POOL_CFG_LIST p = 0 → (pool s p).free = i :: r →
        exec (.cooperAllocation owner bytes (2 ^ p)) s =
          .next (took (modPool s p (fun q => { q with free := r, cached := q.cached - 1 })) i)) ∧
      (∀ i, regS s F.COOPER_POOL_CFG_LIST p ≠ 0 → (pool s p).head = some i →
        exec (.cooperAllocation owner bytes (2 ^ p)) s = .next (took (modPool s p (fun q => { q with link := some i })) i))) ∧
    (∀ owner bytes mask, (∀ p, p < 8 → mask.testBit p = true → (pool s p).link = none ∧ (poolReady s p = false ∨ poolSize s p < bytes ∨
        mayTake s p owner = false)) →
      exec (.cooperAllocation owner bytes mask) s = .next (addR s F.COOPER_CAPACITY_FAIL 1)) ∧
    (∀ h o, h < 2 ^ 30 →
      let p := handlePool h
      let i := handleIdx h
      (poolEn s p = true → i < poolCount s p → (buf s p i).owner = some o → (buf s p i).gen = handleGen h → (pool s p).link = none →
        let s1 := modPool s p (fun q => { q with
          bufs := tset {} q.bufs i { owner := none, item := none, gen := ((tget {} q.bufs i).gen + 1) % 2 ^ 16 } })
        (regS s F.COOPER_POOL_CFG_LIST p = 0 → exec (.cooperFree h) s =
          .next (modPool s1 p (fun q => { q with free := q.free ++ [i] }))) ∧
        (regS s F.COOPER_POOL_CFG_LIST p ≠ 0 → exec (.cooperFree h) s =
          .next (putHead (hbmPut s1 (bufAddr s p i) (linkWord s p (pool s p).head)) p (some i)))) ∧
      ((buf s p i).gen ≠ handleGen h → exec (.cooperFree h) s = .next (addR s F.COOPER_BAD_FREES 1))) ∧
    (∀ p, poolEn s p = true → regS s F.COOPER_POOL_CFG_LIST p = 0 → (pool s p).cached < 16 → (pool s p).cached < (pool s p).free.length →
      exec (.cooperRefill p) s = .next (addR (modPool s p (fun q => { q with
        cached := if q.cached + 32 ≤ q.free.length then q.cached + 32 else q.free.length })) F.COOPER_REFILLS 1)) ∧
    (∀ p i, (pool s p).link = some i →
      let a := bufAddr s p i
      let v := unle (s.hbm.mem.read a 8)
      let s1 := modPool s p (fun q => { q with link := none })
      let broken := raiseInt (setS s1 F.COOPER_POOL_BROKEN p 1) 4 1
      (true ∈ s.hbm.mem.badWords a 8 → exec (.listLinkRead p) s = .next broken) ∧
      (true ∉ s.hbm.mem.badWords a 8 → v = 2 ^ 64 - 1 → exec (.listLinkRead p) s = .next (putHead s1 p none)) ∧
      (∀ j, true ∉ s.hbm.mem.badWords a 8 → v ≠ 2 ^ 64 - 1 → j < poolCount s p → 0 < poolSize s p → v = bufAddr s p 0 + j * poolSize s p →
        exec (.listLinkRead p) s = .next (putHead s1 p (some j))) ∧
      ((∀ j, j < poolCount s p → v ≠ bufAddr s p 0 + j * poolSize s p) → v ≠ 2 ^ 64 - 1 → 0 < poolSize s p →
        exec (.listLinkRead p) s = .next broken))

/-- Power domains, scrubbing, the spare bank's copy, drains and zero fills. -/
def Obligations.GranaryAndDomains : Prop :=
  ∀ s : State, s.live = true →
    (∀ d t, (d, t) ∈ s.power.settling → t ≤ s.now →
      let s1 := setDom { s with power := { s.power with settling := s.power.settling.filter (fun e => e.1 ≠ d) } } d true
      exec (.domainUsable d) s = .next (if 72 ≤ d ∧ d < 208 then
        modClu s1 ((d - 72) / 17) (fun c => { c with zeroFrom := tset 0 c.zeroFrom ((d - 72) % 17) (s.now + 1) }) else s1)) ∧
    (∀ d rest, s.power.deferred = d :: rest → (∀ t, s.power.lastOn = some t → t + 256 ≤ s.now) →
      exec .deferredDomainSwitchOn s = .next (closeSwitch { s with power := { s.power with deferred := rest } } d)) ∧
    (∀ k, k < 8 → s.now % 32 = 31 →
      let s1 := if s.now / 32 % 2 = 0 then copyStep s k else s
      let s2 := (upto 17).foldl (scrubBank (s.now / 32) k (copyBanks s k (s.now / 32))) s1
      let n := sweepsOf s2 k - sweepsOf s k
      exec (.scrubSlot k) s = .next (if n = 0 then s2 else addI s2 F.CLU_SWEEPS k n)) ∧
    (∀ k b q, k < 8 → b < 16 → (clu s k).copyRow = none → (clu s k).copyDone = none → spareBank s k = some q → bankDark s k q = false →
      exec (.spareBankCopyStart k b) s = .next (setI (setI (modClu s k (fun c => { c with copyRow := some 0 })) F.CLU_BANK_STATE_COPYING k 1)
        F.CLU_BANK_STATE_COPY_SRC k (bankOf s k b))) ∧
    (∀ k b, k < 8 → b < 17 → (regI s F.CLU_BANK_STATE_DRAINING k).testBit b = true → (∀ e ∈ (clu s k).inflight, e.1 = b → e.2.1 ≤ s.now) →
      exec (.bankDrainEnd k b) s = .next (refreshDark (switchOff (setI s F.CLU_BANK_STATE_DRAINING k
        (clrBit (regI s F.CLU_BANK_STATE_DRAINING k) b)) (72 + 17 * k + b)) k)) ∧
    (∀ k b t, k < 8 → b < 17 → tget 0 (clu s k).zeroFrom b = t + 1 → t + 32768 ≤ s.now →
      exec (.bankZeroFillDone k b) s = .next (refreshDark (modClu s k (fun c => { c with
        zeroFrom := terase c.zeroFrom b, offBanks := clrBit c.offBanks b })) k))

/-- HBM requests, data, refresh, patrol, power-down, self-refresh exit and row repair. -/
def Obligations.HbmChannels : Prop :=
  ∀ s : State, s.live = true →
    (∀ req : HbmReq, hbmTop ≤ req.addr →
      exec (.hbmRequest req) s = .next (hbmFault (if req.wr then s else
        { s with hbm := { s.hbm with served := some (req, List.replicate 64 0, true) } }) req.addr false false req.item)) ∧
    (∀ req : HbmReq, req.addr < hbmTop →
      exec (.hbmRequest req) s = .next { s with hbm := { s.hbm with ports := s.hbm.ports ++
        [{ req := req, pinned := reqPinned s req, at_ := s.now }] } }) ∧
    (∀ pch e rest, hbmQ s pch = e :: rest → e.kind = .request → e.req.wr = false → chUp s (pch / 2) = true → bankHeld s e.req.addr = false →
      (e.pinned = true ∨ ∀ x ∈ rest, x.pinned = false) →
      exec (.hbmReadData pch e.req.id) s = .next (hbmSettle (serveRead (setHbmQ s pch rest) pch e) pch)) ∧
    (∀ pch, pch < 32 → chUp s (pch / 2) = true →
      let s1 := addI (setI s F.HBMC_CH_STATE_MODE (pch / 2) 1) F.CH_REFRESHES (pch / 2) 1
      exec (.refresh pch) s = .next { s1 with hbm := { s1.hbm with
        refBank := tset 0 s1.hbm.refBank pch ((tget 0 s1.hbm.refBank pch + 1) % 48),
        idleSince := tset 0 s1.hbm.idleSince (pch / 2) s1.now } }) ∧
    (∀ pch, pch < 32 → chUp s (pch / 2) = true → regI s F.HBMC_CH_SCRUB_EN (pch / 2) ≠ 0 →
      tget 0 s.hbm.patrolAt pch + regI s F.HBMC_CH_SCRUB_INTERVAL (pch / 2) ≤ s.now →
      let n := tget 0 s.hbm.patrol pch
      let s1 := hbmSettle (landEnt s { req := { id := 0, src := .controller, addr := pchAddr s pch n, wr := false }, kind := .patrol,
                                       at_ := s.now }) pch
      let s2 := { s1 with hbm := { s1.hbm with
        patrol := tset 0 s1.hbm.patrol pch ((n + 1) % 12582912), patrolAt := tset 0 s1.hbm.patrolAt pch s1.now } }
      let s3 := { s2 with hbm := { s2.hbm with rowCE := tfilter (fun r => decide (r / (64 * 16384) ≠ pch)) s2.hbm.rowCE } }
      (n + 1 ≠ 12582912 → exec (.hbmPatrolRead pch) s = .next s2) ∧
      (n + 1 = 12582912 → pch % 2 = 0 → exec (.hbmPatrolRead pch) s = .next s3) ∧
      (n + 1 = 12582912 → pch % 2 = 1 → exec (.hbmPatrolRead pch) s = .next (addI s3 F.CH_SWEEPS (pch / 2) 1))) ∧
    (∀ ch, ch < 16 → regI s F.HBMC_CH_PD ch ≠ 0 → regI s F.HBMC_CH_STATE_MODE ch = 1 → hbmQ s (2 * ch) = [] → hbmQ s (2 * ch + 1) = [] →
      tget [] s.hbm.wbq ch = [] → tget 0 s.hbm.idleSince ch + regI s F.HBMC_CH_PD ch ≤ s.now →
      exec (.powerDownEntry ch) s = .next (addI (setI s F.HBMC_CH_STATE_MODE ch 2) F.CH_PD_ENTRIES ch 1)) ∧
    (∀ t, s.hbm.srefExit = some t → t + 13000 ≤ s.now →
      (reg s F.HBMC_STATE_STATE = 3 → exec .selfRefreshExitDone s = .next ((upto 32).foldl hbmSettle (admitWaiting
        ((upto 16).foldl (fun u c => setI u F.HBMC_CH_STATE_MODE c 1)
          (setR { s with hbm := { s.hbm with srefExit := none } } F.HBMC_STATE_STATE 2))))) ∧
      (reg s F.HBMC_STATE_STATE = 4 → exec .selfRefreshExitDone s = .next s)) ∧
    (∀ ch r, tget none s.hbm.repairs ch = some r →
      let row := rowId (2 * ch + r.pc) r.bank r.row
      let s1 := putBoth { s with hbm := { s.hbm with repairs := tset none s.hbm.repairs ch none } } F.HBMC_CH_REPAIR_GO ch 0 0 0
      let s2 := fwEvent { s1 with hbm := { s1.hbm with
        candidates := s1.hbm.candidates.filter (fun x => decide (x ≠ row)), rowCE := terase s1.hbm.rowCE row,
        spareRows := if r.hard then tset 0 s1.hbm.spareRows (row / 16384) (tget 0 s1.hbm.spareRows (row / 16384) + 1) else s1.hbm.spareRows } }
        0x8009 (r.row + 16384 * (r.bank % 4) + 65536 * (r.bank / 4 % 4) + 262144 * (r.bank / 16 % 4) + 1048576 * r.pc)
      let resume (t : State) : State := hbmSettle (hbmSettle t (2 * ch)) (2 * ch + 1)
      exec (.repairDone ch false) s = .next (resume { s1 with hbm := { s1.hbm with
        withheld := s1.hbm.withheld ++ [(2 * ch + r.pc, row)] } }) ∧
      (r.hard = true → exec (.repairDone ch true) s = .next (resume s2)) ∧
      (r.hard = false → exec (.repairDone ch true) s =
        .next (resume (writeRecord { s2 with flash := { s2.flash with softRows := s2.flash.softRows ++ [row] } } 3 0))))

/-- A link port measures its hop latency by a probe and its echo, when it comes up and every 2^20 ticks, and fails above 4,095. -/
def Obligations.HopLatency : Prop :=
  ∀ (s : State) (port : Nat), s.live = true →
    (∀ peer peerPort errs, port < 4 → regI s F.LINK_STATE_STATE port = 1 →
      ∃ t, exec (.linkUp port peer peerPort errs true) s = .next (sendProbe t port) ∧ (regI t F.LINK_STATE_STATE port = 2 ∨ regI t F.LINK_STATE_STATE port = 3)) ∧
    (portProbes s port = true → (∀ t0, (link s port).probeT0 = some t0 → t0 + 2 ^ 20 ≤ s.now) → exec (.probe port) s = .next (sendProbe s port)) ∧
    (sendProbe s port = sendFlits (modLink s port (fun x => { x with probeT0 := some s.now })) port [{ lane := 0, body := .probe }] none) ∧
    (∀ t1, portProbes s port = true → t1 ≤ s.now →
      exec (.probeReceived port t1) s = .next (sendFlits s port [{ lane := 0, body := .echo t1 s.now }] none)) ∧
    (∀ t0 t1 t2 t3 : Nat, portProbes s port = true → (link s port).probeT0 = some t0 →
      let h : Int := (((t3 : Int) - t0) - ((t2 : Int) - t1) + 1) / 2
      (h ≤ 4095 → exec (.echoReceived port t1 t2 t3) s = .next (setI s F.LINK_HOP port h.toNat)) ∧
      (4095 < h → ∃ u cause, exec (.echoReceived port t1 t2 t3) s = .next (linkFault u port cause (itemsOver s port)) ∧
        regI u F.LINK_STATE_STATE port = 4))

/-- TIME_OUT is driven high for 1,300,000 ticks, from each tick in which the Tally is a multiple of 1,300,000,000. -/
def Obligations.TimeOut : Prop :=
  ∀ s : State, s.live = true →
    (s.now % 1300000000 = 0 → exec .timeOutStart s = .next { s with power := { s.power with timeOut := true, timeOutAt := s.now } }) ∧
    (s.now % 1300000000 ≠ 0 → exec .timeOutStart s = .next s) ∧
    (s.power.timeOut = true → s.power.timeOutAt + 1300000 ≤ s.now →
      exec .timeOutEnd s = .next { s with power := { s.power with timeOut := false } }) ∧
    (s.now < s.power.timeOutAt + 1300000 → exec .timeOutEnd s = .next s)

/-- Markers, alignment and the time reference. -/
def Obligations.MarkersAndTimeEdges : Prop :=
  ∀ s : State, s.live = true →
    (s.now % 2 ^ 20 = 0 → exec .marker s =
      .next ((markerPorts s).foldl (fun t p => sendFlits t p [{ lane := 0, body := .marker s.now }] none) s)) ∧
    (∀ port value : Nat, portUp s port = true → reg s F.TALLY_CTRL_ROLE = 2 → port = reg s F.TALLY_CTRL_SRC_PORT →
      let delta : Int := (value : Int) + regI s F.LINK_HOP port - s.now
      ∃ (k e : Int), delta = 13 * k + e ∧ -6 ≤ e ∧ e ≤ 6 ∧
        (let s1 := setR (addR { s with fab := { s.fab with lastMarker := some s.now } } F.TALLY_MARKERS 1) F.TALLY_STATE_RESID (enc 8 e)
        (s.fab.armed = true → -4 ≤ e → e ≤ 4 → exec (.markerReceived port value) s =
          .next { s1 with fab := { s1.fab with armed := false, step := some (13 * k), stepAligns := true } }) ∧
        (s.fab.armed = true → ¬(-4 ≤ e ∧ e ≤ 4) → exec (.markerReceived port value) s =
          .next (setR (putBoth { s1 with fab := { s1.fab with armed := false } } F.TALLY_CTRL_ALIGN 0 0 0 0) F.TALLY_STATE_STATE 4)) ∧
        (s.fab.armed = false → reg s F.TALLY_STATE_STATE = 2 → s.fab.step = none → (k ≠ 0 ∨ ¬(-4 ≤ e ∧ e ≤ 4)) →
          exec (.markerReceived port value) s = .next (outOfStep s1 delta)) ∧
        (s.fab.armed = false → k = 0 → -4 ≤ e → e ≤ 4 → exec (.markerReceived port value) s = .next s1))) ∧
    (∀ t, reg s F.TALLY_CTRL_ROLE = 2 → reg s F.TALLY_STATE_STATE = 2 → portUp s (reg s F.TALLY_CTRL_SRC_PORT) = true →
      s.fab.lastMarker = some t → t + 2 ^ 21 ≤ s.now → exec .markerAbsent s =
        .next (portDown { s with fab := { s.fab with lastMarker := some s.now } } (reg s F.TALLY_CTRL_SRC_PORT) false)) ∧
    (let t := s.now
     let s1 := setPairI (addR { s with fab := { s.fab with lastEdge := some t } } F.TIME_EDGES 1) F.TALLY_TIME_STAMP_LO F.TALLY_TIME_STAMP_HI 0 t
     (s.fab.timeArmed = true → ∃ (k e : Int),
       (pairI s F.TALLY_TIME_LOAD_LO F.TALLY_TIME_LOAD_HI 0 : Int) + sgn 16 (reg s F.TALLY_TIME_COMP) - t = 13 * k + e ∧ -6 ≤ e ∧ e ≤ 6 ∧
       let fb : FabS := { s1.fab with timeArmed := false, step := some (13 * k), stepAligns := false }
       exec .timeInEdge s = .next { s1 with fab := { fb with
         expected := some ((t : Int) + 13 * k + 1300000000).toNat, lastEdge := some ((t : Int) + 13 * k).toNat } }) ∧
     (s.fab.timeArmed = false → s.fab.expected = none → exec .timeInEdge s = .next s1) ∧
     (∀ x, s.fab.timeArmed = false → s.fab.expected = some x →
       let err : Int := (t : Int) - x
       let tol : Int := reg s F.TALLY_TIME_TOL
       let s2 := setR { s1 with fab := { s1.fab with expected := some (x + 1300000000) } } F.TALLY_TIME_ERR (enc 32 err)
       exec .timeInEdge s = .next (if tol < err ∨ err < -tol then drift s2 (enc 64 err) else s2))) ∧
    (∀ t, s.fab.expected.isSome = true → s.fab.lastEdge = some t → t + 2600000000 ≤ s.now → exec .timeInAbsent s =
      .next (drift { s with freeCtr := s.freeCtr + 1, fab := { s.fab with lastEdge := some s.now } } (Sys2Proof.Config.freeValue s.freeCtr)))

/-- Flits, credits, retries and the transfer units they carry. -/
def Obligations.FlitsAndUnits : Prop :=
  ∀ s : State, s.live = true →
    (∀ (port : Nat) (f : Flit), portUp s port = true →
      (flitGood f = true → f.seq % 256 = (link s port).rxSeq % 256 → exec (.flitReceived port f) s = .next (takeFlit
        (reply (addI (addI (modLink s port (fun x => { x with rxSeq := x.rxSeq + 1, awaiting := false })) F.LINK_RX_FLITS port 1)
          F.LINK_CORRECTED port (flitCorrected f)) port (.credit f.lane 1)) port f)) ∧
      (f.seq % 256 ≠ (link s port).rxSeq % 256 → (link s port).awaiting = true → exec (.flitReceived port f) s = .next s) ∧
      ((f.seq % 256 = (link s port).rxSeq % 256 → flitGood f = false) → (f.seq % 256 ≠ (link s port).rxSeq % 256 → (link s port).awaiting = false) →
        exec (.flitReceived port f) s = .next (reply (addI (modLink s port (fun x => { x with awaiting := true })) F.LINK_RETRIES port 1) port
          (.nak ((link s port).rxSeq % 256))))) ∧
    (∀ port seq, portUp s port = true →
      let l := link s port
      let rest := l.replay.dropWhile (fun f => decide (f.seq ≠ seq % 256))
      let n := if l.nakSeq = seq % 256 then l.replays else 0
      ((rest = [] ∨ 8 ≤ n) → exec (.nakReceived port seq) s = .next (portDown s port false)) ∧
      (rest ≠ [] → n < 8 → exec (.nakReceived port seq) s = .next (rest.foldl (fun t f => emit (addI t F.LINK_TX_FLITS port 1) (.linkFlit port f))
        (modLink s port (fun x => { x with nakSeq := seq % 256, replays := n + 1 }))))) ∧
    (∀ port lane n, portProbes s port = true →
      let back := ((link s port).held.filter (fun h => decide (h.1 = lane))).take n
      let s2 := back.foldl (fun t b => match b.2 with
        | some c => modCore t c (fun x => { x with credits := x.credits - 1 })
        | none => t) (modLink s port (fun x => { x with held := back.foldl (fun h b => h.erase b) x.held }))
      exec (.creditReturn port lane n) s = .next (pump port (link s2 port).txq.length s2)) ∧
    (∀ c k t it, (Sys2Proof.Machine.core s c).item = some k → (Sys2Proof.Machine.core s c).preempt = some t →
      (Sys2Proof.Machine.core s c).credits ≠ 0 → t + 2598 ≤ s.now → item? s k = some it →
      ∀ (sec : FabSec) (x : FabXfer) (rest : List FabXfer), (imgOf s it.e).fabric = some sec → sec.xfers.filter (fun x => !x.relay) = x :: rest →
        exec (.creditReturnTimeout c) s =
          .next (linkFault { s with freeCtr := s.freeCtr + 1 } x.port (Sys2Proof.Config.freeValue s.freeCtr) [k])) ∧
    (∀ (item entry : Nat) (it : Item) (x : FabXfer) (p : Nat) (s1 s2 : State) (r : GR), item? s item = some it → (fabOf s it).xfers[entry]? = some x →
      rank0 s it = some p → it.st = .running → x.srcChip = chipId s → fabLaunch it + x.start ≤ s.now → (item, entry) ∉ s.fab.started →
      x.relay = false → carries s x.port = true → (it.isPinned = true ∨ (link s x.port).laneBusyTo ≤ s.now) →
      let n := flitsOf x.bytes
      let sp := claimSpan s p it x.srcAddr
      granGet s (p / 9) sp n = (s1, r) →
      (afterGran s1 p item (p / 9) sp n r = (s2, false) → exec (.transferUnitStart item entry) s = .next s2) ∧
      (afterGran s1 p item (p / 9) sp n r = (s2, true) →
        let s3 := { s2 with fab := { s2.fab with started := s2.fab.started ++ [(item, entry)] } }
        let s4 := if it.isPinned then modLink s3 x.port (fun l => { l with laneBusyTo := s.now + flitTicks n }) else s3
        exec (.transferUnitStart item entry) s = .next (sendFlits s4 x.port
          ({ lane := 2, sou := true, body := .header it.e.plan (fabLaunch it) entry } :: dataFlits n (r.bytes.take x.bytes)) (some p)))) ∧
    (∀ (item entry : Nat) (it : Item) (x : FabXfer) (p : Nat) (s1 s2 : State) (r : GR), item? s item = some it → (fabOf s it).xfers[entry]? = some x →
      rank0 s it = some p → it.st = .running → x.srcChip = chipId s → fabLaunch it + x.start ≤ s.now → (item, entry) ∉ s.fab.started →
      x.relay = true → flag s F.RELAY_CFG_EN = true → flag s F.DISP_LEASE_EXPIRED = false →
      granGet s (p / 9) (claimSpan s p it x.srcAddr) (flitsOf x.bytes) = (s1, r) →
      afterGran s1 p item (p / 9) (claimSpan s p it x.srcAddr) (flitsOf x.bytes) r = (s2, true) →
      let h := relayHdr x.srcChip x.dstChip it.e.plan (fabLaunch it) entry x.bytes
      let iv := relayIv (fabLaunch it) entry x.srcChip
      let ct := Sys2Proof.Config.gcmSeal (fabricKey s it) iv h (r.bytes.take x.bytes)
      let s3 := { s2 with fab := { s2.fab with
        started := s2.fab.started ++ [(item, entry)]
        relayWait := s2.fab.relayWait ++ [h ++ ct ++ le 16 (Sys2Proof.Config.gcmTag (fabricKey s it) iv h ct)] } }
      exec (.transferUnitStart item entry) s = .next (relayDrain s3.fab.relayWait.length s3)) ∧
    (∀ (item entry : Nat) (it : Item) (x : FabXfer), item? s item = some it → rxEntry s it entry = some x → it.launched = true →
      let u := unitOf s item entry
      let u1 := { u with landed := some s.now }
      let s1 := putUnit (landBytes s it x (u.arrived.take x.bytes)) u1
      (u.complete = true → u.landed = none → x.relay = false → exec (.unitLanded item entry) s = .next (
        if item? s1 item = none then s1
        else if it.isPinned = false then signalUnit s1 it x u1 false
        else if dueOf s it x < s.now then signalUnit s1 it x u1 true
        else s1)) ∧
      (∀ t, it.isPinned = true → x.relay = false → u.landed = some t → u.signalled = false → dueOf s it x ≤ s.now →
        exec (.dueTick item entry) s = .next (signalUnit s it x u false)) ∧
      (u.landed = none → limitOf s it x ≤ s.now → x.relay = true → exec (.slackExpiry item entry) s = .next (endItem s item 0x307)) ∧
      (∀ port, u.landed = none → limitOf s it x ≤ s.now → x.relay = false → port < 4 → regI s F.LINK_PEER_CHIP port = x.srcChip →
        (∀ q, q < port → regI s F.LINK_PEER_CHIP q ≠ x.srcChip) → exec (.slackExpiry item entry) s =
          .next (linkFault { s with freeCtr := s.freeCtr + 1 } port (Sys2Proof.Config.freeValue s.freeCtr) [item]))) ∧
    (∀ (u : RelayUnit) (it : Item) (x : FabXfer), 0 < s.fab.relayReady →
      let s0 := { s with fab := { s.fab with relayReady := s.fab.relayReady - 1 } }
      let h := relayHdr u.srcChip u.dstChip u.plan u.launch u.entry u.bytes
      let iv := relayIv u.launch u.entry u.srcChip
      (unitItem s0 u.plan u.launch = none → exec (.relayUnitLanded u) s = .next s0) ∧
      (unitItem s0 u.plan u.launch = some it → rxEntry s0 it u.entry = some x →
        (Sys2Proof.Config.gcmTag (fabricKey s0 it) iv h u.ct ≠ u.tag → exec (.relayUnitLanded u) s = .next (addR s0 F.RELAY_TAG_FAIL 1)) ∧
        (Sys2Proof.Config.gcmTag (fabricKey s0 it) iv h u.ct = u.tag → x.relay = true → (unitOf s0 it.key u.entry).landed = none →
          u.dstChip = chipId s0 → u.srcChip = x.srcChip →
          let y : XUnit := { unitOf s0 it.key u.entry with
            complete := true, landed := some s.now, arrived := Sys2Proof.Config.gcmOpen (fabricKey s0 it) iv h u.ct }
          let s1 := addR (landBytes (putUnit s0 y) it x (y.arrived.take x.bytes)) F.RELAY_IN_UNITS 1
          (item? s1 it.key ≠ none → exec (.relayUnitLanded u) s =
            .next (signalUnit s1 it x y (it.isPinned && decide (fabLaunch it + x.start < s.now)))) ∧
          (item? s1 it.key = none → exec (.relayUnitLanded u) s = .next s1))))

/-- Winnow segments, golden windows, the spare's rotation and latent intervals. -/
def Obligations.WinnowCommands : Prop :=
  ∀ s : State, s.live = true →
    (∀ g : SegReq, flag s F.WINNOW_CTRL_EN = true → g.seg < 9 → g.unitKind = segKind g.seg → segUnit s g.unitKind g.unit = true →
      segRuns s g.unitKind g.unit = false →
      exec (.winnowSegmentStart g) s = .next (if pairDown s 0 = true ∨ (g.unitKind = 1 ∧ coreGap s g.unit (segTicks g.seg) = false)
        then addR s F.WINNOW_DEFERRALS 1
        else { s with winnow := { s.winnow with
          segs := s.winnow.segs ++ [{ seg := g.seg, unitKind := g.unitKind, unit := g.unit, start := s.now }] } })) ∧
    (∀ (unitKind unit : Nat) (g : SegRun), s.winnow.segs.find? (fun g => decide (g.unitKind = unitKind) && decide (g.unit = unit)) = some g →
      let key := winKey g.seg unitKind unit
      let s1 := dropRun s g
      let s2 := { s1 with winnow := { s1.winnow with overruns := terase s1.winnow.overruns key } }
      let s3 := testPassed (addR s2 F.WINNOW_SEGMENTS 1) key
      let o2 := { s1 with winnow := { s1.winnow with overruns := tset 0 s1.winnow.overruns key 1 } }
      exec (.winnowSegmentEnd unitKind unit true) s =
        .next (proveService { s3 with winnow := { s3.winnow with findings := s3.winnow.findings.filter (fun x => decide (x ≠ key)) } }) ∧
      exec (.winnowSegmentEnd unitKind unit false) s = .next (finding s2 g.seg unitKind unit) ∧
      (g.start + segTicks g.seg ≤ s.now → tget 0 s.winnow.overruns key ≠ 0 → exec (.testOverrun unitKind unit) s = .next (finding o2 g.seg unitKind unit)) ∧
      (g.start + segTicks g.seg ≤ s.now → tget 0 s.winnow.overruns key = 0 →
        let u := safUnit (addR o2 F.WINNOW_OVERRUNS 1) unitKind unit
        exec (.testOverrun unitKind unit) s = .next (safNow u.1 0xC 0 u.2.1 u.2.2 0 g.seg 0))) ∧
    (∀ (item p : Nat) (it : Item), item? s item = some it → it.golden = true → it.launched = true → it.e.launch + windowLen s it ≤ s.now →
      pipeOf s it.e.plan = some p →
      exec (.goldenWindowCutoff item) s = .next (endItem (safNow (addR s F.WINNOW_OVERRUNS 1) 0xC 0 8 p it.e.plan it.e.plan 0) item 0)) ∧
    (∀ (clu core q l : Nat), spareOf s clu = some q → logicalCore s (9 * clu + core) = some l → clu < 8 → core < 9 →
      flag s F.WINNOW_CTRL_ROTATE = true → pairDown s 0 = false → getF s F.WINNOW_CLU_STATE 0 0 clu = 0 → tget none s.faults.reactions clu = none →
      segRuns s 1 q = false → handoverDue s clu core = true →
      let n := nextInRotation s clu core
      let start (t : State) : State := { t with winnow := { t.winnow with
        handovers := tset none t.winnow.handovers clu (some { logical := l, phys := 9 * clu + core, spare := q, start := s.now }) } }
      let s1 := putF s F.WINNOW_CLU_STATE 0 0 clu 1
      let s2 := putF s1 F.WINNOW_CLU_NEXT 0 0 clu n
      (core ≠ getF s F.WINNOW_CLU_NEXT 0 0 clu → exec (.handoverStart clu core) s = .next (start s1)) ∧
      (core = getF s F.WINNOW_CLU_NEXT 0 0 clu → core < n → exec (.handoverStart clu core) s = .next (start s2)) ∧
      (core = getF s F.WINNOW_CLU_NEXT 0 0 clu → n ≤ core →
        exec (.handoverStart clu core) s = .next (start (testPassed s2 (winKey 14 9 clu))))) ∧
    (∀ (clu : Nat) (h : Handover), tget none s.winnow.handovers clu = some h → h.start + 2048 ≤ s.now → coreIdle s h.logical = true →
      segRuns s 1 h.phys = false → pairDown s 0 = false →
      let c := Sys2Proof.Machine.core s h.phys
      let s1 := addR (setPlace { s with winnow := { s.winnow with handovers := terase s.winnow.handovers clu } } h.logical h.spare) F.SYS_PLACE_GEN 1
      let s2 := modCore s1 h.spare (fun _ => { wbin := c.wbin, written := tfilter (fun k => decide (k < 4096)) c.written, tstore := c.tstore,
                                               tstorePlan := c.tstorePlan, resident := c.resident })
      let s3 := addR (setI s2 F.CORE_STATE_STATE h.spare 0) F.WINNOW_HANDOVERS 1
      let s4 := clearTag (setTag s3 h.spare (regI s F.CORE_RESIDENT_TAG h.phys) (regI s F.CORE_RESIDENT_PLAN h.phys)) h.phys
      (wearOf s h.phys < reg s F.WINNOW_AGE_THR →
        let s5 := setI (setSpare s4 clu (some h.phys) 2) F.CORE_STATE_STATE h.phys 5
        exec (.handoverSubstitution clu) s =
          .next { s5 with winnow := { s5.winnow with testing := tset none s5.winnow.testing clu (some s.now) } }) ∧
      (reg s F.WINNOW_AGE_THR ≤ wearOf s h.phys → exec (.handoverSubstitution clu) s =
        .next (safNow (addR (setSpare (retireCore s4 h.phys) clu none 3) F.WINNOW_WEAR_RETIRED 1) 0x12 0 1 h.phys 0 (wearOf s h.phys) 0))) ∧
    (∀ (core age : Nat) (t : Nat), core < 72 → tget none s.winnow.testing (core / 9) = some t → spareOf s (core / 9) = some core →
      let k := core / 9
      let s2 := modCore (setI { s with winnow := { s.winnow with testing := tset none s.winnow.testing k none } } F.CORE_AGE core age) core (fun _ => {})
      exec (.coreTestDone core true age) s = .next (setI (setSpare s2 k (some core) 0) F.CORE_STATE_STATE core 4) ∧
      exec (.coreTestDone core false age) s =
        .next (checkCluster (safNow (setSpare (retireCore s2 core) k none 3) 0xE 1 1 core 0 k 0) k)) ∧
    (∀ (seg kind unit plan : Nat), latentUnit s seg kind unit = true → latentFrom s seg kind unit + latentTicks s seg ≤ s.now →
      flag s F.WINNOW_CTRL_OVERDUE_FAULT = false →
      let key := winKey seg kind unit
      let overdue (t : State) (k u p d : Nat) : State :=
        let t2 := safNow (addR t F.WINNOW_OVERDUE 1) 0xD 1 k u p d 0
        { t2 with winnow := { t2.winnow with
          overdueAt := tset 0 t2.winnow.overdueAt key (s.now + 1),
          overdueOpen := t2.winnow.overdueOpen.filter (fun x => decide (x ≠ key)) ++ [key] } }
      (seg < 9 → (kind = 1 ∨ kind = 5 ∨ kind = 6 ∨ kind = 7) →
        exec (.latentOverdue seg kind unit) s = .next (overdue s kind unit 0 seg)) ∧
      (∀ p, seg = 15 → plan = planIdAt s unit → pipeOf s plan = some p →
        exec (.latentOverdue seg kind unit) s = .next (overdue s 8 p plan plan)))

/-- The flash's patrol, its wear-levelling and finished operations, and the events of the host link. -/
def Obligations.FlashAndPcieEvents : Prop :=
  ∀ s : State, s.live = true →
    (∀ (block page : Nat) (bits : List Nat), block < 4096 → page < (fblock s block).pages → (fblock s block).bad = 0 → s.flash.ops = [] →
      pairDown s 1 = false → reg s F.FLASH_STATE_MODE = 2 → (∀ n ∈ bits.take 4, n < 12) → roundNow s < (fblock s block).progRound + yearRounds →
      let s1 := addR (addR (addR s F.FLASH_READS 1) F.FLASH_CORR_BITS (sumN (bits.take 4))) F.FLASH_UNCORR 0
      exec (.flashPatrol block page bits) s = .next (if lastWritten s block page then addR s1 F.FLASH_PATROLS 1 else s1)) ∧
    (∀ (part a b : Nat), part < 7 → (eraseRange s part).1 + 2000 < (eraseRange s part).2 → s.flash.ops = [] → pairDown s 1 = false →
      extremeBlock s part true (fun _ => true) = some a → extremeBlock s part false (fun x => decide (x.pages = 0)) = some b → a ≠ b →
      (fblock s a).pages ≠ 0 → exec (.wearLevelMove part) s = .next (moveRecs (queueOps s (copyOps s .move a b true)) a b)) ∧
    (∀ o rest, s.flash.ops = o :: rest → s.pcie.ackPending = false →
      let s0 := { s with flash := { s.flash with ops := rest } }
      (∀ ok, o.kind = .read → exec (.flashOperationDone ok) s = .next (refreshFlash (addR s0 F.FLASH_READS 1))) ∧
      (o.kind = .program → (o.use = .record ∨ o.use = .move ∨ o.use = .refresh) → exec (.flashOperationDone true) s =
        .next (refreshFlash (addR (modBlock s0 o.block (fun x => { x with pages := x.pages + 1, progRound := roundNow s })) F.FLASH_PROGRAMS 1))) ∧
      (o.kind = .erase → o.use = .move → exec (.flashOperationDone true) s =
        .next (refreshFlash (addR (modBlock s0 o.block (fun x => { x with erases := x.erases + 1, pages := 0 })) F.FLASH_ERASES 1))) ∧
      (o.kind = .erase → o.use = .move → (fblock s o.block).bad = 0 → exec (.flashOperationDone false) s =
        .next (refreshFlash (growBad s0 o.block)))) ∧
    (∀ o rest, s.flash.ops = o :: rest → exec (.flashOperationDone true) s = .next (fwStep o (flashDone true s)) ∧
      exec (.flashOperationDone false) s = .next (flashDone false s)) ∧
    (∀ (tag : Nat) (r : HostRead) (q : Req) (bytes : List Sys2Proof.Byte), reqOf s tag = some (r, q) →
      (bytes.length = q.len →
        let r1 := { r with reqs := r.reqs.map (fun (x : Req) => if x.tag = q.tag ∧ x.data.isNone then { x with data := some bytes } else x) }
        (r.len ≤ r.next → (∀ x ∈ r1.reqs, x.data.isSome = true) → exec (.completionReceived tag .ok bytes) s =
          .next (pumpReads (readDone (dropRead s r1 none) r.kind (r1.reqs.flatMap (fun x => x.data.getD []))))) ∧
        ((r.next < r.len ∨ ∃ x ∈ r1.reqs, x.data = none) → exec (.completionReceived tag .ok bytes) s = .next (pumpReads { s with pcie := { s.pcie with
          reads := s.pcie.reads.map (fun (x : HostRead) => if x.id = r.id then r1 else x) } }))) ∧
      exec (.completionReceived tag .ur bytes) s = .next (pumpReads (failRead s r (some tag))) ∧
      exec (.completionReceived tag .ca bytes) s = .next (pumpReads (failRead s r (some tag))) ∧
      exec (.completionReceived tag .poisoned bytes) s = .next (pumpReads (failRead (aer s .poisonedTlp) r (some tag))) ∧
      exec (.completionReceived tag .malformed bytes) s = .next (pumpReads (failRead (aer s .malformed) r (some tag))) ∧
      (q.issued + usTicks (reg s F.PCIE_CTO) ≤ s.now → exec (.completionTimeout tag) s =
        .next (pumpReads (failRead (addR (aer s .completionTimeout) F.PCIE_CPL_TIMEOUTS 1) r (some tag))))) ∧
    (∀ (tag : Nat) (st : CplStatus) (bytes : List Sys2Proof.Byte), reqOf s tag = none → tag ∉ s.pcie.dropTags →
      exec (.completionReceived tag st bytes) s = .next (aer s .unexpectedCompletion)) ∧
    (∀ v, v < 64 → memServed s = true →
      let s1 := { s with pcie := { s.pcie with msix := tmod {} s.pcie.msix v (fun (e : MsixEnt) => { e with mask := false }) } }
      (s.pcie.pba.testBit v = false → exec (.msixUnmask v) s = .next s1) ∧
      (s.pcie.pba.testBit v = true → s.pcie.msixEn = true → s.pcie.fnMask = false → s.canIssue = true → exec (.msixUnmask v) s =
        .next (emit (setPba s1 v false) (.msix v (tget {} s.pcie.msix v).addr (tget {} s.pcie.msix v).data)))) ∧
    (s.pcie.bme = false → exec .busMasterEnableSet s = .next (resumeIssue { s with pcie := { s.pcie with bme := true } })) ∧
    (s.pcie.reads = [] → exec .busMasterEnableClear s = .next { s with pcie := { s.pcie with bme := false } }) ∧
    exec .busMasterEnableClear s = .next (pumpReads { s with pcie := { s.pcie with bme := false } }) ∧
    (∀ speed width, 1 ≤ speed → speed ≤ 5 → width ∈ [1, 2, 4, 8] → reg s F.PCIE_LINK_STATE ≤ 1 →
      exec (.pcieLinkUp speed width) s =
        .next (setR (setR (setR s F.PCIE_LINK_SPEED speed) F.PCIE_LINK_WIDTH width) F.PCIE_LINK_STATE 2)) ∧
    (s.d0 = true → flag s F.PCIE_LINK_STATE = true →
      let s1 := setR (setR s F.PCIE_POWER_DSTATE 3) F.PCIE_POWER_WATCH (reg s F.PCIE_WATCH_EN)
      let s2 := endPoll (dropReads s1 (fun k => match k with
        | .ledgerPidx => true
        | .intakePidx _ => true
        | .intakeDesc _ _ => true
        | .relayPidx => true
        | .relayDesc _ => true
        | .relayUnit => true
        | _ => false))
      let s3 := { s2 with
        disp := { s2.disp with leaseSuspended := s2.disp.leaseEnd.isSome }
        strm := { s2.strm with slots := s2.strm.slots.map (fun e => (e.1, { e.2 with pidxPending := false, descPending := 0 })) } }
      let s4 := endItems s3 (fun i => !i.launched && !i.golden) 0x204
      let s6 := d3Settle ((upto 2).foldl (fun t e => if (enc_ t e).started then t else stopEncoder t e) s4)
      exec .d3hotEntry s = .next (if flag s6 F.PCIE_POWER_WATCH || s6.disp.items.any (fun i => i.launched) || flag s6 F.HBMC_SREF then s6
        else enterSref (putBoth s6 F.HBMC_SREF 0 0 0 1))) ∧
    (s.d0 = false →
      let s1 := banksUp (setR (setR s F.PCIE_POWER_DSTATE 0) F.PCIE_POWER_WATCH 0)
      let s2 := exitSref (putBoth s1 F.HBMC_SREF 0 0 0 0)
      let lease (t : State) : State := startLease { t with disp := { t.disp with leaseSuspended := false } }
      (flag s1 F.HBMC_SREF = false → s1.disp.leaseSuspended = false → exec .d0Return s = .next (resumeIssue s1)) ∧
      (flag s1 F.HBMC_SREF = false → s1.disp.leaseSuspended = true → exec .d0Return s = .next (resumeIssue (lease s1))) ∧
      (flag s1 F.HBMC_SREF = true → s2.disp.leaseSuspended = false → exec .d0Return s = .next (resumeIssue s2)) ∧
      (flag s1 F.HBMC_SREF = true → s2.disp.leaseSuspended = true → exec .d0Return s = .next (resumeIssue (lease s2)))) ∧
    (s.flash.ops = [] → exec .pmeTurnOff s =
      .next (setR (emit { s with pcie := { s.pcie with turnedOff := true } } .pmeToAck) F.PCIE_LINK_STATE 6)) ∧
    (s.flash.ops ≠ [] → exec .pmeTurnOff s = .next { s with pcie := { s.pcie with turnedOff := true, ackPending := true } }) ∧
    exec .pmeStatusClear s = .next (setR { s with pcie := { s.pcie with pmeStatus := false }, power := { s.power with wakeN := false } }
      F.PCIE_POWER_WAKE 0)
end

