-- ==== Sys2Proof/Laws/Tbl.lean ====
section
/-!
SUPPORT. Sys2Proof/Laws/Tbl.lean: what the operations of sparse tables can do: a read after a write, and that every write
keeps the canonical form.
-/

namespace Sys2Proof.Machine

variable {α : Type}

theorem tget_terase_same (d : α) (m : Tbl α) (i : Nat) : tget d (terase m i) i = d := by
  induction m with
  | nil => rfl
  | cons e r ih =>
    obtain ⟨k, v⟩ := e
    by_cases h : k = i <;> simp [terase, tget, h, ih]

theorem tget_terase_other (d : α) (m : Tbl α) {i j : Nat} (h : j ≠ i) : tget d (terase m i) j = tget d m j := by
  induction m with
  | nil => rfl
  | cons e r ih =>
    obtain ⟨k, v⟩ := e
    by_cases hk : k = i
    · subst hk
      simp [terase, tget, ih, Ne.symm h]
    · unfold terase
      rw [if_neg hk]
      simp only [tget, ih]

theorem tget_tinsert_same (d : α) (m : Tbl α) (i : Nat) (v : α) : tget d (tinsert m i v) i = v := by
  induction m with
  | nil => simp [tinsert, tget]
  | cons e r ih =>
    obtain ⟨k, w⟩ := e
    by_cases h1 : i < k
    · simp [tinsert, tget, h1]
    · by_cases h2 : k = i <;> simp [tinsert, tget, h1, h2, ih]

theorem tget_tinsert_other (d : α) (m : Tbl α) {i j : Nat} (v : α) (h : j ≠ i) :
    tget d (tinsert m i v) j = tget d m j := by
  induction m with
  | nil => simp [tinsert, tget, Ne.symm h]
  | cons e r ih =>
    obtain ⟨k, w⟩ := e
    by_cases h1 : i < k
    · simp [tinsert, tget, h1, Ne.symm h]
    · by_cases h2 : k = i
      · subst h2
        simp [tinsert, tget, Ne.symm h]
      · unfold tinsert
        rw [if_neg h1, if_neg h2]
        simp only [tget, ih]

variable [DecidableEq α]

/-- A read of the number just written gives the value written. -/
@[simp] theorem tget_tset_same (d : α) (m : Tbl α) (i : Nat) (v : α) : tget d (tset d m i v) i = v := by
  unfold tset
  split
  · rename_i h
    rw [h]
    exact tget_terase_same d m i
  · exact tget_tinsert_same d m i v

/-- A write leaves every other number alone. -/
theorem tget_tset_other (d : α) (m : Tbl α) {i j : Nat} (v : α) (h : j ≠ i) : tget d (tset d m i v) j = tget d m j := by
  unfold tset
  split
  · exact tget_terase_other d m h
  · exact tget_tinsert_other d m v h

/-- A read after a write, in one equation. -/
theorem tget_tset (d : α) (m : Tbl α) (i j : Nat) (v : α) :
    tget d (tset d m i v) j = if j = i then v else tget d m j := by
  by_cases h : j = i
  · subst h
    simp
  · simp [h, tget_tset_other]

/-! ## The canonical form -/

/-- A lower bound that numbers must exceed; none bounds nothing. -/
def aboveB (b : Option Nat) (i : Nat) : Bool :=
  match b with
  | none => true
  | some n => decide (n < i)

theorem twfAbove_cons (d : α) (b : Option Nat) (k : Nat) (v : α) (r : Tbl α) :
    twfAbove d b ((k, v) :: r) = (aboveB b k && decide (v ≠ d) && twfAbove d (some k) r) := by
  cases b <;> rfl

theorem twfAbove_weaken (d : α) (b : Option Nat) (k : Nat) (r : Tbl α) (hb : aboveB b k = true)
    (h : twfAbove d (some k) r = true) : twfAbove d b r = true := by
  cases r with
  | nil => rfl
  | cons e r =>
    obtain ⟨j, w⟩ := e
    rw [twfAbove_cons] at h ⊢
    simp only [aboveB, Bool.and_eq_true, decide_eq_true_eq] at h
    refine Bool.and_eq_true_iff.mpr ⟨Bool.and_eq_true_iff.mpr ⟨?_, by simpa using h.1.2⟩, h.2⟩
    cases b with
    | none => rfl
    | some n =>
      simp only [aboveB, decide_eq_true_eq] at hb ⊢
      omega

theorem twfAbove_terase (d : α) (m : Tbl α) (i : Nat) (b : Option Nat) (h : twfAbove d b m = true) :
    twfAbove d b (terase m i) = true := by
  induction m generalizing b with
  | nil => rfl
  | cons e r ih =>
    obtain ⟨k, v⟩ := e
    rw [twfAbove_cons] at h
    simp only [Bool.and_eq_true] at h
    unfold terase
    split
    · exact ih b (twfAbove_weaken d b k r h.1.1 h.2)
    · rw [twfAbove_cons]
      simp [h.1.1, ih (some k) h.2]
      simpa using h.1.2

theorem twfAbove_tinsert (d : α) (m : Tbl α) (i : Nat) (v : α) (b : Option Nat) (h : twfAbove d b m = true)
    (hi : aboveB b i = true) (hv : v ≠ d) : twfAbove d b (tinsert m i v) = true := by
  induction m generalizing b with
  | nil => simp [tinsert, twfAbove_cons, hi, hv, twfAbove]
  | cons e r ih =>
    obtain ⟨k, w⟩ := e
    rw [twfAbove_cons] at h
    simp only [Bool.and_eq_true] at h
    unfold tinsert
    split
    · rename_i hk
      rw [twfAbove_cons, twfAbove_cons]
      have hk' : aboveB (some i) k = true := by
        simpa [aboveB] using hk
      rw [hi, hk', h.2]
      simp [hv]
      simpa using h.1.2
    · split
      · rename_i hk
        subst hk
        rw [twfAbove_cons]
        simp [hi, hv, h.2]
      · rename_i h1 h2
        rw [twfAbove_cons]
        have : aboveB (some k) i = true := by
          simp only [aboveB, decide_eq_true_eq]
          omega
        simp [h.1.1, ih (some k) h.2 this]
        simpa using h.1.2

/-- A write keeps the canonical form. -/
theorem twf_tset (d : α) (m : Tbl α) (i : Nat) (v : α) (h : twf d m = true) : twf d (tset d m i v) = true := by
  unfold tset
  split
  · exact twfAbove_terase d m i none h
  · rename_i hv
    exact twfAbove_tinsert d m i v none h rfl hv

theorem twf_terase (d : α) (m : Tbl α) (i : Nat) (h : twf d m = true) : twf d (terase m i) = true :=
  twfAbove_terase d m i none h

theorem twf_tmod (d : α) (m : Tbl α) (i : Nat) (f : α → α) (h : twf d m = true) : twf d (tmod d m i f) = true :=
  twf_tset d m i _ h

/-- A write of consecutive values keeps the canonical form. -/
theorem twf_tsetList (d : α) (vs : List α) (m : Tbl α) (i : Nat) (h : twf d m = true) : twf d (tsetList d m i vs) = true := by
  induction vs generalizing m i with
  | nil => exact h
  | cons v vs ih => exact ih (tset d m i v) (i + 1) (twf_tset d m i v h)

theorem twfAbove_filter (d : α) (p : Nat × α → Bool) (m : Tbl α) (b : Option Nat) (h : twfAbove d b m = true) :
    twfAbove d b (m.filter p) = true := by
  induction m generalizing b with
  | nil => rfl
  | cons e r ih =>
    obtain ⟨k, v⟩ := e
    rw [twfAbove_cons] at h
    simp only [Bool.and_eq_true] at h
    rw [List.filter_cons]
    split
    · rw [twfAbove_cons]
      simp only [Bool.and_eq_true]
      exact ⟨h.1, ih (some k) h.2⟩
    · exact ih b (twfAbove_weaken d b k r h.1.1 h.2)

/-- Keeping some of the entries keeps the canonical form. -/
theorem twf_tfilter (d : α) (p : Nat → Bool) (m : Tbl α) (h : twf d m = true) : twf d (tfilter p m) = true :=
  twfAbove_filter d _ m none h

theorem twfAbove_filterMap (d : α) (g : Nat → Option Nat)
    (hg : ∀ i j a b, i < j → g i = some a → g j = some b → a < b) (m : Tbl α) (b : Option Nat) (c : Option Nat)
    (hc : ∀ i a, aboveB b i = true → g i = some a → aboveB c a = true) (h : twfAbove d b m = true) :
    twfAbove d c (m.filterMap (fun e => (g e.1).map (fun a => (a, e.2)))) = true := by
  induction m generalizing b c with
  | nil => rfl
  | cons e r ih =>
    obtain ⟨k, v⟩ := e
    rw [twfAbove_cons] at h
    simp only [Bool.and_eq_true] at h
    rw [List.filterMap_cons]
    cases hk : g k with
    | none =>
      simp only [Option.map_none]
      exact ih b c hc (twfAbove_weaken d b k r h.1.1 h.2)
    | some a =>
      simp only [Option.map_some]
      rw [twfAbove_cons]
      simp only [Bool.and_eq_true]
      refine ⟨⟨hc k a h.1.1 hk, h.1.2⟩, ih (some k) (some a) ?_ h.2⟩
      intro i x hi hx
      simp only [aboveB, decide_eq_true_eq] at hi ⊢
      exact hg k i a x hi hk hx

/-- Renumbering the entries by a rising partial map keeps the canonical form. -/
theorem twf_filterMap (d : α) (g : Nat → Option Nat) (hg : ∀ i j a b, i < j → g i = some a → g j = some b → a < b)
    (m : Tbl α) (h : twf d m = true) : twf d (m.filterMap (fun e => (g e.1).map (fun a => (a, e.2)))) = true :=
  twfAbove_filterMap d g hg m none none (fun _ _ _ _ => rfl) h

/-- A write of consecutive values, read at any number. -/
theorem tget_tsetList (d : α) (vs : List α) (m : Tbl α) (i j : Nat) :
    tget d (tsetList d m i vs) j = if h : i ≤ j ∧ j < i + vs.length then vs[j - i]'(by omega) else tget d m j := by
  induction vs generalizing m i with
  | nil =>
    have : ¬(i ≤ j ∧ j < i + ([] : List α).length) := by
      simp
    simp only [tsetList, this, dite_false]
  | cons v vs ih =>
    rw [tsetList, ih]
    by_cases h1 : i + 1 ≤ j ∧ j < i + 1 + vs.length
    · have h2 : i ≤ j ∧ j < i + (v :: vs).length := by
        simp only [List.length_cons]
        omega
      rw [dif_pos h1, dif_pos h2]
      obtain ⟨k, rfl⟩ : ∃ k, j = i + 1 + k := ⟨j - (i + 1), by omega⟩
      simp [show i + 1 + k - i = k + 1 by omega]
    · rw [dif_neg h1, tget_tset]
      by_cases h3 : j = i
      · subst h3
        rw [if_pos rfl, dif_pos ⟨Nat.le_refl _, by simp⟩]
        simp
      · rw [if_neg h3, dif_neg]
        simp only [List.length_cons]
        omega

/-- Two tables in canonical form that read alike everywhere are equal. -/
theorem twfAbove_ext (d : α) (m n : Tbl α) (b : Option Nat) (hm : twfAbove d b m = true) (hn : twfAbove d b n = true)
    (h : ∀ i, tget d m i = tget d n i) : m = n := by
  have below : ∀ (r : Tbl α) (k j : Nat), twfAbove d (some k) r = true → j ≤ k → tget d r j = d := by
    intro r
    induction r with
    | nil => intros; rfl
    | cons e r ih =>
      obtain ⟨q, w⟩ := e
      intro k j hr hj
      rw [twfAbove_cons] at hr
      simp only [aboveB, Bool.and_eq_true, decide_eq_true_eq] at hr
      have : q ≠ j := by omega
      simp only [tget, this, if_false]
      exact ih q j hr.2 (by omega)
  induction m generalizing n b with
  | nil =>
    cases n with
    | nil => rfl
    | cons e r =>
      obtain ⟨k, v⟩ := e
      have h1 := h k
      rw [twfAbove_cons] at hn
      simp only [Bool.and_eq_true, decide_eq_true_eq] at hn
      simp only [tget, if_true] at h1
      exact absurd h1.symm hn.1.2
  | cons e r ih =>
    obtain ⟨k, v⟩ := e
    rw [twfAbove_cons] at hm
    simp only [Bool.and_eq_true, decide_eq_true_eq] at hm
    cases n with
    | nil =>
      have h1 := h k
      simp only [tget, if_true] at h1
      exact absurd h1 hm.1.2
    | cons e' r' =>
      obtain ⟨k', v'⟩ := e'
      rw [twfAbove_cons] at hn
      simp only [Bool.and_eq_true, decide_eq_true_eq] at hn
      have hkk : k = k' := by
        rcases Nat.lt_trichotomy k k' with hlt | heq | hgt
        · have h1 := h k
          have h2 : k' ≠ k := by omega
          simp only [tget, if_true, h2, if_false] at h1
          rw [below r' k' k hn.2 (by omega)] at h1
          exact absurd h1 hm.1.2
        · exact heq
        · have h1 := h k'
          have h2 : k ≠ k' := by omega
          simp only [tget, if_true, h2, if_false] at h1
          rw [below r k k' hm.2 (by omega)] at h1
          exact absurd h1.symm hn.1.2
      subst hkk
      have hv : v = v' := by
        have h1 := h k
        simpa [tget] using h1
      subst hv
      have : r = r' := by
        refine ih r' (some k) hm.2 hn.2 ?_
        intro i
        by_cases hi : i ≤ k
        · rw [below r k i hm.2 hi, below r' k i hn.2 hi]
        · have h1 := h i
          have h2 : k ≠ i := by omega
          simpa [tget, h2] using h1
      rw [this]

/-- Equal memories are equal data: two tables in canonical form that read alike everywhere are one. -/
theorem twf_ext (d : α) (m n : Tbl α) (hm : twf d m = true) (hn : twf d n = true) (h : ∀ i, tget d m i = tget d n i) :
    m = n :=
  twfAbove_ext d m n none hm hn h

end Sys2Proof.Machine
end

