-- ==== Sys2Proof/Laws/Memory.lean ====
section
/-!
SUPPORT. Sys2Proof/Laws/Memory.lean: the laws of a protected memory (09_memory_system.md R212 to R214): what a read gives
after a write, what a write leaves alone, and that every operation keeps the canonical form.
-/

namespace Sys2Proof.Machine

theorem foldl_keeps {α β : Type} (P : β → Prop) (f : β → α → β) (hf : ∀ t x, P t → P (f t x)) (l : List α) (t : β)
    (h : P t) : P (l.foldl f t) := by
  induction l generalizing t with
  | nil => exact h
  | cons x l ih => exact ih (f t x) (hf t x h)

/-- Writing one pattern over a list of codewords, read at any codeword. -/
theorem tget_foldl_tset (v : Nat) (l : List Nat) (t : Tbl Nat) (w : Nat) :
    tget 0 (l.foldl (fun t w => tset 0 t w v) t) w = if w ∈ l then v else tget 0 t w := by
  induction l generalizing t with
  | nil => simp
  | cons x l ih =>
    rw [List.foldl_cons, ih, tget_tset]
    by_cases h1 : w ∈ l
    · simp [h1]
    · by_cases h2 : w = x <;> simp [h1, h2]

theorem mem_rangeFrom (a n x : Nat) : x ∈ rangeFrom a n ↔ a ≤ x ∧ x < a + n := by
  induction n generalizing a with
  | zero =>
    simp only [rangeFrom, List.not_mem_nil, false_iff]
    omega
  | succ n ih =>
    simp only [rangeFrom, List.mem_cons, ih]
    omega

/-- The codewords that `n` bytes at `a` touch. -/
theorem mem_wordsOf (a n w : Nat) : w ∈ wordsOf a n ↔ 0 < n ∧ a / 16 ≤ w ∧ w ≤ (a + n - 1) / 16 := by
  unfold wordsOf
  split
  · simp_all
  · rw [mem_rangeFrom]
    have : a / 16 ≤ (a + n - 1) / 16 := Nat.div_le_div_right (by omega)
    omega

/-! ## The canonical form -/

theorem Mem.wf_iff (m : Mem) : m.wf = true ↔ twf 0 m.data = true ∧ twf 0 m.err = true := by
  simp [Mem.wf]

theorem Mem.wf_empty : ({} : Mem).wf = true := rfl

theorem twf_foldl_tset (v : Nat) (l : List Nat) (t : Tbl Nat) (h : twf 0 t = true) :
    twf 0 (l.foldl (fun t w => tset 0 t w v) t) = true :=
  foldl_keeps (fun t => twf 0 t = true) _ (fun t w ht => twf_tset 0 t w v ht) l t h

theorem Mem.write_wf (m : Mem) (a : Nat) (b : List Byte) (h : m.wf = true) : (m.write a b).wf = true := by
  rw [Mem.wf_iff] at h ⊢
  exact ⟨twf_tsetList 0 b m.data a h.1, twf_foldl_tset 0 _ m.err h.2⟩

theorem Mem.poison_wf (m : Mem) (a n : Nat) (h : m.wf = true) : (m.poison a n).wf = true := by
  rw [Mem.wf_iff] at h ⊢
  exact ⟨h.1, twf_foldl_tset poisonPattern _ m.err h.2⟩

theorem Mem.decPoison_wf (m : Mem) (a n : Nat) (h : m.wf = true) : (m.decPoison a n).wf = true := by
  rw [Mem.wf_iff] at h ⊢
  exact ⟨h.1, twf_foldl_tset _ _ m.err h.2⟩

theorem Mem.flip_wf (m : Mem) (w e : Nat) (h : m.wf = true) : (m.flip w e).wf = true := by
  rw [Mem.wf_iff] at h ⊢
  exact ⟨h.1, twf_tset 0 m.err w _ h.2⟩

theorem Mem.copyIn_wf (m : Mem) (a : Nat) (b : List Byte) (bad : List Bool) (h : m.wf = true) :
    (m.copyIn a b bad).wf = true := by
  refine foldl_keeps (fun (t : Mem) => t.wf = true) _ ?_ _ _ (Mem.write_wf m a b h)
  intro t x ht
  split
  · exact Mem.poison_wf t _ _ ht
  · exact ht

theorem Mem.writeBack_wf (m : Mem) (a n : Nat) (h : m.wf = true) : (m.writeBack a n).wf = true := by
  refine foldl_keeps (fun (t : Mem) => t.wf = true) _ ?_ _ _ h
  intro t x ht
  split
  · exact Mem.write_wf t _ _ ht
  · exact ht

/-! ## Reads after writes -/

/-- Every codeword a write touches is a good word afterwards; every other keeps its pattern. -/
theorem Mem.pat_write (m : Mem) (a : Nat) (b : List Byte) (w : Nat) :
    (m.write a b).pat w = if 0 < b.length ∧ a / 16 ≤ w ∧ w ≤ (a + b.length - 1) / 16 then 0 else m.pat w := by
  unfold Mem.pat Mem.write
  rw [tget_foldl_tset]
  simp only [mem_wordsOf]

/-- A byte just written reads as written. -/
theorem Mem.byte_write_in (m : Mem) (a : Nat) (b : List Byte) (i : Nat) (h : i < b.length) :
    (m.write a b).byte (a + i) = b[i] := by
  unfold Mem.byte
  have hw : a / 16 ≤ (a + i) / 16 := Nat.div_le_div_right (by omega)
  have hu : (a + i) / 16 ≤ (a + b.length - 1) / 16 := Nat.div_le_div_right (by omega)
  have hp : (m.write a b).pat ((a + i) / 16) = 0 := by
    rw [Mem.pat_write, if_pos ⟨by omega, hw, hu⟩]
  simp only [hp, if_true]
  unfold Mem.write
  simp only [tget_tsetList]
  rw [dif_pos ⟨by omega, by omega⟩]
  simp

/-- A write leaves alone every byte outside the codewords it touches. -/
theorem Mem.byte_write_out (m : Mem) (a : Nat) (b : List Byte) (x : Nat)
    (h : b.length = 0 ∨ x / 16 < a / 16 ∨ (a + b.length - 1) / 16 < x / 16) : (m.write a b).byte x = m.byte x := by
  unfold Mem.byte
  have hp : (m.write a b).pat (x / 16) = m.pat (x / 16) := by
    rw [Mem.pat_write, if_neg]
    omega
  have hd : tget 0 (m.write a b).data x = tget 0 m.data x := by
    unfold Mem.write
    rw [tget_tsetList, dif_neg]
    intro hx
    have h1 : a / 16 ≤ x / 16 := Nat.div_le_div_right hx.1
    have h2 : x / 16 ≤ (a + b.length - 1) / 16 := Nat.div_le_div_right (by omega)
    omega
  simp only [hp, hd]

theorem rangeFrom_length (a n : Nat) : (rangeFrom a n).length = n := by
  induction n generalizing a with
  | zero => rfl
  | succ n ih => simp [rangeFrom, ih]

theorem rangeFrom_getElem (a n i : Nat) (h : i < (rangeFrom a n).length) : (rangeFrom a n)[i] = a + i := by
  induction n generalizing a i with
  | zero => simp [rangeFrom] at h
  | succ n ih =>
    cases i with
    | zero => rfl
    | succ i =>
      simp only [rangeFrom, List.getElem_cons_succ]
      rw [ih]
      omega

/-- Reading the bytes just written gives the bytes written. -/
theorem Mem.read_write (m : Mem) (a : Nat) (b : List Byte) : (m.write a b).read a b.length = b := by
  apply List.ext_getElem
  · simp [Mem.read, rangeFrom_length]
  · intro i h1 h2
    simp only [Mem.read, List.getElem_map, rangeFrom_getElem]
    exact Mem.byte_write_in m a b i h2

end Sys2Proof.Machine
end

