-- ==== Sys2Proof/Laws/Keeps.lean ====
section
/-!
SUPPORT. Sys2Proof/Laws/Keeps.lean: every shared operation leaves the queue, the Tally, the part's identity, its rails and resets
alone, and keeps every memory and the register file in canonical form. One lemma per operation.
-/

namespace Sys2Proof.Machine

/-- `t` keeps what `s` has of the base part, and its memories stay canonical. -/
def Keeps (s t : State) : Prop := t.base = s.base ∧ (s.Canon → t.Canon)

theorem Keeps.refl (s : State) : Keeps s s := ⟨rfl, id⟩

theorem Keeps.trans {s t u : State} (h1 : Keeps s t) (h2 : Keeps t u) : Keeps s u :=
  ⟨h2.1.trans h1.1, fun h => h2.2 (h1.2 h)⟩

/-- A change of the state that leaves the register values, the memories, the rails and the waiting step as they were. -/
theorem keeps_upd (s x : State) (fc rf po pc st sh di pl cl cx cc sm co cu hb pp tk ou re fa wi sc mg fl fb)
    (h1 : po.vddAon = x.power.vddAon) (h2 : po.perst = x.power.perst) (h3 : po.clkHold = x.power.clkHold)
    (h4 : po.testEn = x.power.testEn) (h5 : po.smbAddr = x.power.smbAddr) (h6 : fb.step = x.fab.step)
    (h7 : rf.live = x.rf.live) (h8 : rf.shadow = x.rf.shadow) (h9 : hb.mem = x.hbm.mem) (h10 : cu = x.clus) (h11 : co = x.cores)
    (h12 : cc = x.ctxCores) (h13 : sc.reqBuf = x.sec.reqBuf) :
    Keeps s (State.mk x.pending x.tally x.tallyRun fc x.gradeSC x.serial rf po pc st sh di pl cl cx cc sm co cu hb pp tk ou
      re fa wi sc mg fl fb) = Keeps s x := by
  unfold Keeps State.base State.Canon
  simp only [h1, h2, h3, h4, h5, h6, h7, h8, h9, h10, h11, h12, h13]

theorem fst_ite {α β : Type} (c : Prop) [Decidable c] (a b : α × β) : (if c then a else b).1 = if c then a.1 else b.1 := by
  split <;> rfl

theorem snd_ite {α β : Type} (c : Prop) [Decidable c] (a b : α × β) : (if c then a else b).2 = if c then a.2 else b.2 := by
  split <;> rfl

theorem keeps_ite {z0 a b : State} (c : Prop) [Decidable c] (ha : Keeps z0 a) (hb : Keeps z0 b) :
    Keeps z0 (if c then a else b) := by
  split
  · exact ha
  · exact hb

theorem keeps_foldl {α : Type} {z : State} (f : State → α → State) (l : List α) (s : State)
    (h : ∀ y t x, Keeps y t → Keeps y (f t x)) (k : Keeps z s) : Keeps z (l.foldl f s) := by
  induction l generalizing s with
  | nil => exact k
  | cons x l ih => exact ih (f s x) (h z s x k)

theorem keeps_foldl1 {α β : Type} {z : State} (f : State × β → α → State × β) (l : List α) (a : State × β)
    (h : ∀ y t x, Keeps y t.1 → Keeps y (f t x).1) (k : Keeps z a.1) : Keeps z (l.foldl f a).1 := by
  induction l generalizing a with
  | nil => exact k
  | cons x l ih => exact ih (f a x) (h z a x k)

theorem keeps_foldl2 {α β : Type} {z : State} (f : β × State → α → β × State) (l : List α) (a : β × State)
    (h : ∀ y t x, Keeps y t.2 → Keeps y (f t x).2) (k : Keeps z a.2) : Keeps z (l.foldl f a).2 := by
  induction l generalizing a with
  | nil => exact k
  | cons x l ih => exact ih (f a x) (h z a x k)

theorem keeps_of_fst {z t : State} {β : Type} {p : State × β} {b : β} (h : p = (t, b)) (k : Keeps z p.1) : Keeps z t := by
  subst h
  exact k

theorem keeps_of_snd {z t : State} {β : Type} {p : β × State} {b : β} (h : p = (b, t)) (k : Keeps z p.2) : Keeps z t := by
  subst h
  exact k

/-- A change of HBM beside the rest of the state. -/
theorem keeps_hbm {z0 x : State} (hb : HbmS) (kz : Keeps z0 x) (h : x.hbm.mem.wf = true → hb.mem.wf = true) :
    Keeps z0 { x with hbm := hb } :=
  kz.trans ⟨rfl, fun c => ⟨c.1, c.2.1, h c.2.2.1, c.2.2.2⟩⟩

/-- A change of HBM to one that is canonical where the starting state is. -/
theorem keeps_hbm' {z0 x : State} (hb : HbmS) (kz : Keeps z0 x) (h : z0.Canon → hb.mem.wf = true) :
    Keeps z0 { x with hbm := hb } :=
  ⟨kz.1, fun c0 => ⟨(kz.2 c0).1, (kz.2 c0).2.1, h c0, (kz.2 c0).2.2.2⟩⟩

/-- A change of the register file beside the rest of the state. -/
theorem keeps_rf {z0 x : State} (rf : RegFile) (kz : Keeps z0 x) (h1 : twf 0 x.rf.live = true → twf 0 rf.live = true)
    (h2 : twf 0 x.rf.shadow = true → twf 0 rf.shadow = true) : Keeps z0 { x with rf := rf } :=
  kz.trans ⟨rfl, fun c => ⟨h1 c.1, h2 c.2.1, c.2.2⟩⟩

/-- A change of the cores beside the rest of the state. -/
theorem keeps_cores {z0 x : State} (co : Tbl CoreS) (kz : Keeps z0 x)
    (h : (∀ k, (tget {} x.cores k).canon = true) → ∀ k, (tget {} co k).canon = true) : Keeps z0 { x with cores := co } :=
  kz.trans ⟨rfl, fun c => ⟨c.1, c.2.1, c.2.2.1, c.2.2.2.1, h c.2.2.2.2.1, c.2.2.2.2.2⟩⟩

/-- A change of the context table beside the rest of the state. -/
theorem keeps_ctx {z0 x : State} (cx : Tbl Ctx) (cc : Tbl CoreS) (kz : Keeps z0 x)
    (h : (∀ k, (tget {} x.ctxCores k).canon = true) → ∀ k, (tget {} cc k).canon = true) :
    Keeps z0 { x with ctxs := cx, ctxCores := cc } :=
  kz.trans ⟨rfl, fun c => ⟨c.1, c.2.1, c.2.2.1, c.2.2.2.1, c.2.2.2.2.1, h c.2.2.2.2.2.1, c.2.2.2.2.2.2⟩⟩

theorem canon_terase (m : Tbl CoreS) (i : Nat) (h : ∀ k, (tget {} m k).canon = true) :
    ∀ k, (tget {} (terase m i) k).canon = true := by
  intro k
  by_cases hk : k = i
  · subst hk
    rw [tget_terase_same]
    rfl
  · rw [tget_terase_other _ _ hk]
    exact h k

theorem CluS.canon_iff (c : CluS) : c.canon = true ↔ c.mem.wf = true := Iff.rfl

theorem CoreS.canon_iff (c : CoreS) :
    c.canon = true ↔ c.wbin.wf = true ∧ c.abin.wf = true ∧ c.pbin.wf = true := by
  simp [CoreS.canon, and_assoc]

/-- A state whose memories are canonical has canonical clusters and cores, read through their accessors. -/
theorem State.Canon.clu {s : State} (h : s.Canon) (k : Nat) : (Machine.clu s k).canon = true := h.2.2.2.1 k

theorem State.Canon.core {s : State} (h : s.Canon) (p : Nat) : (Machine.core s p).canon = true := h.2.2.2.2.1 p

/-- A change of a cluster that keeps its memories canonical where the whole state's are. -/
theorem keeps_clu {z0 s : State} (k : Nat) (f : CluS → CluS) (kz : Keeps z0 s)
    (hf : z0.Canon → s.Canon → (f (clu s k)).canon = true) : Keeps z0 (modClu s k f) := by
  refine ⟨kz.1, fun c0 => ?_⟩
  have c := kz.2 c0
  refine ⟨c.1, c.2.1, c.2.2.1, fun i => ?_, c.2.2.2.2⟩
  show (tget {} (tmod {} s.clus k f) i).canon = true
  unfold tmod
  rw [tget_tset]
  split
  · exact hf c0 c
  · exact c.2.2.2.1 i

theorem CoreS.canon_setBin (c : CoreS) (b : Bin) (m : Mem) (h : c.canon = true) (hm : m.wf = true) :
    (c.setBin b m).canon = true := by
  rw [CoreS.canon_iff] at h ⊢
  cases b
  · exact ⟨hm, h.2⟩
  · exact ⟨h.1, hm, h.2.2⟩
  · exact ⟨h.1, h.2.1, hm⟩

theorem CoreS.canon_bin (c : CoreS) (b : Bin) (h : c.canon = true) : (c.bin b).wf = true := by
  rw [CoreS.canon_iff] at h
  cases b
  · exact h.1
  · exact h.2.1
  · exact h.2.2

theorem CoreS.canon_busy (c : CoreS) (e : Engine) (t : Nat) (h : c.canon = true) : (c.busy e t).canon = true := by
  cases e <;> exact h

theorem CoreS.canon_zeroRows (c : CoreS) (b : Bin) (rows : List Nat) (h : c.canon = true) :
    (c.zeroRows b rows).canon = true := by
  unfold CoreS.zeroRows
  refine foldl_keeps (fun (x : CoreS) => x.canon = true) _ ?_ _ _ h
  intro x r hx
  first
    | exact CoreS.canon_setBin _ _ _ hx (Mem.write_wf _ _ _ (CoreS.canon_bin _ _ hx))
    | (split
       · exact hx
       · exact CoreS.canon_setBin _ _ _ hx (Mem.write_wf _ _ _ (CoreS.canon_bin _ _ hx)))

theorem keeps_putF {z0 : State} (s : State) (f : _) (inst : _) (sel : _) (idx : _) (v : _)  (kz : Keeps z0 s) :
    Keeps z0 (putF s f inst sel idx v) := by
  refine kz.trans ?_
  refine ⟨rfl, fun c => ⟨twf_tset _ _ _ _ c.1, c.2⟩⟩

theorem keeps_setI {z0 : State} (s : State) (f : _) (i : _) (v : _)  (kz : Keeps z0 s) :
    Keeps z0 (setI s f i v) := by
  unfold setI
  repeat' (first
    | with_reducible assumption
    | with_reducible apply keeps_putF
    | with_reducible apply keeps_ite
    | simp only [keeps_upd]
    | split
    | dsimp only)

theorem keeps_modCore {z0 : State} (s : State) (c : _) (f : _) (hf : ∀ c, c.canon = true → (f c).canon = true) (kz : Keeps z0 s) :
    Keeps z0 (modCore s c f) := by
  refine kz.trans ?_
  refine ⟨rfl, fun h => ⟨h.1, h.2.1, h.2.2.1, h.2.2.2.1, fun i => ?_, h.2.2.2.2.2⟩⟩
  show (tget {} (tmod {} s.cores c f) i).canon = true
  unfold tmod
  rw [tget_tset]
  split
  · exact hf _ (h.2.2.2.2.1 c)
  · exact h.2.2.2.2.1 i

theorem keeps_setPairI {z0 : State} (s : State) (lo : _) (hi : _) (i : _) (v : _)  (kz : Keeps z0 s) :
    Keeps z0 (setPairI s lo hi i v) := by
  unfold setPairI
  repeat' (first
    | with_reducible assumption
    | with_reducible apply keeps_setI
    | with_reducible apply keeps_ite
    | simp only [keeps_upd]
    | split
    | dsimp only)

theorem keeps_addPairI {z0 : State} (s : State) (lo : _) (hi : _) (i : _) (n : _)  (kz : Keeps z0 s) :
    Keeps z0 (addPairI s lo hi i n) := by
  unfold addPairI
  repeat' (first
    | with_reducible assumption
    | with_reducible apply keeps_setPairI
    | with_reducible apply keeps_ite
    | simp only [keeps_upd]
    | split
    | dsimp only)

theorem keeps_countBusy {z0 : State} (s : State) (p : _)  (kz : Keeps z0 s) :
    Keeps z0 (countBusy s p) := by
  unfold countBusy
  repeat' (first
    | with_reducible assumption
    | with_reducible apply keeps_addPairI
    | with_reducible apply keeps_ite
    | simp only [keeps_upd]
    | split
    | dsimp only)

theorem keeps_setR {z0 : State} (s : State) (f : _) (v : _)  (kz : Keeps z0 s) :
    Keeps z0 (setR s f v) := by
  unfold setR
  repeat' (first
    | with_reducible assumption
    | with_reducible apply keeps_putF
    | with_reducible apply keeps_ite
    | simp only [keeps_upd]
    | split
    | dsimp only)

theorem keeps_addR {z0 : State} (s : State) (f : _) (n : _)  (kz : Keeps z0 s) :
    Keeps z0 (addR s f n) := by
  unfold addR
  repeat' (first
    | with_reducible assumption
    | with_reducible apply keeps_setR
    | with_reducible apply keeps_ite
    | simp only [keeps_upd]
    | split
    | dsimp only)

theorem keeps_modPlan {z0 : State} (s : State) (i : _) (f : _)  (kz : Keeps z0 s) :
    Keeps z0 (modPlan s i f) := by
  unfold modPlan
  repeat' (first
    | with_reducible assumption
    | with_reducible apply keeps_ite
    | simp only [keeps_upd]
    | split
    | dsimp only)

theorem keeps_settleEntry {z0 : State} (s : State) (i : _) (kz : Keeps z0 s) :
    Keeps z0 (settleEntry s i) := by
  unfold settleEntry
  repeat' (first
    | with_reducible assumption
    | with_reducible apply keeps_addR
    | with_reducible apply keeps_modPlan
    | with_reducible apply keeps_ite
    | simp only [keeps_upd]
    | with_reducible apply keeps_foldl
    | with_reducible apply keeps_foldl1
    | with_reducible apply keeps_foldl2
    | exact fun _ h => h
    | exact fun _ _ => rfl
    | with_reducible intro _ _ _ _
    | with_reducible intro _ _ _
    | simp only [fst_ite]
    | simp only [snd_ite]
    | split
    | dsimp only
    | refine keeps_of_fst (by with_reducible assumption) ?_
    | refine keeps_of_snd (by with_reducible assumption) ?_)

theorem keeps_setTag {z0 : State} (s : State) (p : _) (tag : _) (plan : _) (kz : Keeps z0 s) :
    Keeps z0 (setTag s p tag plan) := by
  unfold setTag
  repeat' (first
    | with_reducible assumption
    | with_reducible apply keeps_settleEntry
    | with_reducible apply keeps_setI
    | with_reducible apply keeps_ite
    | simp only [keeps_upd]
    | with_reducible apply keeps_foldl
    | with_reducible apply keeps_foldl1
    | with_reducible apply keeps_foldl2
    | exact fun _ h => h
    | exact fun _ _ => rfl
    | with_reducible intro _ _ _ _
    | with_reducible intro _ _ _
    | simp only [fst_ite]
    | simp only [snd_ite]
    | split
    | dsimp only
    | refine keeps_of_fst (by with_reducible assumption) ?_
    | refine keeps_of_snd (by with_reducible assumption) ?_)

theorem keeps_clearTag {z0 : State} (s : State) (p : _) (kz : Keeps z0 s) :
    Keeps z0 (clearTag s p) := by
  unfold clearTag
  repeat' (first
    | with_reducible assumption
    | with_reducible apply keeps_setTag
    | with_reducible apply keeps_modCore
    | with_reducible apply keeps_ite
    | simp only [keeps_upd]
    | with_reducible apply keeps_foldl
    | with_reducible apply keeps_foldl1
    | with_reducible apply keeps_foldl2
    | exact fun _ h => h
    | exact fun _ _ => rfl
    | with_reducible intro _ _ _ _
    | with_reducible intro _ _ _
    | simp only [fst_ite]
    | simp only [snd_ite]
    | split
    | dsimp only
    | refine keeps_of_fst (by with_reducible assumption) ?_
    | refine keeps_of_snd (by with_reducible assumption) ?_)

theorem keeps_removedTag {z0 : State} (s : State) (p : _) (kz : Keeps z0 s) :
    Keeps z0 (removedTag s p) := by
  unfold removedTag
  repeat' (first
    | with_reducible assumption
    | with_reducible apply keeps_clearTag
    | with_reducible apply keeps_ite
    | simp only [keeps_upd]
    | with_reducible apply keeps_foldl
    | with_reducible apply keeps_foldl1
    | with_reducible apply keeps_foldl2
    | exact fun _ h => h
    | exact fun _ _ => rfl
    | with_reducible intro _ _ _ _
    | with_reducible intro _ _ _
    | simp only [fst_ite]
    | simp only [snd_ite]
    | split
    | dsimp only
    | refine keeps_of_fst (by with_reducible assumption) ?_
    | refine keeps_of_snd (by with_reducible assumption) ?_)

theorem keeps_modRing {z0 : State} (s : State) (k : _) (f : _)  (kz : Keeps z0 s) :
    Keeps z0 (modRing s k f) := by
  unfold modRing
  repeat' (first
    | with_reducible assumption
    | with_reducible apply keeps_ite
    | simp only [keeps_upd]
    | split
    | dsimp only)

theorem keeps_hostWrite {z0 : State} (s : State) (a : _) (b : _)  (kz : Keeps z0 s) :
    Keeps z0 (hostWrite s a b) := by
  unfold hostWrite
  repeat' (first
    | with_reducible assumption
    | with_reducible apply keeps_setPairI
    | with_reducible apply keeps_addR
    | with_reducible apply keeps_ite
    | simp only [keeps_upd]
    | split
    | dsimp only)

theorem keeps_setX {z0 : State} (s : State) (f : _) (k : _) (v : _)  (kz : Keeps z0 s) :
    Keeps z0 (setX s f k v) := by
  unfold setX
  repeat' (first
    | with_reducible assumption
    | with_reducible apply keeps_putF
    | with_reducible apply keeps_ite
    | simp only [keeps_upd]
    | split
    | dsimp only)

theorem keeps_setPba {z0 : State} (s : State) (v : _) (b : _)  (kz : Keeps z0 s) :
    Keeps z0 (setPba s v b) := by
  unfold setPba
  repeat' (first
    | with_reducible assumption
    | with_reducible apply keeps_ite
    | simp only [keeps_upd]
    | split
    | dsimp only)

theorem keeps_emit {z0 : State} (s : State) (o : _)  (kz : Keeps z0 s) :
    Keeps z0 (emit s o) := by
  unfold emit
  repeat' (first
    | with_reducible assumption
    | with_reducible apply keeps_ite
    | simp only [keeps_upd]
    | split
    | dsimp only)

theorem keeps_sendMsix {z0 : State} (s : State) (v : _)  (kz : Keeps z0 s) :
    Keeps z0 (sendMsix s v) := by
  unfold sendMsix
  repeat' (first
    | with_reducible assumption
    | with_reducible apply keeps_setPba
    | with_reducible apply keeps_emit
    | with_reducible apply keeps_ite
    | simp only [keeps_upd]
    | split
    | dsimp only)

theorem keeps_vectorRings {z0 : State} (s : State) (k : _) (kz : Keeps z0 s) :
    Keeps z0 (vectorRings s k) := by
  unfold vectorRings
  repeat' (first
    | with_reducible assumption
    | with_reducible apply keeps_foldl
    | with_reducible apply keeps_modRing
    | with_reducible apply keeps_ite
    | simp only [keeps_upd]
    | with_reducible apply keeps_foldl
    | with_reducible apply keeps_foldl1
    | with_reducible apply keeps_foldl2
    | exact fun _ h => h
    | exact fun _ _ => rfl
    | with_reducible intro _ _ _ _
    | with_reducible intro _ _ _
    | simp only [fst_ite]
    | simp only [snd_ite]
    | split
    | dsimp only
    | refine keeps_of_fst (by with_reducible assumption) ?_
    | refine keeps_of_snd (by with_reducible assumption) ?_)

theorem keeps_ringSignal {z0 : State} (s : State) (k : _) (kz : Keeps z0 s) :
    Keeps z0 (ringSignal s k) := by
  unfold ringSignal
  repeat' (first
    | with_reducible assumption
    | with_reducible apply keeps_sendMsix
    | with_reducible apply keeps_vectorRings
    | with_reducible apply keeps_ite
    | simp only [keeps_upd]
    | with_reducible apply keeps_foldl
    | with_reducible apply keeps_foldl1
    | with_reducible apply keeps_foldl2
    | exact fun _ h => h
    | exact fun _ _ => rfl
    | with_reducible intro _ _ _ _
    | with_reducible intro _ _ _
    | simp only [fst_ite]
    | simp only [snd_ite]
    | split
    | dsimp only
    | refine keeps_of_fst (by with_reducible assumption) ?_
    | refine keeps_of_snd (by with_reducible assumption) ?_)

theorem keeps_ringWrite {z0 : State} (s : State) (k : _) (b : _)  (kz : Keeps z0 s) :
    Keeps z0 (ringWrite s k b) := by
  unfold ringWrite
  repeat' (first
    | with_reducible assumption
    | with_reducible apply keeps_hostWrite
    | with_reducible apply keeps_setX
    | with_reducible apply keeps_modRing
    | with_reducible apply keeps_ringSignal
    | with_reducible apply keeps_ite
    | simp only [keeps_upd]
    | split
    | dsimp only)

theorem keeps_setS {z0 : State} (s : State) (f : _) (n : _) (v : _)  (kz : Keeps z0 s) :
    Keeps z0 (setS s f n v) := by
  unfold setS
  repeat' (first
    | with_reducible assumption
    | with_reducible apply keeps_putF
    | with_reducible apply keeps_ite
    | simp only [keeps_upd]
    | split
    | dsimp only)

theorem keeps_setOvf {z0 : State} (s : State) (k : _) (l : _)  (kz : Keeps z0 s) :
    Keeps z0 (setOvf s k l) := by
  unfold setOvf
  repeat' (first
    | with_reducible assumption
    | with_reducible apply keeps_setS
    | with_reducible apply keeps_modRing
    | with_reducible apply keeps_ite
    | simp only [keeps_upd]
    | split
    | dsimp only)

theorem keeps_ringTake {z0 : State} {s : State} {k : _} {r : _}  {t : State} (h : ringTake s k r = some t) (kz : Keeps z0 s) :
    Keeps z0 t := by
  unfold ringTake at h
  simp only at h
  split at h
  · cases h
    exact keeps_ringWrite _ _ _ kz
  · split at h
    · cases h
      exact keeps_setOvf _ _ _ (keeps_addR _ _ _ kz)
    · cases h

theorem keeps_tellOrphans {z0 : State} (s : State) (k : _)  (kz : Keeps z0 s) :
    Keeps z0 (tellOrphans s k) := by
  unfold tellOrphans
  repeat' (first
    | with_reducible assumption
    | with_reducible apply keeps_modRing
    | with_reducible apply keeps_ite
    | simp only [keeps_upd]
    | split
    | refine keeps_ringTake (by with_reducible assumption) ?_
    | dsimp only)

theorem keeps_drainRing {z0 : State} (k : _) (a1 : _) (a2 : State)  (kz : Keeps z0 a2) :
    Keeps z0 (drainRing k a1 a2) := by
  induction a1 generalizing z0 a2 with
  | zero => 
    unfold drainRing
    repeat' (first
    | with_reducible assumption
    | with_reducible apply keeps_tellOrphans
    | with_reducible apply keeps_setOvf
    | with_reducible apply keeps_ringWrite
    | with_reducible apply keeps_ite
    | simp only [keeps_upd]
    | split
    | dsimp only)
  | succ _ ih =>
    unfold drainRing
    repeat' (first
    | with_reducible assumption
    | with_reducible apply keeps_tellOrphans
    | with_reducible apply keeps_setOvf
    | with_reducible apply keeps_ringWrite
    | with_reducible apply ih
    | with_reducible apply keeps_ite
    | simp only [keeps_upd]
    | split
    | dsimp only)

theorem keeps_drain {z0 : State} (s : State) (k : _)  (kz : Keeps z0 s) :
    Keeps z0 (drain s k) := by
  unfold drain
  repeat' (first
    | with_reducible assumption
    | with_reducible apply keeps_drainRing
    | with_reducible apply keeps_ite
    | simp only [keeps_upd]
    | split
    | dsimp only)

theorem keeps_clearCore {z0 : State} (s : State) (p : _) (kz : Keeps z0 s) :
    Keeps z0 (clearCore s p) := by
  unfold clearCore
  repeat' (first
    | with_reducible assumption
    | with_reducible apply keeps_removedTag
    | with_reducible apply keeps_setI
    | with_reducible apply keeps_modCore
    | with_reducible apply keeps_countBusy
    | with_reducible apply keeps_drain
    | with_reducible apply keeps_ite
    | simp only [keeps_upd]
    | with_reducible apply keeps_foldl
    | with_reducible apply keeps_foldl1
    | with_reducible apply keeps_foldl2
    | exact fun _ h => h
    | exact fun _ _ => rfl
    | with_reducible intro _ _ _ _
    | with_reducible intro _ _ _
    | simp only [fst_ite]
    | simp only [snd_ite]
    | split
    | dsimp only
    | refine keeps_of_fst (by with_reducible assumption) ?_
    | refine keeps_of_snd (by with_reducible assumption) ?_)

theorem keeps_freeCores {z0 : State} (s : State) (k : _) (ls : _)  (kz : Keeps z0 s) :
    Keeps z0 (freeCores s k ls) := by
  unfold freeCores
  repeat' (first
    | with_reducible assumption
    | with_reducible apply keeps_clearCore
    | with_reducible apply keeps_ite
    | simp only [keeps_upd]
    | with_reducible apply keeps_foldl
    | with_reducible intro _ _ _ _
    | with_reducible intro _ _ _
    | simp only [fst_ite]
    | simp only [snd_ite]
    | split
    | dsimp only)

theorem keeps_modItem {z0 : State} (s : State) (k : _) (f : _)  (kz : Keeps z0 s) :
    Keeps z0 (modItem s k f) := by
  unfold modItem
  repeat' (first
    | with_reducible assumption
    | with_reducible apply keeps_ite
    | simp only [keeps_upd]
    | split
    | dsimp only)

theorem keeps_refreshCtx {z0 : State} (s : State)  (kz : Keeps z0 s) :
    Keeps z0 (refreshCtx s) := by
  unfold refreshCtx
  repeat' (first
    | with_reducible assumption
    | with_reducible apply keeps_setR
    | with_reducible apply keeps_ite
    | simp only [keeps_upd]
    | split
    | dsimp only)

theorem keeps_abandonRestore {z0 : State} (s : State) (k : _)  (kz : Keeps z0 s) :
    Keeps z0 (abandonRestore s k) := by
  unfold abandonRestore
  repeat' (first
    | with_reducible assumption
    | with_reducible apply keeps_freeCores
    | with_reducible apply keeps_modCore
    | with_reducible apply keeps_modItem
    | with_reducible apply keeps_refreshCtx
    | with_reducible apply keeps_ite
    | simp only [keeps_upd]
    | with_reducible apply keeps_foldl
    | with_reducible intro _ _ _ _
    | exact fun _ h => h
    | split
    | dsimp only)

theorem keeps_ackTurnOff {z0 : State} (s : State)  (kz : Keeps z0 s) :
    Keeps z0 (ackTurnOff s) := by
  unfold ackTurnOff
  repeat' (first
    | with_reducible assumption
    | with_reducible apply keeps_setR
    | with_reducible apply keeps_emit
    | with_reducible apply keeps_ite
    | simp only [keeps_upd]
    | split
    | dsimp only)

theorem keeps_addDum {z0 : State} (s : State) (l : _)  (kz : Keeps z0 s) :
    Keeps z0 (addDum s l) := by
  unfold addDum
  repeat' (first
    | with_reducible assumption
    | with_reducible apply keeps_ite
    | simp only [keeps_upd]
    | with_reducible apply keeps_foldl
    | with_reducible intro _ _ _ _
    | with_reducible intro _ _ _
    | simp only [fst_ite]
    | simp only [snd_ite]
    | split
    | dsimp only)

theorem keeps_addI {z0 : State} (s : State) (f : _) (i : _) (n : _)  (kz : Keeps z0 s) :
    Keeps z0 (addI s f i n) := by
  unfold addI
  repeat' (first
    | with_reducible assumption
    | with_reducible apply keeps_setI
    | with_reducible apply keeps_ite
    | simp only [keeps_upd]
    | split
    | dsimp only)

theorem keeps_addItem {z0 : State} (s : State) (i : _)  (kz : Keeps z0 s) :
    Keeps z0 (addItem s i) := by
  unfold addItem
  repeat' (first
    | with_reducible assumption
    | with_reducible apply keeps_ite
    | simp only [keeps_upd]
    | split
    | dsimp only)

theorem keeps_addS {z0 : State} (s : State) (f : _) (n : _) (k : _)  (kz : Keeps z0 s) :
    Keeps z0 (addS s f n k) := by
  unfold addS
  repeat' (first
    | with_reducible assumption
    | with_reducible apply keeps_setS
    | with_reducible apply keeps_ite
    | simp only [keeps_upd]
    | split
    | dsimp only)

theorem keeps_addX {z0 : State} (s : State) (f : _) (k : _) (n : _)  (kz : Keeps z0 s) :
    Keeps z0 (addX s f k n) := by
  unfold addX
  repeat' (first
    | with_reducible assumption
    | with_reducible apply keeps_setX
    | with_reducible apply keeps_ite
    | simp only [keeps_upd]
    | split
    | dsimp only)

theorem keeps_setHbmQ {z0 : State} (s : State) (p : _) (q : _) (kz : Keeps z0 s) :
    Keeps z0 (setHbmQ s p q) := by
  unfold setHbmQ
  repeat' (first
    | with_reducible assumption
    | with_reducible apply keeps_setI
    | with_reducible apply keeps_ite
    | simp only [keeps_upd]
    | with_reducible apply keeps_foldl
    | with_reducible apply keeps_foldl1
    | with_reducible apply keeps_foldl2
    | exact fun _ h => h
    | exact fun _ _ => rfl
    | with_reducible intro _ _ _ _
    | with_reducible intro _ _ _
    | simp only [fst_ite]
    | simp only [snd_ite]
    | split
    | dsimp only
    | refine keeps_of_fst (by with_reducible assumption) ?_
    | refine keeps_of_snd (by with_reducible assumption) ?_)

theorem keeps_cancelWb {z0 : State} (s : State) (a : _) (kz : Keeps z0 s) : Keeps z0 (cancelWb s a) := by
  unfold cancelWb
  dsimp only
  exact keeps_ite _ (keeps_addI _ _ _ _ (keeps_hbm _ kz id)) kz

theorem writeMem_wf (m : Mem) (r : HbmReq) (h : m.wf = true) : (writeMem m r).wf = true := by
  unfold writeMem
  dsimp only
  split
  · exact Mem.write_wf _ _ _ h
  · split
    · exact Mem.poison_wf _ _ _ (Mem.write_wf _ _ _ h)
    · exact Mem.write_wf _ _ _ h

theorem keeps_admitEnt {z0 : State} (s : State) (p : _) (e : _) (kz : Keeps z0 s) : Keeps z0 (admitEnt s p e) := by
  unfold admitEnt
  dsimp only
  have k1 := keeps_setI s F.HBMC_CH_STATE_MODE (p / 2) 1 kz
  refine keeps_setHbmQ _ _ _ ?_
  split
  · exact keeps_hbm _ k1 (fun h => Mem.writeBack_wf _ _ _ h)
  · exact keeps_hbm _ (keeps_cancelWb _ _ k1) (fun h => writeMem_wf _ _ h)
  · exact k1

theorem keeps_admitWaiting {z0 : State} (s : State) (kz : Keeps z0 s) : Keeps z0 (admitWaiting s) := by
  unfold admitWaiting
  refine keeps_foldl _ _ _ (fun y t e k => ?_) kz
  exact keeps_ite _ (keeps_admitEnt _ _ _ (keeps_addI _ _ _ _ (keeps_hbm _ k id))) k

theorem keeps_aer {z0 : State} (s : State) (e : _)  (kz : Keeps z0 s) :
    Keeps z0 (aer s e) := by
  unfold aer
  repeat' (first
    | with_reducible assumption
    | with_reducible apply keeps_ite
    | simp only [keeps_upd]
    | split
    | dsimp only)

theorem keeps_flagItem {z0 : State} (s : State) (k : _) (bit : _)  (kz : Keeps z0 s) :
    Keeps z0 (flagItem s k bit) := by
  unfold flagItem
  repeat' (first
    | with_reducible assumption
    | with_reducible apply keeps_modItem
    | with_reducible apply keeps_ite
    | simp only [keeps_upd]
    | split
    | dsimp only)

theorem keeps_pushRec {z0 : State} (s : State) (r : _)  (kz : Keeps z0 s) :
    Keeps z0 (pushRec s r) := by
  unfold pushRec
  repeat' (first
    | with_reducible assumption
    | with_reducible apply keeps_ite
    | simp only [keeps_upd]
    | split
    | dsimp only)

theorem keeps_pushJob {z0 : State} (s : State) (j : _)  (kz : Keeps z0 s) :
    Keeps z0 (pushJob s j) := by
  unfold pushJob
  repeat' (first
    | with_reducible assumption
    | with_reducible apply keeps_pushRec
    | with_reducible apply keeps_ite
    | simp only [keeps_upd]
    | split
    | dsimp only)

theorem keeps_countEnd {z0 : State} (s : State) (i : _) (status : _)  (kz : Keeps z0 s) :
    Keeps z0 (countEnd s i status) := by
  unfold countEnd
  repeat' (first
    | with_reducible assumption
    | with_reducible apply keeps_addS
    | with_reducible apply keeps_ite
    | simp only [keeps_upd]
    | split
    | dsimp only)

theorem keeps_countSickle {z0 : State} (s : State) (k : _)  (kz : Keeps z0 s) :
    Keeps z0 (countSickle s k) := by
  unfold countSickle
  repeat' (first
    | with_reducible assumption
    | with_reducible apply keeps_addI
    | with_reducible apply keeps_ite
    | simp only [keeps_upd]
    | with_reducible apply keeps_foldl
    | with_reducible intro _ _ _ _
    | with_reducible intro _ _ _
    | simp only [fst_ite]
    | simp only [snd_ite]
    | split
    | dsimp only)

theorem keeps_dropCtxs {z0 : State} (s : State) (k : _)  (kz : Keeps z0 s) :
    Keeps z0 (dropCtxs s k) := by
  unfold dropCtxs
  refine keeps_refreshCtx _ (keeps_ctx _ _ kz (fun h => ?_))
  exact foldl_keeps (fun (t : Tbl CoreS) => ∀ k, (tget {} t k).canon = true) _ (fun t e ht => canon_terase t e.1 ht) _ _ h

theorem keeps_modPool {z0 : State} (s : State) (p : _) (f : _)  (kz : Keeps z0 s) :
    Keeps z0 (modPool s p f) := by
  unfold modPool
  repeat' (first
    | with_reducible assumption
    | with_reducible apply keeps_ite
    | simp only [keeps_upd]
    | split
    | dsimp only)

theorem keeps_putHead {z0 : State} (s : State) (p : _) (h : _)  (kz : Keeps z0 s) :
    Keeps z0 (putHead s p h) := by
  unfold putHead
  repeat' (first
    | with_reducible assumption
    | with_reducible apply keeps_setS
    | with_reducible apply keeps_modPool
    | with_reducible apply keeps_ite
    | simp only [keeps_upd]
    | split
    | dsimp only)

theorem keeps_hbmPut {z0 : State} (s : State) (a : _) (b : _)  (kz : Keeps z0 s) :
    Keeps z0 (hbmPut s a b) := by
  unfold hbmPut
  exact keeps_hbm _ (keeps_ite _ kz (keeps_foldl _ _ _ (fun _ _ _ h => keeps_cancelWb _ _ h) kz)) (fun h => Mem.write_wf _ _ _ h)

theorem keeps_evtRise {z0 : State} (s : State) (p : _) (was : _)  (kz : Keeps z0 s) :
    Keeps z0 (evtRise s p was) := by
  unfold evtRise
  repeat' (first
    | with_reducible assumption
    | with_reducible apply keeps_sendMsix
    | with_reducible apply keeps_ite
    | simp only [keeps_upd]
    | split
    | dsimp only)

theorem keeps_raiseInt {z0 : State} (s : State) (p : _) (bits : _)  (kz : Keeps z0 s) :
    Keeps z0 (raiseInt s p bits) := by
  unfold raiseInt
  repeat' (first
    | with_reducible assumption
    | with_reducible apply keeps_evtRise
    | with_reducible apply keeps_setI
    | with_reducible apply keeps_ite
    | simp only [keeps_upd]
    | split
    | dsimp only)

theorem keeps_readLink {z0 : State} (s : State) (p : _) (kz : Keeps z0 s) :
    Keeps z0 (readLink s p) := by
  unfold readLink
  repeat' (first
    | with_reducible assumption
    | with_reducible apply keeps_modPool
    | with_reducible apply keeps_putHead
    | with_reducible apply keeps_raiseInt
    | with_reducible apply keeps_setS
    | with_reducible apply keeps_ite
    | simp only [keeps_upd]
    | with_reducible apply keeps_foldl
    | with_reducible apply keeps_foldl1
    | with_reducible apply keeps_foldl2
    | exact fun _ h => h
    | exact fun _ _ => rfl
    | with_reducible intro _ _ _ _
    | with_reducible intro _ _ _
    | simp only [fst_ite]
    | simp only [snd_ite]
    | split
    | dsimp only
    | refine keeps_of_fst (by with_reducible assumption) ?_
    | refine keeps_of_snd (by with_reducible assumption) ?_)

theorem keeps_giveBack {z0 : State} (s0 : State) (p : _) (i : _) (kz : Keeps z0 s0) :
    Keeps z0 (giveBack s0 p i) := by
  unfold giveBack
  repeat' (first
    | with_reducible assumption
    | with_reducible apply keeps_readLink
    | with_reducible apply keeps_modPool
    | with_reducible apply keeps_putHead
    | with_reducible apply keeps_hbmPut
    | with_reducible apply keeps_ite
    | simp only [keeps_upd]
    | with_reducible apply keeps_foldl
    | with_reducible apply keeps_foldl1
    | with_reducible apply keeps_foldl2
    | exact fun _ h => h
    | exact fun _ _ => rfl
    | with_reducible intro _ _ _ _
    | with_reducible intro _ _ _
    | simp only [fst_ite]
    | simp only [snd_ite]
    | split
    | dsimp only
    | refine keeps_of_fst (by with_reducible assumption) ?_
    | refine keeps_of_snd (by with_reducible assumption) ?_)

theorem keeps_freeItem {z0 : State} (s : State) (k : _)  (kz : Keeps z0 s) :
    Keeps z0 (freeItem s k) := by
  unfold freeItem
  repeat' (first
    | with_reducible assumption
    | with_reducible apply keeps_giveBack
    | with_reducible apply keeps_ite
    | simp only [keeps_upd]
    | with_reducible apply keeps_foldl
    | with_reducible apply keeps_foldl1
    | with_reducible intro _ _ _ _
    | with_reducible intro _ _ _
    | simp only [fst_ite]
    | simp only [snd_ite]
    | split
    | dsimp only)

theorem keeps_setMin {z0 : State} (s : State) (p : _) (o : _) (m : _)  (kz : Keeps z0 s) :
    Keeps z0 (setMin s p o m) := by
  unfold setMin
  repeat' (first
    | with_reducible assumption
    | with_reducible apply keeps_modPool
    | with_reducible apply keeps_ite
    | simp only [keeps_upd]
    | split
    | dsimp only)

theorem keeps_dropMinima {z0 : State} (s : State) (o : _)  (kz : Keeps z0 s) :
    Keeps z0 (dropMinima s o) := by
  unfold dropMinima
  repeat' (first
    | with_reducible assumption
    | with_reducible apply keeps_setMin
    | with_reducible apply keeps_ite
    | simp only [keeps_upd]
    | with_reducible apply keeps_foldl
    | with_reducible intro _ _ _ _
    | with_reducible intro _ _ _
    | simp only [fst_ite]
    | simp only [snd_ite]
    | split
    | dsimp only)

theorem keeps_freeOwner {z0 : State} (s : State) (o : _)  (kz : Keeps z0 s) :
    Keeps z0 (freeOwner s o) := by
  unfold freeOwner
  repeat' (first
    | with_reducible assumption
    | with_reducible apply keeps_giveBack
    | with_reducible apply keeps_ite
    | simp only [keeps_upd]
    | with_reducible apply keeps_foldl
    | with_reducible apply keeps_foldl1
    | with_reducible intro _ _ _ _
    | with_reducible intro _ _ _
    | simp only [fst_ite]
    | simp only [snd_ite]
    | split
    | dsimp only)

theorem keeps_releasePlan {z0 : State} (s : State) (i : _) (kz : Keeps z0 s) :
    Keeps z0 (releasePlan s i) := by
  unfold releasePlan
  repeat' (first
    | with_reducible assumption
    | with_reducible apply keeps_modPlan
    | with_reducible apply keeps_addR
    | with_reducible apply keeps_dropMinima
    | with_reducible apply keeps_freeOwner
    | with_reducible apply keeps_settleEntry
    | with_reducible apply keeps_foldl
    | with_reducible apply keeps_core
    | with_reducible apply keeps_removedTag
    | with_reducible apply keeps_ite
    | simp only [keeps_upd]
    | with_reducible apply keeps_foldl
    | with_reducible apply keeps_foldl1
    | with_reducible apply keeps_foldl2
    | exact fun _ h => h
    | exact fun _ _ => rfl
    | with_reducible intro _ _ _ _
    | with_reducible intro _ _ _
    | simp only [fst_ite]
    | simp only [snd_ite]
    | split
    | dsimp only
    | refine keeps_of_fst (by with_reducible assumption) ?_
    | refine keeps_of_snd (by with_reducible assumption) ?_)

theorem keeps_settlePlan {z0 : State} (s : State) (i : _) (kz : Keeps z0 s) :
    Keeps z0 (settlePlan s i) := by
  unfold settlePlan
  repeat' (first
    | with_reducible assumption
    | with_reducible apply keeps_releasePlan
    | with_reducible apply keeps_ite
    | simp only [keeps_upd]
    | with_reducible apply keeps_foldl
    | with_reducible apply keeps_foldl1
    | with_reducible apply keeps_foldl2
    | exact fun _ h => h
    | exact fun _ _ => rfl
    | with_reducible intro _ _ _ _
    | with_reducible intro _ _ _
    | simp only [fst_ite]
    | simp only [snd_ite]
    | split
    | dsimp only
    | refine keeps_of_fst (by with_reducible assumption) ?_
    | refine keeps_of_snd (by with_reducible assumption) ?_)

theorem keeps_refreshDark {z0 : State} (s : State) (k : _)  (kz : Keeps z0 s) :
    Keeps z0 (refreshDark s k) := by
  unfold refreshDark
  repeat' (first
    | with_reducible assumption
    | with_reducible apply keeps_putF
    | with_reducible apply keeps_ite
    | simp only [keeps_upd]
    | with_reducible apply keeps_foldl
    | with_reducible intro _ _ _ _
    | with_reducible intro _ _ _
    | simp only [fst_ite]
    | simp only [snd_ite]
    | split
    | dsimp only)

theorem keeps_putSh {z0 : State} (s : State) (f : _) (inst : _) (sel : _) (idx : _) (v : _)  (kz : Keeps z0 s) :
    Keeps z0 (putSh s f inst sel idx v) := by
  refine kz.trans ?_
  refine ⟨rfl, fun c => ⟨c.1, twf_tset _ _ _ _ c.2.1, c.2.2⟩⟩

theorem keeps_reqDom {z0 : State} (s : State) (d : _) (b : _)  (kz : Keeps z0 s) :
    Keeps z0 (reqDom s d b) := by
  unfold reqDom
  repeat' (first
    | with_reducible assumption
    | with_reducible apply keeps_putSh
    | with_reducible apply keeps_setX
    | with_reducible apply keeps_ite
    | simp only [keeps_upd]
    | split
    | dsimp only)

theorem keeps_modClu {z0 : State} (s : State) (k : _) (f : _) (hf : ∀ c, c.canon = true → (f c).canon = true) (kz : Keeps z0 s) :
    Keeps z0 (modClu s k f) := by
  refine kz.trans ?_
  refine ⟨rfl, fun c => ⟨c.1, c.2.1, c.2.2.1, fun i => ?_, c.2.2.2.2⟩⟩
  show (tget {} (tmod {} s.clus k f) i).canon = true
  unfold tmod
  rw [tget_tset]
  split
  · exact hf _ (c.2.2.2.1 k)
  · exact c.2.2.2.1 i

theorem keeps_loseBank {z0 : State} (s : State) (k : _) (p : _)  (kz : Keeps z0 s) :
    Keeps z0 (loseBank s k p) := by
  unfold loseBank
  refine keeps_modClu _ _ _ (fun c h => ?_) kz
  rw [CluS.canon_iff] at h ⊢
  have h1 := (Mem.wf_iff _).mp h
  exact (Mem.wf_iff _).mpr ⟨twf_tfilter 0 (fun a => decide (a / 2 ^ 21 ≠ p)) _ h1.1,
    twf_tfilter 0 (fun w => decide (w / 2 ^ 17 ≠ p)) _ h1.2⟩

theorem keeps_loseDomain {z0 : State} (s : State) (d : _)  (kz : Keeps z0 s) :
    Keeps z0 (loseDomain s d) := by
  unfold loseDomain
  split
  · exact keeps_setI _ _ _ _ (keeps_setTag _ _ _ _ (keeps_cores _ kz (fun h => canon_terase _ _ h)))
  · split
    · refine keeps_modClu _ _ _ (fun _ h => h) (keeps_loseBank _ _ _ kz)
    · repeat' (first
        | with_reducible assumption
        | simp only [keeps_upd]
        | exact keeps_hbm _ kz (fun _ => rfl)
        | split)

theorem keeps_setDom {z0 : State} (s : State) (d : _) (b : _)  (kz : Keeps z0 s) :
    Keeps z0 (setDom s d b) := by
  unfold setDom
  repeat' (first
    | with_reducible assumption
    | with_reducible apply keeps_setX
    | with_reducible apply keeps_ite
    | simp only [keeps_upd]
    | split
    | dsimp only)

theorem keeps_switchOff {z0 : State} (s : State) (d : _)  (kz : Keeps z0 s) :
    Keeps z0 (switchOff s d) := by
  unfold switchOff
  repeat' (first
    | with_reducible assumption
    | with_reducible apply keeps_reqDom
    | with_reducible apply keeps_loseDomain
    | with_reducible apply keeps_setDom
    | with_reducible apply keeps_ite
    | simp only [keeps_upd]
    | split
    | dsimp only)

theorem keeps_d3Settle {z0 : State} (s : State)  (kz : Keeps z0 s) :
    Keeps z0 (d3Settle s) := by
  unfold d3Settle
  repeat' (first
    | with_reducible assumption
    | with_reducible apply keeps_refreshDark
    | with_reducible apply keeps_switchOff
    | with_reducible apply keeps_ite
    | simp only [keeps_upd]
    | with_reducible apply keeps_foldl
    | with_reducible intro _ _ _ _
    | with_reducible intro _ _ _
    | simp only [fst_ite]
    | simp only [snd_ite]
    | split
    | dsimp only)

theorem keeps_cooperFree {z0 : State} (s : State) (h : _)  (kz : Keeps z0 s) :
    Keeps z0 (cooperFree s h) := by
  unfold cooperFree
  repeat' (first
    | with_reducible assumption
    | with_reducible apply keeps_giveBack
    | with_reducible apply keeps_addR
    | with_reducible apply keeps_ite
    | simp only [keeps_upd]
    | split
    | dsimp only)

theorem keeps_sweepPics {z0 : State} (s : State)  (kz : Keeps z0 s) :
    Keeps z0 (sweepPics s) := by
  unfold sweepPics
  repeat' (first
    | with_reducible assumption
    | with_reducible apply keeps_cooperFree
    | with_reducible apply keeps_ite
    | simp only [keeps_upd]
    | with_reducible apply keeps_foldl
    | with_reducible intro _ _ _ _
    | with_reducible intro _ _ _
    | simp only [fst_ite]
    | simp only [snd_ite]
    | split
    | dsimp only)

theorem keeps_releaseItem {z0 : State} (s : State) (it : _) (status : _) (keep : _)  (kz : Keeps z0 s) :
    Keeps z0 (releaseItem s it status keep) := by
  unfold releaseItem
  repeat' (first
    | with_reducible assumption
    | with_reducible apply keeps_freeCores
    | with_reducible apply keeps_countSickle
    | with_reducible apply keeps_dropCtxs
    | with_reducible apply keeps_freeItem
    | with_reducible apply keeps_settlePlan
    | with_reducible apply keeps_modPlan
    | with_reducible apply keeps_d3Settle
    | with_reducible apply keeps_sweepPics
    | with_reducible apply keeps_ite
    | simp only [keeps_upd]
    | split
    | dsimp only)

theorem keeps_closeItem {z0 : State} (s : State) (k : _) (status : _) (reason : _) (dims : _) (keep : _)  (kz : Keeps z0 s) :
    Keeps z0 (closeItem s k status reason dims keep) := by
  unfold closeItem
  repeat' (first
    | with_reducible assumption
    | with_reducible apply keeps_pushJob
    | with_reducible apply keeps_countEnd
    | with_reducible apply keeps_addR
    | with_reducible apply keeps_releaseItem
    | with_reducible apply keeps_ite
    | simp only [keeps_upd]
    | split
    | dsimp only)

theorem keeps_settleItems {z0 : State} (a0 : _) (a1 : State)  (kz : Keeps z0 a1) :
    Keeps z0 (settleItems a0 a1) := by
  induction a0 generalizing z0 a1 with
  | zero => 
    unfold settleItems
    repeat' (first
    | with_reducible assumption
    | with_reducible apply keeps_closeItem
    | with_reducible apply keeps_ite
    | simp only [keeps_upd]
    | split
    | dsimp only)
  | succ _ ih =>
    unfold settleItems
    repeat' (first
    | with_reducible assumption
    | with_reducible apply keeps_closeItem
    | with_reducible apply ih
    | with_reducible apply keeps_ite
    | simp only [keeps_upd]
    | split
    | dsimp only)

theorem keeps_settle {z0 : State} (s : State)  (kz : Keeps z0 s) :
    Keeps z0 (settle s) := by
  unfold settle
  repeat' (first
    | with_reducible assumption
    | with_reducible apply keeps_settleItems
    | with_reducible apply keeps_ite
    | simp only [keeps_upd]
    | split
    | dsimp only)

theorem keeps_endItemWith {z0 : State} (s : State) (k : _) (status : _) (reason : _) (dims : _) (keep : _)  (kz : Keeps z0 s) :
    Keeps z0 (endItemWith s k status reason dims keep) := by
  unfold endItemWith
  repeat' (first
    | with_reducible assumption
    | with_reducible apply keeps_settle
    | with_reducible apply keeps_closeItem
    | with_reducible apply keeps_ite
    | simp only [keeps_upd]
    | split
    | dsimp only)

theorem keeps_endItem {z0 : State} (s : State) (k : _) (status : _)  (kz : Keeps z0 s) :
    Keeps z0 (endItem s k status) := by
  unfold endItem
  repeat' (first
    | with_reducible assumption
    | with_reducible apply keeps_endItemWith
    | with_reducible apply keeps_ite
    | simp only [keeps_upd]
    | split
    | dsimp only)

theorem keeps_failItems {z0 : State} (s : State) (ks : _) (status : _) (again : _) (kz : Keeps z0 s) :
    Keeps z0 (failItems s ks status again) := by
  unfold failItems
  repeat' (first
    | with_reducible assumption
    | with_reducible apply keeps_endItemWith
    | with_reducible apply keeps_modItem
    | with_reducible apply keeps_endItem
    | with_reducible apply keeps_ite
    | simp only [keeps_upd]
    | with_reducible apply keeps_foldl
    | with_reducible intro _ _ _ _
    | with_reducible intro _ _ _
    | simp only [fst_ite]
    | simp only [snd_ite]
    | split
    | dsimp only)

theorem keeps_fjPush {z0 : State} (s : State) (e : _)  (kz : Keeps z0 s) :
    Keeps z0 (fjPush s e) := by
  unfold fjPush
  repeat' (first
    | with_reducible assumption
    | with_reducible apply keeps_addR
    | with_reducible apply keeps_ite
    | simp only [keeps_upd]
    | split
    | dsimp only)

theorem keeps_saf {z0 : State} (s : State) (code : _) (sev : _) (kind : _) (unit : _) (plan : _) (detail : _) (items : _) (src : _)  (kz : Keeps z0 s) :
    Keeps z0 (saf s code sev kind unit plan detail items src) := by
  unfold saf
  repeat' (first
    | with_reducible assumption
    | with_reducible apply keeps_fjPush
    | with_reducible apply keeps_pushRec
    | with_reducible apply keeps_ite
    | simp only [keeps_upd]
    | split
    | dsimp only)

theorem keeps_startCore {z0 : State} (s : State) (p : _) (it : _) (r : _) (l : _)  (kz : Keeps z0 s) :
    Keeps z0 (startCore s p it r l) := by
  unfold startCore
  repeat' (first
    | with_reducible assumption
    | with_reducible apply keeps_modCore
    | with_reducible apply keeps_setI
    | with_reducible apply keeps_ite
    | simp only [keeps_upd]
    | exact fun _ h => h
    | split
    | dsimp only)

theorem keeps_launchItem {z0 : State} (s : State) (k : _) (ls : _) (l : _)  (kz : Keeps z0 s) :
    Keeps z0 (launchItem s k ls l) := by
  unfold launchItem
  repeat' (first
    | with_reducible assumption
    | with_reducible apply keeps_modItem
    | with_reducible apply keeps_modPlan
    | with_reducible apply keeps_addR
    | with_reducible apply keeps_addS
    | with_reducible apply keeps_startCore
    | with_reducible apply keeps_ite
    | simp only [keeps_upd]
    | with_reducible apply keeps_foldl
    | with_reducible apply keeps_foldl1
    | with_reducible intro _ _ _ _
    | with_reducible intro _ _ _
    | simp only [fst_ite]
    | simp only [snd_ite]
    | split
    | dsimp only)

theorem keeps_safNow {z0 : State} (s : State) (code : _) (sev : _) (kind : _) (unit : _) (plan : _) (detail : _) (items : _)  (kz : Keeps z0 s) :
    Keeps z0 (safNow s code sev kind unit plan detail items) := by
  unfold safNow
  repeat' (first
    | with_reducible assumption
    | with_reducible apply keeps_saf
    | with_reducible apply keeps_ite
    | simp only [keeps_upd]
    | split
    | dsimp only)

theorem keeps_fresh {z0 : State} (s : State)  (kz : Keeps z0 s) :
    Keeps z0 (fresh s).2 := by
  unfold fresh
  repeat' (first
    | with_reducible assumption
    | with_reducible apply keeps_ite
    | simp only [keeps_upd]
    | simp only [fst_ite]
    | simp only [snd_ite]
    | split
    | dsimp only)

theorem keeps_relaunchSkipped {z0 : State} (s : State) (it : _)  (kz : Keeps z0 s) :
    Keeps z0 (relaunchSkipped s it) := by
  unfold relaunchSkipped
  repeat' (first
    | with_reducible assumption
    | with_reducible apply keeps_saf
    | with_reducible apply keeps_fresh
    | with_reducible apply keeps_ite
    | simp only [keeps_upd]
    | simp only [fst_ite]
    | simp only [snd_ite]
    | split
    | dsimp only)

theorem keeps_relaunch {z0 : State} (s : State) (it : _) (r : _)  (kz : Keeps z0 s) :
    Keeps z0 (relaunch s it r) := by
  unfold relaunch
  repeat' (first
    | with_reducible assumption
    | with_reducible apply keeps_addItem
    | with_reducible apply keeps_launchItem
    | with_reducible apply keeps_sweepPics
    | with_reducible apply keeps_freeItem
    | with_reducible apply keeps_relaunchSkipped
    | with_reducible apply keeps_ite
    | simp only [keeps_upd]
    | split
    | dsimp only)

theorem keeps_skipAll {z0 : State} (s : State) (l : _)  (kz : Keeps z0 s) :
    Keeps z0 (skipAll s l) := by
  unfold skipAll
  exact keeps_foldl _ _ _ (fun _ _ _ h => keeps_relaunchSkipped _ _ h) kz

theorem keeps_relaunchAll {z0 : State} (s : State) (l : _) (r : _)  (kz : Keeps z0 s) :
    Keeps z0 (relaunchAll s l r) := by
  unfold relaunchAll
  repeat' (first
    | with_reducible assumption
    | with_reducible apply keeps_relaunch
    | with_reducible apply keeps_ite
    | simp only [keeps_upd]
    | with_reducible apply keeps_foldl
    | with_reducible intro _ _ _ _
    | with_reducible intro _ _ _
    | simp only [fst_ite]
    | simp only [snd_ite]
    | split
    | dsimp only)

theorem keeps_memoryFault {z0 : State} (s : State) (kind : _) (unit : _) (addr : _) (poison : _) (decPoison : _) (ps : _) (ks : _)  (kz : Keeps z0 s) :
    Keeps z0 (memoryFault s kind unit addr poison decPoison ps ks) := by
  unfold memoryFault
  repeat' (first
    | with_reducible assumption
    | with_reducible apply keeps_skipAll
    | with_reducible apply keeps_failItems
    | with_reducible apply keeps_saf
    | with_reducible apply keeps_relaunchAll
    | with_reducible apply keeps_clearTag
    | with_reducible apply keeps_ite
    | simp only [keeps_upd]
    | with_reducible apply keeps_foldl
    | with_reducible intro _ _ _ _
    | with_reducible intro _ _ _
    | simp only [fst_ite]
    | simp only [snd_ite]
    | split
    | dsimp only)

theorem keeps_darkFault {z0 : State} (s : State) (k : _) (b : _) (ks : _)  (kz : Keeps z0 s) :
    Keeps z0 (darkFault s k b ks) := by
  unfold darkFault
  repeat' (first
    | with_reducible assumption
    | with_reducible apply keeps_saf
    | with_reducible apply keeps_failItems
    | with_reducible apply keeps_ite
    | simp only [keeps_upd]
    | split
    | dsimp only)

theorem keeps_hbmFault {z0 : State} (s : State) (a : _) (poison : _) (dec : _) (item : _) (kz : Keeps z0 s) :
    Keeps z0 (hbmFault s a poison dec item) := by
  unfold hbmFault
  repeat' (first
    | with_reducible assumption
    | with_reducible apply keeps_memoryFault
    | with_reducible apply keeps_ite
    | simp only [keeps_upd]
    | with_reducible apply keeps_foldl
    | with_reducible apply keeps_foldl1
    | with_reducible apply keeps_foldl2
    | with_reducible intro _ _ _ _
    | with_reducible intro _ _ _
    | simp only [fst_ite]
    | simp only [snd_ite]
    | split
    | dsimp only
    | refine keeps_of_fst (by with_reducible assumption) ?_
    | refine keeps_of_snd (by with_reducible assumption) ?_)

theorem keeps_afterBins {z0 : State} (s : State) (p : _) (k : _) (i : _) (kz : Keeps z0 s) :
    Keeps z0 (afterBins s p k i).1 := by
  unfold afterBins
  repeat' (first
    | with_reducible assumption
    | with_reducible apply keeps_flagItem
    | with_reducible apply keeps_darkFault
    | with_reducible apply keeps_hbmFault
    | with_reducible apply keeps_memoryFault
    | with_reducible apply keeps_ite
    | simp only [keeps_upd]
    | with_reducible apply keeps_foldl
    | with_reducible apply keeps_foldl1
    | with_reducible apply keeps_foldl2
    | exact fun _ h => h
    | exact fun _ _ => rfl
    | with_reducible intro _ _ _ _
    | with_reducible intro _ _ _
    | simp only [fst_ite]
    | simp only [snd_ite]
    | split
    | dsimp only
    | refine keeps_of_fst (by with_reducible assumption) ?_
    | refine keeps_of_snd (by with_reducible assumption) ?_)

theorem keeps_afterGran {z0 : State} (s : State) (p : _) (k : _) (c : _) (g : _) (n : _) (r : _) (kz : Keeps z0 s) :
    Keeps z0 (afterGran s p k c g n r).1 := by
  unfold afterGran
  repeat' (first
    | with_reducible assumption
    | with_reducible apply keeps_darkFault
    | with_reducible apply keeps_hbmFault
    | with_reducible apply keeps_memoryFault
    | with_reducible apply keeps_modItem
    | with_reducible apply keeps_ite
    | simp only [keeps_upd]
    | with_reducible apply keeps_foldl
    | with_reducible apply keeps_foldl1
    | with_reducible apply keeps_foldl2
    | exact fun _ h => h
    | exact fun _ _ => rfl
    | with_reducible intro _ _ _ _
    | with_reducible intro _ _ _
    | simp only [fst_ite]
    | simp only [snd_ite]
    | split
    | dsimp only
    | refine keeps_of_fst (by with_reducible assumption) ?_
    | refine keeps_of_snd (by with_reducible assumption) ?_)

theorem keeps_nameWrites {z0 : State} (s : State) (k : _) (key : _) (kz : Keeps z0 s) :
    Keeps z0 (nameWrites s k key) := by
  unfold nameWrites
  repeat' (first
    | with_reducible assumption
    | with_reducible apply keeps_modClu
    | with_reducible apply keeps_ite
    | simp only [keeps_upd]
    | with_reducible apply keeps_foldl
    | with_reducible apply keeps_foldl1
    | with_reducible apply keeps_foldl2
    | exact fun _ h => h
    | exact fun _ _ => rfl
    | with_reducible intro _ _ _ _
    | with_reducible intro _ _ _
    | simp only [fst_ite]
    | simp only [snd_ite]
    | split
    | dsimp only
    | refine keeps_of_fst (by with_reducible assumption) ?_
    | refine keeps_of_snd (by with_reducible assumption) ?_)

theorem keeps_afterPut {z0 : State} (s0 : State) (k : _) (clu : _) (sp : _) (n : _) (dropped : _) (late : _) (kz : Keeps z0 s0) :
    Keeps z0 (afterPut s0 k clu sp n dropped late) := by
  unfold afterPut
  repeat' (first
    | with_reducible assumption
    | with_reducible apply keeps_nameWrites
    | with_reducible apply keeps_clu
    | with_reducible apply keeps_darkFault
    | with_reducible apply keeps_modItem
    | with_reducible apply keeps_ite
    | simp only [keeps_upd]
    | with_reducible apply keeps_foldl
    | with_reducible apply keeps_foldl1
    | with_reducible apply keeps_foldl2
    | exact fun _ h => h
    | exact fun _ _ => rfl
    | with_reducible intro _ _ _ _
    | with_reducible intro _ _ _
    | simp only [fst_ite]
    | simp only [snd_ite]
    | split
    | dsimp only
    | refine keeps_of_fst (by with_reducible assumption) ?_
    | refine keeps_of_snd (by with_reducible assumption) ?_)

theorem keeps_driveAlert {z0 : State} (s : State) (rises : _)  (kz : Keeps z0 s) :
    Keeps z0 (driveAlert s rises) := by
  unfold driveAlert
  repeat' (first
    | with_reducible assumption
    | with_reducible apply keeps_ite
    | simp only [keeps_upd]
    | split
    | dsimp only)

theorem keeps_driveFault {z0 : State} (s : State)  (kz : Keeps z0 s) :
    Keeps z0 (driveFault s) := by
  unfold driveFault
  repeat' (first
    | with_reducible assumption
    | with_reducible apply keeps_driveAlert
    | with_reducible apply keeps_setR
    | with_reducible apply keeps_ite
    | simp only [keeps_upd]
    | split
    | dsimp only)

theorem keeps_latchFault {z0 : State} (s : State) (f : _)  (kz : Keeps z0 s) :
    Keeps z0 (latchFault s f) := by
  unfold latchFault
  repeat' (first
    | with_reducible assumption
    | with_reducible apply keeps_driveFault
    | with_reducible apply keeps_setR
    | with_reducible apply keeps_ite
    | simp only [keeps_upd]
    | split
    | dsimp only)

theorem keeps_endItems {z0 : State} (s : State) (p : _) (status : _)  (kz : Keeps z0 s) :
    Keeps z0 (endItems s p status) := by
  unfold endItems
  repeat' (first
    | with_reducible assumption
    | with_reducible apply keeps_settle
    | with_reducible apply keeps_closeItem
    | with_reducible apply keeps_ite
    | simp only [keeps_upd]
    | with_reducible apply keeps_foldl
    | with_reducible intro _ _ _ _
    | with_reducible intro _ _ _
    | simp only [fst_ite]
    | simp only [snd_ite]
    | split
    | dsimp only)

theorem keeps_setPhase {z0 : State} (s : State) (p : _)  (kz : Keeps z0 s) :
    Keeps z0 (setPhase s p) := by
  unfold setPhase
  repeat' (first
    | with_reducible assumption
    | with_reducible apply keeps_driveFault
    | with_reducible apply keeps_setR
    | with_reducible apply keeps_ite
    | simp only [keeps_upd]
    | split
    | dsimp only)

theorem keeps_enterSafe {z0 : State} (s : State) (kz : Keeps z0 s) :
    Keeps z0 (enterSafe s) := by
  unfold enterSafe
  repeat' (first
    | with_reducible assumption
    | with_reducible apply keeps_fresh
    | with_reducible apply keeps_foldl
    | with_reducible apply keeps_closeItem
    | with_reducible apply keeps_endItems
    | with_reducible apply keeps_setR
    | with_reducible apply keeps_setPhase
    | with_reducible apply keeps_latchFault
    | with_reducible apply keeps_safNow
    | with_reducible apply keeps_ite
    | simp only [keeps_upd]
    | with_reducible apply keeps_foldl
    | with_reducible apply keeps_foldl1
    | with_reducible apply keeps_foldl2
    | exact fun _ h => h
    | exact fun _ _ => rfl
    | with_reducible intro _ _ _ _
    | with_reducible intro _ _ _
    | simp only [fst_ite]
    | simp only [snd_ite]
    | split
    | dsimp only
    | refine keeps_of_fst (by with_reducible assumption) ?_
    | refine keeps_of_snd (by with_reducible assumption) ?_)

theorem keeps_breach {z0 : State} (s : State) (p : _) (code : _) (detail : _) (src : _) (cnt : _)  (kz : Keeps z0 s) :
    Keeps z0 (breach s p code detail src cnt) := by
  unfold breach
  repeat' (first
    | with_reducible assumption
    | with_reducible apply keeps_saf
    | with_reducible apply keeps_addR
    | with_reducible apply keeps_setR
    | with_reducible apply keeps_latchFault
    | with_reducible apply keeps_enterSafe
    | with_reducible apply keeps_ite
    | simp only [keeps_upd]
    | split
    | dsimp only)

theorem keeps_reeveResult {z0 : State} (s : State) (plan : _) (src : _)  (kz : Keeps z0 s) :
    Keeps z0 (reeveResult s plan src) := by
  unfold reeveResult
  repeat' (first
    | with_reducible assumption
    | with_reducible apply keeps_putF
    | with_reducible apply keeps_addR
    | with_reducible apply keeps_breach
    | with_reducible apply keeps_ite
    | simp only [keeps_upd]
    | with_reducible apply keeps_foldl
    | with_reducible intro _ _ _ _
    | with_reducible intro _ _ _
    | simp only [fst_ite]
    | simp only [snd_ite]
    | split
    | dsimp only)

theorem keeps_wake {z0 : State} (s : State)  (kz : Keeps z0 s) :
    Keeps z0 (wake s) := by
  unfold wake
  repeat' (first
    | with_reducible assumption
    | with_reducible apply keeps_addR
    | with_reducible apply keeps_emit
    | with_reducible apply keeps_setR
    | with_reducible apply keeps_ite
    | simp only [keeps_upd]
    | split
    | dsimp only)

theorem keeps_afterTake {z0 : State} (s : State) (r : _)  (kz : Keeps z0 s) :
    Keeps z0 (afterTake s r) := by
  unfold afterTake
  repeat' (first
    | with_reducible assumption
    | with_reducible apply keeps_reeveResult
    | with_reducible apply keeps_wake
    | with_reducible apply keeps_ite
    | simp only [keeps_upd]
    | split
    | dsimp only)

theorem keeps_ageDecoded {z0 : State} (s : State) (n : _)  (kz : Keeps z0 s) :
    Keeps z0 (ageDecoded s n) := by
  unfold ageDecoded
  repeat' (first
    | with_reducible assumption
    | with_reducible apply keeps_sweepPics
    | with_reducible apply keeps_ite
    | simp only [keeps_upd]
    | split
    | dsimp only)

theorem keeps_ageLive {z0 : State} (s : State) (p : _)  (kz : Keeps z0 s) :
    Keeps z0 (ageLive s p) := by
  unfold ageLive
  repeat' (first
    | with_reducible assumption
    | with_reducible apply keeps_sweepPics
    | with_reducible apply keeps_ite
    | simp only [keeps_upd]
    | split
    | dsimp only)

theorem keeps_setSpare {z0 : State} (s : State) (k : _) (p : _) (st : _)  (kz : Keeps z0 s) :
    Keeps z0 (setSpare s k p st) := by
  unfold setSpare
  repeat' (first
    | with_reducible assumption
    | with_reducible apply keeps_putF
    | with_reducible apply keeps_ite
    | simp only [keeps_upd]
    | split
    | dsimp only)

theorem keeps_sysApplied {z0 : State} (c : State)  (kz : Keeps z0 c) :
    Keeps z0 (sysApplied c) := by
  unfold sysApplied
  repeat' (first
    | with_reducible assumption
    | with_reducible apply keeps_putF
    | with_reducible apply keeps_setI
    | with_reducible apply keeps_setSpare
    | with_reducible apply keeps_addR
    | with_reducible apply keeps_ite
    | simp only [keeps_upd]
    | with_reducible apply keeps_foldl
    | with_reducible intro _ _ _ _
    | with_reducible intro _ _ _
    | simp only [fst_ite]
    | simp only [snd_ite]
    | split
    | dsimp only)

theorem keeps_tallyApplied {z0 : State} (s : _) (c : State)  (kz : Keeps z0 c) :
    Keeps z0 (tallyApplied s c) := by
  unfold tallyApplied
  repeat' (first
    | with_reducible assumption
    | with_reducible apply keeps_setR
    | with_reducible apply keeps_ite
    | simp only [keeps_upd]
    | split
    | dsimp only)

theorem keeps_writeCidx {z0 : State} (s : State)  (kz : Keeps z0 s) :
    Keeps z0 (writeCidx s) := by
  unfold writeCidx
  repeat' (first
    | with_reducible assumption
    | with_reducible apply keeps_hostWrite
    | with_reducible apply keeps_ite
    | simp only [keeps_upd]
    | split
    | dsimp only)

theorem keeps_startLease {z0 : State} (s : State)  (kz : Keeps z0 s) :
    Keeps z0 (startLease s) := by
  unfold startLease
  repeat' (first
    | with_reducible assumption
    | with_reducible apply keeps_setR
    | with_reducible apply keeps_ite
    | simp only [keeps_upd]
    | split
    | dsimp only)

theorem keeps_dropReads {z0 : State} (s : State) (p : _)  (kz : Keeps z0 s) :
    Keeps z0 (dropReads s p) := by
  unfold dropReads
  repeat' (first
    | with_reducible assumption
    | with_reducible apply keeps_ite
    | simp only [keeps_upd]
    | split
    | dsimp only)

theorem keeps_endPoll {z0 : State} (s : State)  (kz : Keeps z0 s) :
    Keeps z0 (endPoll s) := by
  unfold endPoll
  repeat' (first
    | with_reducible assumption
    | with_reducible apply keeps_dropReads
    | with_reducible apply keeps_ite
    | simp only [keeps_upd]
    | split
    | dsimp only)

theorem keeps_stopLedger {z0 : State} (s : State)  (kz : Keeps z0 s) :
    Keeps z0 (stopLedger s) := by
  unfold stopLedger
  repeat' (first
    | with_reducible assumption
    | with_reducible apply keeps_setR
    | with_reducible apply keeps_endPoll
    | with_reducible apply keeps_dropReads
    | with_reducible apply keeps_ite
    | simp only [keeps_upd]
    | split
    | dsimp only)

theorem keeps_dispApplied {z0 : State} (s : _) (c : State)  (kz : Keeps z0 c) :
    Keeps z0 (dispApplied s c) := by
  unfold dispApplied
  repeat' (first
    | with_reducible assumption
    | with_reducible apply keeps_writeCidx
    | with_reducible apply keeps_startLease
    | with_reducible apply keeps_stopLedger
    | with_reducible apply keeps_ite
    | simp only [keeps_upd]
    | split
    | dsimp only)

theorem keeps_enablePool {z0 : State} (s : State) (p : _)  (kz : Keeps z0 s) :
    Keeps z0 (enablePool s p) := by
  unfold enablePool
  repeat' (first
    | with_reducible assumption
    | with_reducible apply keeps_setS
    | with_reducible apply keeps_putHead
    | with_reducible apply keeps_hbmPut
    | with_reducible apply keeps_ite
    | simp only [keeps_upd]
    | with_reducible apply keeps_foldl
    | with_reducible intro _ _ _ _
    | with_reducible intro _ _ _
    | simp only [fst_ite]
    | simp only [snd_ite]
    | split
    | dsimp only)

theorem keeps_cooperApplied {z0 : State} (s : _) (c : State) (p : _)  (kz : Keeps z0 c) :
    Keeps z0 (cooperApplied s c p) := by
  unfold cooperApplied
  repeat' (first
    | with_reducible assumption
    | with_reducible apply keeps_enablePool
    | with_reducible apply keeps_ite
    | simp only [keeps_upd]
    | split
    | dsimp only)

theorem keeps_reeveApplied {z0 : State} (s : _) (c : State) (p : _)  (kz : Keeps z0 c) :
    Keeps z0 (reeveApplied s c p) := by
  unfold reeveApplied
  repeat' (first
    | with_reducible assumption
    | with_reducible apply keeps_ite
    | simp only [keeps_upd]
    | split
    | dsimp only)

theorem keeps_closeSwitch {z0 : State} (s : State) (d : _)  (kz : Keeps z0 s) :
    Keeps z0 (closeSwitch s d) := by
  unfold closeSwitch
  repeat' (first
    | with_reducible assumption
    | with_reducible apply keeps_addR
    | with_reducible apply keeps_ite
    | simp only [keeps_upd]
    | split
    | dsimp only)

theorem keeps_switchOn {z0 : State} (s : State) (d : _)  (kz : Keeps z0 s) :
    Keeps z0 (switchOn s d) := by
  unfold switchOn
  repeat' (first
    | with_reducible assumption
    | with_reducible apply keeps_reqDom
    | with_reducible apply keeps_closeSwitch
    | with_reducible apply keeps_ite
    | simp only [keeps_upd]
    | split
    | dsimp only)

theorem keeps_pwrApplied {z0 : State} (s : _) (c : State)  (kz : Keeps z0 c) :
    Keeps z0 (pwrApplied s c) := by
  unfold pwrApplied
  repeat' (first
    | with_reducible assumption
    | with_reducible apply keeps_switchOff
    | with_reducible apply keeps_switchOn
    | with_reducible apply keeps_ite
    | simp only [keeps_upd]
    | with_reducible apply keeps_foldl
    | with_reducible intro _ _ _ _
    | with_reducible intro _ _ _
    | simp only [fst_ite]
    | simp only [snd_ite]
    | split
    | dsimp only)

theorem keeps_modSlot {z0 : State} (s : State) (n : _) (f : _)  (kz : Keeps z0 s) :
    Keeps z0 (modSlot s n f) := by
  unfold modSlot
  repeat' (first
    | with_reducible assumption
    | with_reducible apply keeps_ite
    | simp only [keeps_upd]
    | split
    | dsimp only)

theorem keeps_modTrkSlot {z0 : State} (s : State) (n : _) (f : _)  (kz : Keeps z0 s) :
    Keeps z0 (modTrkSlot s n f) := by
  unfold modTrkSlot
  repeat' (first
    | with_reducible assumption
    | with_reducible apply keeps_ite
    | simp only [keeps_upd]
    | split
    | dsimp only)

theorem keeps_refreshTrk {z0 : State} (s : State) (n : _)  (kz : Keeps z0 s) :
    Keeps z0 (refreshTrk s n) := by
  unfold refreshTrk
  repeat' (first
    | with_reducible assumption
    | with_reducible apply keeps_setS
    | with_reducible apply keeps_setR
    | with_reducible apply keeps_ite
    | simp only [keeps_upd]
    | split
    | dsimp only)

theorem keeps_freeTrack {z0 : State} (s : State) (e : _)  (kz : Keeps z0 s) :
    Keeps z0 (freeTrack s e) := by
  unfold freeTrack
  repeat' (first
    | with_reducible assumption
    | with_reducible apply keeps_ite
    | simp only [keeps_upd]
    | split
    | dsimp only)

theorem keeps_evtTrack {z0 : State} (s : State) (slot : _) (src : _) (kind : _) (detail : _) (id : _) (a : _) (b : _)  (kz : Keeps z0 s) :
    Keeps z0 (evtTrack s slot src kind detail id a b) := by
  unfold evtTrack
  repeat' (first
    | with_reducible assumption
    | with_reducible apply keeps_pushRec
    | with_reducible apply keeps_ite
    | simp only [keeps_upd]
    | split
    | dsimp only)

theorem keeps_retireAll {z0 : State} (s : State) (n : _)  (kz : Keeps z0 s) :
    Keeps z0 (retireAll s n) := by
  unfold retireAll
  repeat' (first
    | with_reducible assumption
    | with_reducible apply keeps_refreshTrk
    | with_reducible apply keeps_addR
    | with_reducible apply keeps_freeTrack
    | with_reducible apply keeps_evtTrack
    | with_reducible apply keeps_ite
    | simp only [keeps_upd]
    | with_reducible apply keeps_foldl
    | with_reducible apply keeps_foldl1
    | with_reducible intro _ _ _ _
    | with_reducible intro _ _ _
    | simp only [fst_ite]
    | simp only [snd_ite]
    | split
    | dsimp only)

theorem keeps_closeTracks {z0 : State} (s : State) (n : _)  (kz : Keeps z0 s) :
    Keeps z0 (closeTracks s n) := by
  unfold closeTracks
  repeat' (first
    | with_reducible assumption
    | with_reducible apply keeps_addR
    | with_reducible apply keeps_modTrkSlot
    | with_reducible apply keeps_retireAll
    | with_reducible apply keeps_ite
    | simp only [keeps_upd]
    | split
    | dsimp only)

theorem keeps_refreshLoad {z0 : State} (s : State)  (kz : Keeps z0 s) :
    Keeps z0 (refreshLoad s) := by
  unfold refreshLoad
  repeat' (first
    | with_reducible assumption
    | with_reducible apply keeps_setR
    | with_reducible apply keeps_ite
    | simp only [keeps_upd]
    | split
    | dsimp only)

theorem keeps_pushPic {z0 : State} (s : State) (slot : _) (head : _) (user : _)  (kz : Keeps z0 s) :
    Keeps z0 (pushPic s slot head user) := by
  unfold pushPic
  repeat' (first
    | with_reducible assumption
    | with_reducible apply keeps_pushRec
    | with_reducible apply keeps_ite
    | simp only [keeps_upd]
    | split
    | dsimp only)

theorem keeps_flushFrame {z0 : State} (s : State) (n : _) (kz : Keeps z0 s) :
    Keeps z0 (flushFrame s n) := by
  unfold flushFrame
  repeat' (first
    | with_reducible assumption
    | with_reducible apply keeps_pushPic
    | with_reducible apply keeps_ite
    | simp only [keeps_upd]
    | with_reducible apply keeps_foldl
    | with_reducible apply keeps_foldl1
    | with_reducible apply keeps_foldl2
    | with_reducible intro _ _ _ _
    | with_reducible intro _ _ _
    | simp only [fst_ite]
    | simp only [snd_ite]
    | split
    | dsimp only
    | refine keeps_of_fst (by with_reducible assumption) ?_
    | refine keeps_of_snd (by with_reducible assumption) ?_)

theorem keeps_flushPics {z0 : State} (s : State) (n : _) (kz : Keeps z0 s) :
    Keeps z0 (flushPics s n) := by
  unfold flushPics
  repeat' (first
    | with_reducible assumption
    | with_reducible apply keeps_foldl
    | with_reducible apply keeps_pushPic
    | with_reducible apply keeps_ite
    | simp only [keeps_upd]
    | with_reducible apply keeps_foldl
    | with_reducible apply keeps_foldl1
    | with_reducible apply keeps_foldl2
    | with_reducible intro _ _ _ _
    | with_reducible intro _ _ _
    | simp only [fst_ite]
    | simp only [snd_ite]
    | split
    | dsimp only
    | refine keeps_of_fst (by with_reducible assumption) ?_
    | refine keeps_of_snd (by with_reducible assumption) ?_)

theorem keeps_finishClose {z0 : State} (s : State) (n : _) (kz : Keeps z0 s) :
    Keeps z0 (finishClose s n) := by
  unfold finishClose
  repeat' (first
    | with_reducible assumption
    | with_reducible apply keeps_flushFrame
    | with_reducible apply keeps_flushPics
    | with_reducible apply keeps_closeTracks
    | with_reducible apply keeps_dropMinima
    | with_reducible apply keeps_freeOwner
    | with_reducible apply keeps_settle
    | with_reducible apply keeps_refreshLoad
    | with_reducible apply keeps_setS
    | with_reducible apply keeps_ite
    | simp only [keeps_upd]
    | with_reducible apply keeps_foldl
    | with_reducible apply keeps_foldl1
    | with_reducible apply keeps_foldl2
    | with_reducible intro _ _ _ _
    | with_reducible intro _ _ _
    | simp only [fst_ite]
    | simp only [snd_ite]
    | split
    | dsimp only
    | refine keeps_of_fst (by with_reducible assumption) ?_
    | refine keeps_of_snd (by with_reducible assumption) ?_)

theorem keeps_putBoth {z0 : State} (s : State) (f : _) (inst : _) (sel : _) (idx : _) (v : _)  (kz : Keeps z0 s) :
    Keeps z0 (putBoth s f inst sel idx v) := by
  unfold putBoth
  repeat' (first
    | with_reducible assumption
    | with_reducible apply keeps_putSh
    | with_reducible apply keeps_putF
    | with_reducible apply keeps_ite
    | simp only [keeps_upd]
    | split
    | dsimp only)

theorem keeps_stopEncoder {z0 : State} (s : State) (i : _)  (kz : Keeps z0 s) :
    Keeps z0 (stopEncoder s i) := by
  unfold stopEncoder
  repeat' (first
    | with_reducible assumption
    | with_reducible apply keeps_addI
    | with_reducible apply keeps_putBoth
    | with_reducible apply keeps_ite
    | simp only [keeps_upd]
    | split
    | dsimp only)

theorem keeps_stopEncoders {z0 : State} (s : State) (p : _)  (kz : Keeps z0 s) :
    Keeps z0 (stopEncoders s p) := by
  unfold stopEncoders
  repeat' (first
    | with_reducible assumption
    | with_reducible apply keeps_stopEncoder
    | with_reducible apply keeps_ite
    | simp only [keeps_upd]
    | with_reducible apply keeps_foldl
    | with_reducible intro _ _ _ _
    | with_reducible intro _ _ _
    | simp only [fst_ite]
    | simp only [snd_ite]
    | split
    | dsimp only)

theorem keeps_closeSlot {z0 : State} (s : State) (n : _) (kz : Keeps z0 s) :
    Keeps z0 (closeSlot s n) := by
  unfold closeSlot
  repeat' (first
    | with_reducible assumption
    | with_reducible apply keeps_dropReads
    | with_reducible apply keeps_stopEncoders
    | with_reducible apply keeps_setS
    | with_reducible apply keeps_modSlot
    | with_reducible apply keeps_finishClose
    | with_reducible apply keeps_ite
    | simp only [keeps_upd]
    | with_reducible apply keeps_foldl
    | with_reducible apply keeps_foldl1
    | with_reducible apply keeps_foldl2
    | exact fun _ h => h
    | exact fun _ _ => rfl
    | with_reducible intro _ _ _ _
    | with_reducible intro _ _ _
    | simp only [fst_ite]
    | simp only [snd_ite]
    | split
    | dsimp only
    | refine keeps_of_fst (by with_reducible assumption) ?_
    | refine keeps_of_snd (by with_reducible assumption) ?_)

theorem keeps_intakeApplied {z0 : State} (c : State) (n : _)  (kz : Keeps z0 c) :
    Keeps z0 (intakeApplied c n) := by
  unfold intakeApplied
  repeat' (first
    | with_reducible assumption
    | with_reducible apply keeps_closeSlot
    | with_reducible apply keeps_setMin
    | with_reducible apply keeps_modSlot
    | with_reducible apply keeps_refreshLoad
    | with_reducible apply keeps_setS
    | with_reducible apply keeps_ite
    | simp only [keeps_upd]
    | split
    | dsimp only)

theorem keeps_enableRing {z0 : State} (s : State) (k : _) (kz : Keeps z0 s) :
    Keeps z0 (enableRing s k) := by
  unfold enableRing
  repeat' (first
    | with_reducible assumption
    | with_reducible apply keeps_setX
    | with_reducible apply keeps_modRing
    | with_reducible apply keeps_tellOrphans
    | with_reducible apply keeps_hostWrite
    | with_reducible apply keeps_ite
    | simp only [keeps_upd]
    | with_reducible apply keeps_foldl
    | with_reducible apply keeps_foldl1
    | with_reducible apply keeps_foldl2
    | exact fun _ h => h
    | exact fun _ _ => rfl
    | with_reducible intro _ _ _ _
    | with_reducible intro _ _ _
    | simp only [fst_ite]
    | simp only [snd_ite]
    | split
    | dsimp only
    | refine keeps_of_fst (by with_reducible assumption) ?_
    | refine keeps_of_snd (by with_reducible assumption) ?_)

theorem keeps_journalPut {z0 : State} (s : State) (k : _) (b : _)  (kz : Keeps z0 s) :
    Keeps z0 (journalPut s k b) := by
  unfold journalPut
  repeat' (first
    | with_reducible assumption
    | with_reducible apply keeps_hbmPut
    | with_reducible apply keeps_addR
    | with_reducible apply keeps_setR
    | with_reducible apply keeps_raiseInt
    | with_reducible apply keeps_ite
    | simp only [keeps_upd]
    | split
    | dsimp only)

theorem keeps_toJournal {z0 : State} {s : State} {r : _}  {t : State} (h : toJournal s r = some t) (kz : Keeps z0 s) :
    Keeps z0 t := by
  unfold toJournal at h
  repeat' (split at h)
  all_goals (try (simp only [Option.some.injEq, reduceCtorEq] at h))
  all_goals (try subst h)
  all_goals (repeat' (first
 | with_reducible assumption
    | with_reducible apply keeps_journalPut
    | with_reducible apply keeps_ite
    | simp only [keeps_upd]
    | split
    | dsimp only))

theorem keeps_orphanQueue {z0 : State} (s : State) (k : _)  (kz : Keeps z0 s) :
    Keeps z0 (orphanQueue s k) := by
  unfold orphanQueue
  repeat' (first
    | with_reducible assumption
    | with_reducible apply keeps_setOvf
    | with_reducible apply keeps_ite
    | simp only [keeps_upd]
    | with_reducible apply keeps_foldl
    | with_reducible apply keeps_foldl1
    | with_reducible intro _ _ _ _
    | with_reducible intro _ _ _
    | simp only [fst_ite]
    | simp only [snd_ite]
    | split
    | refine keeps_toJournal (by with_reducible assumption) ?_
    | dsimp only)

theorem keeps_trackApplied {z0 : State} (s : _) (c : State) (n : _) (k : _)  (kz : Keeps z0 c) :
    Keeps z0 (trackApplied s c n k) := by
  unfold trackApplied
  repeat' (first
    | with_reducible assumption
    | with_reducible apply keeps_ringSignal
    | with_reducible apply keeps_closeTracks
    | with_reducible apply keeps_enableRing
    | with_reducible apply keeps_orphanQueue
    | with_reducible apply keeps_ite
    | simp only [keeps_upd]
    | split
    | dsimp only)

theorem keeps_setPlace {z0 : State} (s : State) (l : _) (v : _)  (kz : Keeps z0 s) :
    Keeps z0 (setPlace s l v) := by
  unfold setPlace
  repeat' (first
    | with_reducible assumption
    | with_reducible apply keeps_setI
    | with_reducible apply keeps_putF
    | with_reducible apply keeps_ite
    | simp only [keeps_upd]
    | split
    | dsimp only)

theorem keeps_retireCore {z0 : State} (s : State) (p : _)  (kz : Keeps z0 s) :
    Keeps z0 (retireCore s p) := by
  unfold retireCore
  repeat' (first
    | with_reducible assumption
    | with_reducible apply keeps_setPlace
    | with_reducible apply keeps_setI
    | with_reducible apply keeps_clearTag
    | with_reducible apply keeps_clearCore
    | with_reducible apply keeps_ite
    | simp only [keeps_upd]
    | split
    | dsimp only)

theorem keeps_coreApplied {z0 : State} (s : _) (c : State) (p : _)  (kz : Keeps z0 c) :
    Keeps z0 (coreApplied s c p) := by
  unfold coreApplied
  repeat' (first
    | with_reducible assumption
    | with_reducible apply keeps_setI
    | with_reducible apply keeps_putBoth
    | with_reducible apply keeps_clearTag
    | with_reducible apply keeps_retireCore
    | with_reducible apply keeps_setSpare
    | with_reducible apply keeps_ite
    | simp only [keeps_upd]
    | split
    | dsimp only)

theorem keeps_dropWrites {z0 : State} (s : State) (k : _) (b : _) (kz : Keeps z0 s) :
    Keeps z0 (dropWrites s k b) := by
  unfold dropWrites
  repeat' (first
    | with_reducible assumption
    | with_reducible apply keeps_foldl
    | with_reducible apply keeps_addI
    | with_reducible apply keeps_modClu
    | with_reducible apply keeps_darkFault
    | with_reducible apply keeps_ite
    | simp only [keeps_upd]
    | with_reducible apply keeps_foldl
    | with_reducible apply keeps_foldl1
    | with_reducible apply keeps_foldl2
    | exact fun _ h => h
    | exact fun _ _ => rfl
    | with_reducible intro _ _ _ _
    | with_reducible intro _ _ _
    | simp only [fst_ite]
    | simp only [snd_ite]
    | split
    | dsimp only
    | refine keeps_of_fst (by with_reducible assumption) ?_
    | refine keeps_of_snd (by with_reducible assumption) ?_)

theorem keeps_bankApplied {z0 : State} (s : State) (c : State) (k : _) (t : State) (b : _) (kz : Keeps z0 t) :
    Keeps z0 (bankApplied s c k t b) := by
  unfold bankApplied
  repeat' (first
    | with_reducible assumption
    | with_reducible apply keeps_switchOff
    | with_reducible apply keeps_setI
    | with_reducible apply keeps_dropWrites
    | with_reducible apply keeps_modClu
    | with_reducible apply keeps_switchOn
    | with_reducible apply keeps_ite
    | simp only [keeps_upd]
    | with_reducible apply keeps_foldl
    | with_reducible apply keeps_foldl1
    | with_reducible apply keeps_foldl2
    | exact fun _ h => h
    | exact fun _ _ => rfl
    | with_reducible intro _ _ _ _
    | with_reducible intro _ _ _
    | simp only [fst_ite]
    | simp only [snd_ite]
    | split
    | dsimp only
    | refine keeps_of_fst (by with_reducible assumption) ?_
    | refine keeps_of_snd (by with_reducible assumption) ?_)

theorem keeps_cluApplied {z0 : State} (s : _) (c : State) (k : _)  (kz : Keeps z0 c) :
    Keeps z0 (cluApplied s c k) := by
  unfold cluApplied
  repeat' (first
    | with_reducible assumption
    | with_reducible apply keeps_putF
    | with_reducible apply keeps_modClu
    | with_reducible apply keeps_refreshDark
    | with_reducible apply keeps_bankApplied
    | with_reducible apply keeps_ite
    | simp only [keeps_upd]
    | with_reducible apply keeps_foldl
    | with_reducible intro _ _ _ _
    | exact fun _ h => h
    | with_reducible intro _ _ _
    | simp only [fst_ite]
    | simp only [snd_ite]
    | split
    | dsimp only)

theorem keeps_modEnc {z0 : State} (s : State) (i : _) (f : _)  (kz : Keeps z0 s) :
    Keeps z0 (modEnc s i f) := by
  unfold modEnc
  repeat' (first
    | with_reducible assumption
    | with_reducible apply keeps_ite
    | simp only [keeps_upd]
    | split
    | dsimp only)

theorem keeps_encApplied {z0 : State} (s : _) (c : State) (e : _) (t : _)  (kz : Keeps z0 c) :
    Keeps z0 (encApplied s c e t) := by
  unfold encApplied
  repeat' (first
    | with_reducible assumption
    | with_reducible apply keeps_modEnc
    | with_reducible apply keeps_addI
    | with_reducible apply keeps_ite
    | simp only [keeps_upd]
    | split
    | dsimp only)

theorem keeps_noteErr {z0 : State} (s : State) (p : _) (r : _) (addr : _)  (kz : Keeps z0 s) :
    Keeps z0 (noteErr s p r addr) := by
  unfold noteErr
  repeat' (first
    | with_reducible assumption
    | with_reducible apply keeps_addI
    | with_reducible apply keeps_setI
    | with_reducible apply keeps_setPairI
    | with_reducible apply keeps_ite
    | simp only [keeps_upd]
    | split
    | dsimp only)

theorem keeps_noteRow {z0 : State} (s : State) (a : _) (ce : _) (ue : _)  (kz : Keeps z0 s) :
    Keeps z0 (noteRow s a ce ue) := by
  unfold noteRow
  repeat' (first
    | with_reducible assumption
    | with_reducible apply keeps_ite
    | simp only [keeps_upd]
    | split
    | dsimp only)

theorem keeps_queueWb {z0 : State} (s : State) (a : _)  (kz : Keeps z0 s) :
    Keeps z0 (queueWb s a) := by
  unfold queueWb
  repeat' (first
    | with_reducible assumption
    | with_reducible apply keeps_addI
    | with_reducible apply keeps_ite
    | simp only [keeps_upd]
    | split
    | dsimp only)

theorem keeps_noteHbm {z0 : State} (s : State) (a : _) (i : _)  (kz : Keeps z0 s) :
    Keeps z0 (noteHbm s a i) := by
  unfold noteHbm
  repeat' (first
    | with_reducible assumption
    | with_reducible apply keeps_noteErr
    | with_reducible apply keeps_noteRow
    | with_reducible apply keeps_queueWb
    | with_reducible apply keeps_ite
    | simp only [keeps_upd]
    | split
    | dsimp only)

theorem keeps_serveWrite {z0 : State} (s : State) (p : _) (e : _) (kz : Keeps z0 s) :
    Keeps z0 (serveWrite s p e) := by
  unfold serveWrite
  repeat' (first
    | with_reducible assumption
    | with_reducible apply keeps_addPairI
    | with_reducible apply keeps_cancelWb
    | with_reducible apply keeps_noteHbm
    | with_reducible apply keeps_addI
    | with_reducible apply keeps_hbmFault
    | with_reducible apply keeps_ite
    | simp only [keeps_upd]
    | with_reducible apply keeps_foldl
    | with_reducible apply keeps_foldl1
    | with_reducible apply keeps_foldl2
    | exact fun _ h => h
    | exact fun _ _ => rfl
    | with_reducible intro _ _ _ _
    | with_reducible intro _ _ _
    | simp only [fst_ite]
    | simp only [snd_ite]
    | split
    | dsimp only
    | refine keeps_of_fst (by with_reducible assumption) ?_
    | refine keeps_of_snd (by with_reducible assumption) ?_)

theorem keeps_servePatrol {z0 : State} (s : State) (p : _) (e : _) (kz : Keeps z0 s) :
    Keeps z0 (servePatrol s p e) := by
  unfold servePatrol
  repeat' (first
    | with_reducible assumption
    | with_reducible apply keeps_noteHbm
    | with_reducible apply keeps_addPairI
    | with_reducible apply keeps_hbmFault
    | with_reducible apply keeps_ite
    | simp only [keeps_upd]
    | with_reducible apply keeps_foldl
    | with_reducible apply keeps_foldl1
    | with_reducible apply keeps_foldl2
    | exact fun _ h => h
    | exact fun _ _ => rfl
    | with_reducible intro _ _ _ _
    | with_reducible intro _ _ _
    | simp only [fst_ite]
    | simp only [snd_ite]
    | split
    | dsimp only
    | refine keeps_of_fst (by with_reducible assumption) ?_
    | refine keeps_of_snd (by with_reducible assumption) ?_)

theorem keeps_lateConsumer {z0 : State} (s : State) (e : _) (late : _) (kz : Keeps z0 s) :
    Keeps z0 (lateConsumer s e late) := by
  unfold lateConsumer
  repeat' (first
    | with_reducible assumption
    | with_reducible apply keeps_addI
    | with_reducible apply keeps_ite
    | simp only [keeps_upd]
    | with_reducible apply keeps_foldl
    | with_reducible apply keeps_foldl1
    | with_reducible apply keeps_foldl2
    | exact fun _ h => h
    | exact fun _ _ => rfl
    | with_reducible intro _ _ _ _
    | with_reducible intro _ _ _
    | simp only [fst_ite]
    | simp only [snd_ite]
    | split
    | dsimp only
    | refine keeps_of_fst (by with_reducible assumption) ?_
    | refine keeps_of_snd (by with_reducible assumption) ?_)

theorem keeps_serveRead {z0 : State} (s : State) (p : _) (e : _) (kz : Keeps z0 s) :
    Keeps z0 (serveRead s p e) := by
  unfold serveRead
  repeat' (first
    | with_reducible assumption
    | with_reducible apply keeps_addPairI
    | with_reducible apply keeps_lateConsumer
    | with_reducible apply keeps_addI
    | with_reducible apply keeps_setI
    | with_reducible apply keeps_modItem
    | with_reducible apply keeps_noteHbm
    | with_reducible apply keeps_hbmFault
    | with_reducible apply keeps_ite
    | simp only [keeps_upd]
    | with_reducible apply keeps_foldl
    | with_reducible apply keeps_foldl1
    | with_reducible apply keeps_foldl2
    | exact fun _ h => h
    | exact fun _ _ => rfl
    | with_reducible intro _ _ _ _
    | with_reducible intro _ _ _
    | simp only [fst_ite]
    | simp only [snd_ite]
    | split
    | dsimp only
    | refine keeps_of_fst (by with_reducible assumption) ?_
    | refine keeps_of_snd (by with_reducible assumption) ?_)

theorem keeps_serveEnt {z0 : State} (s : State) (p : _) (n : _) (e : _) (kz : Keeps z0 s) :
    Keeps z0 (serveEnt s p n e) := by
  unfold serveEnt
  repeat' (first
    | with_reducible assumption
    | with_reducible apply keeps_setHbmQ
    | with_reducible apply keeps_addI
    | with_reducible apply keeps_addPairI
    | with_reducible apply keeps_servePatrol
    | with_reducible apply keeps_serveWrite
    | with_reducible apply keeps_serveRead
    | with_reducible apply keeps_ite
    | simp only [keeps_upd]
    | with_reducible apply keeps_foldl
    | with_reducible apply keeps_foldl1
    | with_reducible apply keeps_foldl2
    | exact fun _ h => h
    | exact fun _ _ => rfl
    | with_reducible intro _ _ _ _
    | with_reducible intro _ _ _
    | simp only [fst_ite]
    | simp only [snd_ite]
    | split
    | dsimp only
    | refine keeps_of_fst (by with_reducible assumption) ?_
    | refine keeps_of_snd (by with_reducible assumption) ?_)

theorem keeps_drainQ {z0 : State} (p n : Nat) (s : State) (kz : Keeps z0 s) : Keeps z0 (drainQ p n s) := by
  induction n generalizing s with
  | zero => exact kz
  | succ n ih =>
    unfold drainQ
    split
    · exact ih _ (keeps_serveEnt _ _ _ _ kz)
    · exact kz

theorem keeps_enterSref {z0 : State} (s : State) (kz : Keeps z0 s) : Keeps z0 (enterSref s) := by
  unfold enterSref
  refine keeps_ite _ kz ?_
  have kt : Keeps z0 ((upto 32).foldl (fun u p => drainQ p (hbmQ u p).length u) s) :=
    keeps_foldl _ _ _ (fun y t p k => keeps_drainQ _ _ _ k) kz
  dsimp only
  generalize (upto 32).foldl (fun u p => drainQ p (hbmQ u p).length u) s = t at kt
  refine keeps_setR _ _ _ (keeps_hbm' _ ?_ (fun c0 => (kt.2 c0).2.2.1))
  generalize upto 16 = l
  refine keeps_foldl _ _ _ (fun y t c k => ?_) kt
  split
  · exact keeps_setI _ _ _ _ k
  · exact k

theorem keeps_exitSref {z0 : State} (s : State)  (kz : Keeps z0 s) :
    Keeps z0 (exitSref s) := by
  unfold exitSref
  repeat' (first
    | with_reducible assumption
    | with_reducible apply keeps_ite
    | simp only [keeps_upd]
    | split
    | dsimp only)

theorem keeps_hbmcApplied {z0 : State} (s : _) (c : State)  (kz : Keeps z0 c) :
    Keeps z0 (hbmcApplied s c) := by
  unfold hbmcApplied
  have kt : Keeps z0 (if (changes s c F.HBMC_MAP_GRAIN 0 0 || changes s c F.HBMC_MAP_FOLD 0 0) = true then
      { c with hbm := { c.hbm with mem := {} } } else c) := by
    split
    · exact keeps_hbm _ kz (fun _ => rfl)
    · exact kz
  simp only
  split
  · exact keeps_enterSref _ kt
  · exact keeps_exitSref _ kt
  · exact kt

theorem keeps_chApplied {z0 : State} (s : _) (c : State) (ch : _)  (kz : Keeps z0 c) :
    Keeps z0 (chApplied s c ch) := by
  unfold chApplied
  repeat' (first
    | with_reducible assumption
    | with_reducible apply keeps_ite
    | simp only [keeps_upd]
    | split
    | dsimp only)

theorem keeps_modLink {z0 : State} (s : State) (p : _) (f : _)  (kz : Keeps z0 s) :
    Keeps z0 (modLink s p f) := by
  unfold modLink
  repeat' (first
    | with_reducible assumption
    | with_reducible apply keeps_ite
    | simp only [keeps_upd]
    | split
    | dsimp only)

theorem keeps_linkApplied {z0 : State} (c : State) (n : _)  (kz : Keeps z0 c) :
    Keeps z0 (linkApplied c n) := by
  unfold linkApplied
  repeat' (first
    | with_reducible assumption
    | with_reducible apply keeps_setI
    | with_reducible apply keeps_modLink
    | with_reducible apply keeps_ite
    | simp only [keeps_upd]
    | split
    | dsimp only)

theorem keeps_keepMap {z0 : State} (s : State) (c : State) (fw : _) (kz : Keeps z0 c) :
    Keeps z0 (keepMap s c fw) := by
  unfold keepMap
  repeat' (first
    | with_reducible assumption
    | with_reducible apply keeps_ite
    | simp only [keeps_upd]
    | with_reducible apply keeps_foldl
    | with_reducible apply keeps_foldl1
    | with_reducible apply keeps_foldl2
    | with_reducible intro _ _ _ _
    | with_reducible intro _ _ _
    | simp only [fst_ite]
    | simp only [snd_ite]
    | split
    | dsimp only
    | refine keeps_of_fst (by with_reducible assumption) ?_
    | refine keeps_of_snd (by with_reducible assumption) ?_)

theorem keeps_applied {z0 : State} (s : State) (c : State) (x : _) (kz : Keeps z0 c) :
    Keeps z0 (applied s c x) := by
  unfold applied
  repeat' (first
    | with_reducible assumption
    | with_reducible apply keeps_keepMap
    | with_reducible apply keeps_sysApplied
    | with_reducible apply keeps_tallyApplied
    | with_reducible apply keeps_dispApplied
    | with_reducible apply keeps_cooperApplied
    | with_reducible apply keeps_reeveApplied
    | with_reducible apply keeps_pwrApplied
    | with_reducible apply keeps_intakeApplied
    | with_reducible apply keeps_trackApplied
    | with_reducible apply keeps_coreApplied
    | with_reducible apply keeps_cluApplied
    | with_reducible apply keeps_encApplied
    | with_reducible apply keeps_hbmcApplied
    | with_reducible apply keeps_chApplied
    | with_reducible apply keeps_linkApplied
    | with_reducible apply keeps_ite
    | simp only [keeps_upd]
    | with_reducible apply keeps_foldl
    | with_reducible apply keeps_foldl1
    | with_reducible apply keeps_foldl2
    | with_reducible intro _ _ _ _
    | with_reducible intro _ _ _
    | simp only [fst_ite]
    | simp only [snd_ite]
    | split
    | dsimp only
    | refine keeps_of_fst (by with_reducible assumption) ?_
    | refine keeps_of_snd (by with_reducible assumption) ?_)

theorem keeps_fwEvent {z0 : State} (s : State) (code : _) (detail : _)  (kz : Keeps z0 s) :
    Keeps z0 (fwEvent s code detail) := by
  unfold fwEvent
  repeat' (first
    | with_reducible assumption
    | with_reducible apply keeps_fjPush
    | with_reducible apply keeps_ite
    | simp only [keeps_upd]
    | split
    | dsimp only)

theorem keeps_clusterOut {z0 : State} (s : State) (k : _)  (kz : Keeps z0 s) :
    Keeps z0 (clusterOut s k) := by
  unfold clusterOut
  repeat' (first
    | with_reducible assumption
    | with_reducible apply keeps_skipAll
    | with_reducible apply keeps_failItems
    | with_reducible apply keeps_relaunchSkipped
    | with_reducible apply keeps_sweepPics
    | with_reducible apply keeps_freeItem
    | with_reducible apply keeps_safNow
    | with_reducible apply keeps_setPlace
    | with_reducible apply keeps_switchOff
    | with_reducible apply keeps_setR
    | with_reducible apply keeps_fwEvent
    | with_reducible apply keeps_refreshDark
    | with_reducible apply keeps_modClu
    | with_reducible apply keeps_ite
    | simp only [keeps_upd]
    | with_reducible apply keeps_foldl
    | with_reducible intro _ _ _ _
    | exact fun _ h => h
    | with_reducible intro _ _ _
    | simp only [fst_ite]
    | simp only [snd_ite]
    | split
    | dsimp only)

theorem keeps_retireBank {z0 : State} (s : State) (k : _) (p : _) (kz : Keeps z0 s) :
    Keeps z0 (retireBank s k p) := by
  unfold retireBank
  repeat' (first
    | with_reducible assumption
    | with_reducible apply keeps_modClu
    | with_reducible apply keeps_putF
    | with_reducible apply keeps_clusterOut
    | with_reducible apply keeps_ite
    | simp only [keeps_upd]
    | with_reducible apply keeps_foldl
    | with_reducible apply keeps_foldl1
    | with_reducible apply keeps_foldl2
    | exact fun _ h => h
    | exact fun _ _ => rfl
    | with_reducible intro _ _ _ _
    | with_reducible intro _ _ _
    | simp only [fst_ite]
    | simp only [snd_ite]
    | split
    | dsimp only
    | refine keeps_of_fst (by with_reducible assumption) ?_
    | refine keeps_of_snd (by with_reducible assumption) ?_)

theorem keeps_retireUnit {z0 : State} (s : State) (k : _) (p : _) (u : _)  (kz : Keeps z0 s) :
    Keeps z0 (retireUnit s k p u) := by
  have hm : ∀ (lo hi n : Nat), n ≤ hi - lo ∨ hi ≤ lo → ∀ (i j a b : Nat), i < j →
      (if i < lo ∨ hi ≤ i then some i else if i < lo + n then none else some (i - n)) = some a →
      (if j < lo ∨ hi ≤ j then some j else if j < lo + n then none else some (j - n)) = some b → a < b := by
    intro lo hi n hn i j a b hij ha hb
    split at ha <;> split at hb <;> (try split at ha) <;> (try split at hb) <;> cases ha <;> cases hb <;> omega
  have hg : ∀ {α : Type} [DecidableEq α] (d : α) (lo hi n : Nat) (m : Tbl α), n ≤ hi - lo ∨ hi ≤ lo → twf d m = true →
      twf d (m.filterMap (fun (e : Nat × α) =>
        if e.1 < lo ∨ hi ≤ e.1 then some e else if e.1 < lo + n then none else some (e.1 - n, e.2))) = true := by
    intro α _ d lo hi n m hn h
    have h1 := twf_filterMap d _ (hm lo hi n hn) m h
    refine Eq.trans (congrArg (fun g => twf d (m.filterMap g)) (funext (fun e => ?_))) h1
    obtain ⟨i, v⟩ := e
    simp only
    split
    · rfl
    · split <;> rfl
  unfold retireUnit
  simp only
  refine keeps_ite _ kz ?_
  have k1 : ∀ m : Mem, m.wf = true →
      (Mem.mk (m.data.filterMap (fun (e : Nat × Byte) =>
            if e.1 < physAddr p (((upto u).filter (fun j => !(tget 0 (clu s k).retiredUnits p).testBit j)).length * 65536) ∨
                physAddr (p + 1) 0 ≤ e.1 then some e
            else if e.1 < physAddr p (((upto u).filter (fun j => !(tget 0 (clu s k).retiredUnits p).testBit j)).length * 65536)
                + 65536 then none
            else some (e.1 - 65536, e.2)))
          (m.err.filterMap (fun (e : Nat × Nat) =>
            if e.1 < physAddr p (((upto u).filter (fun j => !(tget 0 (clu s k).retiredUnits p).testBit j)).length * 65536) / 16 ∨
                physAddr (p + 1) 0 / 16 ≤ e.1 then some e
            else if e.1 < (physAddr p (((upto u).filter (fun j => !(tget 0 (clu s k).retiredUnits p).testBit j)).length * 65536)
                + 65536) / 16 then none
            else some (e.1 - 65536 / 16, e.2)))).wf = true := by
    intro m h
    generalize ((upto u).filter (fun j => !(tget 0 (clu s k).retiredUnits p).testBit j)).length = pos
    have hp : 65536 ≤ physAddr (p + 1) 0 - physAddr p (pos * 65536) ∨ physAddr (p + 1) 0 ≤ physAddr p (pos * 65536) := by
      unfold physAddr
      omega
    have hd : (physAddr p (pos * 65536) + 65536) / 16 = physAddr p (pos * 65536) / 16 + 65536 / 16 := by
      omega
    have h1 := (Mem.wf_iff _).mp h
    refine (Mem.wf_iff _).mpr ⟨hg 0 _ _ 65536 _ hp h1.1, ?_⟩
    simp only [hd]
    refine hg 0 _ _ (65536 / 16) _ ?_ h1.2
    unfold physAddr
    omega
  split
  · exact keeps_putF _ _ _ _ _ _ (keeps_modClu _ _ _ (fun c h => k1 c.mem h) kz)
  · exact keeps_modClu _ _ _ (fun c h => k1 c.mem h) kz

theorem keeps_applyDum {z0 : State} (s : State) (e : _)  (kz : Keeps z0 s) :
    Keeps z0 (applyDum s e) := by
  unfold applyDum
  repeat' (first
    | with_reducible assumption
    | with_reducible apply keeps_retireBank
    | with_reducible apply keeps_retireUnit
    | with_reducible apply keeps_ite
    | simp only [keeps_upd]
    | split
    | dsimp only)

theorem keeps_placeBank {z0 : State} (s : State) (k : _) (b : _) (p : _)  (kz : Keeps z0 s) :
    Keeps z0 (placeBank s k b p) := by
  unfold placeBank
  repeat' (first
    | with_reducible assumption
    | with_reducible apply keeps_putBoth
    | with_reducible apply keeps_ite
    | simp only [keeps_upd]
    | split
    | dsimp only)

theorem keeps_applyEntry {z0 : State} (s : State) (e : _)  (kz : Keeps z0 s) :
    Keeps z0 (applyEntry s e) := by
  unfold applyEntry
  repeat' (first
    | with_reducible assumption
    | with_reducible apply keeps_setI
    | with_reducible apply keeps_putBoth
    | with_reducible apply keeps_modClu
    | with_reducible apply keeps_placeBank
    | with_reducible apply keeps_ite
    | simp only [keeps_upd]
    | exact fun _ h => h
    | split
    | dsimp only)

theorem keeps_modRec {z0 : State} (s : State) (r : _) (f : _)  (kz : Keeps z0 s) :
    Keeps z0 (modRec s r f) := by
  unfold modRec
  repeat' (first
    | with_reducible assumption
    | with_reducible apply keeps_ite
    | simp only [keeps_upd]
    | split
    | dsimp only)

theorem keeps_audioItem {z0 : State} (s : State) (r : _) (time : _) (ch : _) (arrival : _) (b : _)  (kz : Keeps z0 s) :
    Keeps z0 (audioItem s r time ch arrival b) := by
  unfold audioItem
  repeat' (first
    | with_reducible assumption
    | with_reducible apply keeps_modRec
    | with_reducible apply keeps_addX
    | with_reducible apply keeps_ite
    | simp only [keeps_upd]
    | split
    | dsimp only)

theorem keeps_modCsi {z0 : State} (s : State) (p : _) (f : _)  (kz : Keeps z0 s) :
    Keeps z0 (modCsi s p f) := by
  unfold modCsi
  repeat' (first
    | with_reducible assumption
    | with_reducible apply keeps_ite
    | simp only [keeps_upd]
    | split
    | dsimp only)

theorem keeps_badLine {z0 : State} (s : State) (p : _) (cause : _)  (kz : Keeps z0 s) :
    Keeps z0 (badLine s p cause) := by
  unfold badLine
  repeat' (first
    | with_reducible assumption
    | with_reducible apply keeps_modCsi
    | with_reducible apply keeps_ite
    | simp only [keeps_upd]
    | split
    | dsimp only)

theorem keeps_refreshSess {z0 : State} (s : State) (i : _)  (kz : Keeps z0 s) :
    Keeps z0 (refreshSess s i) := by
  unfold refreshSess
  repeat' (first
    | with_reducible assumption
    | with_reducible apply keeps_setS
    | with_reducible apply keeps_setR
    | with_reducible apply keeps_ite
    | simp only [keeps_upd]
    | split
    | dsimp only)

theorem keeps_putSess {z0 : State} (s : State) (i : _) (x : _)  (kz : Keeps z0 s) :
    Keeps z0 (putSess s i x) := by
  unfold putSess
  repeat' (first
    | with_reducible assumption
    | with_reducible apply keeps_refreshSess
    | with_reducible apply keeps_ite
    | simp only [keeps_upd]
    | split
    | dsimp only)

theorem keeps_nextRelease {z0 : State} (s : State)  (kz : Keeps z0 s) :
    Keeps z0 (nextRelease s) := by
  unfold nextRelease
  repeat' (first
    | with_reducible assumption
    | with_reducible apply keeps_addR
    | with_reducible apply keeps_ite
    | simp only [keeps_upd]
    | split
    | dsimp only)

theorem keeps_withdrawTensors {z0 : State} (s : State) (p : _)  (kz : Keeps z0 s) :
    Keeps z0 (withdrawTensors s p) := by
  unfold withdrawTensors
  repeat' (first
    | with_reducible assumption
    | with_reducible apply keeps_nextRelease
    | with_reducible apply keeps_addR
    | with_reducible apply keeps_ite
    | simp only [keeps_upd]
    | split
    | dsimp only)

theorem keeps_refreshUnlocks {z0 : State} (s : State)  (kz : Keeps z0 s) :
    Keeps z0 (refreshUnlocks s) := by
  unfold refreshUnlocks
  repeat' (first
    | with_reducible assumption
    | with_reducible apply keeps_setR
    | with_reducible apply keeps_ite
    | simp only [keeps_upd]
    | with_reducible apply keeps_foldl
    | with_reducible intro _ _ _ _
    | with_reducible intro _ _ _
    | simp only [fst_ite]
    | simp only [snd_ite]
    | split
    | dsimp only)

theorem keeps_withdrawStreams {z0 : State} (s : State) (p : _)  (kz : Keeps z0 s) :
    Keeps z0 (withdrawStreams s p) := by
  unfold withdrawStreams
  repeat' (first
    | with_reducible assumption
    | with_reducible apply keeps_refreshUnlocks
    | with_reducible apply keeps_stopEncoders
    | with_reducible apply keeps_ite
    | simp only [keeps_upd]
    | split
    | dsimp only)

theorem keeps_leaveTest {z0 : State} (s : State) (kz : Keeps z0 s) :
    Keeps z0 (leaveTest s) := by
  unfold leaveTest
  repeat' (first
    | with_reducible assumption
    | with_reducible apply keeps_setPhase
    | with_reducible apply keeps_ite
    | simp only [keeps_upd]
    | with_reducible apply keeps_foldl
    | with_reducible apply keeps_foldl1
    | with_reducible apply keeps_foldl2
    | exact fun _ h => h
    | exact fun _ _ => rfl
    | with_reducible intro _ _ _ _
    | with_reducible intro _ _ _
    | simp only [fst_ite]
    | simp only [snd_ite]
    | split
    | dsimp only
    | refine keeps_of_fst (by with_reducible assumption) ?_
    | refine keeps_of_snd (by with_reducible assumption) ?_)

theorem keeps_closeSession {z0 : State} (s : State) (i : _) (kz : Keeps z0 s) :
    Keeps z0 (closeSession s i) := by
  unfold closeSession
  repeat' (first
    | with_reducible assumption
    | with_reducible apply keeps_putSess
    | with_reducible apply keeps_withdrawTensors
    | with_reducible apply keeps_withdrawStreams
    | with_reducible apply keeps_leaveTest
    | with_reducible apply keeps_ite
    | simp only [keeps_upd]
    | with_reducible apply keeps_foldl
    | with_reducible apply keeps_foldl1
    | with_reducible apply keeps_foldl2
    | exact fun _ h => h
    | exact fun _ _ => rfl
    | with_reducible intro _ _ _ _
    | with_reducible intro _ _ _
    | simp only [fst_ite]
    | simp only [snd_ite]
    | split
    | dsimp only
    | refine keeps_of_fst (by with_reducible assumption) ?_
    | refine keeps_of_snd (by with_reducible assumption) ?_)

theorem keeps_closeAll {z0 : State} (s : State)  (kz : Keeps z0 s) :
    Keeps z0 (closeAll s) := by
  unfold closeAll
  repeat' (first
    | with_reducible assumption
    | with_reducible apply keeps_closeSession
    | with_reducible apply keeps_ite
    | simp only [keeps_upd]
    | with_reducible apply keeps_foldl
    | with_reducible intro _ _ _ _
    | with_reducible intro _ _ _
    | simp only [fst_ite]
    | simp only [snd_ite]
    | split
    | dsimp only)

theorem keeps_respond {z0 : State} (s : State) (r : _) (session : _) (cmd : _) (status : _) (reason : _) (p : _) (key : _)  (kz : Keeps z0 s) :
    Keeps z0 (respond s r session cmd status reason p key) := by
  unfold respond
  repeat' (first
    | with_reducible assumption
    | with_reducible apply keeps_setR
    | with_reducible apply keeps_sendMsix
    | with_reducible apply keeps_closeAll
    | with_reducible apply keeps_ite
    | simp only [keeps_upd]
    | split
    | dsimp only)

theorem keeps_reply_ {z0 : State} (s : State) (r : _) (cmd : _) (status : _) (reason : _) (p : _)  (kz : Keeps z0 s) :
    Keeps z0 (reply_ s r cmd status reason p) := by
  unfold reply_
  repeat' (first
    | with_reducible assumption
    | with_reducible apply keeps_respond
    | with_reducible apply keeps_ite
    | simp only [keeps_upd]
    | split
    | dsimp only)

theorem keeps_refuseMb {z0 : State} (s : State) (r : _) (cmd : _) (reason : _)  (kz : Keeps z0 s) :
    Keeps z0 (refuseMb s r cmd reason) := by
  unfold refuseMb
  repeat' (first
    | with_reducible assumption
    | with_reducible apply keeps_reply_
    | with_reducible apply keeps_addR
    | with_reducible apply keeps_ite
    | simp only [keeps_upd]
    | split
    | dsimp only)

theorem keeps_badTag {z0 : State} (s : State) (r : _) (i : _) (cmd : _)  (kz : Keeps z0 s) :
    Keeps z0 (badTag s r i cmd) := by
  unfold badTag
  repeat' (first
    | with_reducible assumption
    | with_reducible apply keeps_refuseMb
    | with_reducible apply keeps_putSess
    | with_reducible apply keeps_addR
    | with_reducible apply keeps_closeSession
    | with_reducible apply keeps_ite
    | simp only [keeps_upd]
    | split
    | dsimp only)

theorem keeps_banksUp {z0 : State} (s : State)  (kz : Keeps z0 s) :
    Keeps z0 (banksUp s) := by
  unfold banksUp
  repeat' (first
    | with_reducible assumption
    | with_reducible apply keeps_refreshDark
    | with_reducible apply keeps_switchOn
    | with_reducible apply keeps_ite
    | simp only [keeps_upd]
    | with_reducible apply keeps_foldl
    | with_reducible intro _ _ _ _
    | with_reducible intro _ _ _
    | simp only [fst_ite]
    | simp only [snd_ite]
    | split
    | dsimp only)

theorem keeps_violation {z0 : State} (s : State) (p : _)  (kz : Keeps z0 s) :
    Keeps z0 (violation s p) := by
  unfold violation
  repeat' (first
    | with_reducible assumption
    | with_reducible apply keeps_setI
    | with_reducible apply keeps_ite
    | simp only [keeps_upd]
    | split
    | dsimp only)

theorem twf_reqPut (a : Nat) (b : List Byte) (t : Tbl Byte) (h : twf 0 t = true) : twf 0 (reqPut a b t) = true := by
  induction b generalizing a t with
  | nil => exact h
  | cons x r ih => exact ih (a + 1) _ (twf_tset _ _ _ _ h)

/-- A change of the request buffer beside the rest of the state. -/
theorem keeps_reqBuf {z0 x : State} (sc : SecS) (kz : Keeps z0 x) (h : twf 0 x.sec.reqBuf = true → twf 0 sc.reqBuf = true) :
    Keeps z0 { x with sec := sc } :=
  kz.trans ⟨rfl, fun c => ⟨c.1, c.2.1, c.2.2.1, c.2.2.2.1, c.2.2.2.2.1, c.2.2.2.2.2.1, h c.2.2.2.2.2.2⟩⟩

theorem keeps_bar2Write {z0 : State} (s : State) (addr size v : Nat) (kz : Keeps z0 s) :
    Keeps z0 (bar2Write s addr size v) := by
  unfold bar2Write
  split
  · split
    · exact keeps_violation _ _ kz
    · exact keeps_reqBuf _ kz (twf_reqPut _ _ _)
  · exact kz

theorem keeps_flushVector {z0 : State} (s : State) (v : _)  (kz : Keeps z0 s) :
    Keeps z0 (flushVector s v) := by
  unfold flushVector
  repeat' (first
    | with_reducible assumption
    | with_reducible apply keeps_emit
    | with_reducible apply keeps_setPba
    | with_reducible apply keeps_ite
    | simp only [keeps_upd]
    | split
    | dsimp only)

theorem keeps_msixWrite {z0 : State} (s : State) (d : _) (v : _)  (kz : Keeps z0 s) :
    Keeps z0 (msixWrite s d v) := by
  unfold msixWrite
  repeat' (first
    | with_reducible assumption
    | with_reducible apply keeps_flushVector
    | with_reducible apply keeps_ite
    | simp only [keeps_upd]
    | split
    | dsimp only)

theorem keeps_bar4Write {z0 : State} (s : State) (addr : _) (size : _) (v : _)  (kz : Keeps z0 s) :
    Keeps z0 (bar4Write s addr size v) := by
  unfold bar4Write
  repeat' (first
    | with_reducible assumption
    | with_reducible apply keeps_msixWrite
    | with_reducible apply keeps_ite
    | simp only [keeps_upd]
    | split
    | dsimp only)

theorem keeps_hostReadReg {z0 : State} (s : State) (p : _) (off : _)  (kz : Keeps z0 s) :
    Keeps z0 (hostReadReg s p off).2 := by
  unfold hostReadReg
  repeat' (first
    | with_reducible assumption
    | with_reducible apply keeps_putF
    | with_reducible apply keeps_ite
    | simp only [keeps_upd]
    | with_reducible apply keeps_foldl
    | with_reducible apply keeps_foldl1
    | with_reducible apply keeps_foldl2
    | with_reducible intro _ _ _ _
    | with_reducible intro _ _ _
    | simp only [fst_ite]
    | simp only [snd_ite]
    | split
    | dsimp only)

theorem keeps_barRead {z0 : State} (s : State) (addr : _) (size : _) (kz : Keeps z0 s) :
    Keeps z0 (barRead s addr size) := by
  unfold barRead
  repeat' (first
    | with_reducible assumption
    | with_reducible apply keeps_emit
    | with_reducible apply keeps_aer
    | with_reducible apply keeps_addR
    | with_reducible apply keeps_hostReadReg
    | with_reducible apply keeps_ite
    | simp only [keeps_upd]
    | with_reducible apply keeps_foldl
    | with_reducible apply keeps_foldl1
    | with_reducible apply keeps_foldl2
    | with_reducible intro _ _ _ _
    | with_reducible intro _ _ _
    | simp only [fst_ite]
    | simp only [snd_ite]
    | split
    | dsimp only
    | refine keeps_of_fst (by with_reducible assumption) ?_
    | refine keeps_of_snd (by with_reducible assumption) ?_)

theorem keeps_putWins {z0 : State} (live : _) (s : State) (p : _) (l : _) (kz : Keeps z0 s) :
    Keeps z0 (putWins live s p l) := by
  unfold putWins
  repeat' (first
    | with_reducible assumption
    | with_reducible apply keeps_foldl
    | with_reducible apply keeps_putF
    | with_reducible apply keeps_putSh
    | with_reducible apply keeps_ite
    | simp only [keeps_upd]
    | with_reducible apply keeps_foldl
    | with_reducible apply keeps_foldl1
    | with_reducible apply keeps_foldl2
    | with_reducible intro _ _ _ _
    | with_reducible intro _ _ _
    | simp only [fst_ite]
    | simp only [snd_ite]
    | split
    | dsimp only
    | refine keeps_of_fst (by with_reducible assumption) ?_
    | refine keeps_of_snd (by with_reducible assumption) ?_)

theorem keeps_beginFrame {z0 : State} (s : State) (p : _) (kz : Keeps z0 s) :
    Keeps z0 (beginFrame s p) := by
  unfold beginFrame
  repeat' (first
    | with_reducible assumption
    | with_reducible apply keeps_putWins
    | with_reducible apply keeps_modCsi
    | with_reducible apply keeps_ite
    | simp only [keeps_upd]
    | with_reducible apply keeps_foldl
    | with_reducible apply keeps_foldl1
    | with_reducible apply keeps_foldl2
    | with_reducible intro _ _ _ _
    | with_reducible intro _ _ _
    | simp only [fst_ite]
    | simp only [snd_ite]
    | split
    | dsimp only
    | refine keeps_of_fst (by with_reducible assumption) ?_
    | refine keeps_of_snd (by with_reducible assumption) ?_)

theorem keeps_queueBin {z0 : State} (s : State) (p : _) (b : _) (row : _)  (kz : Keeps z0 s) :
    Keeps z0 (queueBin s p b row) := by
  unfold queueBin
  repeat' (first
    | with_reducible assumption
    | with_reducible apply keeps_modCore
    | with_reducible apply keeps_addI
    | with_reducible apply keeps_ite
    | simp only [keeps_upd]
    | exact fun _ h => h
    | split
    | dsimp only)

theorem keeps_binRow {z0 : State} (s : State) (p : _) (b : _) (a : _) (n : _)  (kz : Keeps z0 s) :
    Keeps z0 (binRow s p b a n).1 := by
  unfold binRow
  repeat' (first
    | with_reducible assumption
    | with_reducible apply keeps_noteErr
    | with_reducible apply keeps_queueBin
    | with_reducible apply keeps_addI
    | with_reducible apply keeps_ite
    | simp only [keeps_upd]
    | simp only [fst_ite]
    | simp only [snd_ite]
    | split
    | dsimp only)

theorem keeps_binRead {z0 : State} (p : _) (b : _) (a2 : _) (a3 : _) (a4 : _) (a5 : State)  (kz : Keeps z0 a5) :
    Keeps z0 (binRead p b a2 a3 a4 a5).1 := by
  induction a2 generalizing z0 a3 a4 a5 with
  | zero => 
    unfold binRead
    repeat' (first
    | with_reducible assumption
    | with_reducible apply keeps_binRow
    | with_reducible apply keeps_ite
    | simp only [keeps_upd]
    | simp only [fst_ite]
    | simp only [snd_ite]
    | split
    | dsimp only)
  | succ _ ih =>
    unfold binRead
    repeat' (first
    | with_reducible assumption
    | with_reducible apply keeps_binRow
    | with_reducible apply ih
    | with_reducible apply keeps_ite
    | simp only [keeps_upd]
    | simp only [fst_ite]
    | simp only [snd_ite]
    | split
    | dsimp only)

theorem keeps_inheritFrom {z0 : State} (a0 : _) (a1 : _) (a2 : State)  (kz : Keeps z0 a2) :
    Keeps z0 (inheritFrom a0 a1 a2) := by
  induction a0 generalizing z0 a1 a2 with
  | zero => 
    unfold inheritFrom
    repeat' (first
    | with_reducible assumption
    | with_reducible apply keeps_addR
    | with_reducible apply keeps_modItem
    | with_reducible apply keeps_ite
    | simp only [keeps_upd]
    | with_reducible apply keeps_foldl
    | with_reducible intro _ _ _ _
    | with_reducible intro _ _ _
    | simp only [fst_ite]
    | simp only [snd_ite]
    | split
    | dsimp only)
  | succ _ ih =>
    unfold inheritFrom
    repeat' (first
    | with_reducible assumption
    | with_reducible apply keeps_addR
    | with_reducible apply keeps_modItem
    | with_reducible apply ih
    | with_reducible apply keeps_ite
    | simp only [keeps_upd]
    | with_reducible apply keeps_foldl
    | with_reducible intro _ _ _ _
    | with_reducible intro _ _ _
    | simp only [fst_ite]
    | simp only [snd_ite]
    | split
    | dsimp only)

theorem keeps_blockOn {z0 : State} (s : State) (p : _) (k : _) (n : _)  (kz : Keeps z0 s) :
    Keeps z0 (blockOn s p k n) := by
  unfold blockOn
  repeat' (first
    | with_reducible assumption
    | with_reducible apply keeps_modCore
    | with_reducible apply keeps_inheritFrom
    | with_reducible apply keeps_ite
    | simp only [keeps_upd]
    | exact fun _ h => h
    | split
    | dsimp only)

theorem keeps_bootBanks {z0 : State} (s : State) (k : _)  (kz : Keeps z0 s) :
    Keeps z0 (bootBanks s k) := by
  unfold bootBanks
  repeat' (first
    | with_reducible assumption
    | with_reducible apply keeps_setDom
    | with_reducible apply keeps_modClu
    | with_reducible apply keeps_putBoth
    | with_reducible apply keeps_putF
    | with_reducible apply keeps_ite
    | simp only [keeps_upd]
    | with_reducible apply keeps_foldl
    | with_reducible intro _ _ _ _
    | exact fun _ h => h
    | with_reducible intro _ _ _
    | simp only [fst_ite]
    | simp only [snd_ite]
    | split
    | dsimp only)

theorem keeps_domainUp {z0 : State} (s : State) (d : _)  (kz : Keeps z0 s) :
    Keeps z0 (domainUp s d) := by
  unfold domainUp
  repeat' (first
    | with_reducible assumption
    | with_reducible apply keeps_setDom
    | with_reducible apply keeps_reqDom
    | with_reducible apply keeps_ite
    | simp only [keeps_upd]
    | split
    | dsimp only)

theorem keeps_bootPlace {z0 : State} (s : State) (l : _) (p : _)  (kz : Keeps z0 s) :
    Keeps z0 (bootPlace s l p) := by
  unfold bootPlace
  repeat' (first
    | with_reducible assumption
    | with_reducible apply keeps_setI
    | with_reducible apply keeps_putBoth
    | with_reducible apply keeps_setPlace
    | with_reducible apply keeps_ite
    | simp only [keeps_upd]
    | split
    | dsimp only)

theorem keeps_bootCluster {z0 : State} (s : State) (k : _)  (kz : Keeps z0 s) :
    Keeps z0 (bootCluster s k) := by
  unfold bootCluster
  repeat' (first
    | with_reducible assumption
    | with_reducible apply keeps_setDom
    | with_reducible apply keeps_modClu
    | with_reducible apply keeps_setR
    | with_reducible apply keeps_domainUp
    | with_reducible apply keeps_bootBanks
    | with_reducible apply keeps_bootPlace
    | with_reducible apply keeps_putF
    | with_reducible apply keeps_setI
    | with_reducible apply keeps_setSpare
    | with_reducible apply keeps_clusterOut
    | with_reducible apply keeps_ite
    | simp only [keeps_upd]
    | with_reducible apply keeps_foldl
    | with_reducible apply keeps_foldl1
    | with_reducible intro _ _ _ _
    | exact fun _ h => h
    | with_reducible intro _ _ _
    | simp only [fst_ite]
    | simp only [snd_ite]
    | split
    | dsimp only)

theorem keeps_bootDecs {z0 : State} (s : State)  (kz : Keeps z0 s) :
    Keeps z0 (bootDecs s) := by
  unfold bootDecs
  repeat' (first
    | with_reducible assumption
    | with_reducible apply keeps_domainUp
    | with_reducible apply keeps_setR
    | with_reducible apply keeps_ite
    | simp only [keeps_upd]
    | with_reducible apply keeps_foldl
    | with_reducible intro _ _ _ _
    | with_reducible intro _ _ _
    | simp only [fst_ite]
    | simp only [snd_ite]
    | split
    | dsimp only)

theorem keeps_refreshPart {z0 : State} (s : State) (k : _)  (kz : Keeps z0 s) :
    Keeps z0 (refreshPart s k) := by
  unfold refreshPart
  repeat' (first
    | with_reducible assumption
    | with_reducible apply keeps_setX
    | with_reducible apply keeps_fwEvent
    | with_reducible apply keeps_ite
    | simp only [keeps_upd]
    | split
    | dsimp only)

theorem keeps_refreshFlash {z0 : State} (s : State)  (kz : Keeps z0 s) :
    Keeps z0 (refreshFlash s) := by
  unfold refreshFlash
  repeat' (first
    | with_reducible assumption
    | with_reducible apply keeps_refreshPart
    | with_reducible apply keeps_setR
    | with_reducible apply keeps_ite
    | simp only [keeps_upd]
    | with_reducible apply keeps_foldl
    | with_reducible intro _ _ _ _
    | with_reducible intro _ _ _
    | simp only [fst_ite]
    | simp only [snd_ite]
    | split
    | dsimp only)

theorem keeps_queueOps {z0 : State} (s : State) (l : _)  (kz : Keeps z0 s) :
    Keeps z0 (queueOps s l) := by
  unfold queueOps
  repeat' (first
    | with_reducible assumption
    | with_reducible apply keeps_ite
    | simp only [keeps_upd]
    | split
    | dsimp only)

theorem keeps_flashReplay {z0 : State} (s : State)  (kz : Keeps z0 s) :
    Keeps z0 (flashReplay s) := by
  unfold flashReplay
  repeat' (first
    | with_reducible assumption
    | with_reducible apply keeps_addR
    | with_reducible apply keeps_queueOps
    | with_reducible apply keeps_ite
    | simp only [keeps_upd]
    | split
    | dsimp only)

theorem keeps_bootImage {z0 : State} (s : State) (slot : _) (i : _) (fallback : _)  (kz : Keeps z0 s) :
    Keeps z0 (bootImage s slot i fallback) := by
  unfold bootImage
  repeat' (first
    | with_reducible assumption
    | with_reducible apply keeps_setR
    | with_reducible apply keeps_fwEvent
    | with_reducible apply keeps_refreshFlash
    | with_reducible apply keeps_flashReplay
    | with_reducible apply keeps_ite
    | simp only [keeps_upd]
    | split
    | dsimp only)

theorem keeps_writeRecord {z0 : State} (s : State) (ty : _) (key : _)  (kz : Keeps z0 s) :
    Keeps z0 (writeRecord s ty key) := by
  unfold writeRecord
  repeat' (first
    | with_reducible assumption
    | with_reducible apply keeps_queueOps
    | with_reducible apply keeps_ite
    | simp only [keeps_upd]
    | split
    | dsimp only)

theorem keeps_bootTrim {z0 : State} (s : State) (b : _)  (kz : Keeps z0 s) :
    Keeps z0 (bootTrim s b) := by
  unfold bootTrim
  repeat' (first
    | with_reducible assumption
    | with_reducible apply keeps_addDum
    | with_reducible apply keeps_setI
    | with_reducible apply keeps_writeRecord
    | with_reducible apply keeps_setR
    | with_reducible apply keeps_putBoth
    | with_reducible apply keeps_ite
    | simp only [keeps_upd]
    | with_reducible apply keeps_foldl
    | with_reducible intro _ _ _ _
    | with_reducible intro _ _ _
    | simp only [fst_ite]
    | simp only [snd_ite]
    | split
    | dsimp only)

theorem keeps_bootMap {z0 : State} (s : State) (b : _)  (kz : Keeps z0 s) :
    Keeps z0 (bootMap s b) := by
  unfold bootMap
  repeat' (first
    | with_reducible assumption
    | with_reducible apply keeps_applyEntry
    | with_reducible apply keeps_addDum
    | with_reducible apply keeps_writeRecord
    | with_reducible apply keeps_ite
    | simp only [keeps_upd]
    | with_reducible apply keeps_foldl
    | with_reducible intro _ _ _ _
    | with_reducible intro _ _ _
    | simp only [fst_ite]
    | simp only [snd_ite]
    | split
    | dsimp only)

theorem keeps_refreshRoles {z0 : State} (s : State)  (kz : Keeps z0 s) :
    Keeps z0 (refreshRoles s) := by
  unfold refreshRoles
  repeat' (first
    | with_reducible assumption
    | with_reducible apply keeps_setR
    | with_reducible apply keeps_ite
    | simp only [keeps_upd]
    | with_reducible apply keeps_foldl
    | with_reducible intro _ _ _ _
    | with_reducible intro _ _ _
    | simp only [fst_ite]
    | simp only [snd_ite]
    | split
    | dsimp only)

theorem keeps_bootKeys {z0 : State} (s : State) (ok : _)  (kz : Keeps z0 s) :
    Keeps z0 (bootKeys s ok) := by
  unfold bootKeys
  repeat' (first
    | with_reducible assumption
    | with_reducible apply keeps_refreshRoles
    | with_reducible apply keeps_setR
    | with_reducible apply keeps_fwEvent
    | with_reducible apply keeps_ite
    | simp only [keeps_upd]
    | split
    | dsimp only)

theorem keeps_loseRecord {z0 : State} (s : State) (r : _)  (kz : Keeps z0 s) :
    Keeps z0 (loseRecord s r) := by
  unfold loseRecord
  repeat' (first
    | with_reducible assumption
    | with_reducible apply keeps_fwEvent
    | with_reducible apply keeps_ite
    | simp only [keeps_upd]
    | split
    | dsimp only)

theorem keeps_bootRecords {z0 : State} (s : State)  (kz : Keeps z0 s) :
    Keeps z0 (bootRecords s) := by
  unfold bootRecords
  repeat' (first
    | with_reducible assumption
    | with_reducible apply keeps_loseRecord
    | with_reducible apply keeps_ite
    | simp only [keeps_upd]
    | with_reducible apply keeps_foldl
    | with_reducible intro _ _ _ _
    | with_reducible intro _ _ _
    | simp only [fst_ite]
    | simp only [snd_ite]
    | split
    | dsimp only)

theorem keeps_putTemp {z0 : State} (s : State) (i : _) (d : _)  (kz : Keeps z0 s) :
    Keeps z0 (putTemp s i d) := by
  unfold putTemp
  repeat' (first
    | with_reducible assumption
    | with_reducible apply keeps_setX
    | with_reducible apply keeps_ite
    | simp only [keeps_upd]
    | split
    | dsimp only)

theorem keeps_putTraining {z0 : State} (s : State) (c : _) (r : _) (kz : Keeps z0 s) :
    Keeps z0 (putTraining s c r) := by
  unfold putTraining
  repeat' (first
    | with_reducible assumption
    | with_reducible apply keeps_foldl
    | with_reducible apply keeps_putBoth
    | with_reducible apply keeps_ite
    | simp only [keeps_upd]
    | with_reducible apply keeps_foldl
    | with_reducible apply keeps_foldl1
    | with_reducible apply keeps_foldl2
    | exact fun _ h => h
    | exact fun _ _ => rfl
    | with_reducible intro _ _ _ _
    | with_reducible intro _ _ _
    | simp only [fst_ite]
    | simp only [snd_ite]
    | split
    | dsimp only
    | refine keeps_of_fst (by with_reducible assumption) ?_
    | refine keeps_of_snd (by with_reducible assumption) ?_)

theorem keeps_fullTrained {z0 : State} (s : State) (b : _) (c : _) (kz : Keeps z0 s) :
    Keeps z0 (fullTrained s b c) := by
  unfold fullTrained
  repeat' (first
    | with_reducible assumption
    | with_reducible apply keeps_putTraining
    | with_reducible apply keeps_writeRecord
    | with_reducible apply keeps_addDum
    | with_reducible apply keeps_ite
    | simp only [keeps_upd]
    | with_reducible apply keeps_foldl
    | with_reducible apply keeps_foldl1
    | with_reducible apply keeps_foldl2
    | exact fun _ h => h
    | exact fun _ _ => rfl
    | with_reducible intro _ _ _ _
    | with_reducible intro _ _ _
    | simp only [fst_ite]
    | simp only [snd_ite]
    | split
    | dsimp only
    | refine keeps_of_fst (by with_reducible assumption) ?_
    | refine keeps_of_snd (by with_reducible assumption) ?_)

theorem keeps_bootCodecs {z0 : State} (s : State) (c : _) (kz : Keeps z0 s) :
    Keeps z0 (bootCodecs s c) := by
  unfold bootCodecs
  repeat' (first
    | with_reducible assumption
    | with_reducible apply keeps_setR
    | with_reducible apply keeps_putBoth
    | with_reducible apply keeps_enablePool
    | with_reducible apply keeps_foldl
    | with_reducible apply keeps_setMin
    | with_reducible apply keeps_ite
    | simp only [keeps_upd]
    | with_reducible apply keeps_foldl
    | with_reducible apply keeps_foldl1
    | with_reducible apply keeps_foldl2
    | exact fun _ h => h
    | exact fun _ _ => rfl
    | with_reducible intro _ _ _ _
    | with_reducible intro _ _ _
    | simp only [fst_ite]
    | simp only [snd_ite]
    | split
    | dsimp only
    | refine keeps_of_fst (by with_reducible assumption) ?_
    | refine keeps_of_snd (by with_reducible assumption) ?_)

theorem keeps_bootHbm {z0 : State} (s : State) (b : _) (kz : Keeps z0 s) :
    Keeps z0 (bootHbm s b) := by
  unfold bootHbm
  repeat' (first
    | with_reducible assumption
    | with_reducible apply keeps_setR
    | with_reducible apply keeps_fwEvent
    | with_reducible apply keeps_foldl
    | with_reducible apply keeps_putTraining
    | with_reducible apply keeps_fullTrained
    | with_reducible apply keeps_setI
    | with_reducible apply keeps_putTemp
    | with_reducible apply keeps_putBoth
    | with_reducible apply keeps_bootCodecs
    | with_reducible apply keeps_ite
    | simp only [keeps_upd]
    | with_reducible apply keeps_foldl
    | with_reducible apply keeps_foldl1
    | with_reducible apply keeps_foldl2
    | exact fun _ h => h
    | exact fun _ _ => rfl
    | with_reducible intro _ _ _ _
    | with_reducible intro _ _ _
    | simp only [fst_ite]
    | simp only [snd_ite]
    | split
    | dsimp only
    | refine keeps_of_fst (by with_reducible assumption) ?_
    | refine keeps_of_snd (by with_reducible assumption) ?_)

theorem keeps_bootPages {z0 : State} (s : State) (b : _)  (kz : Keeps z0 s) :
    Keeps z0 (bootPages s b) := by
  unfold bootPages
  repeat' (first
    | with_reducible assumption
    | with_reducible apply keeps_setI
    | with_reducible apply keeps_setR
    | with_reducible apply keeps_ite
    | simp only [keeps_upd]
    | with_reducible apply keeps_foldl
    | with_reducible apply keeps_foldl1
    | with_reducible intro _ _ _ _
    | with_reducible intro _ _ _
    | simp only [fst_ite]
    | simp only [snd_ite]
    | split
    | dsimp only)

theorem keeps_compareTemps {z0 : State} (s : State)  (kz : Keeps z0 s) :
    Keeps z0 (compareTemps s) := by
  unfold compareTemps
  repeat' (first
    | with_reducible assumption
    | with_reducible apply keeps_setR
    | with_reducible apply keeps_raiseInt
    | with_reducible apply keeps_driveAlert
    | with_reducible apply keeps_addR
    | with_reducible apply keeps_enterSafe
    | with_reducible apply keeps_latchFault
    | with_reducible apply keeps_safNow
    | with_reducible apply keeps_driveFault
    | with_reducible apply keeps_ite
    | simp only [keeps_upd]
    | split
    | dsimp only)

theorem keeps_bootDevice {z0 : State} (s : State) (b : _) (slot : _) (i : _) (fallback : _)  (kz : Keeps z0 s) :
    Keeps z0 (bootDevice s b slot i fallback) := by
  unfold bootDevice
  repeat' (first
    | with_reducible assumption
    | with_reducible apply keeps_bootImage
    | with_reducible apply keeps_bootTrim
    | with_reducible apply keeps_bootMap
    | with_reducible apply keeps_bootKeys
    | with_reducible apply keeps_bootRecords
    | with_reducible apply keeps_bootHbm
    | with_reducible apply keeps_domainUp
    | with_reducible apply keeps_bootDecs
    | with_reducible apply keeps_bootCluster
    | with_reducible apply keeps_bootPages
    | with_reducible apply keeps_compareTemps
    | with_reducible apply keeps_setR
    | with_reducible apply keeps_ite
    | simp only [keeps_upd]
    | with_reducible apply keeps_foldl
    | with_reducible intro _ _ _ _
    | with_reducible intro _ _ _
    | simp only [fst_ite]
    | simp only [snd_ite]
    | split
    | dsimp only)

theorem keeps_breakResident {z0 : State} (s : State) (p : _) (b : _) (a : _) (n : _) (kz : Keeps z0 s) :
    Keeps z0 (breakResident s p b a n) := by
  unfold breakResident
  repeat' (first
    | with_reducible assumption
    | with_reducible apply keeps_clearTag
    | with_reducible apply keeps_ite
    | simp only [keeps_upd]
    | with_reducible apply keeps_foldl
    | with_reducible apply keeps_foldl1
    | with_reducible apply keeps_foldl2
    | exact fun _ h => h
    | exact fun _ _ => rfl
    | with_reducible intro _ _ _ _
    | with_reducible intro _ _ _
    | simp only [fst_ite]
    | simp only [snd_ite]
    | split
    | dsimp only
    | refine keeps_of_fst (by with_reducible assumption) ?_
    | refine keeps_of_snd (by with_reducible assumption) ?_)

theorem keeps_flushVectors {z0 : State} (s : State)  (kz : Keeps z0 s) :
    Keeps z0 (flushVectors s) := by
  unfold flushVectors
  repeat' (first
    | with_reducible assumption
    | with_reducible apply keeps_flushVector
    | with_reducible apply keeps_ite
    | simp only [keeps_upd]
    | with_reducible apply keeps_foldl
    | with_reducible intro _ _ _ _
    | with_reducible intro _ _ _
    | simp only [fst_ite]
    | simp only [snd_ite]
    | split
    | dsimp only)

theorem keeps_cfgWrite {z0 : State} (s : State) (addr : _) (v : _) (kz : Keeps z0 s) :
    Keeps z0 (cfgWrite s addr v) := by
  unfold cfgWrite
  repeat' (first
    | with_reducible assumption
    | with_reducible apply keeps_flushVectors
    | with_reducible apply keeps_setR
    | with_reducible apply keeps_ite
    | simp only [keeps_upd]
    | with_reducible apply keeps_foldl
    | with_reducible apply keeps_foldl1
    | with_reducible apply keeps_foldl2
    | with_reducible intro _ _ _ _
    | with_reducible intro _ _ _
    | simp only [fst_ite]
    | simp only [snd_ite]
    | split
    | dsimp only
    | refine keeps_of_fst (by with_reducible assumption) ?_
    | refine keeps_of_snd (by with_reducible assumption) ?_)

theorem keeps_checkCluster {z0 : State} (s : State) (k : _)  (kz : Keeps z0 s) :
    Keeps z0 (checkCluster s k) := by
  unfold checkCluster
  repeat' (first
    | with_reducible assumption
    | with_reducible apply keeps_clusterOut
    | with_reducible apply keeps_ite
    | simp only [keeps_upd]
    | split
    | dsimp only)

theorem keeps_requestPreempt {z0 : State} (s : State) (k : _)  (kz : Keeps z0 s) :
    Keeps z0 (requestPreempt s k) := by
  unfold requestPreempt
  repeat' (first
    | with_reducible assumption
    | with_reducible apply keeps_modCore
    | with_reducible apply keeps_ite
    | simp only [keeps_upd]
    | with_reducible apply keeps_foldl
    | with_reducible intro _ _ _ _
    | exact fun _ h => h
    | with_reducible intro _ _ _
    | simp only [fst_ite]
    | simp only [snd_ite]
    | split
    | dsimp only)

theorem keeps_preemptOn {z0 : State} (s : State) (ls : _)  (kz : Keeps z0 s) :
    Keeps z0 (preemptOn s ls) := by
  unfold preemptOn
  repeat' (first
    | with_reducible assumption
    | with_reducible apply keeps_requestPreempt
    | with_reducible apply keeps_ite
    | simp only [keeps_upd]
    | with_reducible apply keeps_foldl
    | with_reducible intro _ _ _ _
    | with_reducible intro _ _ _
    | simp only [fst_ite]
    | simp only [snd_ite]
    | split
    | dsimp only)

theorem keeps_claimFor {z0 : State} (s : State) (it : _)  (kz : Keeps z0 s) :
    Keeps z0 (claimFor s it) := by
  unfold claimFor
  repeat' (first
    | with_reducible assumption
    | with_reducible apply keeps_preemptOn
    | with_reducible apply keeps_ite
    | simp only [keeps_upd]
    | split
    | dsimp only)

theorem keeps_clearErr {z0 : State} (s : State) (p : _)  (kz : Keeps z0 s) :
    Keeps z0 (clearErr s p) := by
  unfold clearErr
  repeat' (first
    | with_reducible assumption
    | with_reducible apply keeps_setI
    | with_reducible apply keeps_ite
    | simp only [keeps_upd]
    | split
    | dsimp only)

theorem keeps_clearFaults {z0 : State} (s : State)  (kz : Keeps z0 s) :
    Keeps z0 (clearFaults s) := by
  unfold clearFaults
  repeat' (first
    | with_reducible assumption
    | with_reducible apply keeps_setR
    | with_reducible apply keeps_driveFault
    | with_reducible apply keeps_ite
    | simp only [keeps_upd]
    | with_reducible apply keeps_foldl
    | with_reducible intro _ _ _ _
    | with_reducible intro _ _ _
    | simp only [fst_ite]
    | simp only [snd_ite]
    | split
    | dsimp only)

theorem keeps_closeAllAfter {z0 : State} (s : State)  (kz : Keeps z0 s) :
    Keeps z0 (closeAllAfter s) := by
  unfold closeAllAfter
  repeat' (first
    | with_reducible assumption
    | with_reducible apply keeps_closeAll
    | with_reducible apply keeps_ite
    | simp only [keeps_upd]
    | split
    | dsimp only)

theorem keeps_fillLines {z0 : State} (p : _) (cause : _) (a2 : _) (a3 : State)  (kz : Keeps z0 a3) :
    Keeps z0 (fillLines p cause a2 a3) := by
  induction a2 generalizing z0 a3 with
  | zero => 
    unfold fillLines
    repeat' (first
    | with_reducible assumption
    | with_reducible apply keeps_badLine
    | with_reducible apply keeps_ite
    | simp only [keeps_upd]
    | split
    | dsimp only)
  | succ _ ih =>
    unfold fillLines
    repeat' (first
    | with_reducible assumption
    | with_reducible apply keeps_badLine
    | with_reducible apply ih
    | with_reducible apply keeps_ite
    | simp only [keeps_upd]
    | split
    | dsimp only)

theorem keeps_takeFrom {z0 : State} (s : State) (p : _) (o : _) (item : _)  (kz : Keeps z0 s) :
    Keeps z0 (takeFrom s p o item).1 := by
  unfold takeFrom
  repeat' (first
    | with_reducible assumption
    | with_reducible apply keeps_addR
    | with_reducible apply keeps_modPool
    | with_reducible apply keeps_ite
    | simp only [keeps_upd]
    | simp only [fst_ite]
    | simp only [snd_ite]
    | split
    | dsimp only)

theorem keeps_readLinks {z0 : State} (s : State) (mask : _) (kz : Keeps z0 s) :
    Keeps z0 (readLinks s mask) := by
  unfold readLinks
  repeat' (first
    | with_reducible assumption
    | with_reducible apply keeps_foldl
    | with_reducible apply keeps_readLink
    | with_reducible apply keeps_ite
    | simp only [keeps_upd]
    | with_reducible apply keeps_foldl
    | with_reducible apply keeps_foldl1
    | with_reducible apply keeps_foldl2
    | exact fun _ h => h
    | exact fun _ _ => rfl
    | with_reducible intro _ _ _ _
    | with_reducible intro _ _ _
    | simp only [fst_ite]
    | simp only [snd_ite]
    | split
    | dsimp only
    | refine keeps_of_fst (by with_reducible assumption) ?_
    | refine keeps_of_snd (by with_reducible assumption) ?_)

theorem keeps_cooperAlloc {z0 : State} (s : State) (o : _) (bytes : _) (mask : _) (item : _)  (kz : Keeps z0 s) :
    Keeps z0 (cooperAlloc s o bytes mask item).1 := by
  unfold cooperAlloc
  have k1 := keeps_readLinks s mask kz
  repeat' (first
    | with_reducible assumption
    | with_reducible apply keeps_addR
    | (rename_i heq; exact (congrArg (fun x => Prod.fst x) heq) ▸ keeps_takeFrom _ _ _ _ k1)
    | split
    | dsimp only)

theorem keeps_putObject {z0 : State} (s : State) (p : _) (win : _) (w : _) (h : _) (ps : _)  (kz : Keeps z0 s) :
    Keeps z0 (putObject s p win w h ps).1 := by
  unfold putObject
  simp only
  split
  · simpa only [keeps_upd] using kz
  · split
    · rename_i heq
      have k1 := keeps_cooperAlloc s (64 + p) (planeBytes (regI s F.CSI_CFG_OUT p) ps).length (2 ^ regS s F.ADM_POOL_POOL (64 + p)) none kz
      rw [heq] at k1
      simpa only [keeps_upd] using keeps_hbmPut _ _ _ k1
    · rename_i heq
      have k1 := keeps_cooperAlloc s (64 + p) (planeBytes (regI s F.CSI_CFG_OUT p) ps).length (2 ^ regS s F.ADM_POOL_POOL (64 + p)) none kz
      rw [heq] at k1
      split
      · simpa only [keeps_upd] using k1
      · simpa only [keeps_upd] using k1

theorem keeps_closeFrame {z0 : State} (s : State) (p : _) (cause : _) (kz : Keeps z0 s) :
    Keeps z0 (closeFrame s p cause) := by
  unfold closeFrame
  repeat' (first
    | with_reducible assumption
    | with_reducible apply keeps_fillLines
    | with_reducible apply keeps_modCsi
    | with_reducible apply keeps_addI
    | with_reducible apply keeps_ageLive
    | with_reducible apply keeps_putObject
    | with_reducible apply keeps_foldl
    | with_reducible apply keeps_pushPic
    | with_reducible apply keeps_settle
    | with_reducible apply keeps_ite
    | simp only [keeps_upd]
    | with_reducible apply keeps_foldl
    | with_reducible apply keeps_foldl1
    | with_reducible apply keeps_foldl2
    | with_reducible intro _ _ _ _
    | with_reducible intro _ _ _
    | simp only [fst_ite]
    | simp only [snd_ite]
    | split
    | dsimp only
    | refine keeps_of_fst (by with_reducible assumption) ?_
    | refine keeps_of_snd (by with_reducible assumption) ?_)

theorem keeps_goLive {z0 : State} (s : State) (x : _)  (kz : Keeps z0 s) :
    Keeps z0 (goLive s x) := by
  refine keeps_rf _ kz (fun h => ?_) id
  exact foldl_keeps (fun (t : Tbl Nat) => twf 0 t = true) _ (fun t e ht => twf_tset 0 t e.1 e.2 ht) _ _ h

theorem keeps_dropSnap {z0 : State} (s : State) (p : _) (fw : _)  (kz : Keeps z0 s) :
    Keeps z0 (dropSnap s p fw) := by
  unfold dropSnap
  repeat' (first
    | with_reducible assumption
    | with_reducible apply keeps_ite
    | simp only [keeps_upd]
    | split
    | dsimp only)

theorem keeps_noteLtr {z0 : State} (s : _) (c : State)  (kz : Keeps z0 c) :
    Keeps z0 (noteLtr s c) := by
  unfold noteLtr
  repeat' (first
    | with_reducible assumption
    | with_reducible apply keeps_emit
    | with_reducible apply keeps_ite
    | simp only [keeps_upd]
    | split
    | dsimp only)

theorem keeps_commitOne {z0 : State} (s : State) (x : _)  (kz : Keeps z0 s) :
    Keeps z0 (commitOne s x) := by
  unfold commitOne
  repeat' (first
    | with_reducible assumption
    | with_reducible apply keeps_dropSnap
    | with_reducible apply keeps_goLive
    | with_reducible apply keeps_switchOn
    | with_reducible apply keeps_setI
    | with_reducible apply keeps_noteLtr
    | with_reducible apply keeps_applied
    | with_reducible apply keeps_addI
    | with_reducible apply keeps_ite
    | simp only [keeps_upd]
    | split
    | dsimp only)

theorem keeps_commitBy {z0 : State} (s : State) (p : _) (fw : _) (frame : _)  (kz : Keeps z0 s) :
    Keeps z0 (commitBy s p fw frame) := by
  unfold commitBy
  repeat' (first
    | with_reducible assumption
    | with_reducible apply keeps_goLive
    | with_reducible apply keeps_commitOne
    | with_reducible apply keeps_ite
    | simp only [keeps_upd]
    | split
    | dsimp only)

theorem keeps_commitPage {z0 : State} (s : State) (p : _) (frame : _)  (kz : Keeps z0 s) :
    Keeps z0 (commitPage s p frame) := by
  unfold commitPage
  repeat' (first
    | with_reducible assumption
    | with_reducible apply keeps_commitBy
    | with_reducible apply keeps_ite
    | simp only [keeps_upd]
    | split
    | dsimp only)

theorem keeps_startSems {z0 : State} (s : State) (img : _)  (kz : Keeps z0 s) :
    Keeps z0 (startSems s img) := by
  unfold startSems
  repeat' (first
    | with_reducible assumption
    | with_reducible apply keeps_ite
    | simp only [keeps_upd]
    | with_reducible apply keeps_foldl
    | with_reducible intro _ _ _ _
    | with_reducible intro _ _ _
    | simp only [fst_ite]
    | simp only [snd_ite]
    | split
    | dsimp only)

theorem keeps_putPeak {z0 : State} (s : State)  (kz : Keeps z0 s) :
    Keeps z0 (putPeak s) := by
  unfold putPeak
  repeat' (first
    | with_reducible assumption
    | with_reducible apply keeps_setR
    | with_reducible apply keeps_ite
    | simp only [keeps_upd]
    | split
    | dsimp only)

theorem keeps_supersede {z0 : State} (s : State) (k : _) (p : _) (row : _)  (kz : Keeps z0 s) :
    Keeps z0 (supersede s k p row) := by
  unfold supersede
  repeat' (first
    | with_reducible assumption
    | with_reducible apply keeps_addI
    | with_reducible apply keeps_modClu
    | with_reducible apply keeps_ite
    | simp only [keeps_upd]
    | exact fun _ h => h
    | split
    | dsimp only)

theorem keeps_granWrite1 {z0 : State} (s : State) (k : _) (b : _) (off : _) (lim : _) (bytes : _) (bad : _)  (kz : Keeps z0 s) :
    Keeps z0 (granWrite1 s k b off lim bytes bad).1 := by
  have hm : ∀ (c : CluS) (a : Nat) (i : List (Nat × Nat × Option Nat)), c.canon = true →
      CluS.canon { c with mem := (c.mem.copyIn a bytes bad), inflight := i } = true :=
    fun c a i h => Mem.copyIn_wf _ _ _ _ h
  unfold granWrite1
  simp only [fst_ite]
  refine keeps_ite _ ?_ ?_
  · exact keeps_addI _ _ _ _ kz
  · refine keeps_ite _ ?_ ?_
    · exact keeps_addI _ _ _ _ (keeps_hbm _ (keeps_cancelWb _ _ kz) (fun h => Mem.copyIn_wf _ _ _ _ h))
    · have k1 := keeps_modClu _ k _ (fun c h => hm c (physAddr (bankOf s k b) off)
        ((c.inflight.filter (fun e => decide (s.now < e.2.1))) ++ [(bankOf s k b, s.now + 8, none)]) h)
        (keeps_supersede s k (bankOf s k b) (off / 64) kz)
      refine keeps_ite _ ?_ k1
      split
      · refine keeps_ite _ k1 ?_
        exact keeps_modClu _ _ _ (fun c h => hm c _ c.inflight h) (keeps_supersede _ _ _ _ k1)
      · exact k1

theorem keeps_granWriteN {z0 : State} (k width bank start lim n g : Nat) (b : List Byte) (bad : List Bool) (s : State) (kz : Keeps z0 s) :
    Keeps z0 (granWriteN k width bank start lim n g b bad s).1 := by
  induction n generalizing z0 g b bad s with
  | zero => exact kz
  | succ _ ih =>
    unfold granWriteN
    exact ih _ _ _ _ (keeps_granWrite1 _ _ _ _ _ _ _ kz)

theorem keeps_putContent {z0 : State} (s : State) (base : _) (c : _) (img : _) (kz : Keeps z0 s) :
    Keeps z0 (putContent s base c img) := by
  unfold putContent
  refine keeps_foldl _ _ _ (fun y t x k => ?_) kz
  dsimp only
  refine keeps_ite _ (keeps_ite _ (keeps_hbmPut _ _ _ k) k) ?_
  split
  · exact k
  · exact keeps_ite _ (keeps_foldl _ _ _ (fun _ _ _ h => keeps_granWriteN _ _ _ _ _ _ _ _ _ _ h) k) k

theorem keeps_commitPlan {z0 : State} (s : State) (i : _) (img : _) (kz : Keeps z0 s) :
    Keeps z0 (commitPlan s i img) := by
  unfold commitPlan
  repeat' (first
    | with_reducible assumption
    | with_reducible apply keeps_putContent
    | with_reducible apply keeps_startSems
    | with_reducible apply keeps_modPlan
    | with_reducible apply keeps_setMin
    | with_reducible apply keeps_setS
    | with_reducible apply keeps_setR
    | with_reducible apply keeps_putPeak
    | with_reducible apply keeps_ite
    | simp only [keeps_upd]
    | with_reducible apply keeps_foldl
    | with_reducible apply keeps_foldl1
    | with_reducible apply keeps_foldl2
    | with_reducible intro _ _ _ _
    | with_reducible intro _ _ _
    | simp only [fst_ite]
    | simp only [snd_ite]
    | split
    | dsimp only
    | refine keeps_of_fst (by with_reducible assumption) ?_
    | refine keeps_of_snd (by with_reducible assumption) ?_)

theorem keeps_commitService {z0 : State} (s : State)  (kz : Keeps z0 s) :
    Keeps z0 (commitService s) := by
  unfold commitService
  repeat' (first
    | with_reducible assumption
    | with_reducible apply keeps_setPhase
    | with_reducible apply keeps_writeRecord
    | with_reducible apply keeps_setR
    | with_reducible apply keeps_ite
    | simp only [keeps_upd]
    | split
    | dsimp only)

theorem keeps_consume {z0 : State} (s : State) (n : _)  (kz : Keeps z0 s) :
    Keeps z0 (consume s n) := by
  unfold consume
  repeat' (first
    | with_reducible assumption
    | with_reducible apply keeps_modSlot
    | with_reducible apply keeps_setS
    | with_reducible apply keeps_ite
    | simp only [keeps_upd]
    | split
    | dsimp only)

theorem keeps_laterRow {z0 : State} (s : State) (k : _) (p : _) (row : _) (kz : Keeps z0 s) :
    Keeps z0 (laterRow s k p row) := by
  unfold laterRow
  repeat' (first
    | with_reducible assumption
    | with_reducible apply keeps_modClu
    | with_reducible apply keeps_ite
    | simp only [keeps_upd]
    | with_reducible apply keeps_foldl
    | with_reducible apply keeps_foldl1
    | with_reducible apply keeps_foldl2
    | exact fun _ h => h
    | exact fun _ _ => rfl
    | with_reducible intro _ _ _ _
    | with_reducible intro _ _ _
    | simp only [fst_ite]
    | simp only [snd_ite]
    | split
    | dsimp only
    | refine keeps_of_fst (by with_reducible assumption) ?_
    | refine keeps_of_snd (by with_reducible assumption) ?_)

theorem keeps_noteScrub {z0 : State} (s : State) (k : _) (p : _) (a : _) (i : _) (kz : Keeps z0 s) :
    Keeps z0 (noteScrub s k p a i) := by
  unfold noteScrub
  repeat' (first
    | with_reducible assumption
    | with_reducible apply keeps_noteErr
    | with_reducible apply keeps_safNow
    | with_reducible apply keeps_addI
    | with_reducible apply keeps_ite
    | simp only [keeps_upd]
    | with_reducible apply keeps_foldl
    | with_reducible apply keeps_foldl1
    | with_reducible apply keeps_foldl2
    | exact fun _ h => h
    | exact fun _ _ => rfl
    | with_reducible intro _ _ _ _
    | with_reducible intro _ _ _
    | simp only [fst_ite]
    | simp only [snd_ite]
    | split
    | dsimp only
    | refine keeps_of_fst (by with_reducible assumption) ?_
    | refine keeps_of_snd (by with_reducible assumption) ?_)

theorem keeps_copyStep {z0 : State} (s : State) (k : _)  (kz : Keeps z0 s) :
    Keeps z0 (copyStep s k) := by
  have hc : ∀ (x : Mem) (a : Nat) (b : List Byte) (bad : List Bool), x.wf = true → ∀ (c : CluS) d e,
      (CluS.canon { c with mem := x.copyIn a b bad, copyRow := d, copyDone := e }) = true :=
    fun x a b bad hx c d e => Mem.copyIn_wf _ _ _ _ hx
  unfold copyStep
  split
  · rename_i row q _ _
    dsimp only
    refine keeps_ite _ (keeps_setI _ _ _ _ (keeps_modClu _ _ _ (fun _ h => h) kz)) ?_
    have k1 := keeps_noteScrub s k (regI s F.CLU_BANK_STATE_COPY_SRC k) (physAddr (regI s F.CLU_BANK_STATE_COPY_SRC k) (row * 64))
      ((clu s k).mem.info (physAddr (regI s F.CLU_BANK_STATE_COPY_SRC k) (row * 64)) 64) kz
    have k2 := keeps_supersede _ k q row (keeps_ite
      (((clu s k).mem.info (physAddr (regI s F.CLU_BANK_STATE_COPY_SRC k) (row * 64)) 64).ce = 0) k1
      (keeps_laterRow _ k (regI s F.CLU_BANK_STATE_COPY_SRC k) row k1))
    refine keeps_ite _ ?_ (keeps_setI _ _ _ _ ?_)
    · exact keeps_clu _ _ k2 (fun _ c => hc _ _ _ _ (c.clu _) _ _ _)
    · exact keeps_clu _ _ k2 (fun _ c => hc _ _ _ _ (c.clu _) _ _ _)
  · exact kz

theorem keeps_noSpare {z0 : State} (s : State) (k : _) (p : _) (items : _)  (kz : Keeps z0 s) :
    Keeps z0 (noSpare s k p items) := by
  unfold noSpare
  repeat' (first
    | with_reducible assumption
    | with_reducible apply keeps_safNow
    | with_reducible apply keeps_setSpare
    | with_reducible apply keeps_checkCluster
    | with_reducible apply keeps_relaunchAll
    | with_reducible apply keeps_ite
    | simp only [keeps_upd]
    | split
    | dsimp only)

theorem keeps_coreReact {z0 : State} (s : State) (p : _) (detail : _)  (kz : Keeps z0 s) :
    Keeps z0 (coreReact s p detail) := by
  unfold coreReact
  repeat' (first
    | with_reducible assumption
    | with_reducible apply keeps_skipAll
    | with_reducible apply keeps_saf
    | with_reducible apply keeps_failItems
    | with_reducible apply keeps_retireCore
    | with_reducible apply keeps_checkCluster
    | with_reducible apply keeps_relaunchAll
    | with_reducible apply keeps_safNow
    | with_reducible apply keeps_setSpare
    | with_reducible apply keeps_noSpare
    | with_reducible apply keeps_ite
    | simp only [keeps_upd]
    | split
    | dsimp only)

theorem keeps_coreFault {z0 : State} (s : State) (p : _) (detail : _)  (kz : Keeps z0 s) :
    Keeps z0 (coreFault s p detail) := by
  unfold coreFault
  repeat' (first
    | with_reducible assumption
    | with_reducible apply keeps_modCore
    | with_reducible apply keeps_coreReact
    | with_reducible apply keeps_ite
    | simp only [keeps_upd]
    | exact fun _ h => h
    | split
    | dsimp only)

theorem keeps_countWait {z0 : State} (s : State) (it : _) (st : _)  (kz : Keeps z0 s) :
    Keeps z0 (countWait s it st) := by
  unfold countWait
  repeat' (first
    | with_reducible assumption
    | with_reducible apply keeps_modItem
    | with_reducible apply keeps_ite
    | simp only [keeps_upd]
    | split
    | dsimp only)

theorem keeps_takeBuffers {z0 : State} {s : State} {it : _}  {t : State} (h : takeBuffers s it = some t) (kz : Keeps z0 s) :
    Keeps z0 t := by
  unfold takeBuffers at h
  have key : ∀ (l : List ShapeStage) (a : Option State), (∀ u, a = some u → Keeps z0 u) →
      ∀ u, l.foldl (fun a g => match a with
        | none => none
        | some t =>
          match cooperAlloc t (256 + planIdx it.e.plan) g.outBytes (imgOf s it.e).hdr.pools (some it.key) with
          | (u, some h) => some (modItem u it.key (fun x => { x with bufs := x.bufs ++ [h] }))
          | (_, none) => none) a = some u → Keeps z0 u := by
    intro l
    induction l with
    | nil => intro a ha u hu; exact ha u hu
    | cons g l ih =>
      intro a ha u hu
      refine ih _ ?_ u hu
      intro v hv
      cases a with
      | none => cases hv
      | some t =>
        simp only at hv
        split at hv
        · rename_i heq
          cases hv
          have k1 := keeps_cooperAlloc t (256 + planIdx it.e.plan) g.outBytes (imgOf s it.e).hdr.pools (some it.key) (ha t rfl)
          rw [heq] at k1
          exact keeps_modItem _ _ _ k1
        · cases hv
  exact key _ (some s) (fun u hu => by cases hu; exact kz) t h

theorem keeps_decideChecks {z0 : State} (s : State) (k : _)  (kz : Keeps z0 s) :
    Keeps z0 (decideChecks s k) := by
  unfold decideChecks
  repeat' (first
    | with_reducible assumption
    | with_reducible apply keeps_endItemWith
    | with_reducible apply keeps_endItem
    | with_reducible apply keeps_modItem
    | with_reducible apply keeps_ite
    | simp only [keeps_upd]
    | split
    | refine keeps_takeBuffers (by with_reducible assumption) ?_
    | dsimp only)

theorem keeps_pruneResv {z0 : State} (s : State)  (kz : Keeps z0 s) :
    Keeps z0 (pruneResv s) := by
  unfold pruneResv
  repeat' (first
    | with_reducible assumption
    | with_reducible apply keeps_ite
    | simp only [keeps_upd]
    | split
    | dsimp only)

theorem keeps_takeCores {z0 : State} (s : State) (k : _) (ls : _) (lo : _) (hi : _)  (kz : Keeps z0 s) :
    Keeps z0 (takeCores s k ls lo hi) := by
  unfold takeCores
  repeat' (first
    | with_reducible assumption
    | with_reducible apply keeps_preemptOn
    | with_reducible apply keeps_modItem
    | with_reducible apply keeps_ite
    | simp only [keeps_upd]
    | split
    | dsimp only)

theorem keeps_decidePinned {z0 : State} (s : State) (it : _)  (kz : Keeps z0 s) :
    Keeps z0 (decidePinned s it) := by
  unfold decidePinned
  repeat' (first
    | with_reducible assumption
    | with_reducible apply keeps_modItem
    | with_reducible apply keeps_pruneResv
    | with_reducible apply keeps_takeCores
    | with_reducible apply keeps_decideChecks
    | with_reducible apply keeps_addR
    | with_reducible apply keeps_endItem
    | with_reducible apply keeps_safNow
    | with_reducible apply keeps_ite
    | simp only [keeps_upd]
    | split
    | dsimp only)

theorem keeps_modDec {z0 : State} (s : State) (i : _) (f : _)  (kz : Keeps z0 s) :
    Keeps z0 (modDec s i f) := by
  unfold modDec
  repeat' (first
    | with_reducible assumption
    | with_reducible apply keeps_ite
    | simp only [keeps_upd]
    | split
    | dsimp only)

theorem keeps_decoderFault {z0 : State} (s : State) (c : _) (kz : Keeps z0 s) :
    Keeps z0 (decoderFault s c) := by
  unfold decoderFault
  repeat' (first
    | with_reducible assumption
    | with_reducible apply keeps_addI
    | with_reducible apply keeps_modDec
    | with_reducible apply keeps_fwEvent
    | with_reducible apply keeps_setR
    | with_reducible apply keeps_ite
    | simp only [keeps_upd]
    | with_reducible apply keeps_foldl
    | with_reducible apply keeps_foldl1
    | with_reducible apply keeps_foldl2
    | with_reducible intro _ _ _ _
    | with_reducible intro _ _ _
    | simp only [fst_ite]
    | simp only [snd_ite]
    | split
    | dsimp only
    | refine keeps_of_fst (by with_reducible assumption) ?_
    | refine keeps_of_snd (by with_reducible assumption) ?_)

theorem keeps_detectHandOff {z0 : State} (s : State) (k : _) (plan : _) (b : _) (cands : _)  (kz : Keeps z0 s) :
    Keeps z0 (detectHandOff s k plan b cands) := by
  unfold detectHandOff
  repeat' (first
    | with_reducible assumption
    | with_reducible apply keeps_addR
    | with_reducible apply keeps_evtTrack
    | with_reducible apply keeps_flagItem
    | with_reducible apply keeps_modTrkSlot
    | with_reducible apply keeps_ite
    | simp only [keeps_upd]
    | split
    | dsimp only)

theorem keeps_disableRing {z0 : State} (s : State) (k : _)  (kz : Keeps z0 s) :
    Keeps z0 (disableRing s k) := by
  unfold disableRing
  repeat' (first
    | with_reducible assumption
    | with_reducible apply keeps_orphanQueue
    | with_reducible apply keeps_putBoth
    | with_reducible apply keeps_ite
    | simp only [keeps_upd]
    | split
    | dsimp only)

theorem keeps_done_ {z0 : State} (s : State) (r : _) (cmd : _) (p : _)  (kz : Keeps z0 s) :
    Keeps z0 (done_ s r cmd p) := by
  unfold done_
  repeat' (first
    | with_reducible assumption
    | with_reducible apply keeps_reply_
    | with_reducible apply keeps_ite
    | simp only [keeps_upd]
    | split
    | dsimp only)

theorem keeps_drift {z0 : State} (s : State) (e : _)  (kz : Keeps z0 s) :
    Keeps z0 (drift s e) := by
  unfold drift
  repeat' (first
    | with_reducible assumption
    | with_reducible apply keeps_safNow
    | with_reducible apply keeps_addR
    | with_reducible apply keeps_ite
    | simp only [keeps_upd]
    | split
    | dsimp only)

theorem keeps_dropHolds {z0 : State} (s : State) (k : _)  (kz : Keeps z0 s) :
    Keeps z0 (dropHolds s k) := by
  unfold dropHolds
  repeat' (first
    | with_reducible assumption
    | with_reducible apply keeps_ite
    | simp only [keeps_upd]
    | split
    | dsimp only)

theorem keeps_dropRecord {z0 : State} (s : State) (ty : _) (key : _)  (kz : Keeps z0 s) :
    Keeps z0 (dropRecord s ty key) := by
  unfold dropRecord
  repeat' (first
    | with_reducible assumption
    | with_reducible apply keeps_queueOps
    | with_reducible apply keeps_ite
    | simp only [keeps_upd]
    | split
    | dsimp only)

theorem keeps_dropModelKeys {z0 : State} (s : State)  (kz : Keeps z0 s) :
    Keeps z0 (dropModelKeys s) := by
  unfold dropModelKeys
  repeat' (first
    | with_reducible assumption
    | with_reducible apply keeps_dropRecord
    | with_reducible apply keeps_ite
    | simp only [keeps_upd]
    | with_reducible apply keeps_foldl
    | with_reducible apply keeps_foldl1
    | with_reducible intro _ _ _ _
    | with_reducible intro _ _ _
    | simp only [fst_ite]
    | simp only [snd_ite]
    | split
    | dsimp only)

theorem keeps_dropPlans {z0 : State} (s : State) (kz : Keeps z0 s) :
    Keeps z0 (dropPlans s) := by
  unfold dropPlans
  repeat' (first
    | with_reducible assumption
    | with_reducible apply keeps_endItems
    | with_reducible apply keeps_settlePlan
    | with_reducible apply keeps_modPlan
    | with_reducible apply keeps_ite
    | simp only [keeps_upd]
    | with_reducible apply keeps_foldl
    | with_reducible apply keeps_foldl1
    | with_reducible apply keeps_foldl2
    | exact fun _ h => h
    | exact fun _ _ => rfl
    | with_reducible intro _ _ _ _
    | with_reducible intro _ _ _
    | simp only [fst_ite]
    | simp only [snd_ite]
    | split
    | dsimp only
    | refine keeps_of_fst (by with_reducible assumption) ?_
    | refine keeps_of_snd (by with_reducible assumption) ?_)

theorem keeps_dropRead {z0 : State} (s : State) (r : _) (tag : _)  (kz : Keeps z0 s) :
    Keeps z0 (dropRead s r tag) := by
  unfold dropRead
  repeat' (first
    | with_reducible assumption
    | with_reducible apply keeps_ite
    | simp only [keeps_upd]
    | split
    | dsimp only)

theorem keeps_dropRun {z0 : State} (s : State) (g : _)  (kz : Keeps z0 s) :
    Keeps z0 (dropRun s g) := by
  unfold dropRun
  repeat' (first
    | with_reducible assumption
    | with_reducible apply keeps_ite
    | simp only [keeps_upd]
    | split
    | dsimp only)

theorem keeps_yieldEntry {z0 : State} (s : State) (i : _)  (kz : Keeps z0 s) :
    Keeps z0 (yieldEntry s i) := by
  unfold yieldEntry
  repeat' (first
    | with_reducible assumption
    | with_reducible apply keeps_addR
    | with_reducible apply keeps_modPlan
    | with_reducible apply keeps_ite
    | simp only [keeps_upd]
    | split
    | dsimp only)

theorem keeps_dropServices {z0 : State} (s : State)  (kz : Keeps z0 s) :
    Keeps z0 (dropServices s) := by
  unfold dropServices
  repeat' (first
    | with_reducible assumption
    | with_reducible apply keeps_dropReads
    | with_reducible apply keeps_reply_
    | with_reducible apply keeps_addR
    | with_reducible apply keeps_yieldEntry
    | with_reducible apply keeps_ite
    | simp only [keeps_upd]
    | split
    | dsimp only)

theorem keeps_dropUpdateOps {z0 : State} (s : State)  (kz : Keeps z0 s) :
    Keeps z0 (dropUpdateOps s) := by
  unfold dropUpdateOps
  repeat' (first
    | with_reducible assumption
    | with_reducible apply keeps_ite
    | simp only [keeps_upd]
    | split
    | dsimp only)

theorem keeps_earlyStart {z0 : State} (s : State) (p : _)  (kz : Keeps z0 s) :
    Keeps z0 (earlyStart s p) := by
  unfold earlyStart
  repeat' (first
    | with_reducible assumption
    | with_reducible apply keeps_closeFrame
    | with_reducible apply keeps_modCsi
    | with_reducible apply keeps_addI
    | with_reducible apply keeps_ite
    | simp only [keeps_upd]
    | split
    | dsimp only)

theorem keeps_resumeStep {z0 : State} (s : State) (kz : Keeps z0 s) :
    Keeps z0 (resumeStep s) := by
  unfold resumeStep
  repeat' (first
    | with_reducible assumption
    | with_reducible apply keeps_ite
    | simp only [keeps_upd]
    | with_reducible apply keeps_foldl
    | with_reducible apply keeps_foldl1
    | with_reducible apply keeps_foldl2
    | exact fun _ h => h
    | exact fun _ _ => rfl
    | with_reducible intro _ _ _ _
    | with_reducible intro _ _ _
    | simp only [fst_ite]
    | simp only [snd_ite]
    | split
    | dsimp only
    | refine keeps_of_fst (by with_reducible assumption) ?_
    | refine keeps_of_snd (by with_reducible assumption) ?_)

theorem keeps_embedHandOff {z0 : State} (s : State) (plan : _) (n : _) (seq : _) (bytes : _) (kz : Keeps z0 s) :
    Keeps z0 (embedHandOff s plan n seq bytes) := by
  unfold embedHandOff
  repeat' (first
    | with_reducible assumption
    | with_reducible apply keeps_addR
    | with_reducible apply keeps_resumeStep
    | with_reducible apply keeps_ite
    | simp only [keeps_upd]
    | with_reducible apply keeps_foldl
    | with_reducible apply keeps_foldl1
    | with_reducible apply keeps_foldl2
    | exact fun _ h => h
    | exact fun _ _ => rfl
    | with_reducible intro _ _ _ _
    | with_reducible intro _ _ _
    | simp only [fst_ite]
    | simp only [snd_ite]
    | split
    | dsimp only
    | refine keeps_of_fst (by with_reducible assumption) ?_
    | refine keeps_of_snd (by with_reducible assumption) ?_)

theorem keeps_tokSource {z0 : State} (s : State) (it : _) (utt : _) (kz : Keeps z0 s) : Keeps z0 (tokSource s it utt).2 := by
  unfold tokSource
  split
  · exact kz
  · exact kz
  · exact keeps_fresh _ kz

theorem keeps_emitOne {z0 : State} (s : State) (it : _) (b : _) (kz : Keeps z0 s) :
    Keeps z0 (emitOne s it b) := by
  unfold emitOne
  repeat' (first
    | with_reducible assumption
    | with_reducible apply keeps_pushRec
    | with_reducible apply keeps_tokSource
    | with_reducible apply keeps_flagItem
    | with_reducible apply keeps_ite
    | simp only [keeps_upd]
    | with_reducible apply keeps_foldl
    | with_reducible apply keeps_foldl1
    | with_reducible apply keeps_foldl2
    | exact fun _ h => h
    | exact fun _ _ => rfl
    | with_reducible intro _ _ _ _
    | with_reducible intro _ _ _
    | simp only [fst_ite]
    | simp only [snd_ite]
    | split
    | dsimp only
    | refine keeps_of_fst (by with_reducible assumption) ?_
    | refine keeps_of_snd (by with_reducible assumption) ?_)

theorem keeps_emitAll {z0 : State} (it : _) (a1 : _) (a2 : _) (a3 : State)  (kz : Keeps z0 a3) :
    Keeps z0 (emitAll it a1 a2 a3) := by
  induction a1 generalizing z0 a2 a3 with
  | zero => 
    unfold emitAll
    repeat' (first
    | with_reducible assumption
    | with_reducible apply keeps_emitOne
    | with_reducible apply keeps_ite
    | simp only [keeps_upd]
    | split
    | dsimp only)
  | succ _ ih =>
    unfold emitAll
    repeat' (first
    | with_reducible assumption
    | with_reducible apply keeps_emitOne
    | with_reducible apply ih
    | with_reducible apply keeps_ite
    | simp only [keeps_upd]
    | split
    | dsimp only)

theorem keeps_emitSlice {z0 : State} (s : State) (e : _) (p : _) (k : _) (kz : Keeps z0 s) :
    Keeps z0 (emitSlice s e p k) := by
  unfold emitSlice
  repeat' (first
    | with_reducible assumption
    | with_reducible apply keeps_addPairI
    | with_reducible apply keeps_foldl
    | with_reducible apply keeps_pushRec
    | with_reducible apply keeps_ite
    | simp only [keeps_upd]
    | with_reducible apply keeps_foldl
    | with_reducible apply keeps_foldl1
    | with_reducible apply keeps_foldl2
    | exact fun _ h => h
    | exact fun _ _ => rfl
    | with_reducible intro _ _ _ _
    | with_reducible intro _ _ _
    | simp only [fst_ite]
    | simp only [snd_ite]
    | split
    | dsimp only
    | refine keeps_of_fst (by with_reducible assumption) ?_
    | refine keeps_of_snd (by with_reducible assumption) ?_)

theorem keeps_issued {z0 : State} (s : State) (p : _) (cmd : _) (e : _) (cycles : _)  (kz : Keeps z0 s) :
    Keeps z0 (issued s p cmd e cycles) := by
  unfold issued
  refine keeps_modCore _ _ _ (fun c h => ?_) kz
  have hb := CoreS.canon_busy c e (2 * s.now + cycles) h
  rw [CoreS.canon_iff] at hb ⊢
  exact hb

theorem keeps_usePhase3 {z0 : State} (s : State) (p : _) (n : _) (kz : Keeps z0 s) :
    Keeps z0 (usePhase3 s p n) := by
  unfold usePhase3
  repeat' (first
    | with_reducible assumption
    | with_reducible apply keeps_ite
    | simp only [keeps_upd]
    | with_reducible apply keeps_foldl
    | with_reducible apply keeps_foldl1
    | with_reducible apply keeps_foldl2
    | exact fun _ h => h
    | exact fun _ _ => rfl
    | with_reducible intro _ _ _ _
    | with_reducible intro _ _ _
    | simp only [fst_ite]
    | simp only [snd_ite]
    | split
    | dsimp only
    | refine keeps_of_fst (by with_reducible assumption) ?_
    | refine keeps_of_snd (by with_reducible assumption) ?_)

theorem CoreS.canon_writeBackRows (c : CoreS) (n : Nat) (h : c.canon = true) : (c.writeBackRows n).canon = true :=
  foldl_keeps (fun (x : CoreS) => x.canon = true) (fun (x : CoreS) (e : Bin × Nat) => x.setBin e.1 ((x.bin e.1).writeBack (e.2 * e.1.row) e.1.row))
    (fun x e hx => CoreS.canon_setBin _ _ _ hx (Mem.writeBack_wf _ _ _ (CoreS.canon_bin _ _ hx))) (c.wbq.take n) c h

theorem keeps_flushBins {z0 : State} (s : State) (p : _)  (kz : Keeps z0 s) :
    Keeps z0 (flushBins s p) := by
  unfold flushBins
  exact keeps_modCore _ _ _ (fun c h => CoreS.canon_writeBackRows c _ h) (keeps_usePhase3 _ _ _ kz)

theorem keeps_settleMarks {z0 : State} (s : State) (n : _)  (kz : Keeps z0 s) :
    Keeps z0 (settleMarks s n) := by
  unfold settleMarks
  repeat' (first
    | with_reducible assumption
    | with_reducible apply keeps_modSlot
    | with_reducible apply keeps_ite
    | simp only [keeps_upd]
    | split
    | dsimp only)

theorem keeps_endDecode {z0 : State} (s : State) (n : _)  (kz : Keeps z0 s) :
    Keeps z0 (endDecode s n) := by
  unfold endDecode
  repeat' (first
    | with_reducible assumption
    | with_reducible apply keeps_finishClose
    | with_reducible apply keeps_settleMarks
    | with_reducible apply keeps_modSlot
    | with_reducible apply keeps_ite
    | simp only [keeps_upd]
    | split
    | dsimp only)

theorem keeps_endHostWork {z0 : State} (s : State)  (kz : Keeps z0 s) :
    Keeps z0 (endHostWork s) := by
  unfold endHostWork
  repeat' (first
    | with_reducible assumption
    | with_reducible apply keeps_stopEncoder
    | with_reducible apply keeps_closeAll
    | with_reducible apply keeps_endItems
    | with_reducible apply keeps_closeSlot
    | with_reducible apply keeps_ite
    | simp only [keeps_upd]
    | with_reducible apply keeps_foldl
    | with_reducible apply keeps_foldl1
    | with_reducible intro _ _ _ _
    | with_reducible intro _ _ _
    | simp only [fst_ite]
    | simp only [snd_ite]
    | split
    | dsimp only)

theorem keeps_putSickle {z0 : State} (s : State) (u : _) (x : _)  (kz : Keeps z0 s) :
    Keeps z0 (putSickle s u x) := by
  unfold putSickle
  repeat' (first
    | with_reducible assumption
    | with_reducible apply keeps_ite
    | simp only [keeps_upd]
    | split
    | dsimp only)

theorem keeps_markDone {z0 : State} (s : State) (k : _) (g : _)  (kz : Keeps z0 s) :
    Keeps z0 (markDone s k g) := by
  unfold markDone
  repeat' (first
    | with_reducible assumption
    | with_reducible apply keeps_ite
    | simp only [keeps_upd]
    | split
    | dsimp only)

theorem keeps_queueRow {z0 : State} (s : State) (k : _) (p : _) (row : _)  (kz : Keeps z0 s) :
    Keeps z0 (queueRow s k p row) := by
  unfold queueRow
  repeat' (first
    | with_reducible assumption
    | with_reducible apply keeps_modClu
    | with_reducible apply keeps_addI
    | with_reducible apply keeps_ite
    | simp only [keeps_upd]
    | exact fun _ h => h
    | split
    | dsimp only)

theorem keeps_granRead1 {z0 : State} (s : State) (k : _) (b : _) (off : _) (lim : _) (kz : Keeps z0 s) :
    Keeps z0 (granRead1 s k b off lim).1 := by
  unfold granRead1
  repeat' (first
    | with_reducible assumption
    | with_reducible apply keeps_addI
    | with_reducible apply keeps_noteHbm
    | with_reducible apply keeps_noteErr
    | with_reducible apply keeps_laterRow
    | with_reducible apply keeps_ite
    | simp only [keeps_upd]
    | with_reducible apply keeps_foldl
    | with_reducible apply keeps_foldl1
    | with_reducible apply keeps_foldl2
    | exact fun _ h => h
    | exact fun _ _ => rfl
    | with_reducible intro _ _ _ _
    | with_reducible intro _ _ _
    | simp only [fst_ite]
    | simp only [snd_ite]
    | split
    | dsimp only
    | refine keeps_of_fst (by with_reducible assumption) ?_
    | refine keeps_of_snd (by with_reducible assumption) ?_)

theorem keeps_granPatch {z0 : State} (s : State) (k : _) (sp : _) (g : _) (off : _) (b : _) (kz : Keeps z0 s) :
    Keeps z0 (granPatch s k sp g off b).1 := by
  unfold granPatch
  repeat' (first
    | with_reducible assumption
    | with_reducible apply keeps_granWrite1
    | with_reducible apply keeps_granRead1
    | with_reducible apply keeps_ite
    | simp only [keeps_upd]
    | with_reducible apply keeps_foldl
    | with_reducible apply keeps_foldl1
    | with_reducible apply keeps_foldl2
    | exact fun _ h => h
    | exact fun _ _ => rfl
    | with_reducible intro _ _ _ _
    | with_reducible intro _ _ _
    | simp only [fst_ite]
    | simp only [snd_ite]
    | split
    | dsimp only
    | refine keeps_of_fst (by with_reducible assumption) ?_
    | refine keeps_of_snd (by with_reducible assumption) ?_)

theorem keeps_stripeOut {z0 : State} (cl : _) (sp : _) (a2 : _) (a3 : _) (a4 : _) (a5 : State)  (kz : Keeps z0 a5) :
    Keeps z0 (stripeOut cl sp a2 a3 a4 a5).1 := by
  induction a2 generalizing z0 a3 a4 a5 with
  | zero => 
    unfold stripeOut
    repeat' (first
    | with_reducible assumption
    | with_reducible apply keeps_granPatch
    | with_reducible apply keeps_ite
    | simp only [keeps_upd]
    | simp only [fst_ite]
    | simp only [snd_ite]
    | split
    | dsimp only)
  | succ _ ih =>
    unfold stripeOut
    repeat' (first
    | with_reducible assumption
    | with_reducible apply keeps_granPatch
    | with_reducible apply ih
    | with_reducible apply keeps_ite
    | simp only [keeps_upd]
    | simp only [fst_ite]
    | simp only [snd_ite]
    | split
    | dsimp only)

theorem keeps_endSickle {z0 : State} (s : State) (u : _) (it : _) (st : _) (g : _) (kz : Keeps z0 s) :
    Keeps z0 (endSickle s u it st g) := by
  unfold endSickle
  repeat' (first
    | with_reducible assumption
    | with_reducible apply keeps_addI
    | with_reducible apply keeps_putSickle
    | with_reducible apply keeps_markDone
    | with_reducible apply keeps_stripeOut
    | with_reducible apply keeps_foldl
    | with_reducible apply keeps_nameWrites
    | with_reducible apply keeps_afterPut
    | with_reducible apply keeps_ite
    | simp only [keeps_upd]
    | with_reducible apply keeps_foldl
    | with_reducible apply keeps_foldl1
    | with_reducible apply keeps_foldl2
    | exact fun _ h => h
    | exact fun _ _ => rfl
    | with_reducible intro _ _ _ _
    | with_reducible intro _ _ _
    | simp only [fst_ite]
    | simp only [snd_ite]
    | split
    | dsimp only
    | refine keeps_of_fst (by with_reducible assumption) ?_
    | refine keeps_of_snd (by with_reducible assumption) ?_)

theorem keeps_putLife {z0 : State} (alpha : _) (embs : _) (s : State) (y : _)  (kz : Keeps z0 s) :
    Keeps z0 (putLife alpha embs s y) := by
  unfold putLife
  repeat' (first
    | with_reducible assumption
    | with_reducible apply keeps_ite
    | simp only [keeps_upd]
    | split
    | dsimp only)

theorem keeps_putRoi {z0 : State} (s : State) (n : _) (seq : _) (src : _) (kz : Keeps z0 s) :
    Keeps z0 (putRoi s n seq src) := by
  unfold putRoi
  repeat' (first
    | with_reducible assumption
    | with_reducible apply keeps_modCsi
    | with_reducible apply keeps_putWins
    | with_reducible apply keeps_settle
    | with_reducible apply keeps_ite
    | simp only [keeps_upd]
    | with_reducible apply keeps_foldl
    | with_reducible apply keeps_foldl1
    | with_reducible apply keeps_foldl2
    | with_reducible intro _ _ _ _
    | with_reducible intro _ _ _
    | simp only [fst_ite]
    | simp only [snd_ite]
    | split
    | dsimp only
    | refine keeps_of_fst (by with_reducible assumption) ?_
    | refine keeps_of_snd (by with_reducible assumption) ?_)

theorem keeps_endStep {z0 : State} (s : State) (x : _) (r : _) (kz : Keeps z0 s) :
    Keeps z0 (endStep s x r) := by
  unfold endStep
  repeat' (first
    | with_reducible assumption
    | with_reducible apply keeps_freeTrack
    | with_reducible apply keeps_putLife
    | with_reducible apply keeps_foldl
    | with_reducible apply keeps_pushRec
    | with_reducible apply keeps_evtTrack
    | with_reducible apply keeps_safNow
    | with_reducible apply keeps_addR
    | with_reducible apply keeps_modTrkSlot
    | with_reducible apply keeps_putRoi
    | with_reducible apply keeps_refreshTrk
    | with_reducible apply keeps_resumeStep
    | with_reducible apply keeps_retireAll
    | with_reducible apply keeps_ite
    | simp only [keeps_upd]
    | with_reducible apply keeps_foldl
    | with_reducible apply keeps_foldl1
    | with_reducible apply keeps_foldl2
    | exact fun _ h => h
    | exact fun _ _ => rfl
    | with_reducible intro _ _ _ _
    | with_reducible intro _ _ _
    | simp only [fst_ite]
    | simp only [snd_ite]
    | split
    | dsimp only
    | refine keeps_of_fst (by with_reducible assumption) ?_
    | refine keeps_of_snd (by with_reducible assumption) ?_)

theorem keeps_issueRead {z0 : State} (id : _) (a1 : _) (a2 : State)  (kz : Keeps z0 a2) :
    Keeps z0 (issueRead id a1 a2) := by
  induction a1 generalizing z0 a2 with
  | zero => 
    unfold issueRead
    repeat' (first
    | with_reducible assumption
    | with_reducible apply keeps_emit
    | with_reducible apply keeps_ite
    | simp only [keeps_upd]
    | split
    | dsimp only)
  | succ _ ih =>
    unfold issueRead
    repeat' (first
    | with_reducible assumption
    | with_reducible apply keeps_emit
    | with_reducible apply ih
    | with_reducible apply keeps_ite
    | simp only [keeps_upd]
    | split
    | dsimp only)

theorem keeps_startRead {z0 : State} {s : State} {kind : _} {addr : _} {len : _} {keep : _}  {t : State} (h : startRead s kind addr len keep = some t) (kz : Keeps z0 s) :
    Keeps z0 t := by
  unfold startRead at h
  repeat' (split at h)
  all_goals (try (simp only [Option.some.injEq, reduceCtorEq] at h))
  all_goals (try subst h)
  all_goals (repeat' (first
 | with_reducible assumption
    | with_reducible apply keeps_issueRead
    | with_reducible apply keeps_ite
    | simp only [keeps_upd]
    | split
    | dsimp only))

theorem keeps_fetchFor {z0 : State} (s : State) (k : _) (kind : _) (addr : _) (len : _) (mark : _)  (kz : Keeps z0 s) :
    Keeps z0 (fetchFor s k kind addr len mark) := by
  unfold fetchFor
  repeat' (first
    | with_reducible assumption
    | with_reducible apply keeps_modItem
    | with_reducible apply keeps_addR
    | with_reducible apply keeps_ite
    | simp only [keeps_upd]
    | split
    | refine keeps_startRead (by with_reducible assumption) ?_
    | dsimp only)

theorem keeps_enqueue {z0 : State} (s : State) (it : _)  (kz : Keeps z0 s) :
    Keeps z0 (enqueue s it) := by
  unfold enqueue
  repeat' (first
    | with_reducible assumption
    | with_reducible apply keeps_addItem
    | with_reducible apply keeps_fetchFor
    | with_reducible apply keeps_settle
    | with_reducible apply keeps_ite
    | simp only [keeps_upd]
    | split
    | dsimp only)

theorem keeps_modBlock {z0 : State} (s : State) (b : _) (f : _)  (kz : Keeps z0 s) :
    Keeps z0 (modBlock s b f) := by
  unfold modBlock
  repeat' (first
    | with_reducible assumption
    | with_reducible apply keeps_ite
    | simp only [keeps_upd]
    | split
    | dsimp only)

theorem keeps_eraseBlock {z0 : State} (s : State) (b : _)  (kz : Keeps z0 s) :
    Keeps z0 (eraseBlock s b) := by
  unfold eraseBlock
  repeat' (first
    | with_reducible assumption
    | with_reducible apply keeps_addR
    | with_reducible apply keeps_modBlock
    | with_reducible apply keeps_ite
    | simp only [keeps_upd]
    | split
    | dsimp only)

theorem keeps_guardOn {z0 : State} (c : _) (s : State) (f : _) (hf : ∀ y z0, Keeps y z0 → Keeps y (f z0)) (kz : Keeps z0 s) :
    Keeps z0 (guardOn c s f) := by
  unfold guardOn
  repeat' (first
    | with_reducible assumption
    | with_reducible apply hf
    | with_reducible apply keeps_ite
    | simp only [keeps_upd]
    | split
    | dsimp only)

theorem keeps_gradeLevels {z0 : State} (s : State)  (kz : Keeps z0 s) :
    Keeps z0 (gradeLevels s) := by
  unfold gradeLevels
  repeat' (first
    | with_reducible assumption
    | with_reducible apply keeps_setR
    | with_reducible apply keeps_putBoth
    | with_reducible apply keeps_ite
    | simp only [keeps_upd]
    | split
    | dsimp only)

theorem keeps_whenLive {z0 : State} (s : State) (f : _) (hf : ∀ y z0, Keeps y z0 → Keeps y (f z0)) (kz : Keeps z0 s) :
    Keeps z0 (whenLive s f) := by
  unfold whenLive
  repeat' (first
    | with_reducible assumption
    | with_reducible apply hf
    | with_reducible apply keeps_ite
    | simp only [keeps_upd]
    | split
    | dsimp only)

theorem keeps_toD0 {z0 : State} (s : State)  (kz : Keeps z0 s) :
    Keeps z0 (toD0 s) := by
  unfold toD0
  repeat' (first
    | with_reducible assumption
    | with_reducible apply keeps_setR
    | with_reducible apply keeps_banksUp
    | with_reducible apply keeps_exitSref
    | with_reducible apply keeps_putBoth
    | with_reducible apply keeps_startLease
    | with_reducible apply keeps_ite
    | simp only [keeps_upd]
    | split
    | dsimp only)

theorem keeps_stopHostWork {z0 : State} (s : State)  (kz : Keeps z0 s) :
    Keeps z0 (stopHostWork s) := by
  unfold stopHostWork
  repeat' (first
    | with_reducible assumption
    | with_reducible apply keeps_dropReads
    | with_reducible apply keeps_yieldEntry
    | with_reducible apply keeps_dropUpdateOps
    | with_reducible apply keeps_setR
    | with_reducible apply keeps_endPoll
    | with_reducible apply keeps_disableRing
    | with_reducible apply keeps_putBoth
    | with_reducible apply keeps_ite
    | simp only [keeps_upd]
    | with_reducible apply keeps_foldl
    | with_reducible intro _ _ _ _
    | with_reducible intro _ _ _
    | simp only [fst_ite]
    | simp only [snd_ite]
    | split
    | dsimp only)

theorem keeps_unforce {z0 : State} (s : _) (c : State)  (kz : Keeps z0 c) :
    Keeps z0 (unforce s c) := by
  unfold unforce
  repeat' (first
    | with_reducible assumption
    | with_reducible apply keeps_cluApplied
    | with_reducible apply keeps_ite
    | simp only [keeps_upd]
    | with_reducible apply keeps_foldl
    | with_reducible intro _ _ _ _
    | with_reducible intro _ _ _
    | simp only [fst_ite]
    | simp only [snd_ite]
    | split
    | dsimp only)

theorem keeps_resetHostFields {z0 : State} (s : State)  (kz : Keeps z0 s) :
    Keeps z0 (resetHostFields s) := by
  unfold resetHostFields
  refine keeps_foldl _ _ _ (fun y t x k => keeps_setI _ _ _ _ k) ?_
  refine keeps_rf _ kz (fun h => ?_) (fun h => ?_)
  · exact twf_tfilter 0 (fun k => !resetKey k) _ h
  · exact twf_tfilter 0 (fun k => !resetKey k) _ h

theorem keeps_resetConfig {z0 : State} (s : State) (hot : _)  (kz : Keeps z0 s) :
    Keeps z0 (resetConfig s hot) := by
  unfold resetConfig
  repeat' (first
    | with_reducible assumption
    | with_reducible apply keeps_setR
    | with_reducible apply keeps_ite
    | simp only [keeps_upd]
    | split
    | dsimp only)

theorem keeps_funcReset {z0 : State} (s : State) (hot : _)  (kz : Keeps z0 s) :
    Keeps z0 (funcReset s hot) := by
  unfold funcReset
  repeat' (first
    | with_reducible assumption
    | with_reducible apply keeps_toD0
    | with_reducible apply keeps_endHostWork
    | with_reducible apply keeps_stopHostWork
    | with_reducible apply keeps_unforce
    | with_reducible apply keeps_resetHostFields
    | with_reducible apply keeps_noteLtr
    | with_reducible apply keeps_resetConfig
    | with_reducible apply keeps_ite
    | simp only [keeps_upd]
    | split
    | dsimp only)

theorem keeps_hotReset {z0 : State} (s : State)  (kz : Keeps z0 s) :
    Keeps z0 (hotReset s) := by
  unfold hotReset
  repeat' (first
    | with_reducible assumption
    | with_reducible apply keeps_funcReset
    | with_reducible apply keeps_setPhase
    | with_reducible apply keeps_setR
    | with_reducible apply keeps_ite
    | simp only [keeps_upd]
    | split
    | dsimp only)

theorem keeps_linkDown {z0 : State} (s : State)  (kz : Keeps z0 s) :
    Keeps z0 (linkDown s) := by
  unfold linkDown
  repeat' (first
    | with_reducible assumption
    | with_reducible apply keeps_setR
    | with_reducible apply keeps_addR
    | with_reducible apply keeps_hotReset
    | with_reducible apply keeps_ite
    | simp only [keeps_upd]
    | split
    | dsimp only)

theorem keeps_linkFault {z0 : State} (s : State) (port : _) (cause : _) (ks : _)  (kz : Keeps z0 s) :
    Keeps z0 (linkFault s port cause ks) := by
  unfold linkFault
  repeat' (first
    | with_reducible assumption
    | with_reducible apply keeps_saf
    | with_reducible apply keeps_failItems
    | with_reducible apply keeps_ite
    | simp only [keeps_upd]
    | split
    | dsimp only)

theorem keeps_portDown {z0 : State} (s : State) (p : _) (dead : _)  (kz : Keeps z0 s) :
    Keeps z0 (portDown s p dead) := by
  unfold portDown
  repeat' (first
    | with_reducible assumption
    | with_reducible apply keeps_setI
    | with_reducible apply keeps_addI
    | with_reducible apply keeps_modLink
    | with_reducible apply keeps_linkFault
    | with_reducible apply keeps_fresh
    | with_reducible apply keeps_ite
    | simp only [keeps_upd]
    | simp only [fst_ite]
    | simp only [snd_ite]
    | split
    | dsimp only)

theorem keeps_notRead {z0 : State} (s : State) (tick : _) (n : _)  (kz : Keeps z0 s) :
    Keeps z0 (notRead s tick n) := by
  unfold notRead
  repeat' (first
    | with_reducible assumption
    | with_reducible apply keeps_pushJob
    | with_reducible apply keeps_ite
    | simp only [keeps_upd]
    | split
    | dsimp only)

theorem keeps_settlePoll {z0 : State} (s : State)  (kz : Keeps z0 s) :
    Keeps z0 (settlePoll s) := by
  unfold settlePoll
  repeat' (first
    | with_reducible assumption
    | with_reducible apply keeps_notRead
    | with_reducible apply keeps_writeCidx
    | with_reducible apply keeps_setR
    | with_reducible apply keeps_endPoll
    | with_reducible apply keeps_ite
    | simp only [keeps_upd]
    | with_reducible apply keeps_foldl
    | with_reducible intro _ _ _ _
    | with_reducible intro _ _ _
    | simp only [fst_ite]
    | simp only [snd_ite]
    | split
    | dsimp only)

theorem keeps_gotEntries {z0 : State} (s : State) (first : _) (n : _) (data : _)  (kz : Keeps z0 s) :
    Keeps z0 (gotEntries s first n data) := by
  unfold gotEntries
  repeat' (first
    | with_reducible assumption
    | with_reducible apply keeps_settlePoll
    | with_reducible apply keeps_addR
    | with_reducible apply keeps_ite
    | simp only [keeps_upd]
    | with_reducible apply keeps_foldl
    | with_reducible intro _ _ _ _
    | with_reducible intro _ _ _
    | simp only [fst_ite]
    | simp only [snd_ite]
    | split
    | dsimp only)

theorem keeps_gotAu {z0 : State} (s : State) (n : _) (failed : _) (b : _)  (kz : Keeps z0 s) :
    Keeps z0 (gotAu s n failed b) := by
  unfold gotAu
  repeat' (first
    | with_reducible assumption
    | with_reducible apply keeps_hbmPut
    | with_reducible apply keeps_modSlot
    | with_reducible apply keeps_ite
    | simp only [keeps_upd]
    | split
    | dsimp only)

theorem keeps_planLast {z0 : State} (s : State) (status : _) (reason : _) (i : _)  (kz : Keeps z0 s) :
    Keeps z0 (planLast s status reason i) := by
  unfold planLast
  repeat' (first
    | with_reducible assumption
    | with_reducible apply keeps_setR
    | with_reducible apply keeps_ite
    | simp only [keeps_upd]
    | split
    | dsimp only)

theorem keeps_installEnds {z0 : State} (s : State) (x : _) (status : _) (reason : _)  (kz : Keeps z0 s) :
    Keeps z0 (installEnds s x status reason) := by
  unfold installEnds
  repeat' (first
    | with_reducible assumption
    | with_reducible apply keeps_yieldEntry
    | with_reducible apply keeps_reply_
    | with_reducible apply keeps_planLast
    | with_reducible apply keeps_ite
    | simp only [keeps_upd]
    | split
    | dsimp only)

theorem keeps_gotPlanImage {z0 : State} (s : State) (ok : _)  (kz : Keeps z0 s) :
    Keeps z0 (gotPlanImage s ok) := by
  unfold gotPlanImage
  repeat' (first
    | with_reducible assumption
    | with_reducible apply keeps_installEnds
    | with_reducible apply keeps_addR
    | with_reducible apply keeps_modPlan
    | with_reducible apply keeps_ite
    | simp only [keeps_upd]
    | split
    | dsimp only)

theorem keeps_fwEnds {z0 : State} (s : State) (x : _) (status : _) (reason : _)  (kz : Keeps z0 s) :
    Keeps z0 (fwEnds s x status reason) := by
  unfold fwEnds
  repeat' (first
    | with_reducible assumption
    | with_reducible apply keeps_reply_
    | with_reducible apply keeps_ite
    | simp only [keeps_upd]
    | split
    | dsimp only)

theorem keeps_gotFwImage {z0 : State} (s : State) (ok : _)  (kz : Keeps z0 s) :
    Keeps z0 (gotFwImage s ok) := by
  unfold gotFwImage
  repeat' (first
    | with_reducible assumption
    | with_reducible apply keeps_fwEnds
    | with_reducible apply keeps_fresh
    | with_reducible apply keeps_queueOps
    | with_reducible apply keeps_ite
    | simp only [keeps_upd]
    | simp only [fst_ite]
    | simp only [snd_ite]
    | split
    | dsimp only)

theorem keeps_readFailed {z0 : State} (s : State) (k : _)  (kz : Keeps z0 s) :
    Keeps z0 (readFailed s k) := by
  unfold readFailed
  repeat' (first
    | with_reducible assumption
    | with_reducible apply keeps_endPoll
    | with_reducible apply keeps_addR
    | with_reducible apply keeps_gotEntries
    | with_reducible apply keeps_settle
    | with_reducible apply keeps_modItem
    | with_reducible apply keeps_modSlot
    | with_reducible apply keeps_gotAu
    | with_reducible apply keeps_gotPlanImage
    | with_reducible apply keeps_gotFwImage
    | with_reducible apply keeps_ite
    | simp only [keeps_upd]
    | split
    | dsimp only)

theorem keeps_failRead {z0 : State} (s : State) (r : _) (tag : _)  (kz : Keeps z0 s) :
    Keeps z0 (failRead s r tag) := by
  unfold failRead
  repeat' (first
    | with_reducible assumption
    | with_reducible apply keeps_readFailed
    | with_reducible apply keeps_addR
    | with_reducible apply keeps_dropRead
    | with_reducible apply keeps_ite
    | simp only [keeps_upd]
    | split
    | dsimp only)

theorem keeps_noteSlots {z0 : State} (s : State) (p : _) (it : _) (slack : _) (before : _) (n : _) (kz : Keeps z0 s) :
    Keeps z0 (noteSlots s p it slack before n) := by
  unfold noteSlots
  repeat' (first
    | with_reducible assumption
    | with_reducible apply keeps_modItem
    | with_reducible apply keeps_addI
    | with_reducible apply keeps_ite
    | simp only [keeps_upd]
    | with_reducible apply keeps_foldl
    | with_reducible apply keeps_foldl1
    | with_reducible apply keeps_foldl2
    | exact fun _ h => h
    | exact fun _ _ => rfl
    | with_reducible intro _ _ _ _
    | with_reducible intro _ _ _
    | simp only [fst_ite]
    | simp only [snd_ite]
    | split
    | dsimp only
    | refine keeps_of_fst (by with_reducible assumption) ?_
    | refine keeps_of_snd (by with_reducible assumption) ?_)

theorem keeps_modCirc {z0 : State} (s : State) (k : _) (i : _) (f : _)  (kz : Keeps z0 s) :
    Keeps z0 (modCirc s k i f) := by
  unfold modCirc
  repeat' (first
    | with_reducible assumption
    | with_reducible apply keeps_modClu
    | with_reducible apply keeps_ite
    | simp only [keeps_upd]
    | exact fun _ h => h
    | split
    | dsimp only)

theorem keeps_granReadN {z0 : State} (k width bank start lim n g : Nat) (s : State) (kz : Keeps z0 s) :
    Keeps z0 (granReadN k width bank start lim n g s).1 := by
  induction n generalizing z0 g s with
  | zero => exact kz
  | succ _ ih =>
    unfold granReadN
    exact ih _ _ (keeps_granRead1 _ _ _ _ _ kz)

theorem keeps_granGet {z0 : State} (s : State) (k : _) (g : _) (n : _) (kz : Keeps z0 s) :
    Keeps z0 (granGet s k g n).1 := by
  unfold granGet
  repeat' (first
    | with_reducible assumption
    | with_reducible apply keeps_granReadN
    | with_reducible apply keeps_foldl
    | with_reducible apply keeps_modCirc
    | with_reducible apply keeps_ite
    | simp only [keeps_upd]
    | with_reducible apply keeps_foldl
    | with_reducible apply keeps_foldl1
    | with_reducible apply keeps_foldl2
    | exact fun _ h => h
    | exact fun _ _ => rfl
    | with_reducible intro _ _ _ _
    | with_reducible intro _ _ _
    | simp only [fst_ite]
    | simp only [snd_ite]
    | split
    | dsimp only
    | refine keeps_of_fst (by with_reducible assumption) ?_
    | refine keeps_of_snd (by with_reducible assumption) ?_)

theorem keeps_readGran {z0 : State} (s : State) (p : _) (it : _) (g : _) (n : _) (kz : Keeps z0 s) :
    Keeps z0 (readGran s p it g n).1 := by
  unfold readGran
  repeat' (first
    | with_reducible assumption
    | with_reducible apply keeps_granGet
    | with_reducible apply keeps_clu
    | with_reducible apply keeps_modItem
    | with_reducible apply keeps_ite
    | simp only [keeps_upd]
    | with_reducible apply keeps_foldl
    | with_reducible apply keeps_foldl1
    | with_reducible apply keeps_foldl2
    | exact fun _ h => h
    | exact fun _ _ => rfl
    | with_reducible intro _ _ _ _
    | with_reducible intro _ _ _
    | simp only [fst_ite]
    | simp only [snd_ite]
    | split
    | dsimp only
    | refine keeps_of_fst (by with_reducible assumption) ?_
    | refine keeps_of_snd (by with_reducible assumption) ?_)

theorem keeps_modRegion {z0 : State} (s : State) (p : _) (r : _) (f : _)  (kz : Keeps z0 s) :
    Keeps z0 (modRegion s p r f) := by
  unfold modRegion
  repeat' (first
    | with_reducible assumption
    | with_reducible apply keeps_modCore
    | with_reducible apply keeps_ite
    | simp only [keeps_upd]
    | exact fun _ h => h
    | split
    | dsimp only)

theorem keeps_readBin {z0 : State} (s : State) (p : _) (b : _) (a : _) (n : _)  (kz : Keeps z0 s) :
    Keeps z0 (readBin s p b a n).1 := by
  unfold readBin
  repeat' (first
    | with_reducible assumption
    | with_reducible apply keeps_binRead
    | with_reducible apply keeps_ite
    | simp only [keeps_upd]
    | simp only [fst_ite]
    | simp only [snd_ite]
    | split
    | dsimp only)

theorem keeps_readSpill {z0 : State} (s : State) (p : _) (it : _) (t : _) (o : _) (n : _) (kz : Keeps z0 s) :
    Keeps z0 (readSpill s p it t o n).1 := by
  unfold readSpill
  repeat' (first
    | with_reducible assumption
    | with_reducible apply keeps_granReadN
    | with_reducible apply keeps_modItem
    | with_reducible apply keeps_ite
    | simp only [keeps_upd]
    | with_reducible apply keeps_foldl
    | with_reducible apply keeps_foldl1
    | with_reducible apply keeps_foldl2
    | exact fun _ h => h
    | exact fun _ _ => rfl
    | with_reducible intro _ _ _ _
    | with_reducible intro _ _ _
    | simp only [fst_ite]
    | simp only [snd_ite]
    | split
    | dsimp only
    | refine keeps_of_fst (by with_reducible assumption) ?_
    | refine keeps_of_snd (by with_reducible assumption) ?_)

theorem keeps_readPiece {z0 : State} (s : State) (p : _) (b : _) (x : _) (kz : Keeps z0 s) :
    Keeps z0 (readPiece s p b x).1 := by
  unfold readPiece
  repeat' (first
    | with_reducible assumption
    | with_reducible apply keeps_readSpill
    | with_reducible apply keeps_readBin
    | with_reducible apply keeps_ite
    | simp only [keeps_upd]
    | with_reducible apply keeps_foldl
    | with_reducible apply keeps_foldl1
    | with_reducible apply keeps_foldl2
    | exact fun _ h => h
    | exact fun _ _ => rfl
    | with_reducible intro _ _ _ _
    | with_reducible intro _ _ _
    | simp only [fst_ite]
    | simp only [snd_ite]
    | split
    | dsimp only
    | refine keeps_of_fst (by with_reducible assumption) ?_
    | refine keeps_of_snd (by with_reducible assumption) ?_)

theorem keeps_readRef {z0 : State} (s : State) (p : _) (r : _) (n : _) (kz : Keeps z0 s) :
    Keeps z0 (readRef s p r n).1 := by
  unfold readRef
  repeat' (first
    | with_reducible assumption
    | with_reducible apply keeps_foldl
    | with_reducible apply keeps_readPiece
    | with_reducible apply keeps_modRegion
    | with_reducible apply keeps_ite
    | simp only [keeps_upd]
    | with_reducible apply keeps_foldl
    | with_reducible apply keeps_foldl1
    | with_reducible apply keeps_foldl2
    | exact fun _ h => h
    | exact fun _ _ => rfl
    | with_reducible intro _ _ _ _
    | with_reducible intro _ _ _
    | simp only [fst_ite]
    | simp only [snd_ite]
    | split
    | dsimp only
    | refine keeps_of_fst (by with_reducible assumption) ?_
    | refine keeps_of_snd (by with_reducible assumption) ?_)

theorem keeps_readOper {z0 : State} (s : State) (p : _) (it : _) (x : _) (kz : Keeps z0 s) :
    Keeps z0 (readOper s p it x).1 := by
  unfold readOper
  repeat' (first
    | with_reducible assumption
    | with_reducible apply keeps_readRef
    | with_reducible apply keeps_readGran
    | with_reducible apply keeps_ite
    | simp only [keeps_upd]
    | with_reducible apply keeps_foldl
    | with_reducible apply keeps_foldl1
    | with_reducible apply keeps_foldl2
    | exact fun _ h => h
    | exact fun _ _ => rfl
    | with_reducible intro _ _ _ _
    | with_reducible intro _ _ _
    | simp only [fst_ite]
    | simp only [snd_ite]
    | split
    | dsimp only
    | refine keeps_of_fst (by with_reducible assumption) ?_
    | refine keeps_of_snd (by with_reducible assumption) ?_)

theorem keeps_noteBubbles {z0 : State} (s : State) (p : _) (n : _) (kz : Keeps z0 s) :
    Keeps z0 (noteBubbles s p n) := by
  unfold noteBubbles
  repeat' (first
    | with_reducible assumption
    | with_reducible apply keeps_addI
    | with_reducible apply keeps_ite
    | simp only [keeps_upd]
    | with_reducible apply keeps_foldl
    | with_reducible apply keeps_foldl1
    | with_reducible apply keeps_foldl2
    | exact fun _ h => h
    | exact fun _ _ => rfl
    | with_reducible intro _ _ _ _
    | with_reducible intro _ _ _
    | simp only [fst_ite]
    | simp only [snd_ite]
    | split
    | dsimp only
    | refine keeps_of_fst (by with_reducible assumption) ?_
    | refine keeps_of_snd (by with_reducible assumption) ?_)

theorem keeps_flightReads {z0 : State} (p : Nat) (it : Item) (n : Nat) (s : State) (f : Flight) (kz : Keeps z0 s) :
    Keeps z0 (flightReads p it n s f).1 := by
  induction n generalizing s f with
  | zero => exact kz
  | succ n ih =>
    unfold flightReads
    split
    · exact kz
    · dsimp only
      split
      · exact kz
      · split
        · split <;> exact ih _ _ (keeps_readOper _ _ _ _ (keeps_noteBubbles _ _ _ kz))
        · split
          · exact kz
          · split <;> exact ih _ _ (keeps_readOper _ _ _ _ (keeps_noteSlots _ _ _ _ _ _ kz))

theorem keeps_pumpReads {z0 : State} (s : State) (kz : Keeps z0 s) :
    Keeps z0 (pumpReads s) := by
  unfold pumpReads
  repeat' (first
    | with_reducible assumption
    | with_reducible apply keeps_issueRead
    | with_reducible apply keeps_failRead
    | with_reducible apply keeps_ite
    | simp only [keeps_upd]
    | with_reducible apply keeps_foldl
    | with_reducible apply keeps_foldl1
    | with_reducible apply keeps_foldl2
    | exact fun _ h => h
    | exact fun _ _ => rfl
    | with_reducible intro _ _ _ _
    | with_reducible intro _ _ _
    | simp only [fst_ite]
    | simp only [snd_ite]
    | split
    | dsimp only
    | refine keeps_of_fst (by with_reducible assumption) ?_
    | refine keeps_of_snd (by with_reducible assumption) ?_)

theorem keeps_resumeIssue {z0 : State} (s : State)  (kz : Keeps z0 s) :
    Keeps z0 (resumeIssue s) := by
  unfold resumeIssue
  repeat' (first
    | with_reducible assumption
    | with_reducible apply keeps_flushVectors
    | with_reducible apply keeps_drain
    | with_reducible apply keeps_pumpReads
    | with_reducible apply keeps_writeCidx
    | with_reducible apply keeps_ite
    | simp only [keeps_upd]
    | with_reducible apply keeps_foldl
    | with_reducible intro _ _ _ _
    | with_reducible intro _ _ _
    | simp only [fst_ite]
    | simp only [snd_ite]
    | split
    | dsimp only)

theorem keeps_freeDropped {z0 : State} (s : State) (tag : _)  (kz : Keeps z0 s) :
    Keeps z0 (freeDropped s tag) := by
  unfold freeDropped
  repeat' (first
    | with_reducible assumption
    | with_reducible apply keeps_ite
    | simp only [keeps_upd]
    | split
    | dsimp only)

theorem keeps_gotLedgerPidx {z0 : State} (s : State) (prod : _)  (kz : Keeps z0 s) :
    Keeps z0 (gotLedgerPidx s prod) := by
  unfold gotLedgerPidx
  repeat' (first
    | with_reducible assumption
    | with_reducible apply keeps_raiseInt
    | with_reducible apply keeps_endPoll
    | with_reducible apply keeps_addR
    | with_reducible apply keeps_settlePoll
    | with_reducible apply keeps_ite
    | simp only [keeps_upd]
    | split
    | refine keeps_startRead (by with_reducible assumption) ?_
    | dsimp only)

theorem keeps_readDescs {z0 : State} (s : State) (n : _) (first : _) (cnt : _)  (kz : Keeps z0 s) :
    Keeps z0 (readDescs s n first cnt) := by
  unfold readDescs
  repeat' (first
    | with_reducible assumption
    | with_reducible apply keeps_modSlot
    | with_reducible apply keeps_addR
    | with_reducible apply keeps_ite
    | simp only [keeps_upd]
    | split
    | refine keeps_startRead (by with_reducible assumption) ?_
    | dsimp only)

theorem keeps_gotIntakePidx {z0 : State} (s : State) (n : _) (prod : _)  (kz : Keeps z0 s) :
    Keeps z0 (gotIntakePidx s n prod) := by
  unfold gotIntakePidx
  repeat' (first
    | with_reducible assumption
    | with_reducible apply keeps_modSlot
    | with_reducible apply keeps_raiseInt
    | with_reducible apply keeps_readDescs
    | with_reducible apply keeps_ite
    | simp only [keeps_upd]
    | split
    | dsimp only)

theorem keeps_gotDescs {z0 : State} (s : State) (n : _) (m : _) (b : _)  (kz : Keeps z0 s) :
    Keeps z0 (gotDescs s n m b) := by
  unfold gotDescs
  repeat' (first
    | with_reducible assumption
    | with_reducible apply keeps_modSlot
    | with_reducible apply keeps_readDescs
    | with_reducible apply keeps_ite
    | simp only [keeps_upd]
    | split
    | dsimp only)

theorem keeps_gotRelayPidx {z0 : State} (s : State) (prod : _)  (kz : Keeps z0 s) :
    Keeps z0 (gotRelayPidx s prod) := by
  unfold gotRelayPidx
  repeat' (first
    | with_reducible assumption
    | with_reducible apply keeps_addR
    | with_reducible apply keeps_ite
    | simp only [keeps_upd]
    | split
    | refine keeps_startRead (by with_reducible assumption) ?_
    | dsimp only)

theorem keeps_gotRelayDescs {z0 : State} (s : State) (m : _) (b : _)  (kz : Keeps z0 s) :
    Keeps z0 (gotRelayDescs s m b) := by
  unfold gotRelayDescs
  repeat' (first
    | with_reducible assumption
    | with_reducible apply keeps_addR
    | with_reducible apply keeps_ite
    | simp only [keeps_upd]
    | with_reducible apply keeps_foldl
    | with_reducible intro _ _ _ _
    | with_reducible intro _ _ _
    | simp only [fst_ite]
    | simp only [snd_ite]
    | split
    | refine keeps_startRead (by with_reducible assumption) ?_
    | dsimp only)

theorem keeps_gotRelayUnit {z0 : State} (s : State)  (kz : Keeps z0 s) :
    Keeps z0 (gotRelayUnit s) := by
  unfold gotRelayUnit
  repeat' (first
    | with_reducible assumption
    | with_reducible apply keeps_ite
    | simp only [keeps_upd]
    | split
    | dsimp only)

theorem keeps_readDone {z0 : State} (s : State) (k : _) (b : _)  (kz : Keeps z0 s) :
    Keeps z0 (readDone s k b) := by
  unfold readDone
  repeat' (first
    | with_reducible assumption
    | with_reducible apply keeps_gotLedgerPidx
    | with_reducible apply keeps_gotEntries
    | with_reducible apply keeps_settle
    | with_reducible apply keeps_modItem
    | with_reducible apply keeps_gotIntakePidx
    | with_reducible apply keeps_gotDescs
    | with_reducible apply keeps_gotAu
    | with_reducible apply keeps_gotPlanImage
    | with_reducible apply keeps_gotFwImage
    | with_reducible apply keeps_gotRelayPidx
    | with_reducible apply keeps_gotRelayDescs
    | with_reducible apply keeps_gotRelayUnit
    | with_reducible apply keeps_ite
    | simp only [keeps_upd]
    | split
    | dsimp only)

theorem keeps_gotData {z0 : State} (s : State) (r : _) (q : _) (b : _)  (kz : Keeps z0 s) :
    Keeps z0 (gotData s r q b) := by
  unfold gotData
  repeat' (first
    | with_reducible assumption
    | with_reducible apply keeps_readDone
    | with_reducible apply keeps_dropRead
    | with_reducible apply keeps_ite
    | simp only [keeps_upd]
    | split
    | dsimp only)

theorem keeps_maskVector {z0 : State} (s : State) (v : _) (m : _)  (kz : Keeps z0 s) :
    Keeps z0 (maskVector s v m) := by
  unfold maskVector
  repeat' (first
    | with_reducible assumption
    | with_reducible apply keeps_ite
    | simp only [keeps_upd]
    | split
    | dsimp only)

theorem keeps_setIntEnable {z0 : State} (s : State) (p : _) (v : _)  (kz : Keeps z0 s) :
    Keeps z0 (setIntEnable s p v) := by
  unfold setIntEnable
  repeat' (first
    | with_reducible assumption
    | with_reducible apply keeps_evtRise
    | with_reducible apply keeps_setI
    | with_reducible apply keeps_ite
    | simp only [keeps_upd]
    | split
    | dsimp only)

theorem keeps_writeRidx {z0 : State} (s : State) (k : _) (v : _)  (kz : Keeps z0 s) :
    Keeps z0 (writeRidx s k v) := by
  unfold writeRidx
  repeat' (first
    | with_reducible assumption
    | with_reducible apply keeps_drain
    | with_reducible apply keeps_setX
    | with_reducible apply keeps_setS
    | with_reducible apply keeps_ite
    | simp only [keeps_upd]
    | split
    | dsimp only)

theorem keeps_writeJournalRidx {z0 : State} (s : State) (v : _)  (kz : Keeps z0 s) :
    Keeps z0 (writeJournalRidx s v) := by
  unfold writeJournalRidx
  repeat' (first
    | with_reducible assumption
    | with_reducible apply keeps_setR
    | with_reducible apply keeps_raiseInt
    | with_reducible apply keeps_ite
    | simp only [keeps_upd]
    | split
    | dsimp only)

theorem keeps_relayWrite {z0 : State} (s : State) (b : _)  (kz : Keeps z0 s) :
    Keeps z0 (relayWrite s b) := by
  unfold relayWrite
  repeat' (first
    | with_reducible assumption
    | with_reducible apply keeps_hbmPut
    | with_reducible apply keeps_sendMsix
    | with_reducible apply keeps_addR
    | with_reducible apply keeps_ite
    | simp only [keeps_upd]
    | split
    | dsimp only)

theorem keeps_relayDrain {z0 : State} (a0 : _) (a1 : State)  (kz : Keeps z0 a1) :
    Keeps z0 (relayDrain a0 a1) := by
  induction a0 generalizing z0 a1 with
  | zero => 
    unfold relayDrain
    repeat' (first
    | with_reducible assumption
    | with_reducible apply keeps_relayWrite
    | with_reducible apply keeps_ite
    | simp only [keeps_upd]
    | split
    | dsimp only)
  | succ _ ih =>
    unfold relayDrain
    repeat' (first
    | with_reducible assumption
    | with_reducible apply keeps_relayWrite
    | with_reducible apply ih
    | with_reducible apply keeps_ite
    | simp only [keeps_upd]
    | split
    | dsimp only)

theorem keeps_writeRelayRidx {z0 : State} (s : State) (v : _)  (kz : Keeps z0 s) :
    Keeps z0 (writeRelayRidx s v) := by
  unfold writeRelayRidx
  repeat' (first
    | with_reducible assumption
    | with_reducible apply keeps_setR
    | with_reducible apply keeps_relayDrain
    | with_reducible apply keeps_ite
    | simp only [keeps_upd]
    | split
    | dsimp only)

theorem keeps_fjPlace {z0 : State} (s : State) (n : _)  (kz : Keeps z0 s) :
    Keeps z0 (fjPlace s n) := by
  unfold fjPlace
  repeat' (first
    | with_reducible assumption
    | with_reducible apply keeps_setR
    | with_reducible apply keeps_setX
    | with_reducible apply keeps_ite
    | simp only [keeps_upd]
    | with_reducible apply keeps_foldl
    | with_reducible intro _ _ _ _
    | with_reducible intro _ _ _
    | simp only [fst_ite]
    | simp only [snd_ite]
    | split
    | dsimp only)

theorem keeps_noteStale {z0 : State} (s : State) (p : _) (late : _)  (kz : Keeps z0 s) :
    Keeps z0 (noteStale s p late) := by
  unfold noteStale
  repeat' (first
    | with_reducible assumption
    | with_reducible apply keeps_modCsi
    | with_reducible apply keeps_ite
    | simp only [keeps_upd]
    | split
    | dsimp only)

theorem keeps_takeSnap {z0 : State} (s : State) (p : _) (fw : _) (sel : _) (t : _)  (kz : Keeps z0 s) :
    Keeps z0 (takeSnap s p fw sel t) := by
  unfold takeSnap
  repeat' (first
    | with_reducible assumption
    | with_reducible apply keeps_dropSnap
    | with_reducible apply keeps_setI
    | with_reducible apply keeps_noteStale
    | with_reducible apply keeps_switchOn
    | with_reducible apply keeps_goLive
    | with_reducible apply keeps_ite
    | simp only [keeps_upd]
    | split
    | dsimp only)

theorem keeps_renewLease {z0 : State} (s : State)  (kz : Keeps z0 s) :
    Keeps z0 (renewLease s) := by
  unfold renewLease
  repeat' (first
    | with_reducible assumption
    | with_reducible apply keeps_startLease
    | with_reducible apply keeps_ite
    | simp only [keeps_upd]
    | split
    | dsimp only)

theorem keeps_startTraining {z0 : State} (s : State) (c : _)  (kz : Keeps z0 s) :
    Keeps z0 (startTraining s c) := by
  unfold startTraining
  repeat' (first
    | with_reducible assumption
    | with_reducible apply keeps_putF
    | with_reducible apply keeps_ite
    | simp only [keeps_upd]
    | with_reducible apply keeps_foldl
    | with_reducible intro _ _ _ _
    | with_reducible intro _ _ _
    | simp only [fst_ite]
    | simp only [snd_ite]
    | split
    | dsimp only)

theorem keeps_writeFld {z0 : State} (b : _) (x : _) (s : State) (p : _) (f : _) (k : _) (v : _)  (kz : Keeps z0 s) :
    Keeps z0 (writeFld b x s p f k v) := by
  unfold writeFld
  repeat' (first
    | with_reducible assumption
    | with_reducible apply keeps_violation
    | with_reducible apply keeps_putSh
    | with_reducible apply keeps_putF
    | with_reducible apply keeps_setIntEnable
    | with_reducible apply keeps_setR
    | with_reducible apply keeps_writeRidx
    | with_reducible apply keeps_writeJournalRidx
    | with_reducible apply keeps_writeRelayRidx
    | with_reducible apply keeps_fjPlace
    | with_reducible apply keeps_raiseInt
    | with_reducible apply keeps_clearErr
    | with_reducible apply keeps_takeSnap
    | with_reducible apply keeps_renewLease
    | with_reducible apply keeps_clearFaults
    | with_reducible apply keeps_startTraining
    | with_reducible apply keeps_ite
    | simp only [keeps_upd]
    | split
    | dsimp only)

theorem keeps_writeReg {z0 : State} (b : _) (x : _) (s : State) (p : _) (off : _) (v : _)  (kz : Keeps z0 s) :
    Keeps z0 (writeReg b x s p off v).1 := by
  unfold writeReg
  repeat' (first
    | with_reducible assumption
    | with_reducible apply keeps_violation
    | with_reducible apply keeps_writeFld
    | with_reducible apply keeps_ite
    | simp only [keeps_upd]
    | with_reducible apply keeps_foldl
    | with_reducible apply keeps_foldl1
    | with_reducible intro _ _ _ _
    | with_reducible intro _ _ _
    | simp only [fst_ite]
    | simp only [snd_ite]
    | split
    | dsimp only)

theorem keeps_writeBy {z0 : State} (s : State) (session : _) (p : _) (off : _) (v : _)  (kz : Keeps z0 s) :
    Keeps z0 (writeBy s session p off v) := by
  unfold writeBy
  repeat' (first
    | with_reducible assumption
    | with_reducible apply keeps_writeReg
    | with_reducible apply keeps_ite
    | simp only [keeps_upd]
    | simp only [fst_ite]
    | simp only [snd_ite]
    | split
    | dsimp only)

theorem keeps_mailbox {z0 : State} (cmd : _) (r : _) (p : _) (roles : _) (no4 : _) (body : _) (s : State) (hbody : ∀ y z0, Keeps y z0 → Keeps y (body z0)) (kz : Keeps z0 s) :
    Keeps z0 (mailbox cmd r p roles no4 body s) := by
  unfold mailbox
  repeat' (first
    | with_reducible assumption
    | with_reducible apply keeps_guardOn
    | with_reducible apply keeps_violation
    | with_reducible apply keeps_addR
    | with_reducible apply keeps_refuseMb
    | with_reducible apply keeps_badTag
    | with_reducible apply keeps_putSess
    | with_reducible apply hbody
    | with_reducible apply keeps_ite
    | simp only [keeps_upd]
    | with_reducible intro _ _ _ _
    | with_reducible intro _ _ _
    | split
    | dsimp only)

theorem keeps_serviced {z0 : State} (pair : _) (r : _) (cmd : _) (body : _) (s : State) (hbody : ∀ y z0, Keeps y z0 → Keeps y (body z0)) (kz : Keeps z0 s) :
    Keeps z0 (serviced pair r cmd body s) := by
  unfold serviced
  repeat' (first
    | with_reducible assumption
    | with_reducible apply keeps_reply_
    | with_reducible apply keeps_addR
    | with_reducible apply hbody
    | with_reducible apply keeps_ite
    | simp only [keeps_upd]
    | split
    | dsimp only)

theorem keeps_stored {z0 : State} (k : _) (r : _) (cmd : _) (body : _) (s : State) (hbody : ∀ y z0, Keeps y z0 → Keeps y (body z0)) (kz : Keeps z0 s) :
    Keeps z0 (stored k r cmd body s) := by
  unfold stored
  repeat' (first
    | with_reducible assumption
    | with_reducible apply keeps_serviced
    | with_reducible apply keeps_reply_
    | with_reducible apply keeps_addR
    | with_reducible apply hbody
    | with_reducible apply keeps_ite
    | simp only [keeps_upd]
    | with_reducible intro _ _ _ _
    | with_reducible intro _ _ _
    | split
    | dsimp only)

theorem keeps_revert {z0 : State} (s : State) (l : _)  (kz : Keeps z0 s) :
    Keeps z0 (revert s l) := by
  refine keeps_rf _ kz id (fun h => ?_)
  exact foldl_keeps (fun (t : Tbl Nat) => twf 0 t = true) _ (fun t e ht => twf_tset 0 t _ _ ht) _ _ h

theorem keeps_passFw {z0 : State} (s : State) (p : _)  (kz : Keeps z0 s) :
    Keeps z0 (passFw s p) := by
  unfold passFw
  repeat' (first
    | with_reducible assumption
    | with_reducible apply keeps_commitOne
    | with_reducible apply keeps_ite
    | simp only [keeps_upd]
    | split
    | dsimp only)

theorem keeps_logWrite {z0 : State} (s : State) (u : _)  (kz : Keeps z0 s) :
    Keeps z0 (logWrite s u) := by
  unfold logWrite
  repeat' (first
    | with_reducible assumption
    | with_reducible apply keeps_queueOps
    | with_reducible apply keeps_ite
    | simp only [keeps_upd]
    | split
    | dsimp only)

theorem keeps_pollSlot {z0 : State} (s : State) (n : _)  (kz : Keeps z0 s) :
    Keeps z0 (pollSlot s n) := by
  unfold pollSlot
  repeat' (first
    | with_reducible assumption
    | with_reducible apply keeps_modSlot
    | with_reducible apply keeps_addR
    | with_reducible apply keeps_ite
    | simp only [keeps_upd]
    | split
    | refine keeps_startRead (by with_reducible assumption) ?_
    | dsimp only)

theorem keeps_recDrop {z0 : State} (s : State) (n : _) (kz : Keeps z0 s) :
    Keeps z0 (recDrop s n) := by
  unfold recDrop
  repeat' (first
    | with_reducible assumption
    | with_reducible apply keeps_raiseInt
    | with_reducible apply keeps_addX
    | with_reducible apply keeps_ite
    | simp only [keeps_upd]
    | with_reducible apply keeps_foldl
    | with_reducible apply keeps_foldl1
    | with_reducible apply keeps_foldl2
    | with_reducible intro _ _ _ _
    | with_reducible intro _ _ _
    | simp only [fst_ite]
    | simp only [snd_ite]
    | split
    | dsimp only
    | refine keeps_of_fst (by with_reducible assumption) ?_
    | refine keeps_of_snd (by with_reducible assumption) ?_)

theorem keeps_refuseAu {z0 : State} (s : State) (slot : _) (au : _) (outcome : _) (cause : _) (w : _) (h : _) (cycles : _) (cores : _) (rap : _)  (kz : Keeps z0 s) :
    Keeps z0 (refuseAu s slot au outcome cause w h cycles cores rap) := by
  unfold refuseAu
  repeat' (first
    | with_reducible assumption
    | with_reducible apply keeps_pushPic
    | with_reducible apply keeps_settle
    | with_reducible apply keeps_cooperFree
    | with_reducible apply keeps_ite
    | simp only [keeps_upd]
    | split
    | dsimp only)

theorem keeps_notCopied {z0 : State} (s : State) (n : _) (d : _)  (kz : Keeps z0 s) :
    Keeps z0 (notCopied s n d) := by
  unfold notCopied
  repeat' (first
    | with_reducible assumption
    | with_reducible apply keeps_recDrop
    | with_reducible apply keeps_consume
    | with_reducible apply keeps_refuseAu
    | with_reducible apply keeps_settleMarks
    | with_reducible apply keeps_modSlot
    | with_reducible apply keeps_ite
    | simp only [keeps_upd]
    | split
    | dsimp only)

theorem keeps_refusePicture {z0 : State} (s : State) (n : _) (a : _) (c : _) (outcome : _) (cause : _) (skip : _) (kz : Keeps z0 s) :
    Keeps z0 (refusePicture s n a c outcome cause skip) := by
  unfold refusePicture
  repeat' (first
    | with_reducible assumption
    | with_reducible apply keeps_core
    | with_reducible apply keeps_modSlot
    | with_reducible apply keeps_refuseAu
    | with_reducible apply keeps_settleMarks
    | with_reducible apply keeps_addI
    | with_reducible apply keeps_ite
    | simp only [keeps_upd]
    | with_reducible apply keeps_foldl
    | with_reducible apply keeps_foldl1
    | with_reducible apply keeps_foldl2
    | with_reducible intro _ _ _ _
    | with_reducible intro _ _ _
    | simp only [fst_ite]
    | simp only [snd_ite]
    | split
    | dsimp only
    | refine keeps_of_fst (by with_reducible assumption) ?_
    | refine keeps_of_snd (by with_reducible assumption) ?_)

theorem keeps_startPicture {z0 : State} (s : State) (n : _) (a : _) (c : _) (g : _) (h : _)  (kz : Keeps z0 s) :
    Keeps z0 (startPicture s n a c g h) := by
  unfold startPicture
  repeat' (first
    | with_reducible assumption
    | with_reducible apply keeps_modSlot
    | with_reducible apply keeps_addI
    | with_reducible apply keeps_modDec
    | with_reducible apply keeps_setI
    | with_reducible apply keeps_ite
    | simp only [keeps_upd]
    | with_reducible apply keeps_foldl
    | with_reducible intro _ _ _ _
    | with_reducible intro _ _ _
    | simp only [fst_ite]
    | simp only [snd_ite]
    | split
    | dsimp only)

theorem keeps_freeGang {z0 : State} (s : State) (g : _)  (kz : Keeps z0 s) :
    Keeps z0 (freeGang s g) := by
  unfold freeGang
  repeat' (first
    | with_reducible assumption
    | with_reducible apply keeps_addPairI
    | with_reducible apply keeps_modDec
    | with_reducible apply keeps_setI
    | with_reducible apply keeps_ite
    | simp only [keeps_upd]
    | with_reducible apply keeps_foldl
    | with_reducible intro _ _ _ _
    | with_reducible intro _ _ _
    | simp only [fst_ite]
    | simp only [snd_ite]
    | split
    | dsimp only)

theorem keeps_forward {z0 : State} (s : State) (n : _) (seq : _)  (kz : Keeps z0 s) :
    Keeps z0 (forward s n seq) := by
  unfold forward
  repeat' (first
    | with_reducible assumption
    | with_reducible apply keeps_settle
    | with_reducible apply keeps_ageDecoded
    | with_reducible apply keeps_pushPic
    | with_reducible apply keeps_ite
    | simp only [keeps_upd]
    | split
    | dsimp only)

theorem keeps_takeItem {z0 : State} {s : State} {r : _} {arrival : _} {m : _}  {t : State} (h : takeItem s r arrival m = some t) (kz : Keeps z0 s) :
    Keeps z0 t := by
  unfold takeItem at h
  simp only at h
  repeat' (split at h)
  all_goals (first
    | cases h; done
    | (cases h; first
        | exact keeps_modRec _ _ _ kz
        | exact keeps_audioItem _ _ _ _ _ _ kz))

theorem keeps_granPut {z0 : State} (s : State) (k : _) (g : _) (bytes : _)  (kz : Keeps z0 s) :
    Keeps z0 (granPut s k g bytes).1 := by
  unfold granPut
  repeat' (first
    | with_reducible assumption
    | with_reducible apply keeps_granWriteN
    | with_reducible apply keeps_modCirc
    | with_reducible apply keeps_ite
    | simp only [keeps_upd]
    | with_reducible apply keeps_foldl
    | with_reducible apply keeps_foldl1
    | with_reducible intro _ _ _ _
    | with_reducible intro _ _ _
    | simp only [fst_ite]
    | simp only [snd_ite]
    | split
    | dsimp only)

theorem keeps_putScaler {z0 : State} (s : State) (it : _) (g : _) (st : _) (b : _)  (kz : Keeps z0 s) :
    Keeps z0 (putScaler s it g st b) := by
  unfold putScaler
  repeat' (first
    | with_reducible assumption
    | with_reducible apply keeps_hbmPut
    | with_reducible apply keeps_granPut
    | with_reducible apply keeps_afterPut
    | with_reducible apply keeps_ite
    | simp only [keeps_upd]
    | with_reducible apply keeps_foldl
    | with_reducible apply keeps_foldl1
    | with_reducible intro _ _ _ _
    | with_reducible intro _ _ _
    | simp only [fst_ite]
    | simp only [snd_ite]
    | split
    | dsimp only)

theorem keeps_stageBoxes {z0 : State} (s : State) (it : _) (st : _) (hd : _) (kz : Keeps z0 s) :
    Keeps z0 (stageBoxes s it st hd).1 := by
  unfold stageBoxes
  repeat' (first
    | with_reducible assumption
    | with_reducible apply keeps_granGet
    | with_reducible apply keeps_afterGran
    | with_reducible apply keeps_hbmFault
    | with_reducible apply keeps_ite
    | simp only [keeps_upd]
    | with_reducible apply keeps_foldl
    | with_reducible apply keeps_foldl1
    | with_reducible apply keeps_foldl2
    | exact fun _ h => h
    | exact fun _ _ => rfl
    | with_reducible intro _ _ _ _
    | with_reducible intro _ _ _
    | simp only [fst_ite]
    | simp only [snd_ite]
    | split
    | dsimp only
    | refine keeps_of_fst (by with_reducible assumption) ?_
    | refine keeps_of_snd (by with_reducible assumption) ?_)

theorem keeps_startEnc {z0 : State} (s : State) (e : _)  (kz : Keeps z0 s) :
    Keeps z0 (startEnc s e) := by
  unfold startEnc
  repeat' (first
    | with_reducible assumption
    | with_reducible apply keeps_modEnc
    | with_reducible apply keeps_putBoth
    | with_reducible apply keeps_ite
    | simp only [keeps_upd]
    | split
    | dsimp only)

theorem keeps_finishEnc {z0 : State} (s : State) (enc : _) (p : _) (rest : _) (kz : Keeps z0 s) :
    Keeps z0 (finishEnc s enc p rest) := by
  unfold finishEnc
  repeat' (first
    | with_reducible assumption
    | with_reducible apply keeps_foldl
    | with_reducible apply keeps_emitSlice
    | with_reducible apply keeps_addI
    | with_reducible apply keeps_modEnc
    | with_reducible apply keeps_ite
    | simp only [keeps_upd]
    | with_reducible apply keeps_foldl
    | with_reducible apply keeps_foldl1
    | with_reducible apply keeps_foldl2
    | exact fun _ h => h
    | exact fun _ _ => rfl
    | with_reducible intro _ _ _ _
    | with_reducible intro _ _ _
    | simp only [fst_ite]
    | simp only [snd_ite]
    | split
    | dsimp only
    | refine keeps_of_fst (by with_reducible assumption) ?_
    | refine keeps_of_snd (by with_reducible assumption) ?_)

theorem keeps_refuseEntry {z0 : State} (s : State) (e : _) (status : _) (reason : _)  (kz : Keeps z0 s) :
    Keeps z0 (refuseEntry s e status reason) := by
  unfold refuseEntry
  repeat' (first
    | with_reducible assumption
    | with_reducible apply keeps_pushJob
    | with_reducible apply keeps_addR
    | with_reducible apply keeps_countEnd
    | with_reducible apply keeps_settle
    | with_reducible apply keeps_ite
    | simp only [keeps_upd]
    | split
    | dsimp only)

theorem keeps_keepRepeat {z0 : State} (s : State) (e : _)  (kz : Keeps z0 s) :
    Keeps z0 (keepRepeat s e) := by
  unfold keepRepeat
  repeat' (first
    | with_reducible assumption
    | with_reducible apply keeps_ite
    | simp only [keeps_upd]
    | split
    | dsimp only)

theorem keeps_launchPooled {z0 : State} (s : State) (it : _) (ls : _)  (kz : Keeps z0 s) :
    Keeps z0 (launchPooled s it ls) := by
  unfold launchPooled
  repeat' (first
    | with_reducible assumption
    | with_reducible apply keeps_modItem
    | with_reducible apply keeps_endItemWith
    | with_reducible apply keeps_endItem
    | with_reducible apply keeps_launchItem
    | with_reducible apply keeps_dropHolds
    | with_reducible apply keeps_ite
    | simp only [keeps_upd]
    | split
    | refine keeps_takeBuffers (by with_reducible assumption) ?_
    | dsimp only)

theorem keeps_startRestore {z0 : State} (s : State) (it : _) (ls : _)  (kz : Keeps z0 s) :
    Keeps z0 (startRestore s it ls) := by
  unfold startRestore
  repeat' (first
    | with_reducible assumption
    | with_reducible apply keeps_modItem
    | with_reducible apply keeps_setI
    | with_reducible apply keeps_modCore
    | with_reducible apply keeps_addR
    | with_reducible apply keeps_refreshCtx
    | with_reducible apply keeps_dropHolds
    | with_reducible apply keeps_ite
    | simp only [keeps_upd]
    | with_reducible apply keeps_foldl
    | with_reducible apply keeps_foldl1
    | with_reducible intro _ _ _ _
    | exact fun _ h => h
    | with_reducible intro _ _ _
    | simp only [fst_ite]
    | simp only [snd_ite]
    | split
    | dsimp only)

theorem keeps_tryHead {z0 : State} {s : State} {it : _}  {t : State} (h : tryHead s it = some t) (kz : Keeps z0 s) :
    Keeps z0 t := by
  unfold tryHead at h
  split at h
  · split at h
    · cases h
      exact keeps_addR _ _ _ (keeps_endItem _ _ _ kz)
    · split at h
      · cases h
      · rw [Option.map_eq_some_iff] at h
        obtain ⟨a, _, rfl⟩ := h
        exact keeps_launchPooled _ _ _ kz
  · split at h
    · cases h
      exact keeps_endItem _ _ _ kz
    · rw [Option.map_eq_some_iff] at h
      obtain ⟨a, _, rfl⟩ := h
      exact keeps_startRestore _ _ _ kz
  · cases h

theorem keeps_placeHolders {z0 : State} {a0 : _} {a1 : State}  {t : State} (h : placeHolders a0 a1 = some t) (kz : Keeps z0 a1) :
    Keeps z0 t := by
  induction a0 generalizing a1 with
  | nil => cases h
  | cons it l ih =>
    unfold placeHolders at h
    split at h
    · split at h
      · rename_i heq
        cases h
        exact keeps_tryHead heq kz
      · split at h
        · exact ih h kz
        · cases h
          exact keeps_claimFor _ _ kz
    · exact ih h kz

theorem keeps_noteMoveWait {z0 : State} (s : State) (it : _)  (kz : Keeps z0 s) :
    Keeps z0 (noteMoveWait s it) := by
  unfold noteMoveWait
  repeat' (first
    | with_reducible assumption
    | with_reducible apply keeps_addR
    | with_reducible apply keeps_modItem
    | with_reducible apply keeps_ite
    | simp only [keeps_upd]
    | split
    | dsimp only)

theorem keeps_placeLevels {z0 : State} (a0 : _) (a1 : State)  (kz : Keeps z0 a1) :
    Keeps z0 (placeLevels a0 a1) := by
  induction a0 generalizing z0 a1 with
  | nil => 
    unfold placeLevels
    repeat' (first
    | with_reducible assumption
    | with_reducible apply keeps_noteMoveWait
    | with_reducible apply keeps_ite
    | simp only [keeps_upd]
    | split
    | refine keeps_tryHead (by with_reducible assumption) ?_
    | dsimp only)
  | cons _ _ ih =>
    unfold placeLevels
    repeat' (first
    | with_reducible assumption
    | with_reducible apply keeps_noteMoveWait
    | with_reducible apply ih
    | with_reducible apply keeps_ite
    | simp only [keeps_upd]
    | split
    | refine keeps_tryHead (by with_reducible assumption) ?_
    | dsimp only)

theorem keeps_markStop {z0 : State} (s : State) (k : _)  (kz : Keeps z0 s) :
    Keeps z0 (markStop s k) := by
  unfold markStop
  repeat' (first
    | with_reducible assumption
    | with_reducible apply keeps_modItem
    | with_reducible apply keeps_addR
    | with_reducible apply keeps_ite
    | simp only [keeps_upd]
    | split
    | dsimp only)

theorem keeps_stopCore {z0 : State} (s : State) (p : _) (live : _)  (kz : Keeps z0 s) :
    Keeps z0 (stopCore s p live) := by
  unfold stopCore
  repeat' (first
    | with_reducible assumption
    | with_reducible apply keeps_addI
    | with_reducible apply keeps_markStop
    | with_reducible apply keeps_modCore
    | with_reducible apply keeps_ite
    | simp only [keeps_upd]
    | exact fun _ h => h
    | split
    | dsimp only)

theorem keeps_readRows {z0 : State} (s : State) (p : _) (it : _) (rows : _) (kz : Keeps z0 s) :
    Keeps z0 (readRows s p it rows).1 := by
  unfold readRows
  repeat' (first
    | with_reducible assumption
    | with_reducible apply keeps_binRow
    | with_reducible apply keeps_readSpill
    | with_reducible apply keeps_ite
    | simp only [keeps_upd]
    | with_reducible apply keeps_foldl
    | with_reducible apply keeps_foldl1
    | with_reducible apply keeps_foldl2
    | exact fun _ h => h
    | exact fun _ _ => rfl
    | with_reducible intro _ _ _ _
    | with_reducible intro _ _ _
    | simp only [fst_ite]
    | simp only [snd_ite]
    | split
    | dsimp only
    | refine keeps_of_fst (by with_reducible assumption) ?_
    | refine keeps_of_snd (by with_reducible assumption) ?_)

theorem keeps_resumeItem {z0 : State} (s : State) (k : _)  (kz : Keeps z0 s) :
    Keeps z0 (resumeItem s k) := by
  unfold resumeItem
  repeat' (first
    | with_reducible assumption
    | with_reducible apply keeps_dropCtxs
    | with_reducible apply keeps_modItem
    | with_reducible apply keeps_setI
    | with_reducible apply keeps_modCore
    | with_reducible apply keeps_ite
    | simp only [keeps_upd]
    | with_reducible apply keeps_foldl
    | with_reducible intro _ _ _ _
    | exact fun _ h => h
    | with_reducible intro _ _ _
    | simp only [fst_ite]
    | simp only [snd_ite]
    | split
    | dsimp only)

theorem keeps_writeBin {z0 : State} (s : State) (p : _) (b : _) (a : _) (bytes : _) (bad : _)  (kz : Keeps z0 s) :
    Keeps z0 (writeBin s p b a bytes bad) := by
  unfold writeBin
  refine keeps_modCore _ _ _ (fun c h => ?_) (keeps_breakResident _ _ _ _ _ kz)
  have h0 := CoreS.canon_zeroRows c b (b.rowsOf a (bytes.take (b.rows * b.row - a)).length) h
  have hb := CoreS.canon_setBin _ b _ h0 (Mem.copyIn_wf _ a (bytes.take (b.rows * b.row - a)) bad (CoreS.canon_bin _ b h0))
  rw [CoreS.canon_iff] at hb ⊢
  exact hb

theorem keeps_darkPieces {z0 : State} (s : State) (p : _) (l : _) (kz : Keeps z0 s) :
    Keeps z0 (darkPieces s p l) := by
  unfold darkPieces
  repeat' (first
    | with_reducible assumption
    | with_reducible apply keeps_darkFault
    | with_reducible apply keeps_ite
    | simp only [keeps_upd]
    | with_reducible apply keeps_foldl
    | with_reducible apply keeps_foldl1
    | with_reducible apply keeps_foldl2
    | exact fun _ h => h
    | exact fun _ _ => rfl
    | with_reducible intro _ _ _ _
    | with_reducible intro _ _ _
    | simp only [fst_ite]
    | simp only [snd_ite]
    | split
    | dsimp only
    | refine keeps_of_fst (by with_reducible assumption) ?_
    | refine keeps_of_snd (by with_reducible assumption) ?_)

theorem keeps_writeSpill {z0 : State} (s : State) (p : _) (it : _) (t : _) (o : _) (bytes : _) (kz : Keeps z0 s) :
    Keeps z0 (writeSpill s p it t o bytes).1 := by
  unfold writeSpill
  repeat' (first
    | with_reducible assumption
    | with_reducible apply keeps_granReadN
    | with_reducible apply keeps_granWriteN
    | with_reducible apply keeps_nameWrites
    | with_reducible apply keeps_modItem
    | with_reducible apply keeps_ite
    | simp only [keeps_upd]
    | with_reducible apply keeps_foldl
    | with_reducible apply keeps_foldl1
    | with_reducible apply keeps_foldl2
    | exact fun _ h => h
    | exact fun _ _ => rfl
    | with_reducible intro _ _ _ _
    | with_reducible intro _ _ _
    | simp only [fst_ite]
    | simp only [snd_ite]
    | split
    | dsimp only
    | refine keeps_of_fst (by with_reducible assumption) ?_
    | refine keeps_of_snd (by with_reducible assumption) ?_)

theorem keeps_writePiece {z0 : State} (s : State) (p : _) (b : _) (x : _) (bytes : _) (kz : Keeps z0 s) :
    Keeps z0 (writePiece s p b x bytes) := by
  unfold writePiece
  repeat' (first
    | with_reducible assumption
    | with_reducible apply keeps_writeSpill
    | with_reducible apply keeps_writeBin
    | with_reducible apply keeps_ite
    | simp only [keeps_upd]
    | with_reducible apply keeps_foldl
    | with_reducible apply keeps_foldl1
    | with_reducible apply keeps_foldl2
    | exact fun _ h => h
    | exact fun _ _ => rfl
    | with_reducible intro _ _ _ _
    | with_reducible intro _ _ _
    | simp only [fst_ite]
    | simp only [snd_ite]
    | split
    | dsimp only
    | refine keeps_of_fst (by with_reducible assumption) ?_
    | refine keeps_of_snd (by with_reducible assumption) ?_)

theorem keeps_writeRef {z0 : State} (s : State) (p : _) (r : _) (bytes : _) (t : _) (kz : Keeps z0 s) :
    Keeps z0 (writeRef s p r bytes t) := by
  unfold writeRef
  repeat' (first
    | with_reducible assumption
    | with_reducible apply keeps_darkPieces
    | with_reducible apply keeps_writePiece
    | with_reducible apply keeps_modRegion
    | with_reducible apply keeps_ite
    | simp only [keeps_upd]
    | with_reducible apply keeps_foldl
    | with_reducible apply keeps_foldl1
    | with_reducible apply keeps_foldl2
    | exact fun _ h => h
    | exact fun _ _ => rfl
    | with_reducible intro _ _ _ _
    | with_reducible intro _ _ _
    | simp only [fst_ite]
    | simp only [snd_ite]
    | split
    | dsimp only
    | refine keeps_of_fst (by with_reducible assumption) ?_
    | refine keeps_of_snd (by with_reducible assumption) ?_)

theorem keeps_markResident {z0 : State} (s : State) (p : _) (it : _) (r : _) (tag : _) (kz : Keeps z0 s) :
    Keeps z0 (markResident s p it r tag) := by
  unfold markResident
  repeat' (first
    | with_reducible assumption
    | with_reducible apply keeps_setTag
    | with_reducible apply keeps_modCore
    | with_reducible apply keeps_ite
    | simp only [keeps_upd]
    | with_reducible apply keeps_foldl
    | with_reducible apply keeps_foldl1
    | with_reducible apply keeps_foldl2
    | exact fun _ h => h
    | exact fun _ _ => rfl
    | with_reducible intro _ _ _ _
    | with_reducible intro _ _ _
    | simp only [fst_ite]
    | simp only [snd_ite]
    | split
    | dsimp only
    | refine keeps_of_fst (by with_reducible assumption) ?_
    | refine keeps_of_snd (by with_reducible assumption) ?_)

theorem keeps_readTile {z0 : State} (s : State) (p : _) (k : _) (it : _) (t : _) (n : _) (kz : Keeps z0 s) :
    Keeps z0 (readTile s p k it t n).1 := by
  unfold readTile
  repeat' (first
    | with_reducible assumption
    | with_reducible apply keeps_readSpill
    | with_reducible apply keeps_readBin
    | with_reducible apply keeps_afterBins
    | with_reducible apply keeps_ite
    | simp only [keeps_upd]
    | with_reducible apply keeps_foldl
    | with_reducible apply keeps_foldl1
    | with_reducible apply keeps_foldl2
    | exact fun _ h => h
    | exact fun _ _ => rfl
    | with_reducible intro _ _ _ _
    | with_reducible intro _ _ _
    | simp only [fst_ite]
    | simp only [snd_ite]
    | split
    | dsimp only
    | refine keeps_of_fst (by with_reducible assumption) ?_
    | refine keeps_of_snd (by with_reducible assumption) ?_)

theorem keeps_readBlocks {z0 : State} (p : _) (k : _) (it : _) (acc : _) (a4 : _) (a5 : State)  (kz : Keeps z0 a5) :
    Keeps z0 (readBlocks p k it acc a4 a5).1 := by
  induction a4 generalizing z0 a5 with
  | nil => 
    unfold readBlocks
    repeat' (first
    | with_reducible assumption
    | with_reducible apply keeps_readTile
    | with_reducible apply keeps_ite
    | simp only [keeps_upd]
    | simp only [fst_ite]
    | simp only [snd_ite]
    | split
    | dsimp only)
  | cons _ _ ih =>
    unfold readBlocks
    repeat' (first
    | with_reducible assumption
    | with_reducible apply keeps_readTile
    | with_reducible apply ih
    | with_reducible apply keeps_ite
    | simp only [keeps_upd]
    | simp only [fst_ite]
    | simp only [snd_ite]
    | split
    | dsimp only)

theorem keeps_mmCounts {z0 : State} (s : State) (p : _) (it : _) (o : _) (a : _) (w : _) (kz : Keeps z0 s) :
    Keeps z0 (mmCounts s p it o a w) := by
  unfold mmCounts
  repeat' (first
    | with_reducible assumption
    | with_reducible apply keeps_addPairI
    | with_reducible apply keeps_fresh
    | with_reducible apply keeps_modCore
    | with_reducible apply keeps_modItem
    | with_reducible apply keeps_addI
    | with_reducible apply keeps_ite
    | simp only [keeps_upd]
    | with_reducible apply keeps_foldl
    | with_reducible apply keeps_foldl1
    | with_reducible apply keeps_foldl2
    | exact fun _ h => h
    | exact fun _ _ => rfl
    | with_reducible intro _ _ _ _
    | with_reducible intro _ _ _
    | simp only [fst_ite]
    | simp only [snd_ite]
    | split
    | dsimp only
    | refine keeps_of_fst (by with_reducible assumption) ?_
    | refine keeps_of_snd (by with_reducible assumption) ?_)

theorem keeps_residueFault {z0 : State} (s : State) (p : _) (o : _)  (kz : Keeps z0 s) :
    Keeps z0 (residueFault s p o) := by
  unfold residueFault
  repeat' (first
    | with_reducible assumption
    | with_reducible apply keeps_fresh
    | with_reducible apply keeps_addI
    | with_reducible apply keeps_coreFault
    | with_reducible apply keeps_ite
    | simp only [keeps_upd]
    | simp only [fst_ite]
    | simp only [snd_ite]
    | split
    | dsimp only)

theorem keeps_writeTileRow {z0 : State} (s : State) (p : _) (it : _) (t : _) (row : _) (bytes : _) (kz : Keeps z0 s) :
    Keeps z0 (writeTileRow s p it t row bytes) := by
  unfold writeTileRow
  repeat' (first
    | with_reducible assumption
    | with_reducible apply keeps_writeSpill
    | with_reducible apply keeps_writeBin
    | with_reducible apply keeps_ite
    | simp only [keeps_upd]
    | with_reducible apply keeps_foldl
    | with_reducible apply keeps_foldl1
    | with_reducible apply keeps_foldl2
    | exact fun _ h => h
    | exact fun _ _ => rfl
    | with_reducible intro _ _ _ _
    | with_reducible intro _ _ _
    | simp only [fst_ite]
    | simp only [snd_ite]
    | split
    | dsimp only
    | refine keeps_of_fst (by with_reducible assumption) ?_
    | refine keeps_of_snd (by with_reducible assumption) ?_)

theorem keeps_writeBlock {z0 : State} (p : _) (it : _) (b : _) (rows : _) (s : State)  (kz : Keeps z0 s) :
    Keeps z0 (writeBlock p it b rows s) := by
  unfold writeBlock
  repeat' (first
    | with_reducible assumption
    | with_reducible apply keeps_writeTileRow
    | with_reducible apply keeps_ite
    | simp only [keeps_upd]
    | with_reducible apply keeps_foldl
    | with_reducible apply keeps_foldl1
    | with_reducible intro _ _ _ _
    | with_reducible intro _ _ _
    | simp only [fst_ite]
    | simp only [snd_ite]
    | split
    | dsimp only)

theorem keeps_noteWraps {z0 : State} (s : State) (p : _) (k : _) (n : _)  (kz : Keeps z0 s) :
    Keeps z0 (noteWraps s p k n) := by
  unfold noteWraps
  repeat' (first
    | with_reducible assumption
    | with_reducible apply keeps_flagItem
    | with_reducible apply keeps_addI
    | with_reducible apply keeps_ite
    | simp only [keeps_upd]
    | split
    | dsimp only)

theorem keeps_fillEls {z0 : State} (z : _) (a1 : _) (a2 : State)  (kz : Keeps z0 a2) :
    Keeps z0 (fillEls z a1 a2).1 := by
  induction a1 generalizing a2 with
  | nil => exact kz
  | cons x r ih =>
    cases x with
    | none => exact ih _ (keeps_fresh _ kz)
    | some v => exact ih _ kz

theorem keeps_writeOper {z0 : State} (s : State) (p : _) (it : _) (x : _) (t : _) (kz : Keeps z0 s) :
    Keeps z0 (writeOper s p it x t) := by
  unfold writeOper
  repeat' (first
    | with_reducible assumption
    | with_reducible apply keeps_writeRef
    | with_reducible apply keeps_granPut
    | with_reducible apply keeps_nameWrites
    | with_reducible apply keeps_darkFault
    | with_reducible apply keeps_modItem
    | with_reducible apply keeps_ite
    | simp only [keeps_upd]
    | with_reducible apply keeps_foldl
    | with_reducible apply keeps_foldl1
    | with_reducible apply keeps_foldl2
    | exact fun _ h => h
    | exact fun _ _ => rfl
    | with_reducible intro _ _ _ _
    | with_reducible intro _ _ _
    | simp only [fst_ite]
    | simp only [snd_ite]
    | split
    | dsimp only
    | refine keeps_of_fst (by with_reducible assumption) ?_
    | refine keeps_of_snd (by with_reducible assumption) ?_)

theorem keeps_runTile {z0 : State} (s : State) (p : _) (cmd : _) (e : _) (cycles : _) (eff : _) (heff : ∀ y z0 z1, Keeps y z1 → Keeps y (eff z0 z1)) (kz : Keeps z0 s) :
    Keeps z0 (runTile s p cmd e cycles eff) := by
  unfold runTile
  repeat' (first
    | with_reducible assumption
    | with_reducible apply keeps_issued
    | with_reducible apply keeps_flushBins
    | with_reducible apply heff
    | with_reducible apply keeps_ite
    | simp only [keeps_upd]
    | split
    | dsimp only)

theorem keeps_modSem {z0 : State} (s : State) (n : _) (f : _)  (kz : Keeps z0 s) :
    Keeps z0 (modSem s n f) := by
  unfold modSem
  repeat' (first
    | with_reducible assumption
    | with_reducible apply keeps_ite
    | simp only [keeps_upd]
    | split
    | dsimp only)

theorem keeps_waitSem {z0 : State} (s : State) (p : _) (k : _) (n : _) (cmd : _)  (kz : Keeps z0 s) :
    Keeps z0 (waitSem s p k n cmd) := by
  unfold waitSem
  repeat' (first
    | with_reducible assumption
    | with_reducible apply keeps_blockOn
    | with_reducible apply keeps_modSem
    | with_reducible apply keeps_issued
    | with_reducible apply keeps_flushBins
    | with_reducible apply keeps_ite
    | simp only [keeps_upd]
    | split
    | dsimp only)

theorem keeps_signalSem {z0 : State} (s : State) (n : _) (k : _)  (kz : Keeps z0 s) :
    Keeps z0 (signalSem s n k) := by
  unfold signalSem
  repeat' (first
    | with_reducible assumption
    | with_reducible apply keeps_modSem
    | with_reducible apply keeps_modItem
    | with_reducible apply keeps_ite
    | simp only [keeps_upd]
    | split
    | dsimp only)

theorem keeps_readOut {z0 : State} (s : State) (it : _) (o : _)  (kz : Keeps z0 s) :
    Keeps z0 (readOut s it o).1 := by
  unfold readOut
  repeat' (first
    | with_reducible assumption
    | with_reducible apply keeps_granGet
    | with_reducible apply keeps_afterGran
    | with_reducible apply keeps_ite
    | simp only [keeps_upd]
    | simp only [fst_ite]
    | simp only [snd_ite]
    | split
    | dsimp only)

theorem keeps_readOuts {z0 : State} (it : _) (a1 : _) (a2 : State)  (kz : Keeps z0 a2) :
    Keeps z0 (readOuts it a1 a2).1 := by
  induction a1 generalizing z0 a2 with
  | nil => 
    unfold readOuts
    repeat' (first
    | with_reducible assumption
    | with_reducible apply keeps_readOut
    | with_reducible apply keeps_ite
    | simp only [keeps_upd]
    | simp only [fst_ite]
    | simp only [snd_ite]
    | split
    | dsimp only)
  | cons _ _ ih =>
    unfold readOuts
    repeat' (first
    | with_reducible assumption
    | with_reducible apply keeps_readOut
    | with_reducible apply ih
    | with_reducible apply keeps_ite
    | simp only [keeps_upd]
    | simp only [fst_ite]
    | simp only [snd_ite]
    | split
    | dsimp only)

theorem keeps_testPassed {z0 : State} (s : State) (key : _)  (kz : Keeps z0 s) :
    Keeps z0 (testPassed s key) := by
  unfold testPassed
  repeat' (first
    | with_reducible assumption
    | with_reducible apply keeps_ite
    | simp only [keeps_upd]
    | split
    | dsimp only)

theorem keeps_goldenEnd {z0 : State} (s : State) (it : _) (b : _)  (kz : Keeps z0 s) :
    Keeps z0 (goldenEnd s it b) := by
  unfold goldenEnd
  repeat' (first
    | with_reducible assumption
    | with_reducible apply keeps_testPassed
    | with_reducible apply keeps_addR
    | with_reducible apply keeps_fresh
    | with_reducible apply keeps_safNow
    | with_reducible apply keeps_latchFault
    | with_reducible apply keeps_ite
    | simp only [keeps_upd]
    | simp only [fst_ite]
    | simp only [snd_ite]
    | split
    | dsimp only)

theorem keeps_handOff {z0 : State} (s : State) (it : _) (x : _)  (kz : Keeps z0 s) :
    Keeps z0 (handOff s it x) := by
  unfold handOff
  repeat' (first
    | with_reducible assumption
    | with_reducible apply keeps_detectHandOff
    | with_reducible apply keeps_embedHandOff
    | with_reducible apply keeps_addR
    | with_reducible apply keeps_ite
    | simp only [keeps_upd]
    | split
    | dsimp only)

theorem keeps_release {z0 : State} (s : State) (it : _) (x : _) (u : _)  (kz : Keeps z0 s) :
    Keeps z0 (release s it x u) := by
  unfold release
  repeat' (first
    | with_reducible assumption
    | with_reducible apply keeps_addR
    | with_reducible apply keeps_nextRelease
    | with_reducible apply keeps_ite
    | simp only [keeps_upd]
    | split
    | dsimp only)

theorem keeps_releases {z0 : State} (s : State) (it : _) (outs : _)  (kz : Keeps z0 s) :
    Keeps z0 (releases s it outs) := by
  unfold releases
  repeat' (first
    | with_reducible assumption
    | with_reducible apply keeps_release
    | with_reducible apply keeps_ite
    | simp only [keeps_upd]
    | with_reducible apply keeps_foldl
    | with_reducible apply keeps_foldl1
    | with_reducible intro _ _ _ _
    | with_reducible intro _ _ _
    | simp only [fst_ite]
    | simp only [snd_ite]
    | split
    | dsimp only)

theorem keeps_finishItem {z0 : State} (s : State) (k : _)  (kz : Keeps z0 s) :
    Keeps z0 (finishItem s k) := by
  unfold finishItem
  repeat' (first
    | with_reducible assumption
    | with_reducible apply keeps_readOuts
    | with_reducible apply keeps_endItem
    | with_reducible apply keeps_goldenEnd
    | with_reducible apply keeps_emitAll
    | with_reducible apply keeps_handOff
    | with_reducible apply keeps_releases
    | with_reducible apply keeps_endItemWith
    | with_reducible apply keeps_ite
    | simp only [keeps_upd]
    | with_reducible apply keeps_foldl
    | with_reducible apply keeps_foldl1
    | with_reducible intro _ _ _ _
    | with_reducible intro _ _ _
    | simp only [fst_ite]
    | simp only [snd_ite]
    | split
    | dsimp only)

theorem keeps_takeRec {z0 : State} {s : State} {r : _}  {t : State} (h : takeRec s r = some t) (kz : Keeps z0 s) :
    Keeps z0 t := by
  unfold takeRec at h
  simp only at h
  split at h
  · exact keeps_toJournal h kz
  · split at h
    · exact keeps_toJournal h (keeps_tellOrphans _ _ kz)
    · split at h
      · rename_i heq
        cases h
        exact keeps_ringTake heq (keeps_tellOrphans _ _ kz)
      · exact keeps_toJournal h (keeps_tellOrphans _ _ kz)

theorem keeps_patrolRow {z0 : State} (s : State) (k : _) (p : _) (kz : Keeps z0 s) :
    Keeps z0 (patrolRow s k p) := by
  unfold patrolRow
  repeat' (first
    | with_reducible assumption
    | with_reducible apply keeps_noteScrub
    | with_reducible apply keeps_modClu
    | with_reducible apply keeps_ite
    | simp only [keeps_upd]
    | with_reducible apply keeps_foldl
    | with_reducible apply keeps_foldl1
    | with_reducible apply keeps_foldl2
    | exact fun _ h => h
    | exact fun _ _ => rfl
    | with_reducible intro _ _ _ _
    | with_reducible intro _ _ _
    | simp only [fst_ite]
    | simp only [snd_ite]
    | split
    | dsimp only
    | refine keeps_of_fst (by with_reducible assumption) ?_
    | refine keeps_of_snd (by with_reducible assumption) ?_)

theorem keeps_scrubBank {z0 : State} (turn : _) (k : _) (copying : _) (s : State) (p : _)  (kz : Keeps z0 s) :
    Keeps z0 (scrubBank turn k copying s p) := by
  unfold scrubBank
  simp only
  split
  · exact kz
  · split
    · exact keeps_modClu _ _ _ (fun c h => Mem.writeBack_wf _ _ _ h) kz
    · split
      · exact keeps_modClu _ _ _ (fun c h => h) kz
      · split
        · exact keeps_patrolRow _ _ _ kz
        · exact kz

theorem keeps_serveOwn {z0 : State} (p n : Nat) (s : State) (kz : Keeps z0 s) : Keeps z0 (serveOwn p n s) := by
  induction n generalizing s with
  | zero => exact kz
  | succ n ih =>
    unfold serveOwn
    dsimp only
    split
    · exact ih _ (keeps_serveEnt _ _ _ _ kz)
    · exact kz

theorem keeps_hbmSettle {z0 : State} (s : State) (p : _) (kz : Keeps z0 s) :
    Keeps z0 (hbmSettle s p) := by
  unfold hbmSettle
  repeat' (first
    | with_reducible assumption
    | with_reducible apply keeps_admitWaiting
    | with_reducible apply keeps_serveOwn
    | with_reducible apply keeps_ite
    | simp only [keeps_upd]
    | with_reducible apply keeps_foldl
    | with_reducible apply keeps_foldl1
    | with_reducible apply keeps_foldl2
    | exact fun _ h => h
    | exact fun _ _ => rfl
    | with_reducible intro _ _ _ _
    | with_reducible intro _ _ _
    | simp only [fst_ite]
    | simp only [snd_ite]
    | split
    | dsimp only
    | refine keeps_of_fst (by with_reducible assumption) ?_
    | refine keeps_of_snd (by with_reducible assumption) ?_)

theorem keeps_launchFlit {z0 : State} (s : State) (p : _) (f : _) (core : _) (since : _)  (kz : Keeps z0 s) :
    Keeps z0 (launchFlit s p f core since) := by
  unfold launchFlit
  repeat' (first
    | with_reducible assumption
    | with_reducible apply keeps_modLink
    | with_reducible apply keeps_emit
    | with_reducible apply keeps_addI
    | with_reducible apply keeps_ite
    | simp only [keeps_upd]
    | split
    | dsimp only)

theorem keeps_pump {z0 : State} (p : _) (a1 : _) (a2 : State)  (kz : Keeps z0 a2) :
    Keeps z0 (pump p a1 a2) := by
  induction a1 generalizing z0 a2 with
  | zero => 
    unfold pump
    repeat' (first
    | with_reducible assumption
    | with_reducible apply keeps_launchFlit
    | with_reducible apply keeps_modLink
    | with_reducible apply keeps_ite
    | simp only [keeps_upd]
    | split
    | dsimp only)
  | succ _ ih =>
    unfold pump
    repeat' (first
    | with_reducible assumption
    | with_reducible apply keeps_launchFlit
    | with_reducible apply keeps_modLink
    | with_reducible apply ih
    | with_reducible apply keeps_ite
    | simp only [keeps_upd]
    | split
    | dsimp only)

theorem keeps_sendFlits {z0 : State} (s : State) (p : _) (fs : _) (core : _)  (kz : Keeps z0 s) :
    Keeps z0 (sendFlits s p fs core) := by
  unfold sendFlits
  repeat' (first
    | with_reducible assumption
    | with_reducible apply keeps_modLink
    | with_reducible apply keeps_modCore
    | with_reducible apply keeps_pump
    | with_reducible apply keeps_ite
    | simp only [keeps_upd]
    | exact fun _ h => h
    | split
    | dsimp only)

theorem keeps_sendProbe {z0 : State} (s : State) (p : _)  (kz : Keeps z0 s) :
    Keeps z0 (sendProbe s p) := by
  unfold sendProbe
  repeat' (first
    | with_reducible assumption
    | with_reducible apply keeps_sendFlits
    | with_reducible apply keeps_modLink
    | with_reducible apply keeps_ite
    | simp only [keeps_upd]
    | split
    | dsimp only)

theorem keeps_failFabric {z0 : State} (s : State)  (kz : Keeps z0 s) :
    Keeps z0 (failFabric s) := by
  unfold failFabric
  repeat' (first
    | with_reducible assumption
    | with_reducible apply keeps_endItems
    | with_reducible apply keeps_ite
    | simp only [keeps_upd]
    | split
    | dsimp only)

theorem keeps_outOfStep {z0 : State} (s : State) (delta : _)  (kz : Keeps z0 s) :
    Keeps z0 (outOfStep s delta) := by
  unfold outOfStep
  repeat' (first
    | with_reducible assumption
    | with_reducible apply keeps_setR
    | with_reducible apply keeps_addR
    | with_reducible apply keeps_failFabric
    | with_reducible apply keeps_safNow
    | with_reducible apply keeps_ite
    | simp only [keeps_upd]
    | split
    | dsimp only)

theorem keeps_putUnit {z0 : State} (s : State) (u : _)  (kz : Keeps z0 s) :
    Keeps z0 (putUnit s u) := by
  unfold putUnit
  repeat' (first
    | with_reducible assumption
    | with_reducible apply keeps_ite
    | simp only [keeps_upd]
    | split
    | dsimp only)

theorem keeps_takeFlit {z0 : State} (s : State) (p : _) (f : _)  (kz : Keeps z0 s) :
    Keeps z0 (takeFlit s p f) := by
  unfold takeFlit
  repeat' (first
    | with_reducible assumption
    | with_reducible apply keeps_modLink
    | with_reducible apply keeps_addI
    | with_reducible apply keeps_putUnit
    | with_reducible apply keeps_ite
    | simp only [keeps_upd]
    | split
    | dsimp only)

theorem keeps_reply {z0 : State} (s : State) (p : _) (b : _)  (kz : Keeps z0 s) :
    Keeps z0 (reply s p b) := by
  unfold reply
  repeat' (first
    | with_reducible assumption
    | with_reducible apply keeps_emit
    | with_reducible apply keeps_ite
    | simp only [keeps_upd]
    | split
    | dsimp only)

theorem keeps_landBytes {z0 : State} (s : State) (it : _) (x : _) (b : _)  (kz : Keeps z0 s) :
    Keeps z0 (landBytes s it x b) := by
  unfold landBytes
  repeat' (first
    | with_reducible assumption
    | with_reducible apply keeps_hbmPut
    | with_reducible apply keeps_granPut
    | with_reducible apply keeps_afterPut
    | with_reducible apply keeps_ite
    | simp only [keeps_upd]
    | simp only [fst_ite]
    | simp only [snd_ite]
    | split
    | dsimp only)

theorem keeps_signalUnit {z0 : State} (s : State) (it : _) (x : _) (u : _) (late : _)  (kz : Keeps z0 s) :
    Keeps z0 (signalUnit s it x u late) := by
  unfold signalUnit
  repeat' (first
    | with_reducible assumption
    | with_reducible apply keeps_signalSem
    | with_reducible apply keeps_putUnit
    | with_reducible apply keeps_modItem
    | with_reducible apply keeps_addI
    | with_reducible apply keeps_ite
    | simp only [keeps_upd]
    | split
    | dsimp only)

theorem keeps_resetPair {z0 : State} (s : State) (pair : _) (cause : _)  (kz : Keeps z0 s) :
    Keeps z0 (resetPair s pair cause) := by
  unfold resetPair
  repeat' (first
    | with_reducible assumption
    | with_reducible apply keeps_addR
    | with_reducible apply keeps_setR
    | with_reducible apply keeps_safNow
    | with_reducible apply keeps_ite
    | simp only [keeps_upd]
    | split
    | dsimp only)

theorem keeps_flashReset {z0 : State} (s : State)  (kz : Keeps z0 s) :
    Keeps z0 (flashReset s) := by
  unfold flashReset
  repeat' (first
    | with_reducible assumption
    | with_reducible apply keeps_ite
    | simp only [keeps_upd]
    | split
    | dsimp only)

theorem keeps_pairFault {z0 : State} (s : State) (pair : _) (cause : _)  (kz : Keeps z0 s) :
    Keeps z0 (pairFault s pair cause) := by
  unfold pairFault
  repeat' (first
    | with_reducible assumption
    | with_reducible apply keeps_guardOn
    | with_reducible apply keeps_resetPair
    | with_reducible apply keeps_addR
    | with_reducible apply keeps_putF
    | with_reducible apply keeps_dropServices
    | with_reducible apply keeps_flashReset
    | with_reducible apply keeps_ite
    | simp only [keeps_upd]
    | with_reducible apply keeps_foldl
    | with_reducible apply keeps_foldl1
    | with_reducible intro _ _ _ _
    | with_reducible intro _ _ _
    | simp only [fst_ite]
    | simp only [snd_ite]
    | split
    | dsimp only)

theorem keeps_trackFault {z0 : State} (s : State) (i : _)  (kz : Keeps z0 s) :
    Keeps z0 (trackFault s i) := by
  unfold trackFault
  repeat' (first
    | with_reducible assumption
    | with_reducible apply keeps_addI
    | with_reducible apply keeps_ite
    | simp only [keeps_upd]
    | split
    | dsimp only)

theorem keeps_nextReport {z0 : State} (s : State) (k : _)  (kz : Keeps z0 s) :
    Keeps z0 (nextReport s k) := by
  unfold nextReport
  repeat' (first
    | with_reducible assumption
    | with_reducible apply keeps_coreFault
    | with_reducible apply keeps_ite
    | simp only [keeps_upd]
    | split
    | dsimp only)

theorem keeps_proveService {z0 : State} (s : State)  (kz : Keeps z0 s) :
    Keeps z0 (proveService s) := by
  unfold proveService
  repeat' (first
    | with_reducible assumption
    | with_reducible apply keeps_commitService
    | with_reducible apply keeps_ite
    | simp only [keeps_upd]
    | split
    | dsimp only)

theorem keeps_safUnit {z0 : State} (s : State) (kind : _) (unit : _)  (kz : Keeps z0 s) :
    Keeps z0 (safUnit s kind unit).1 := by
  unfold safUnit
  repeat' (first
    | with_reducible assumption
    | with_reducible apply keeps_fresh
    | with_reducible apply keeps_ite
    | simp only [keeps_upd]
    | simp only [fst_ite]
    | simp only [snd_ite]
    | split
    | dsimp only)

theorem keeps_finding {z0 : State} (s : State) (seg : _) (kind : _) (unit : _)  (kz : Keeps z0 s) :
    Keeps z0 (finding s seg kind unit) := by
  unfold finding
  repeat' (first
    | with_reducible assumption
    | with_reducible apply keeps_safUnit
    | with_reducible apply keeps_addR
    | with_reducible apply keeps_safNow
    | with_reducible apply keeps_coreFault
    | with_reducible apply keeps_latchFault
    | with_reducible apply keeps_ite
    | simp only [keeps_upd]
    | simp only [fst_ite]
    | simp only [snd_ite]
    | split
    | dsimp only)

theorem keeps_moveRecs {z0 : State} (s : State) (b : _) (d : _)  (kz : Keeps z0 s) :
    Keeps z0 (moveRecs s b d) := by
  unfold moveRecs
  repeat' (first
    | with_reducible assumption
    | with_reducible apply keeps_ite
    | simp only [keeps_upd]
    | split
    | dsimp only)

theorem keeps_growBad {z0 : State} (s : State) (b : _)  (kz : Keeps z0 s) :
    Keeps z0 (growBad s b) := by
  unfold growBad
  repeat' (first
    | with_reducible assumption
    | with_reducible apply keeps_addR
    | with_reducible apply keeps_modBlock
    | with_reducible apply keeps_fwEvent
    | with_reducible apply keeps_moveRecs
    | with_reducible apply keeps_queueOps
    | with_reducible apply keeps_refreshFlash
    | with_reducible apply keeps_ite
    | simp only [keeps_upd]
    | split
    | dsimp only)

theorem keeps_loseCopies {z0 : State} (s : State) (b : _)  (kz : Keeps z0 s) :
    Keeps z0 (loseCopies s b) := by
  unfold loseCopies
  repeat' (first
    | with_reducible assumption
    | with_reducible apply keeps_ite
    | simp only [keeps_upd]
    | split
    | dsimp only)

theorem keeps_refreshBlock {z0 : State} (s : State) (b : _)  (kz : Keeps z0 s) :
    Keeps z0 (refreshBlock s b) := by
  unfold refreshBlock
  repeat' (first
    | with_reducible assumption
    | with_reducible apply keeps_moveRecs
    | with_reducible apply keeps_queueOps
    | with_reducible apply keeps_ite
    | simp only [keeps_upd]
    | split
    | dsimp only)

theorem keeps_holdLevels {z0 : State} (s : State)  (kz : Keeps z0 s) :
    Keeps z0 (holdLevels s) := by
  unfold holdLevels
  repeat' (first
    | with_reducible assumption
    | with_reducible apply keeps_setR
    | with_reducible apply keeps_driveAlert
    | with_reducible apply keeps_ite
    | simp only [keeps_upd]
    | split
    | dsimp only)

theorem keeps_putFwSlot {z0 : State} (s : State) (slot : _) (x : _)  (kz : Keeps z0 s) :
    Keeps z0 (putFwSlot s slot x) := by
  unfold putFwSlot
  repeat' (first
    | with_reducible assumption
    | with_reducible apply keeps_ite
    | simp only [keeps_upd]
    | split
    | dsimp only)

theorem keeps_fwStep {z0 : State} (o : _) (s : State)  (kz : Keeps z0 s) :
    Keeps z0 (fwStep o s) := by
  unfold fwStep
  repeat' (first
    | with_reducible assumption
    | with_reducible apply keeps_putFwSlot
    | with_reducible apply keeps_fwEnds
    | with_reducible apply keeps_ite
    | simp only [keeps_upd]
    | split
    | dsimp only)

theorem keeps_logBlock {z0 : State} (s : State) (k : _)  (kz : Keeps z0 s) :
    Keeps z0 (logBlock s k).1 := by
  unfold logBlock
  repeat' (first
    | with_reducible assumption
    | with_reducible apply keeps_eraseBlock
    | with_reducible apply keeps_ite
    | simp only [keeps_upd]
    | simp only [fst_ite]
    | simp only [snd_ite]
    | split
    | dsimp only)

theorem keeps_noteJournal {z0 : State} (s : State) (o : _) (rest : _)  (kz : Keeps z0 s) :
    Keeps z0 (noteJournal s o rest) := by
  unfold noteJournal
  repeat' (first
    | with_reducible assumption
    | with_reducible apply keeps_ite
    | simp only [keeps_upd]
    | split
    | dsimp only)

theorem keeps_progPage {z0 : State} (s : State) (b : _)  (kz : Keeps z0 s) :
    Keeps z0 (progPage s b) := by
  unfold progPage
  repeat' (first
    | with_reducible assumption
    | with_reducible apply keeps_addR
    | with_reducible apply keeps_modBlock
    | with_reducible apply keeps_ite
    | simp only [keeps_upd]
    | split
    | dsimp only)

theorem keeps_flashDone {z0 : State} (ok : _) (s : State)  (kz : Keeps z0 s) :
    Keeps z0 (flashDone ok s) := by
  unfold flashDone
  repeat' (first
    | with_reducible assumption
    | with_reducible apply keeps_logBlock
    | with_reducible apply keeps_addR
    | with_reducible apply keeps_noteJournal
    | with_reducible apply keeps_progPage
    | with_reducible apply keeps_growBad
    | with_reducible apply keeps_moveRecs
    | with_reducible apply keeps_eraseBlock
    | with_reducible apply keeps_ackTurnOff
    | with_reducible apply keeps_refreshFlash
    | with_reducible apply keeps_ite
    | simp only [keeps_upd]
    | simp only [fst_ite]
    | simp only [snd_ite]
    | split
    | dsimp only)

theorem keeps_shiftFree {z0 : State} (s : State) (n : _)  (kz : Keeps z0 s) :
    Keeps z0 (shiftFree s n).1 := by
  unfold shiftFree
  repeat' (first
    | with_reducible assumption
    | with_reducible apply keeps_fresh
    | with_reducible apply keeps_ite
    | simp only [keeps_upd]
    | with_reducible apply keeps_foldl
    | with_reducible apply keeps_foldl1
    | with_reducible intro _ _ _ _
    | with_reducible intro _ _ _
    | simp only [fst_ite]
    | simp only [snd_ite]
    | split
    | dsimp only)

theorem keeps_passPage {z0 : State} (s : State) (p : _)  (kz : Keeps z0 s) :
    Keeps z0 (passPage s p).1 := by
  unfold passPage
  repeat' (first
    | with_reducible assumption
    | with_reducible apply keeps_goLive
    | with_reducible apply keeps_commitOne
    | with_reducible apply keeps_ite
    | simp only [keeps_upd]
    | simp only [fst_ite]
    | simp only [snd_ite]
    | split
    | dsimp only)

theorem keeps_poisonPic {z0 : State} (s : State) (base : _) (l : _) (kz : Keeps z0 s) :
    Keeps z0 (poisonPic s base l) :=
  keeps_hbm _ kz (fun h => foldl_keeps (fun (m : Mem) => m.wf = true) _ (fun m e hm => Mem.decPoison_wf m _ _ hm) l _ h)

/-- Values put back in the live registers keep their canonical form. -/
theorem keeps_supersedeMap {z0 : State} (s : State) (kz : Keeps z0 s) : Keeps z0 (supersedeMap s) := by
  unfold supersedeMap
  split
  · exact kz
  · split
    · refine keeps_setI _ _ _ _ (keeps_setI _ _ _ _ (keeps_setI _ _ _ _ (keeps_addI _ _ _ _ ?_)))
      exact kz.trans ⟨rfl, fun c => ⟨foldl_keeps (fun (t : Tbl Nat) => twf 0 t = true) _ (fun t e ht => twf_tset 0 t _ _ ht) _ _ c.1, c.2⟩⟩
    · simp only [keeps_upd]
      exact kz

theorem keeps_tryStart {z0 : State} (s : State) (n : _) (a : _) (c : _) (kz : Keeps z0 s) :
    Keeps z0 (tryStart s n a c) := by
  unfold tryStart
  repeat' (first
    | with_reducible assumption
    | with_reducible apply keeps_guardOn
    | with_reducible apply keeps_cooperAlloc
    | with_reducible apply keeps_startPicture
    | with_reducible apply keeps_ite
    | simp only [keeps_upd]
    | with_reducible apply keeps_foldl
    | with_reducible apply keeps_foldl1
    | with_reducible apply keeps_foldl2
    | with_reducible intro _ _ _ _
    | with_reducible intro _ _ _
    | simp only [fst_ite]
    | simp only [snd_ite]
    | split
    | dsimp only
    | refine keeps_of_fst (by with_reducible assumption) ?_
    | refine keeps_of_snd (by with_reducible assumption) ?_)

theorem keeps_writePicture {z0 : State} (s : State) (core : _) (a : _) (c : _) (d : _) (kz : Keeps z0 s) :
    Keeps z0 (writePicture s core a c d) := by
  unfold writePicture
  repeat' (first
    | with_reducible assumption
    | with_reducible apply keeps_core
    | with_reducible apply keeps_hbmPut
    | with_reducible apply keeps_poisonPic
    | with_reducible apply keeps_ite
    | simp only [keeps_upd]
    | with_reducible apply keeps_foldl
    | with_reducible apply keeps_foldl1
    | with_reducible apply keeps_foldl2
    | with_reducible intro _ _ _ _
    | with_reducible intro _ _ _
    | simp only [fst_ite]
    | simp only [snd_ite]
    | split
    | dsimp only
    | refine keeps_of_fst (by with_reducible assumption) ?_
    | refine keeps_of_snd (by with_reducible assumption) ?_)

theorem keeps_pictureMade {z0 : State} (s : State) (core : _) (a : _) (c : _) (d : _) (kz : Keeps z0 s) :
    Keeps z0 (pictureMade s core a c d) := by
  unfold pictureMade
  repeat' (first
    | with_reducible assumption
    | with_reducible apply keeps_freeGang
    | with_reducible apply keeps_writePicture
    | with_reducible apply keeps_core
    | with_reducible apply keeps_addI
    | with_reducible apply keeps_cooperFree
    | with_reducible apply keeps_ite
    | simp only [keeps_upd]
    | with_reducible apply keeps_foldl
    | with_reducible apply keeps_foldl1
    | with_reducible apply keeps_foldl2
    | with_reducible intro _ _ _ _
    | with_reducible intro _ _ _
    | simp only [fst_ite]
    | simp only [snd_ite]
    | split
    | dsimp only
    | refine keeps_of_fst (by with_reducible assumption) ?_
    | refine keeps_of_snd (by with_reducible assumption) ?_)

theorem keeps_stageWaits {z0 : State} (s : State) (it : _) (st : _) (due : _) (kz : Keeps z0 s) :
    Keeps z0 (stageWaits s it st due) := by
  unfold stageWaits
  repeat' (first
    | with_reducible assumption
    | with_reducible apply keeps_foldl
    | with_reducible apply keeps_modItem
    | with_reducible apply keeps_addI
    | with_reducible apply keeps_ite
    | simp only [keeps_upd]
    | with_reducible apply keeps_foldl
    | with_reducible apply keeps_foldl1
    | with_reducible apply keeps_foldl2
    | exact fun _ h => h
    | exact fun _ _ => rfl
    | with_reducible intro _ _ _ _
    | with_reducible intro _ _ _
    | simp only [fst_ite]
    | simp only [snd_ite]
    | split
    | dsimp only
    | refine keeps_of_fst (by with_reducible assumption) ?_
    | refine keeps_of_snd (by with_reducible assumption) ?_)

theorem keeps_takeSample {z0 : State} (s : State) (it : _) (c : _) (x : _) (kz : Keeps z0 s) :
    Keeps z0 (takeSample s it c x).1 := by
  unfold takeSample
  repeat' (first
    | with_reducible assumption
    | with_reducible apply keeps_modItem
    | with_reducible apply keeps_granGet
    | with_reducible apply keeps_afterGran
    | with_reducible apply keeps_ite
    | simp only [keeps_upd]
    | with_reducible apply keeps_foldl
    | with_reducible apply keeps_foldl1
    | with_reducible apply keeps_foldl2
    | exact fun _ h => h
    | exact fun _ _ => rfl
    | with_reducible intro _ _ _ _
    | with_reducible intro _ _ _
    | simp only [fst_ite]
    | simp only [snd_ite]
    | split
    | dsimp only
    | refine keeps_of_fst (by with_reducible assumption) ?_
    | refine keeps_of_snd (by with_reducible assumption) ?_)

theorem keeps_packSamples {z0 : State} (s : State) (it : _) (stage : _) (c : _) (l : _) (kz : Keeps z0 s) :
    Keeps z0 (packSamples s it stage c l).1 := by
  unfold packSamples
  repeat' (first
    | with_reducible assumption
    | with_reducible apply keeps_takeSample
    | with_reducible apply keeps_ite
    | simp only [keeps_upd]
    | with_reducible apply keeps_foldl
    | with_reducible apply keeps_foldl1
    | with_reducible apply keeps_foldl2
    | exact fun _ h => h
    | exact fun _ _ => rfl
    | with_reducible intro _ _ _ _
    | with_reducible intro _ _ _
    | simp only [fst_ite]
    | simp only [snd_ite]
    | split
    | dsimp only
    | refine keeps_of_fst (by with_reducible assumption) ?_
    | refine keeps_of_snd (by with_reducible assumption) ?_)

theorem keeps_enterTest {z0 : State} (s : State) (t : _) (kz : Keeps z0 s) :
    Keeps z0 (enterTest s t) := by
  unfold enterTest
  repeat' (first
    | with_reducible assumption
    | with_reducible apply keeps_setPhase
    | with_reducible apply keeps_ite
    | simp only [keeps_upd]
    | with_reducible apply keeps_foldl
    | with_reducible apply keeps_foldl1
    | with_reducible apply keeps_foldl2
    | exact fun _ h => h
    | exact fun _ _ => rfl
    | with_reducible intro _ _ _ _
    | with_reducible intro _ _ _
    | simp only [fst_ite]
    | simp only [snd_ite]
    | split
    | dsimp only
    | refine keeps_of_fst (by with_reducible assumption) ?_
    | refine keeps_of_snd (by with_reducible assumption) ?_)

theorem keeps_useCarter {z0 : State} (s : State) (k : _) (t : _) (kz : Keeps z0 s) :
    Keeps z0 (useCarter s k t) := by
  unfold useCarter
  repeat' (first
    | with_reducible assumption
    | with_reducible apply keeps_modClu
    | with_reducible apply keeps_ite
    | simp only [keeps_upd]
    | with_reducible apply keeps_foldl
    | with_reducible apply keeps_foldl1
    | with_reducible apply keeps_foldl2
    | exact fun _ h => h
    | exact fun _ _ => rfl
    | with_reducible intro _ _ _ _
    | with_reducible intro _ _ _
    | simp only [fst_ite]
    | simp only [snd_ite]
    | split
    | dsimp only
    | refine keeps_of_fst (by with_reducible assumption) ?_
    | refine keeps_of_snd (by with_reducible assumption) ?_)

theorem keeps_restoreTag {z0 : State} (s : State) (p : _) (x : _) (tag : _) (plan : _) (kz : Keeps z0 s) :
    Keeps z0 (restoreTag s p x tag plan).1 := by
  unfold restoreTag
  repeat' (first
    | with_reducible assumption
    | with_reducible apply keeps_setTag
    | with_reducible apply keeps_core
    | with_reducible apply keeps_clearTag
    | with_reducible apply keeps_ite
    | simp only [keeps_upd]
    | with_reducible apply keeps_foldl
    | with_reducible apply keeps_foldl1
    | with_reducible apply keeps_foldl2
    | exact fun _ h => h
    | exact fun _ _ => rfl
    | with_reducible intro _ _ _ _
    | with_reducible intro _ _ _
    | simp only [fst_ite]
    | simp only [snd_ite]
    | split
    | dsimp only
    | refine keeps_of_fst (by with_reducible assumption) ?_
    | refine keeps_of_snd (by with_reducible assumption) ?_)

theorem keeps_vecResult {z0 : State} (s : State) (p : _) (it : _) (r : _) (kz : Keeps z0 s) :
    Keeps z0 (vecResult s p it r).1 := by
  unfold vecResult
  repeat' (first
    | with_reducible assumption
    | with_reducible apply keeps_fillEls
    | with_reducible apply keeps_noteWraps
    | with_reducible apply keeps_flagItem
    | with_reducible apply keeps_ite
    | simp only [keeps_upd]
    | with_reducible apply keeps_foldl
    | with_reducible apply keeps_foldl1
    | with_reducible apply keeps_foldl2
    | exact fun _ h => h
    | exact fun _ _ => rfl
    | with_reducible intro _ _ _ _
    | with_reducible intro _ _ _
    | simp only [fst_ite]
    | simp only [snd_ite]
    | split
    | dsimp only
    | refine keeps_of_fst (by with_reducible assumption) ?_
    | refine keeps_of_snd (by with_reducible assumption) ?_)

theorem keeps_operOut {z0 : State} (z : _) (els : _) (tail : _) (y : _) (s : State) (kz : Keeps z0 s) :
    Keeps z0 (operOut z els tail y s).1 := by
  unfold operOut
  repeat' (first
    | with_reducible assumption
    | with_reducible apply keeps_fillEls
    | with_reducible apply keeps_ite
    | simp only [keeps_upd]
    | with_reducible apply keeps_foldl
    | with_reducible apply keeps_foldl1
    | with_reducible apply keeps_foldl2
    | exact fun _ h => h
    | exact fun _ _ => rfl
    | with_reducible intro _ _ _ _
    | with_reducible intro _ _ _
    | simp only [fst_ite]
    | simp only [snd_ite]
    | split
    | dsimp only
    | refine keeps_of_fst (by with_reducible assumption) ?_
    | refine keeps_of_snd (by with_reducible assumption) ?_)

theorem keeps_nameTag {z0 : State} (s : State) (p : _) (it : _) (tag : _) (kz : Keeps z0 s) :
    Keeps z0 (nameTag s p it tag) := by
  unfold nameTag
  repeat' (first
    | with_reducible assumption
    | with_reducible apply keeps_modCore
    | with_reducible apply keeps_ite
    | simp only [keeps_upd]
    | with_reducible apply keeps_foldl
    | with_reducible apply keeps_foldl1
    | with_reducible apply keeps_foldl2
    | exact fun _ h => h
    | exact fun _ _ => rfl
    | with_reducible intro _ _ _ _
    | with_reducible intro _ _ _
    | simp only [fst_ite]
    | simp only [snd_ite]
    | split
    | dsimp only
    | refine keeps_of_fst (by with_reducible assumption) ?_
    | refine keeps_of_snd (by with_reducible assumption) ?_)

theorem keeps_keepFlight {z0 : State} (s : State) (p : _) (e : _) (f : _) (kz : Keeps z0 s) :
    Keeps z0 (keepFlight s p e f) := by
  unfold keepFlight
  repeat' (first
    | with_reducible assumption
    | with_reducible apply keeps_modCore
    | with_reducible apply keeps_ite
    | simp only [keeps_upd]
    | with_reducible apply keeps_foldl
    | with_reducible apply keeps_foldl1
    | with_reducible apply keeps_foldl2
    | exact fun _ h => h
    | exact fun _ _ => rfl
    | with_reducible intro _ _ _ _
    | with_reducible intro _ _ _
    | simp only [fst_ite]
    | simp only [snd_ite]
    | split
    | dsimp only
    | refine keeps_of_fst (by with_reducible assumption) ?_
    | refine keeps_of_snd (by with_reducible assumption) ?_)

theorem keeps_landFlight {z0 : State} (s : State) (p : _) (e : _) (f : _) (kz : Keeps z0 s) :
    Keeps z0 (landFlight s p e f) := by
  unfold landFlight
  refine keeps_modCore _ _ _ (fun c h => ?_) (keeps_keepFlight _ _ _ _ kz)
  have hb := CoreS.canon_busy c e f.endAt h
  dsimp only
  split
  · exact (CoreS.canon_iff _).mpr ((CoreS.canon_iff _).mp hb)
  · exact hb

/-- The effect of an instruction keeps what a meaning keeps. -/
def KeepsPost (post : Post) : Prop := ∀ z it bs t, Keeps z t → Keeps z (post it bs t).1

theorem keeps_runPost {z0 : State} (s : State) (p : _) (it : _) (i : _) (bs : _) (post : _) (hp : KeepsPost post)
    (kz : Keeps z0 s) : Keeps z0 (runPost s p it i bs post).1 := by
  have h := keeps_afterBins s p it.key i kz
  show Keeps z0 (if (afterBins s p it.key i).2 then post it bs (afterBins s p it.key i).1
    else ((afterBins s p it.key i).1, [])).1
  split
  · exact hp _ _ _ _ h
  · exact h

theorem keeps_mmStore {z0 : State} (s : State) (p : _) (it : _) (o : _) (a : _) (w : _) (incs : _) (kz : Keeps z0 s) :
    Keeps z0 (mmStore s p it o a w incs) :=
  keeps_modCore _ _ _ (fun _ h => h) (keeps_noteWraps _ _ _ _
    (keeps_foldl _ _ _ (fun _ _ _ h => keeps_writeBlock _ _ _ _ _ h) kz))

theorem keeps_mmEnd {z0 : State} (s : State) (p : _) (it : _) (o : _) (kz : Keeps z0 s) : Keeps z0 (mmEnd s p it o) := by
  unfold mmEnd
  split
  · exact keeps_darkFault _ _ _ _ kz
  · exact kz

theorem keepsPost_mmRun (s : State) (p : Nat) (i : Item) (o : MMOp) (residueErr : Bool) :
    KeepsPost (mmRun s p i o residueErr).post := by
  show KeepsPost (mmPost p (mmFed s p i o) residueErr)
  generalize mmFed s p i o = r
  intro z it bs t k
  unfold mmPost
  dsimp only
  split
  · exact k
  · have h3 := keeps_readBlocks p it.key it r.op.acc r.op.blocks t k
    split
    · exact h3
    · split
      · exact keeps_residueFault _ _ _ (keeps_mmCounts _ _ _ _ _ _ h3)
      · exact keeps_mmEnd _ _ _ _ (keeps_mmStore _ _ _ _ _ _ _ (keeps_mmCounts _ _ _ _ _ _ h3))

theorem keepsPost_plainRun (s : State) (p : Nat) (op : VecOp) : KeepsPost (plainRun s p op).post := fun _ _ _ _ h =>
  keeps_vecResult _ _ _ _ h

theorem keepsPost_poolRun (s : State) (p : Nat) (it : Item) (i : Nat) (d : OpDesc) (x y : BinRef) :
    KeepsPost (poolRun s p it i d x y).post := by
  unfold poolRun
  dsimp only
  split
  · exact fun _ _ _ _ h => h
  · exact fun _ _ _ _ h => keeps_operOut _ _ _ _ _ h

theorem keepsPost_mappedRun (s : State) (p : Nat) (it : Item) (op : VecOp) (m : OutMap) (d : OpDesc) :
    KeepsPost (mappedRun s p it op m d).post := by
  unfold mappedRun
  dsimp only
  split <;> exact fun _ _ _ _ h => keeps_vecResult _ _ _ _ h

theorem keepsPost_cropPost (p i : Nat) (d : OpDesc) (l : Layout) (h w : Nat) (x y : BinRef) :
    KeepsPost (cropPost p i d l h w x y) := by
  intro z it bs t k
  unfold cropPost
  dsimp only
  split
  · exact keeps_endItem _ _ _ k
  · split
    · exact k
    · exact keeps_operOut _ _ _ _ _ (keeps_modItem _ _ _ k)

theorem keepsPost_cropRun (s : State) (p : Nat) (it : Item) (i : Nat) (d : OpDesc) (x bl y : BinRef) :
    KeepsPost (cropRun s p it i d x bl y).post := by
  unfold cropRun
  dsimp only
  split <;> exact keepsPost_cropPost _ _ _ _ _ _ _ _

theorem keepsPost_vecRun (s : State) (p : Nat) (it : Item) (op : VecOp) : KeepsPost (vecRun s p it op).post := by
  unfold vecRun
  split
  · exact keepsPost_cropRun _ _ _ _ _ _ _ _
  · exact keepsPost_poolRun _ _ _ _ _ _ _
  · exact keepsPost_poolRun _ _ _ _ _ _ _
  · split
    · exact keepsPost_mappedRun _ _ _ _ _ _
    · exact keepsPost_plainRun _ _ _

theorem keepsPost_cbRun (p : Nat) (x : BinRef) : KeepsPost (cbRun p x).post := fun _ _ _ _ h =>
  keeps_modCore _ _ _ (fun _ h => h) h

theorem keepsPost_stRun (s : State) (p : Nat) (x : BinRef) (g : GranRef) (n : Nat) : KeepsPost (stRun s p x g n).post :=
  fun _ _ _ _ h => keeps_modItem _ _ _ h

theorem keepsPost_ldRun (s : State) (p : Nat) (g : GranRef) (d : LdDst) (n : Nat) : KeepsPost (ldRun s p g d n).post := by
  unfold ldRun
  cases d
  · exact fun _ _ _ _ h => h
  · exact fun _ _ _ _ h => keeps_modCore _ _ _ (fun _ h => h) h

theorem keepsPost_ldwRun (s : State) (p : Nat) (it : Item) (g : GranRef) (x : BinRef) (n tag : Nat) :
    KeepsPost (ldwRun s p it g x n tag).post := by
  unfold ldwRun
  split
  · exact fun _ _ _ _ h => keeps_flagItem _ _ _ (keeps_addI _ _ _ _ (keeps_nameTag _ _ _ _ h))
  · exact fun _ _ _ _ h => keeps_markResident _ _ _ _ _ (keeps_nameTag _ _ _ _ h)

/-- What an instruction of an engine does to its item and its core keeps what a meaning keeps. -/
theorem keepsPost_insRun (s : State) (p : Nat) (it : Item) (cmd : TileCmd) (r : Bool) : KeepsPost (insRun s p it cmd r).post := by
  unfold insRun
  split
  · exact keepsPost_ldRun _ _ _ _ _
  · exact keepsPost_stRun _ _ _ _ _
  · exact keepsPost_ldwRun _ _ _ _ _ _ _
  · exact keepsPost_cbRun _ _
  · exact keepsPost_mmRun _ _ _ _ _
  · exact keepsPost_vecRun _ _ _ _
  · exact fun _ _ _ _ h => h

theorem keeps_flightWrites {z0 : State} (p : Nat) (it : Item) (n : Nat) (s : State) (f : Flight) (kz : Keeps z0 s) :
    Keeps z0 (flightWrites p it n s f).1 := by
  induction n generalizing s f with
  | zero => exact kz
  | succ n ih =>
    unfold flightWrites
    split
    · exact kz
    · dsimp only
      split
      · exact kz
      · split
        · split <;> exact ih _ _ (keeps_writeOper _ _ _ _ _ (keeps_noteBubbles _ _ _ kz))
        · split
          · exact kz
          · split <;> exact ih _ _ (keeps_writeOper _ _ _ _ _ (keeps_noteSlots _ _ _ _ _ _ kz))

theorem keeps_underLoops {z0 : State} (s : State) (p : _) (l : _) (kz : Keeps z0 s) : Keeps z0 (underLoops s p l) :=
  keeps_modCore _ _ _ (fun _ h => h) kz

theorem keeps_takeEffect {z0 : State} (s : State) (p : _) (it : _) (e : _) (f : _) (kz : Keeps z0 s) :
    Keeps z0 (takeEffect s p it e f).1 := by
  unfold takeEffect
  split
  · exact kz
  · exact keeps_runPost _ _ _ _ _ _ (keepsPost_insRun _ _ _ _ _) (keeps_modCore _ _ _ (fun c h => CoreS.canon_busy c _ _ h) kz)

theorem keeps_putWrites {z0 : State} (s : State) (p : _) (it : _) (e : _) (f : _) (l : _) (kz : Keeps z0 s) :
    Keeps z0 (putWrites s p it e f l) := by
  have h := keeps_flightWrites p it (pieceBound (f.out.map (fun x => x.2.length))) s f kz
  unfold putWrites
  dsimp only
  split
  · exact h
  · refine keeps_underLoops _ _ _ ?_
    split
    · exact keeps_landFlight _ _ _ _ h
    · exact keeps_keepFlight _ _ _ _ h

theorem keeps_takeReads {z0 : State} (s : State) (p : _) (it : _) (f : _) (kz : Keeps z0 s) : Keeps z0 (takeReads s p it f).1 :=
  keeps_flightReads _ _ _ _ _ kz

theorem keeps_pumpEngine {z0 : State} (p : _) (s : State) (e : _) (kz : Keeps z0 s) :
    Keeps z0 (pumpEngine p s e) := by
  unfold pumpEngine
  split
  · dsimp only
    have h1 := fun f it => keeps_takeReads _ p it f (keeps_underLoops s p (Flight.loops f) kz)
    have h2 := fun f it => keeps_takeEffect _ p it e (takeReads (underLoops s p f.loops) p it f).2 (h1 f it)
    split
    · exact keeps_underLoops _ _ _ (keeps_keepFlight _ _ _ _ (h1 _ _))
    · split
      · exact h2 _ _
      · exact keeps_putWrites _ _ _ _ _ _ (h2 _ _)
  · exact kz

theorem keeps_pumpCore {z0 : State} (s : State) (p : _) (kz : Keeps z0 s) :
    Keeps z0 (pumpCore s p) := by
  unfold pumpCore
  repeat' (first
    | with_reducible assumption
    | with_reducible apply keeps_foldl
    | with_reducible apply keeps_pumpEngine
    | with_reducible apply keeps_ite
    | simp only [keeps_upd]
    | with_reducible apply keeps_foldl
    | with_reducible apply keeps_foldl1
    | with_reducible apply keeps_foldl2
    | exact fun _ h => h
    | exact fun _ _ => rfl
    | with_reducible intro _ _ _ _
    | with_reducible intro _ _ _
    | simp only [fst_ite]
    | simp only [snd_ite]
    | split
    | dsimp only
    | refine keeps_of_fst (by with_reducible assumption) ?_
    | refine keeps_of_snd (by with_reducible assumption) ?_)

theorem keeps_runLoop {z0 : State} (s : State) (p : _) (cmd : _) (cycles : _) (eff : _)
    (he : ∀ y k t, Keeps y t → Keeps y (eff k t)) (kz : Keeps z0 s) : Keeps z0 (runLoop s p cmd cycles eff) :=
  keeps_runTile _ _ _ _ _ _ he (keeps_pumpCore _ _ kz)

theorem keeps_regIns {z0 : State} (s : State) (p : _) (bin : _) (r : _) (base : _) (len : _) (circ : _) (tok : _) (kz : Keeps z0 s) :
    Keeps z0 (regIns s p bin r base len circ tok) := by
  unfold regIns
  repeat' (first
    | with_reducible assumption
    | with_reducible apply keeps_runLoop
    | with_reducible apply keeps_modCore
    | with_reducible apply keeps_ite
    | simp only [keeps_upd]
    | with_reducible apply keeps_foldl
    | with_reducible apply keeps_foldl1
    | with_reducible apply keeps_foldl2
    | exact fun _ h => h
    | exact fun _ _ => rfl
    | with_reducible intro _ _ _ _
    | with_reducible intro _ _ _
    | simp only [fst_ite]
    | simp only [snd_ite]
    | split
    | dsimp only
    | refine keeps_of_fst (by with_reducible assumption) ?_
    | refine keeps_of_snd (by with_reducible assumption) ?_)

theorem keeps_loopIns {z0 : State} (s : State) (p : _) (n : _) (strides : _) (tok : _) (kz : Keeps z0 s) :
    Keeps z0 (loopIns s p n strides tok) := by
  unfold loopIns
  repeat' (first
    | with_reducible assumption
    | with_reducible apply keeps_runLoop
    | with_reducible apply keeps_modCore
    | with_reducible apply keeps_ite
    | simp only [keeps_upd]
    | with_reducible apply keeps_foldl
    | with_reducible apply keeps_foldl1
    | with_reducible apply keeps_foldl2
    | exact fun _ h => h
    | exact fun _ _ => rfl
    | with_reducible intro _ _ _ _
    | with_reducible intro _ _ _
    | simp only [fst_ite]
    | simp only [snd_ite]
    | split
    | dsimp only
    | refine keeps_of_fst (by with_reducible assumption) ?_
    | refine keeps_of_snd (by with_reducible assumption) ?_)

theorem keeps_endlIns {z0 : State} (s : State) (p : _) (tok : _) (kz : Keeps z0 s) :
    Keeps z0 (endlIns s p tok) := by
  unfold endlIns
  refine keeps_runLoop _ _ _ _ _ (fun y k t h => keeps_modCore _ _ _ (fun c hc => ?_) h) kz
  split
  · exact hc
  · split
    · exact hc
    · exact hc

theorem keeps_scratchOf {z0 : State} (s : State) (p : _) (r : _) (kz : Keeps z0 s) :
    Keeps z0 (scratchOf s p r).1 := by
  unfold scratchOf
  repeat' (first
    | with_reducible assumption
    | with_reducible apply keeps_core
    | with_reducible apply keeps_fresh
    | with_reducible apply keeps_modCore
    | with_reducible apply keeps_ite
    | simp only [keeps_upd]
    | with_reducible apply keeps_foldl
    | with_reducible apply keeps_foldl1
    | with_reducible apply keeps_foldl2
    | exact fun _ h => h
    | exact fun _ _ => rfl
    | with_reducible intro _ _ _ _
    | with_reducible intro _ _ _
    | simp only [fst_ite]
    | simp only [snd_ite]
    | split
    | dsimp only
    | refine keeps_of_fst (by with_reducible assumption) ?_
    | refine keeps_of_snd (by with_reducible assumption) ?_)

theorem keeps_waitIns {z0 : State} (s0 : State) (p : _) (w : _) (tok : _) (kz : Keeps z0 s0) :
    Keeps z0 (waitIns s0 p w tok) := by
  unfold waitIns
  repeat' (first
    | with_reducible assumption
    | with_reducible apply keeps_pumpCore
    | with_reducible apply keeps_core
    | with_reducible apply keeps_guardOn
    | with_reducible apply keeps_issued
    | with_reducible apply keeps_flushBins
    | with_reducible apply keeps_blockOn
    | with_reducible apply keeps_waitSem
    | with_reducible apply keeps_scratchOf
    | with_reducible apply keeps_ite
    | simp only [keeps_upd]
    | with_reducible apply keeps_foldl
    | with_reducible apply keeps_foldl1
    | with_reducible apply keeps_foldl2
    | exact fun _ h => h
    | exact fun _ _ => rfl
    | with_reducible intro _ _ _ _
    | with_reducible intro _ _ _
    | simp only [fst_ite]
    | simp only [snd_ite]
    | split
    | dsimp only
    | refine keeps_of_fst (by with_reducible assumption) ?_
    | refine keeps_of_snd (by with_reducible assumption) ?_)

theorem keeps_sigIns {z0 : State} (s : State) (p : _) (n : _) (tok : _) (kz : Keeps z0 s) :
    Keeps z0 (sigIns s p n tok) := by
  unfold sigIns
  repeat' (first
    | with_reducible assumption
    | with_reducible apply keeps_runLoop
    | with_reducible apply keeps_signalSem
    | with_reducible apply keeps_ite
    | simp only [keeps_upd]
    | with_reducible apply keeps_foldl
    | with_reducible apply keeps_foldl1
    | with_reducible apply keeps_foldl2
    | exact fun _ h => h
    | exact fun _ _ => rfl
    | with_reducible intro _ _ _ _
    | with_reducible intro _ _ _
    | simp only [fst_ite]
    | simp only [snd_ite]
    | split
    | dsimp only
    | refine keeps_of_fst (by with_reducible assumption) ?_
    | refine keeps_of_snd (by with_reducible assumption) ?_)

theorem keeps_bndIns {z0 : State} (s : State) (p : _) (live : _) (tok : _) (kz : Keeps z0 s) :
    Keeps z0 (bndIns s p live tok) := by
  unfold bndIns
  repeat' (first
    | with_reducible assumption
    | with_reducible apply keeps_runLoop
    | with_reducible apply keeps_modCore
    | with_reducible apply keeps_core
    | with_reducible apply keeps_stopCore
    | with_reducible apply keeps_ite
    | simp only [keeps_upd]
    | with_reducible apply keeps_foldl
    | with_reducible apply keeps_foldl1
    | with_reducible apply keeps_foldl2
    | exact fun _ h => h
    | exact fun _ _ => rfl
    | with_reducible intro _ _ _ _
    | with_reducible intro _ _ _
    | simp only [fst_ite]
    | simp only [snd_ite]
    | split
    | dsimp only
    | refine keeps_of_fst (by with_reducible assumption) ?_
    | refine keeps_of_snd (by with_reducible assumption) ?_)

theorem keeps_takePort {z0 : State} (s : State) (c : _) (kz : Keeps z0 s) :
    Keeps z0 (takePort s c) := by
  unfold takePort
  split
  · exact kz
  · exact keeps_hbm _ kz id

theorem keeps_portsTick {z0 : State} (s : State) (kz : Keeps z0 s) :
    Keeps z0 (portsTick s) := by
  unfold portsTick
  repeat' (first
    | with_reducible assumption
    | with_reducible apply keeps_foldl
    | with_reducible apply keeps_takePort
    | with_reducible apply keeps_ite
    | simp only [keeps_upd]
    | with_reducible apply keeps_foldl
    | with_reducible apply keeps_foldl1
    | with_reducible apply keeps_foldl2
    | exact fun _ h => h
    | exact fun _ _ => rfl
    | with_reducible intro _ _ _ _
    | with_reducible intro _ _ _
    | simp only [fst_ite]
    | simp only [snd_ite]
    | split
    | dsimp only
    | refine keeps_of_fst (by with_reducible assumption) ?_
    | refine keeps_of_snd (by with_reducible assumption) ?_)

theorem keeps_landEnt {z0 : State} (s : State) (e : _) (kz : Keeps z0 s) :
    Keeps z0 (landEnt s e) := by
  unfold landEnt
  repeat' (first
    | with_reducible assumption
    | with_reducible apply keeps_admitEnt
    | with_reducible apply keeps_ite
    | simp only [keeps_upd]
    | with_reducible apply keeps_foldl
    | with_reducible apply keeps_foldl1
    | with_reducible apply keeps_foldl2
    | exact fun _ h => h
    | exact fun _ _ => rfl
    | with_reducible intro _ _ _ _
    | with_reducible intro _ _ _
    | simp only [fst_ite]
    | simp only [snd_ite]
    | split
    | dsimp only
    | refine keeps_of_fst (by with_reducible assumption) ?_
    | refine keeps_of_snd (by with_reducible assumption) ?_)

theorem keeps_admitWb {z0 : State} (s : State) (c : _) (kz : Keeps z0 s) :
    Keeps z0 (admitWb s c) := by
  unfold admitWb
  repeat' (first
    | with_reducible assumption
    | with_reducible apply keeps_hbmSettle
    | with_reducible apply keeps_admitEnt
    | with_reducible apply keeps_ite
    | simp only [keeps_upd]
    | with_reducible apply keeps_foldl
    | with_reducible apply keeps_foldl1
    | with_reducible apply keeps_foldl2
    | exact fun _ h => h
    | exact fun _ _ => rfl
    | with_reducible intro _ _ _ _
    | with_reducible intro _ _ _
    | simp only [fst_ite]
    | simp only [snd_ite]
    | split
    | dsimp only
    | refine keeps_of_fst (by with_reducible assumption) ?_
    | refine keeps_of_snd (by with_reducible assumption) ?_)

theorem keeps_hbmTick {z0 : State} (s : State) (kz : Keeps z0 s) :
    Keeps z0 (hbmTick s) := by
  unfold hbmTick
  dsimp only
  refine keeps_foldl _ _ _ (fun _ _ _ h => keeps_admitWb _ _ h) ?_
  split
  · exact kz
  · exact keeps_foldl _ _ _ (fun _ _ _ h => keeps_hbmSettle _ _ (keeps_landEnt _ _ h)) (keeps_hbm _ kz id)

theorem keeps_patrolIssue {z0 : State} (s : State) (p : _) (n : _) (kz : Keeps z0 s) :
    Keeps z0 (patrolIssue s p n) := by
  unfold patrolIssue
  repeat' (first
    | with_reducible assumption
    | with_reducible apply keeps_hbmSettle
    | with_reducible apply keeps_landEnt
    | with_reducible apply keeps_ite
    | simp only [keeps_upd]
    | with_reducible apply keeps_foldl
    | with_reducible apply keeps_foldl1
    | with_reducible apply keeps_foldl2
    | exact fun _ h => h
    | exact fun _ _ => rfl
    | with_reducible intro _ _ _ _
    | with_reducible intro _ _ _
    | simp only [fst_ite]
    | simp only [snd_ite]
    | split
    | dsimp only
    | refine keeps_of_fst (by with_reducible assumption) ?_
    | refine keeps_of_snd (by with_reducible assumption) ?_)

theorem keeps_pumpFlights {z0 : State} (s : State) (kz : Keeps z0 s) :
    Keeps z0 (pumpFlights s) := by
  unfold pumpFlights
  repeat' (first
    | with_reducible assumption
    | with_reducible apply keeps_foldl
    | with_reducible apply keeps_pumpCore
    | with_reducible apply keeps_ite
    | simp only [keeps_upd]
    | with_reducible apply keeps_foldl
    | with_reducible apply keeps_foldl1
    | with_reducible apply keeps_foldl2
    | exact fun _ h => h
    | exact fun _ _ => rfl
    | with_reducible intro _ _ _ _
    | with_reducible intro _ _ _
    | simp only [fst_ite]
    | simp only [snd_ite]
    | split
    | dsimp only
    | refine keeps_of_fst (by with_reducible assumption) ?_
    | refine keeps_of_snd (by with_reducible assumption) ?_)

theorem keeps_enterRows {z0 : State} (s : State) (k : _) (kz : Keeps z0 s) : Keeps z0 (enterRows s k) := by
  unfold enterRows
  exact keeps_foldl _ _ _ (fun _ _ _ h => keeps_queueRow _ _ _ _ h) (keeps_modClu _ _ _ (fun _ h => h) kz)

theorem keeps_enterAll {z0 : State} (s : State) (kz : Keeps z0 s) :
    Keeps z0 (enterAll s) := by
  unfold enterAll
  repeat' (first
    | with_reducible assumption
    | with_reducible apply keeps_foldl
    | with_reducible apply keeps_enterRows
    | with_reducible apply keeps_ite
    | simp only [keeps_upd]
    | with_reducible apply keeps_foldl
    | with_reducible apply keeps_foldl1
    | with_reducible apply keeps_foldl2
    | exact fun _ h => h
    | exact fun _ _ => rfl
    | with_reducible intro _ _ _ _
    | with_reducible intro _ _ _
    | simp only [fst_ite]
    | simp only [snd_ite]
    | split
    | dsimp only
    | refine keeps_of_fst (by with_reducible assumption) ?_
    | refine keeps_of_snd (by with_reducible assumption) ?_)

theorem keeps_readOpers {z0 : State} (s : State) (p : _) (it : _) (l : _) (kz : Keeps z0 s) :
    Keeps z0 (readOpers s p it l).1 := by
  unfold readOpers
  repeat' (first
    | with_reducible assumption
    | with_reducible apply keeps_readOper
    | with_reducible apply keeps_ite
    | simp only [keeps_upd]
    | with_reducible apply keeps_foldl
    | with_reducible apply keeps_foldl1
    | with_reducible apply keeps_foldl2
    | exact fun _ h => h
    | exact fun _ _ => rfl
    | with_reducible intro _ _ _ _
    | with_reducible intro _ _ _
    | simp only [fst_ite]
    | simp only [snd_ite]
    | split
    | dsimp only
    | refine keeps_of_fst (by with_reducible assumption) ?_
    | refine keeps_of_snd (by with_reducible assumption) ?_)

theorem keeps_startFlight {z0 : State} (s : State) (p : _) (it : _) (cmd : _) (e : _) (cycles : _) (rd : _) (residueErr : _) (kz : Keeps z0 s) :
    Keeps z0 (startFlight s p it cmd e cycles rd residueErr) := by
  unfold startFlight
  repeat' (first
    | with_reducible assumption
    | with_reducible apply keeps_core
    | with_reducible apply keeps_modCore
    | with_reducible apply keeps_issued
    | with_reducible apply keeps_ite
    | simp only [keeps_upd]
    | with_reducible apply keeps_foldl
    | with_reducible apply keeps_foldl1
    | with_reducible apply keeps_foldl2
    | exact fun _ h => h
    | exact fun _ _ => rfl
    | with_reducible intro _ _ _ _
    | with_reducible intro _ _ _
    | simp only [fst_ite]
    | simp only [snd_ite]
    | split
    | dsimp only
    | refine keeps_of_fst (by with_reducible assumption) ?_
    | refine keeps_of_snd (by with_reducible assumption) ?_)

theorem keeps_runIns {z0 : State} (s : State) (p : _) (cmd : _) (e : _) (cycles : _) (rd : _) (wr : _) (residueErr : _) (post : _)
    (hp : KeepsPost post) (kz : Keeps z0 s) : Keeps z0 (runIns s p cmd e cycles rd wr residueErr post) := by
  unfold runIns
  split
  · exact kz
  · split
    · exact kz
    · split
      · refine keeps_foldl _ _ _ (fun _ _ _ h => keeps_writeOper _ _ _ _ _ h) (keeps_runPost _ _ _ _ _ _ hp ?_)
        exact keeps_readOpers _ _ _ _ (keeps_issued _ _ _ _ _ (keeps_flushBins _ _ kz))
      · exact keeps_startFlight _ _ _ _ _ _ _ _ (keeps_flushBins _ _ kz)

theorem keeps_runCmd {z0 : State} (s0 : State) (p : _) (cmd : _) (e : _) (residueErr : _) (kz : Keeps z0 s0) :
    Keeps z0 (runCmd s0 p cmd e residueErr) := by
  have k := keeps_pumpCore s0 p kz
  unfold runCmd
  dsimp only
  split
  · exact k
  · split
    · exact keeps_endItem _ _ _ k
    · split
      · exact k
      · exact keeps_runIns _ _ _ _ _ _ _ _ _ (keepsPost_insRun _ _ _ _ _) k

theorem keeps_writeRows {z0 : State} (s : State) (p : _) (it : _) (rows : _) (kz : Keeps z0 s) :
    Keeps z0 (writeRows s p it rows) := by
  unfold writeRows
  refine keeps_foldl _ _ _ (fun y t r k => ?_) kz
  split
  · refine keeps_modCore _ _ _ (fun c h => ?_) k
    rename_i q _
    have hb := CoreS.canon_setBin c r.bin _ h (Mem.write_wf _ (q * r.bin.row) r.bytes (CoreS.canon_bin c r.bin h))
    rw [CoreS.canon_iff] at hb ⊢
    exact hb
  · exact keeps_writeSpill _ _ _ _ _ _ k

end Sys2Proof.Machine
end

