-- ==== Sys2Proof/Laws/Execs.lean ====
section
/-!
SUPPORT. Sys2Proof/Laws/Execs.lean: every command answers a next state, and every command but the resets, a phase marker and a
SYSREF edge leaves the base part alone and keeps the memories canonical. One lemma per command.
-/

namespace Sys2Proof.Machine

/-- A change of one core that keeps its bins canonical where the whole state's memories are. -/
theorem keeps_core {z0 s : State} (p : Nat) (f : CoreS → CoreS) (kz : Keeps z0 s)
    (hf : z0.Canon → s.Canon → (f (core s p)).canon = true) : Keeps z0 (modCore s p f) := by
  refine ⟨kz.1, fun c0 => ?_⟩
  have c := kz.2 c0
  refine ⟨c.1, c.2.1, c.2.2.1, c.2.2.2.1, fun i => ?_, c.2.2.2.2.2⟩
  show (tget {} (tmod {} s.cores p f) i).canon = true
  unfold tmod
  rw [tget_tset]
  split
  · exact hf c0 c
  · exact c.2.2.2.2.1 i

/-- A saved context is canonical. -/
theorem contextOf_canon (c : CoreS) (rows : List SavedRow) : (contextOf c rows).canon = true := by
  refine foldl_keeps (fun (x : CoreS) => x.canon = true) _ (fun x r h => ?_) rows _ rfl
  have hb := CoreS.canon_setBin x r.bin _ h (Mem.write_wf _ (r.row * r.bin.row) r.bytes (CoreS.canon_bin x r.bin h))
  rw [CoreS.canon_iff] at hb ⊢
  exact hb

/-- A restored core is canonical where the core was. -/
theorem CoreS.restore_canon (c x : CoreS) (plan mask : Nat) (res : List (Nat × Nat)) (h : c.canon = true) :
    (c.restore x plan mask res).canon = true := by
  rw [CoreS.canon_iff] at h ⊢
  exact h

theorem CoreS.handOver_canon (c : CoreS) (h : c.canon = true) : c.handOver.canon = true := by
  rw [CoreS.canon_iff] at h ⊢
  exact ⟨h.1, rfl, rfl⟩

theorem keeps_passPages {z0 : State} (r : RegRun) (kz : Keeps z0 r.st) : Keeps z0 (passPages r).st := by
  unfold passPages
  refine foldl_keeps (fun (a : RegRun) => Keeps z0 a.st) _ ?_ _ _ kz
  exact fun a p k => keeps_passPage a.st p k

theorem keeps_regStep {z0 : State} (tag role : Nat) (r : RegRun) (i : Nat) (w : RegW) (kz : Keeps z0 r.st) :
    Keeps z0 (regStep tag role r i w).st := by
  unfold regStep
  simp only
  split
  · exact kz
  · split
    · exact keeps_writeReg _ _ _ _ _ _ kz
    · exact keeps_passPages _ (keeps_writeReg _ _ _ _ _ _ kz)

theorem keeps_regRun {z0 : State} (tag role : Nat) (l : List (Nat × RegW)) (r : RegRun) (kz : Keeps z0 r.st) :
    Keeps z0 (l.foldl (fun (a : RegRun) (e : Nat × RegW) => regStep tag role a e.1 e.2) r).st :=
  foldl_keeps (fun (a : RegRun) => Keeps z0 a.st) _ (fun a e k => keeps_regStep tag role a e.1 e.2 k) _ _ kz

theorem keeps_fab {z0 x : State} (fb : FabS) (kz : Keeps z0 x) (h : fb.step = x.fab.step) : Keeps z0 { x with fab := fb } := by
  refine kz.trans ⟨?_, id⟩
  unfold State.base
  simp only [h]

/-- Saving a context beside the rest of the state. -/
theorem keeps_saved {z0 x : State} (cx : Tbl Ctx) (e : Nat) (c : CoreS) (kz : Keeps z0 x) (h : x.Canon → c.canon = true) :
    Keeps z0 { x with ctxs := cx, ctxCores := tset {} x.ctxCores e c } := by
  refine kz.trans ⟨rfl, fun k => ⟨k.1, k.2.1, k.2.2.1, k.2.2.2.1, k.2.2.2.2.1, fun i => ?_, k.2.2.2.2.2.2⟩⟩
  show (tget {} (tset {} x.ctxCores e c) i).canon = true
  rw [tget_tset]
  split
  · exact h k
  · exact k.2.2.2.2.2.1 i

theorem keeps_restored {z0 s : State} (p : Nat) (x : CoreS) (plan mask : Nat) (res : List (Nat × Nat)) (it : Option Nat) (rank : Nat)
    (kz : Keeps z0 s) :
    Keeps z0 (modCore s p (fun c => { (c.restore x plan mask res) with
      item := it, rank := rank, preempt := c.preempt, stopped := false, atBnd := none, blocked := none })) :=
  keeps_modCore _ _ _ (fun c h => CoreS.restore_canon c x plan mask res h) kz

theorem keeps_handedOver {z0 s s0 : State} (p q : Nat) (k0 : Keeps z0 s0) (kz : Keeps z0 s) :
    Keeps z0 (modCore s q (fun _ => (core s0 p).handOver)) :=
  keeps_core _ _ kz (fun c _ => CoreS.handOver_canon _ (State.Canon.core (k0.2 c) _))

theorem execHotReset_runs (s : State) :
    ∃ t, execHotReset s = .next t ∧ Keeps s t := by
  unfold execHotReset
  refine ⟨_, rfl, ?_⟩
  have kz := Keeps.refl s
  repeat' (first
    | with_reducible assumption
    | with_reducible apply keeps_whenLive
    | with_reducible apply keeps_guardOn
    | with_reducible apply keeps_setR
    | with_reducible apply keeps_addR
    | with_reducible apply keeps_hotReset
    | with_reducible apply keeps_ite
    | simp only [keeps_upd]
    | with_reducible intro _ _ _ _
    | with_reducible intro _ _ _
    | split
    | dsimp only)

theorem execLinkDown_runs (s : State) :
    ∃ t, execLinkDown s = .next t ∧ Keeps s t := by
  unfold execLinkDown
  refine ⟨_, rfl, ?_⟩
  have kz := Keeps.refl s
  repeat' (first
    | with_reducible assumption
    | with_reducible apply keeps_whenLive
    | with_reducible apply keeps_guardOn
    | with_reducible apply keeps_linkDown
    | with_reducible apply keeps_ite
    | simp only [keeps_upd]
    | with_reducible intro _ _ _ _
    | with_reducible intro _ _ _
    | split
    | dsimp only)

theorem execFunctionLevelReset_runs (s : State) :
    ∃ t, execFunctionLevelReset s = .next t ∧ Keeps s t := by
  unfold execFunctionLevelReset
  refine ⟨_, rfl, ?_⟩
  have kz := Keeps.refl s
  repeat' (first
    | with_reducible assumption
    | with_reducible apply keeps_whenLive
    | with_reducible apply keeps_guardOn
    | with_reducible apply keeps_setR
    | with_reducible apply keeps_addR
    | with_reducible apply keeps_funcReset
    | with_reducible apply keeps_ite
    | simp only [keeps_upd]
    | with_reducible intro _ _ _ _
    | with_reducible intro _ _ _
    | split
    | dsimp only)

theorem execD3hotEntry_runs (s : State) :
    ∃ t, execD3hotEntry s = .next t ∧ Keeps s t := by
  unfold execD3hotEntry
  refine ⟨_, rfl, ?_⟩
  have kz := Keeps.refl s
  repeat' (first
    | with_reducible assumption
    | with_reducible apply keeps_whenLive
    | with_reducible apply keeps_guardOn
    | with_reducible apply keeps_setR
    | with_reducible apply keeps_endPoll
    | with_reducible apply keeps_dropReads
    | with_reducible apply keeps_endItems
    | with_reducible apply keeps_stopEncoder
    | with_reducible apply keeps_d3Settle
    | with_reducible apply keeps_enterSref
    | with_reducible apply keeps_putBoth
    | with_reducible apply keeps_ite
    | simp only [keeps_upd]
    | with_reducible apply keeps_foldl
    | with_reducible apply keeps_foldl1
    | with_reducible intro _ _ _ _
    | with_reducible intro _ _ _
    | simp only [fst_ite]
    | simp only [snd_ite]
    | split
    | dsimp only)

theorem execD0Return_runs (s : State) :
    ∃ t, execD0Return s = .next t ∧ Keeps s t := by
  unfold execD0Return
  refine ⟨_, rfl, ?_⟩
  have kz := Keeps.refl s
  repeat' (first
    | with_reducible assumption
    | with_reducible apply keeps_whenLive
    | with_reducible apply keeps_guardOn
    | with_reducible apply keeps_resumeIssue
    | with_reducible apply keeps_toD0
    | with_reducible apply keeps_ite
    | simp only [keeps_upd]
    | with_reducible intro _ _ _ _
    | with_reducible intro _ _ _
    | split
    | dsimp only)

theorem execPmeTurnOff_runs (s : State) :
    ∃ t, execPmeTurnOff s = .next t ∧ Keeps s t := by
  unfold execPmeTurnOff
  refine ⟨_, rfl, ?_⟩
  have kz := Keeps.refl s
  repeat' (first
    | with_reducible assumption
    | with_reducible apply keeps_whenLive
    | with_reducible apply keeps_setR
    | with_reducible apply keeps_emit
    | with_reducible apply keeps_ite
    | simp only [keeps_upd]
    | with_reducible intro _ _ _ _
    | with_reducible intro _ _ _
    | split
    | dsimp only)

theorem execBusMasterEnableClear_runs (s : State) :
    ∃ t, execBusMasterEnableClear s = .next t ∧ Keeps s t := by
  unfold execBusMasterEnableClear
  refine ⟨_, rfl, ?_⟩
  have kz := Keeps.refl s
  repeat' (first
    | with_reducible assumption
    | with_reducible apply keeps_whenLive
    | with_reducible apply keeps_pumpReads
    | with_reducible apply keeps_ite
    | simp only [keeps_upd]
    | with_reducible intro _ _ _ _
    | with_reducible intro _ _ _
    | split
    | dsimp only)

theorem execCompletionReceived_runs (tag : _) (status : _) (bytes : _) (s : State) :
    ∃ t, execCompletionReceived tag status bytes s = .next t ∧ Keeps s t := by
  unfold execCompletionReceived
  refine ⟨_, rfl, ?_⟩
  have kz := Keeps.refl s
  repeat' (first
    | with_reducible assumption
    | with_reducible apply keeps_whenLive
    | with_reducible apply keeps_pumpReads
    | with_reducible apply keeps_freeDropped
    | with_reducible apply keeps_aer
    | with_reducible apply keeps_failRead
    | with_reducible apply keeps_gotData
    | with_reducible apply keeps_ite
    | simp only [keeps_upd]
    | with_reducible intro _ _ _ _
    | with_reducible intro _ _ _
    | split
    | dsimp only)

theorem execCompletionTimeout_runs (tag : _) (s : State) :
    ∃ t, execCompletionTimeout tag s = .next t ∧ Keeps s t := by
  unfold execCompletionTimeout
  refine ⟨_, rfl, ?_⟩
  have kz := Keeps.refl s
  repeat' (first
    | with_reducible assumption
    | with_reducible apply keeps_whenLive
    | with_reducible apply keeps_pumpReads
    | with_reducible apply keeps_freeDropped
    | with_reducible apply keeps_guardOn
    | with_reducible apply keeps_failRead
    | with_reducible apply keeps_addR
    | with_reducible apply keeps_aer
    | with_reducible apply keeps_ite
    | simp only [keeps_upd]
    | with_reducible intro _ _ _ _
    | with_reducible intro _ _ _
    | split
    | dsimp only)

theorem execMsixUnmask_runs (vector : _) (s : State) :
    ∃ t, execMsixUnmask vector s = .next t ∧ Keeps s t := by
  unfold execMsixUnmask
  refine ⟨_, rfl, ?_⟩
  have kz := Keeps.refl s
  repeat' (first
    | with_reducible assumption
    | with_reducible apply keeps_whenLive
    | with_reducible apply keeps_guardOn
    | with_reducible apply keeps_flushVector
    | with_reducible apply keeps_maskVector
    | with_reducible apply keeps_ite
    | simp only [keeps_upd]
    | with_reducible intro _ _ _ _
    | with_reducible intro _ _ _
    | split
    | dsimp only)

theorem execSmbusReadTemperature_runs (sensor : _) (s : State) :
    ∃ t, execSmbusReadTemperature sensor s = .next t ∧ Keeps s t := by
  unfold execSmbusReadTemperature
  refine ⟨_, rfl, ?_⟩
  have kz := Keeps.refl s
  repeat' (first
    | with_reducible assumption
    | with_reducible apply keeps_guardOn
    | with_reducible apply keeps_emit
    | with_reducible apply keeps_ite
    | simp only [keeps_upd]
    | with_reducible intro _ _ _ _
    | with_reducible intro _ _ _
    | split
    | dsimp only)

theorem execSmbusReadVcore_runs (s : State) :
    ∃ t, execSmbusReadVcore s = .next t ∧ Keeps s t := by
  unfold execSmbusReadVcore
  refine ⟨_, rfl, ?_⟩
  have kz := Keeps.refl s
  repeat' (first
    | with_reducible assumption
    | with_reducible apply keeps_guardOn
    | with_reducible apply keeps_emit
    | with_reducible apply keeps_ite
    | simp only [keeps_upd]
    | with_reducible intro _ _ _ _
    | with_reducible intro _ _ _
    | split
    | dsimp only)

theorem execSmbusReadStatus_runs (s : State) :
    ∃ t, execSmbusReadStatus s = .next t ∧ Keeps s t := by
  unfold execSmbusReadStatus
  refine ⟨_, rfl, ?_⟩
  have kz := Keeps.refl s
  repeat' (first
    | with_reducible assumption
    | with_reducible apply keeps_guardOn
    | with_reducible apply keeps_emit
    | with_reducible apply keeps_ite
    | simp only [keeps_upd]
    | with_reducible intro _ _ _ _
    | with_reducible intro _ _ _
    | split
    | dsimp only)

theorem execSmbusReadTrim_runs (s : State) :
    ∃ t, execSmbusReadTrim s = .next t ∧ Keeps s t := by
  unfold execSmbusReadTrim
  refine ⟨_, rfl, ?_⟩
  have kz := Keeps.refl s
  repeat' (first
    | with_reducible assumption
    | with_reducible apply keeps_guardOn
    | with_reducible apply keeps_emit
    | with_reducible apply keeps_ite
    | simp only [keeps_upd]
    | with_reducible intro _ _ _ _
    | with_reducible intro _ _ _
    | split
    | dsimp only)

theorem execSmbusWake_runs (s : State) :
    ∃ t, execSmbusWake s = .next t ∧ Keeps s t := by
  unfold execSmbusWake
  refine ⟨_, rfl, ?_⟩
  have kz := Keeps.refl s
  repeat' (first
    | with_reducible assumption
    | with_reducible apply keeps_guardOn
    | with_reducible apply keeps_setR
    | with_reducible apply keeps_ite
    | simp only [keeps_upd]
    | with_reducible intro _ _ _ _
    | with_reducible intro _ _ _
    | split
    | dsimp only)

theorem execAlertResponse_runs (s : State) :
    ∃ t, execAlertResponse s = .next t ∧ Keeps s t := by
  unfold execAlertResponse
  refine ⟨_, rfl, ?_⟩
  have kz := Keeps.refl s
  repeat' (first
    | with_reducible assumption
    | with_reducible apply keeps_guardOn
    | with_reducible apply keeps_ite
    | simp only [keeps_upd]
    | with_reducible intro _ _ _ _
    | with_reducible intro _ _ _
    | split
    | dsimp only)

theorem execRegisterWrite_runs (by_ : _) (space : _) (addr : _) (size : _) (value : _) (s : State) :
    ∃ t, execRegisterWrite by_ space addr size value s = .next t ∧ Keeps s t := by
  unfold execRegisterWrite
  refine ⟨_, rfl, ?_⟩
  have kz := Keeps.refl s
  repeat' (first
    | with_reducible assumption
    | with_reducible apply keeps_whenLive
    | with_reducible apply keeps_writeReg
    | with_reducible apply keeps_cfgWrite
    | with_reducible apply keeps_aer
    | with_reducible apply keeps_addR
    | with_reducible apply keeps_bar2Write
    | with_reducible apply keeps_bar4Write
    | with_reducible apply keeps_ite
    | simp only [keeps_upd]
    | with_reducible intro _ _ _ _
    | with_reducible intro _ _ _
    | simp only [fst_ite]
    | simp only [snd_ite]
    | split
    | dsimp only
    | refine keeps_of_fst (by with_reducible assumption) ?_)

theorem execLoRead_runs (space : _) (addr : _) (size : _) (s : State) :
    ∃ t, execLoRead space addr size s = .next t ∧ Keeps s t := by
  unfold execLoRead
  refine ⟨_, rfl, ?_⟩
  have kz := Keeps.refl s
  repeat' (first
    | with_reducible assumption
    | with_reducible apply keeps_whenLive
    | with_reducible apply keeps_guardOn
    | with_reducible apply keeps_whenLive
    | with_reducible apply keeps_barRead
    | with_reducible apply keeps_emit
    | with_reducible apply keeps_aer
    | with_reducible apply keeps_guardOn
    | with_reducible apply keeps_ite
    | simp only [keeps_upd]
    | with_reducible apply keeps_foldl
    | with_reducible apply keeps_foldl1
    | with_reducible apply keeps_foldl2
    | with_reducible intro _ _ _ _
    | with_reducible intro _ _ _
    | simp only [fst_ite]
    | simp only [snd_ite]
    | split
    | dsimp only
    | refine keeps_of_fst (by with_reducible assumption) ?_
    | refine keeps_of_snd (by with_reducible assumption) ?_)

theorem execRcRead_runs (addr : _) (s : State) :
    ∃ t, execRcRead addr s = .next t ∧ Keeps s t := by
  unfold execRcRead
  refine ⟨_, rfl, ?_⟩
  have kz := Keeps.refl s
  repeat' (first
    | with_reducible assumption
    | with_reducible apply keeps_whenLive
    | with_reducible apply keeps_guardOn
    | with_reducible apply keeps_whenLive
    | with_reducible apply keeps_barRead
    | with_reducible apply keeps_ite
    | simp only [keeps_upd]
    | with_reducible apply keeps_foldl
    | with_reducible apply keeps_foldl1
    | with_reducible apply keeps_foldl2
    | with_reducible intro _ _ _ _
    | with_reducible intro _ _ _
    | simp only [fst_ite]
    | simp only [snd_ite]
    | split
    | dsimp only
    | refine keeps_of_fst (by with_reducible assumption) ?_
    | refine keeps_of_snd (by with_reducible assumption) ?_)

theorem execIntStatusClear_runs (addr : _) (value : _) (session : _) (s : State) :
    ∃ t, execIntStatusClear addr value session s = .next t ∧ Keeps s t := by
  unfold execIntStatusClear
  refine ⟨_, rfl, ?_⟩
  have kz := Keeps.refl s
  repeat' (first
    | with_reducible assumption
    | with_reducible apply keeps_whenLive
    | with_reducible apply keeps_guardOn
    | with_reducible apply keeps_writeBy
    | with_reducible apply keeps_ite
    | simp only [keeps_upd]
    | with_reducible intro _ _ _ _
    | with_reducible intro _ _ _
    | split
    | dsimp only)

theorem execIntForce_runs (page : _) (bits : _) (session : _) (s : State) :
    ∃ t, execIntForce page bits session s = .next t ∧ Keeps s t := by
  unfold execIntForce
  refine ⟨_, rfl, ?_⟩
  have kz := Keeps.refl s
  repeat' (first
    | with_reducible assumption
    | with_reducible apply keeps_whenLive
    | with_reducible apply keeps_guardOn
    | with_reducible apply keeps_writeBy
    | with_reducible apply keeps_ite
    | simp only [keeps_upd]
    | with_reducible intro _ _ _ _
    | with_reducible intro _ _ _
    | split
    | dsimp only)

theorem execErrClr_runs (page : _) (session : _) (s : State) :
    ∃ t, execErrClr page session s = .next t ∧ Keeps s t := by
  unfold execErrClr
  refine ⟨_, rfl, ?_⟩
  have kz := Keeps.refl s
  repeat' (first
    | with_reducible assumption
    | with_reducible apply keeps_whenLive
    | with_reducible apply keeps_guardOn
    | with_reducible apply keeps_writeBy
    | with_reducible apply keeps_ite
    | simp only [keeps_upd]
    | with_reducible intro _ _ _ _
    | with_reducible intro _ _ _
    | split
    | dsimp only)

theorem execPageCommitHost_runs (page : _) (sel : _) (session : _) (s : State) :
    ∃ t, execPageCommitHost page sel session s = .next t ∧ Keeps s t := by
  unfold execPageCommitHost
  refine ⟨_, rfl, ?_⟩
  have kz := Keeps.refl s
  repeat' (first
    | with_reducible assumption
    | with_reducible apply keeps_whenLive
    | with_reducible apply keeps_guardOn
    | with_reducible apply keeps_takeSnap
    | with_reducible apply keeps_violation
    | with_reducible apply keeps_ite
    | simp only [keeps_upd]
    | with_reducible intro _ _ _ _
    | with_reducible intro _ _ _
    | split
    | dsimp only)

theorem execPageCommitFw_runs (page : _) (s : State) :
    ∃ t, execPageCommitFw page s = .next t ∧ Keeps s t := by
  unfold execPageCommitFw
  refine ⟨_, rfl, ?_⟩
  have kz := Keeps.refl s
  repeat' (first
    | with_reducible assumption
    | with_reducible apply keeps_whenLive
    | with_reducible apply keeps_guardOn
    | with_reducible apply keeps_takeSnap
    | with_reducible apply keeps_ite
    | simp only [keeps_upd]
    | with_reducible intro _ _ _ _
    | with_reducible intro _ _ _
    | split
    | dsimp only)

theorem execCommitPoint_runs (page : _) (s : State) :
    ∃ t, execCommitPoint page s = .next t ∧ Keeps s t := by
  unfold execCommitPoint
  refine ⟨_, rfl, ?_⟩
  have kz := Keeps.refl s
  repeat' (first
    | with_reducible assumption
    | with_reducible apply keeps_whenLive
    | with_reducible apply keeps_commitPage
    | with_reducible apply keeps_ite
    | simp only [keeps_upd]
    | with_reducible intro _ _ _ _
    | with_reducible intro _ _ _
    | split
    | dsimp only)

theorem execRingRidxWrite_runs (ring : _) (idx : _) (s : State) :
    ∃ t, execRingRidxWrite ring idx s = .next t ∧ Keeps s t := by
  unfold execRingRidxWrite
  refine ⟨_, rfl, ?_⟩
  have kz := Keeps.refl s
  repeat' (first
    | with_reducible assumption
    | with_reducible apply keeps_whenLive
    | with_reducible apply keeps_guardOn
    | with_reducible apply keeps_writeRidx
    | with_reducible apply keeps_ite
    | simp only [keeps_upd]
    | with_reducible intro _ _ _ _
    | with_reducible intro _ _ _
    | split
    | dsimp only)

theorem execDispJournalRidxWrite_runs (idx : _) (s : State) :
    ∃ t, execDispJournalRidxWrite idx s = .next t ∧ Keeps s t := by
  unfold execDispJournalRidxWrite
  refine ⟨_, rfl, ?_⟩
  have kz := Keeps.refl s
  repeat' (first
    | with_reducible assumption
    | with_reducible apply keeps_whenLive
    | with_reducible apply keeps_guardOn
    | with_reducible apply keeps_writeJournalRidx
    | with_reducible apply keeps_ite
    | simp only [keeps_upd]
    | with_reducible intro _ _ _ _
    | with_reducible intro _ _ _
    | split
    | dsimp only)

theorem execRelayOutRidxWrite_runs (idx : _) (s : State) :
    ∃ t, execRelayOutRidxWrite idx s = .next t ∧ Keeps s t := by
  unfold execRelayOutRidxWrite
  refine ⟨_, rfl, ?_⟩
  have kz := Keeps.refl s
  repeat' (first
    | with_reducible assumption
    | with_reducible apply keeps_whenLive
    | with_reducible apply keeps_guardOn
    | with_reducible apply keeps_writeRelayRidx
    | with_reducible apply keeps_ite
    | simp only [keeps_upd]
    | with_reducible intro _ _ _ _
    | with_reducible intro _ _ _
    | split
    | dsimp only)

theorem execLeaseRenew_runs (s : State) :
    ∃ t, execLeaseRenew s = .next t ∧ Keeps s t := by
  unfold execLeaseRenew
  refine ⟨_, rfl, ?_⟩
  have kz := Keeps.refl s
  repeat' (first
    | with_reducible assumption
    | with_reducible apply keeps_whenLive
    | with_reducible apply keeps_guardOn
    | with_reducible apply keeps_renewLease
    | with_reducible apply keeps_ite
    | simp only [keeps_upd]
    | with_reducible intro _ _ _ _
    | with_reducible intro _ _ _
    | split
    | dsimp only)

theorem execReeveFaultClr_runs (session : _) (s : State) :
    ∃ t, execReeveFaultClr session s = .next t ∧ Keeps s t := by
  unfold execReeveFaultClr
  refine ⟨_, rfl, ?_⟩
  have kz := Keeps.refl s
  repeat' (first
    | with_reducible assumption
    | with_reducible apply keeps_whenLive
    | with_reducible apply keeps_guardOn
    | with_reducible apply keeps_writeBy
    | with_reducible apply keeps_ite
    | simp only [keeps_upd]
    | with_reducible intro _ _ _ _
    | with_reducible intro _ _ _
    | split
    | dsimp only)

theorem execMgmtFjSelWrite_runs (n : _) (s : State) :
    ∃ t, execMgmtFjSelWrite n s = .next t ∧ Keeps s t := by
  unfold execMgmtFjSelWrite
  refine ⟨_, rfl, ?_⟩
  have kz := Keeps.refl s
  repeat' (first
    | with_reducible assumption
    | with_reducible apply keeps_whenLive
    | with_reducible apply keeps_guardOn
    | with_reducible apply keeps_setR
    | with_reducible apply keeps_fjPlace
    | with_reducible apply keeps_ite
    | simp only [keeps_upd]
    | with_reducible intro _ _ _ _
    | with_reducible intro _ _ _
    | split
    | dsimp only)

theorem execTrainingRun_runs (ch : _) (value : _) (s : State) :
    ∃ t, execTrainingRun ch value s = .next t ∧ Keeps s t := by
  unfold execTrainingRun
  refine ⟨_, rfl, ?_⟩
  have kz := Keeps.refl s
  repeat' (first
    | with_reducible assumption
    | with_reducible apply keeps_whenLive
    | with_reducible apply keeps_guardOn
    | with_reducible apply keeps_writeReg
    | with_reducible apply keeps_ite
    | simp only [keeps_upd]
    | with_reducible intro _ _ _ _
    | with_reducible intro _ _ _
    | simp only [fst_ite]
    | simp only [snd_ite]
    | split
    | dsimp only
    | refine keeps_of_fst (by with_reducible assumption) ?_)

theorem execTrainingRunDone_runs (ch : _) (mism : _) (s : State) :
    ∃ t, execTrainingRunDone ch mism s = .next t ∧ Keeps s t := by
  unfold execTrainingRunDone
  refine ⟨_, rfl, ?_⟩
  have kz := Keeps.refl s
  repeat' (first
    | with_reducible assumption
    | with_reducible apply keeps_whenLive
    | with_reducible apply keeps_guardOn
    | with_reducible apply keeps_putF
    | with_reducible apply keeps_ite
    | simp only [keeps_upd]
    | with_reducible apply keeps_foldl
    | with_reducible intro _ _ _ _
    | with_reducible intro _ _ _
    | simp only [fst_ite]
    | simp only [snd_ite]
    | split
    | dsimp only)

theorem execOpenOp_runs (r : _) (role : _) (iface : _) (minSvn : _) (hwm : _) (hostNonce : _) (s : State) :
    ∃ t, execOpenOp r role iface minSvn hwm hostNonce s = .next t ∧ Keeps s t := by
  unfold execOpenOp
  refine ⟨_, rfl, ?_⟩
  have kz := Keeps.refl s
  repeat' (first
    | with_reducible assumption
    | with_reducible apply keeps_whenLive
    | with_reducible apply keeps_mailbox
    | with_reducible apply keeps_fresh
    | with_reducible apply keeps_putSess
    | with_reducible apply keeps_setR
    | with_reducible apply keeps_respond
    | with_reducible apply keeps_refuseMb
    | with_reducible apply keeps_ite
    | simp only [keeps_upd]
    | with_reducible intro _ _ _ _
    | with_reducible intro _ _ _
    | simp only [fst_ite]
    | simp only [snd_ite]
    | split
    | dsimp only
    | refine keeps_of_snd (by with_reducible assumption) ?_)

theorem execProve_runs (r : _) (s : State) :
    ∃ t, execProve r s = .next t ∧ Keeps s t := by
  unfold execProve
  refine ⟨_, rfl, ?_⟩
  have kz := Keeps.refl s
  repeat' (first
    | with_reducible assumption
    | with_reducible apply keeps_whenLive
    | with_reducible apply keeps_mailbox
    | with_reducible apply keeps_done_
    | with_reducible apply keeps_addR
    | with_reducible apply keeps_putSess
    | with_reducible apply keeps_ite
    | simp only [keeps_upd]
    | with_reducible intro _ _ _ _
    | with_reducible intro _ _ _
    | split
    | dsimp only)

theorem execChallengeExpiry_runs (slot : _) (s : State) :
    ∃ t, execChallengeExpiry slot s = .next t ∧ Keeps s t := by
  unfold execChallengeExpiry
  refine ⟨_, rfl, ?_⟩
  have kz := Keeps.refl s
  repeat' (first
    | with_reducible assumption
    | with_reducible apply keeps_whenLive
    | with_reducible apply keeps_guardOn
    | with_reducible apply keeps_closeSession
    | with_reducible apply keeps_ite
    | simp only [keeps_upd]
    | with_reducible intro _ _ _ _
    | with_reducible intro _ _ _
    | split
    | dsimp only)

theorem execClose_runs (r : _) (s : State) :
    ∃ t, execClose r s = .next t ∧ Keeps s t := by
  unfold execClose
  refine ⟨_, rfl, ?_⟩
  have kz := Keeps.refl s
  repeat' (first
    | with_reducible assumption
    | with_reducible apply keeps_whenLive
    | with_reducible apply keeps_mailbox
    | with_reducible apply keeps_closeSession
    | with_reducible apply keeps_done_
    | with_reducible apply keeps_ite
    | simp only [keeps_upd]
    | with_reducible intro _ _ _ _
    | with_reducible intro _ _ _
    | split
    | dsimp only)

theorem execProvision_runs (r : _) (role : _) (ct : _) (s : State) :
    ∃ t, execProvision r role ct s = .next t ∧ Keeps s t := by
  unfold execProvision
  refine ⟨_, rfl, ?_⟩
  have kz := Keeps.refl s
  repeat' (first
    | with_reducible assumption
    | with_reducible apply keeps_whenLive
    | with_reducible apply keeps_mailbox
    | with_reducible apply keeps_refuseMb
    | with_reducible apply keeps_stored
    | with_reducible apply keeps_done_
    | with_reducible apply keeps_refreshRoles
    | with_reducible apply keeps_writeRecord
    | with_reducible apply keeps_ite
    | simp only [keeps_upd]
    | with_reducible intro _ _ _ _
    | with_reducible intro _ _ _
    | split
    | dsimp only)

theorem execRoleClear_runs (r : _) (role : _) (s : State) :
    ∃ t, execRoleClear r role s = .next t ∧ Keeps s t := by
  unfold execRoleClear
  refine ⟨_, rfl, ?_⟩
  have kz := Keeps.refl s
  repeat' (first
    | with_reducible assumption
    | with_reducible apply keeps_whenLive
    | with_reducible apply keeps_mailbox
    | with_reducible apply keeps_serviced
    | with_reducible apply keeps_done_
    | with_reducible apply keeps_stored
    | with_reducible apply keeps_dropRecord
    | with_reducible apply keeps_dropModelKeys
    | with_reducible apply keeps_refreshRoles
    | with_reducible apply keeps_ite
    | simp only [keeps_upd]
    | with_reducible intro _ _ _ _
    | with_reducible intro _ _ _
    | split
    | dsimp only)

theorem execRegWrite_runs (r : _) (count : _) (writes : _) (s : State) :
    ∃ t, execRegWrite r count writes s = .next t ∧ Keeps s t := by
  unfold execRegWrite
  refine ⟨_, rfl, ?_⟩
  have kz := Keeps.refl s
  repeat' (first
    | refine keeps_regRun _ _ _ _ ?_
    | with_reducible assumption
    | with_reducible apply keeps_whenLive
    | with_reducible apply keeps_mailbox
    | with_reducible apply keeps_refuseMb
    | with_reducible apply keeps_done_
    | with_reducible apply keeps_revert
    | with_reducible apply keeps_ite
    | simp only [keeps_upd]
    | with_reducible apply keeps_foldl
    | with_reducible apply keeps_foldl1
    | with_reducible intro _ _ _ _
    | with_reducible intro _ _ _
    | simp only [fst_ite]
    | simp only [snd_ite]
    | split
    | dsimp only)

theorem execAdopt_runs (r : _) (mask : _) (s : State) :
    ∃ t, execAdopt r mask s = .next t ∧ Keeps s t := by
  unfold execAdopt
  refine ⟨_, rfl, ?_⟩
  have kz := Keeps.refl s
  repeat' (first
    | with_reducible assumption
    | with_reducible apply keeps_whenLive
    | with_reducible apply keeps_mailbox
    | with_reducible apply keeps_putBoth
    | with_reducible apply keeps_done_
    | with_reducible apply keeps_ite
    | simp only [keeps_upd]
    | with_reducible apply keeps_foldl
    | with_reducible intro _ _ _ _
    | with_reducible intro _ _ _
    | simp only [fst_ite]
    | simp only [snd_ite]
    | split
    | dsimp only)

theorem execReeveSet_runs (r : _) (pipe : _) (cfg : _) (age : _) (period : _) (s : State) :
    ∃ t, execReeveSet r pipe cfg age period s = .next t ∧ Keeps s t := by
  unfold execReeveSet
  refine ⟨_, rfl, ?_⟩
  have kz := Keeps.refl s
  repeat' (first
    | with_reducible assumption
    | with_reducible apply keeps_whenLive
    | with_reducible apply keeps_mailbox
    | with_reducible apply keeps_serviced
    | with_reducible apply keeps_refuseMb
    | with_reducible apply keeps_putSh
    | with_reducible apply keeps_done_
    | with_reducible apply keeps_passFw
    | with_reducible apply keeps_takeSnap
    | with_reducible apply keeps_ite
    | simp only [keeps_upd]
    | with_reducible apply keeps_foldl
    | with_reducible intro _ _ _ _
    | with_reducible intro _ _ _
    | simp only [fst_ite]
    | simp only [snd_ite]
    | split
    | dsimp only)

theorem execModelKey_runs (r : _) (keyId : _) (ct : _) (s : State) :
    ∃ t, execModelKey r keyId ct s = .next t ∧ Keeps s t := by
  unfold execModelKey
  refine ⟨_, rfl, ?_⟩
  have kz := Keeps.refl s
  repeat' (first
    | with_reducible assumption
    | with_reducible apply keeps_whenLive
    | with_reducible apply keeps_mailbox
    | with_reducible apply keeps_stored
    | with_reducible apply keeps_refuseMb
    | with_reducible apply keeps_done_
    | with_reducible apply keeps_writeRecord
    | with_reducible apply keeps_ite
    | simp only [keeps_upd]
    | with_reducible intro _ _ _ _
    | with_reducible intro _ _ _
    | split
    | dsimp only)

theorem execModelKeyDelete_runs (r : _) (keyId : _) (s : State) :
    ∃ t, execModelKeyDelete r keyId s = .next t ∧ Keeps s t := by
  unfold execModelKeyDelete
  refine ⟨_, rfl, ?_⟩
  have kz := Keeps.refl s
  repeat' (first
    | with_reducible assumption
    | with_reducible apply keeps_whenLive
    | with_reducible apply keeps_mailbox
    | with_reducible apply keeps_stored
    | with_reducible apply keeps_refuseMb
    | with_reducible apply keeps_done_
    | with_reducible apply keeps_dropRecord
    | with_reducible apply keeps_ite
    | simp only [keeps_upd]
    | with_reducible intro _ _ _ _
    | with_reducible intro _ _ _
    | split
    | dsimp only)

theorem execInstall_runs (r : _) (addr : _) (len : _) (img : _) (s : State) :
    ∃ t, execInstall r addr len img s = .next t ∧ Keeps s t := by
  unfold execInstall
  refine ⟨_, rfl, ?_⟩
  have kz := Keeps.refl s
  repeat' (first
    | with_reducible assumption
    | with_reducible apply keeps_whenLive
    | with_reducible apply keeps_mailbox
    | with_reducible apply keeps_serviced
    | with_reducible apply keeps_setR
    | with_reducible apply keeps_reply_
    | with_reducible apply keeps_planLast
    | with_reducible apply keeps_addR
    | with_reducible apply keeps_ite
    | simp only [keeps_upd]
    | with_reducible intro _ _ _ _
    | with_reducible intro _ _ _
    | split
    | refine keeps_startRead (by with_reducible assumption) ?_
    | dsimp only)

theorem execInstallCommit_runs (s : State) :
    ∃ t, execInstallCommit s = .next t ∧ Keeps s t := by
  unfold execInstallCommit
  refine ⟨_, rfl, ?_⟩
  have kz := Keeps.refl s
  repeat' (first
    | with_reducible assumption
    | with_reducible apply keeps_whenLive
    | with_reducible apply keeps_guardOn
    | with_reducible apply keeps_installEnds
    | with_reducible apply keeps_planLast
    | with_reducible apply keeps_commitPlan
    | with_reducible apply keeps_done_
    | with_reducible apply keeps_ite
    | simp only [keeps_upd]
    | with_reducible intro _ _ _ _
    | with_reducible intro _ _ _
    | split
    | dsimp only)

theorem execUninstall_runs (r : _) (plan : _) (s : State) :
    ∃ t, execUninstall r plan s = .next t ∧ Keeps s t := by
  unfold execUninstall
  refine ⟨_, rfl, ?_⟩
  have kz := Keeps.refl s
  repeat' (first
    | with_reducible assumption
    | with_reducible apply keeps_whenLive
    | with_reducible apply keeps_mailbox
    | with_reducible apply keeps_serviced
    | with_reducible apply keeps_reply_
    | with_reducible apply keeps_planLast
    | with_reducible apply keeps_modPlan
    | with_reducible apply keeps_endItems
    | with_reducible apply keeps_putPeak
    | with_reducible apply keeps_settlePlan
    | with_reducible apply keeps_done_
    | with_reducible apply keeps_ite
    | simp only [keeps_upd]
    | with_reducible intro _ _ _ _
    | with_reducible intro _ _ _
    | split
    | dsimp only)

theorem execUnlockStream_runs (r : _) (mask : _) (s : State) :
    ∃ t, execUnlockStream r mask s = .next t ∧ Keeps s t := by
  unfold execUnlockStream
  refine ⟨_, rfl, ?_⟩
  have kz := Keeps.refl s
  repeat' (first
    | with_reducible assumption
    | with_reducible apply keeps_whenLive
    | with_reducible apply keeps_mailbox
    | with_reducible apply keeps_refuseMb
    | with_reducible apply keeps_done_
    | with_reducible apply keeps_refreshUnlocks
    | with_reducible apply keeps_ite
    | simp only [keeps_upd]
    | with_reducible intro _ _ _ _
    | with_reducible intro _ _ _
    | split
    | dsimp only)

theorem execUnlockTensor_runs (r : _) (plan : _) (output : _) (count : _) (s : State) :
    ∃ t, execUnlockTensor r plan output count s = .next t ∧ Keeps s t := by
  unfold execUnlockTensor
  refine ⟨_, rfl, ?_⟩
  have kz := Keeps.refl s
  repeat' (first
    | with_reducible assumption
    | with_reducible apply keeps_whenLive
    | with_reducible apply keeps_mailbox
    | with_reducible apply keeps_refuseMb
    | with_reducible apply keeps_done_
    | with_reducible apply keeps_ite
    | simp only [keeps_upd]
    | with_reducible intro _ _ _ _
    | with_reducible intro _ _ _
    | split
    | dsimp only)

theorem execEmbRead_runs (r : _) (slot : _) (first : _) (count : _) (s : State) :
    ∃ t, execEmbRead r slot first count s = .next t ∧ Keeps s t := by
  unfold execEmbRead
  refine ⟨_, rfl, ?_⟩
  have kz := Keeps.refl s
  repeat' (first
    | with_reducible assumption
    | with_reducible apply keeps_whenLive
    | with_reducible apply keeps_mailbox
    | with_reducible apply keeps_done_
    | with_reducible apply keeps_ite
    | simp only [keeps_upd]
    | with_reducible intro _ _ _ _
    | with_reducible intro _ _ _
    | split
    | dsimp only)

theorem execLock_runs (r : _) (mask : _) (plan : _) (s : State) :
    ∃ t, execLock r mask plan s = .next t ∧ Keeps s t := by
  unfold execLock
  refine ⟨_, rfl, ?_⟩
  have kz := Keeps.refl s
  repeat' (first
    | with_reducible assumption
    | with_reducible apply keeps_whenLive
    | with_reducible apply keeps_mailbox
    | with_reducible apply keeps_withdrawStreams
    | with_reducible apply keeps_done_
    | with_reducible apply keeps_withdrawTensors
    | with_reducible apply keeps_ite
    | simp only [keeps_upd]
    | with_reducible intro _ _ _ _
    | with_reducible intro _ _ _
    | split
    | dsimp only)

theorem execLockAck_runs (r : _) (s : State) :
    ∃ t, execLockAck r s = .next t ∧ Keeps s t := by
  unfold execLockAck
  refine ⟨_, rfl, ?_⟩
  have kz := Keeps.refl s
  repeat' (first
    | with_reducible assumption
    | with_reducible apply keeps_whenLive
    | with_reducible apply keeps_mailbox
    | with_reducible apply keeps_done_
    | with_reducible apply keeps_nextRelease
    | with_reducible apply keeps_ite
    | simp only [keeps_upd]
    | with_reducible intro _ _ _ _
    | with_reducible intro _ _ _
    | split
    | dsimp only)

theorem execAttest_runs (r : _) (nonce : _) (s : State) :
    ∃ t, execAttest r nonce s = .next t ∧ Keeps s t := by
  unfold execAttest
  refine ⟨_, rfl, ?_⟩
  have kz := Keeps.refl s
  repeat' (first
    | with_reducible assumption
    | with_reducible apply keeps_whenLive
    | with_reducible apply keeps_mailbox
    | with_reducible apply keeps_serviced
    | with_reducible apply keeps_reply_
    | with_reducible apply keeps_addR
    | with_reducible apply keeps_logWrite
    | with_reducible apply keeps_setR
    | with_reducible apply keeps_done_
    | with_reducible apply keeps_ite
    | simp only [keeps_upd]
    | with_reducible intro _ _ _ _
    | with_reducible intro _ _ _
    | split
    | dsimp only)

theorem execGetCert_runs (r : _) (part : _) (s : State) :
    ∃ t, execGetCert r part s = .next t ∧ Keeps s t := by
  unfold execGetCert
  refine ⟨_, rfl, ?_⟩
  have kz := Keeps.refl s
  repeat' (first
    | with_reducible assumption
    | with_reducible apply keeps_whenLive
    | with_reducible apply keeps_mailbox
    | with_reducible apply keeps_serviced
    | with_reducible apply keeps_refuseMb
    | with_reducible apply keeps_done_
    | with_reducible apply keeps_ite
    | simp only [keeps_upd]
    | with_reducible intro _ _ _ _
    | with_reducible intro _ _ _
    | split
    | dsimp only)

theorem execFwUpdate_runs (r : _) (addr : _) (len : _) (img : _) (s : State) :
    ∃ t, execFwUpdate r addr len img s = .next t ∧ Keeps s t := by
  unfold execFwUpdate
  refine ⟨_, rfl, ?_⟩
  have kz := Keeps.refl s
  repeat' (first
    | with_reducible assumption
    | with_reducible apply keeps_whenLive
    | with_reducible apply keeps_mailbox
    | with_reducible apply keeps_stored
    | with_reducible apply keeps_refuseMb
    | with_reducible apply keeps_setR
    | with_reducible apply keeps_reply_
    | with_reducible apply keeps_addR
    | with_reducible apply keeps_ite
    | simp only [keeps_upd]
    | with_reducible intro _ _ _ _
    | with_reducible intro _ _ _
    | split
    | refine keeps_startRead (by with_reducible assumption) ?_
    | dsimp only)

theorem execRepairAuth_runs (r : _) (ch : _) (row : _) (s : State) :
    ∃ t, execRepairAuth r ch row s = .next t ∧ Keeps s t := by
  unfold execRepairAuth
  refine ⟨_, rfl, ?_⟩
  have kz := Keeps.refl s
  repeat' (first
    | with_reducible assumption
    | with_reducible apply keeps_whenLive
    | with_reducible apply keeps_mailbox
    | with_reducible apply keeps_serviced
    | with_reducible apply keeps_done_
    | with_reducible apply keeps_ite
    | simp only [keeps_upd]
    | with_reducible intro _ _ _ _
    | with_reducible intro _ _ _
    | split
    | dsimp only)

theorem execRecover_runs (r : _) (s : State) :
    ∃ t, execRecover r s = .next t ∧ Keeps s t := by
  unfold execRecover
  refine ⟨_, rfl, ?_⟩
  have kz := Keeps.refl s
  repeat' (first
    | with_reducible assumption
    | with_reducible apply keeps_whenLive
    | with_reducible apply keeps_mailbox
    | with_reducible apply keeps_serviced
    | with_reducible apply keeps_done_
    | with_reducible apply keeps_reply_
    | with_reducible apply keeps_addR
    | with_reducible apply keeps_setR
    | with_reducible apply keeps_setPhase
    | with_reducible apply keeps_ite
    | simp only [keeps_upd]
    | with_reducible intro _ _ _ _
    | with_reducible intro _ _ _
    | split
    | dsimp only)

theorem execTestMode_runs (r : _) (on : _) (s : State) :
    ∃ t, execTestMode r on s = .next t ∧ Keeps s t := by
  unfold execTestMode
  refine ⟨_, rfl, ?_⟩
  have kz := Keeps.refl s
  repeat' (first
    | with_reducible assumption
    | with_reducible apply keeps_whenLive
    | with_reducible apply keeps_guardOn
    | with_reducible apply keeps_whenLive
    | with_reducible apply keeps_mailbox
    | with_reducible apply keeps_serviced
    | with_reducible apply keeps_enterTest
    | with_reducible apply keeps_leaveTest
    | with_reducible apply keeps_done_
    | with_reducible apply keeps_ite
    | simp only [keeps_upd]
    | with_reducible apply keeps_foldl
    | with_reducible apply keeps_foldl1
    | with_reducible apply keeps_foldl2
    | exact fun _ h => h
    | exact fun _ _ => rfl
    | with_reducible intro _ _ _ _
    | with_reducible intro _ _ _
    | simp only [fst_ite]
    | simp only [snd_ite]
    | split
    | dsimp only
    | refine keeps_of_fst (by with_reducible assumption) ?_
    | refine keeps_of_snd (by with_reducible assumption) ?_)

theorem execPlacementEdit_runs (r : _) (edits : _) (s : State) :
    ∃ t, execPlacementEdit r edits s = .next t ∧ Keeps s t := by
  unfold execPlacementEdit
  refine ⟨_, rfl, ?_⟩
  have kz := Keeps.refl s
  repeat' (first
    | with_reducible assumption
    | with_reducible apply keeps_whenLive
    | with_reducible apply keeps_mailbox
    | with_reducible apply keeps_serviced
    | with_reducible apply keeps_putSh
    | with_reducible apply keeps_takeSnap
    | with_reducible apply keeps_done_
    | with_reducible apply keeps_ite
    | simp only [keeps_upd]
    | with_reducible apply keeps_foldl
    | with_reducible apply keeps_foldl1
    | with_reducible intro _ _ _ _
    | with_reducible intro _ _ _
    | simp only [fst_ite]
    | simp only [snd_ite]
    | split
    | dsimp only)

theorem execJtagUnlock_runs (r : _) (s : State) :
    ∃ t, execJtagUnlock r s = .next t ∧ Keeps s t := by
  unfold execJtagUnlock
  refine ⟨_, rfl, ?_⟩
  have kz := Keeps.refl s
  repeat' (first
    | with_reducible assumption
    | with_reducible apply keeps_whenLive
    | with_reducible apply keeps_guardOn
    | with_reducible apply keeps_whenLive
    | with_reducible apply keeps_mailbox
    | with_reducible apply keeps_stored
    | with_reducible apply keeps_dropModelKeys
    | with_reducible apply keeps_dropPlans
    | with_reducible apply keeps_foldl
    | with_reducible apply keeps_closeSession
    | with_reducible apply keeps_enterTest
    | with_reducible apply keeps_done_
    | with_reducible apply keeps_setR
    | with_reducible apply keeps_ite
    | simp only [keeps_upd]
    | with_reducible apply keeps_foldl
    | with_reducible apply keeps_foldl1
    | with_reducible apply keeps_foldl2
    | exact fun _ h => h
    | exact fun _ _ => rfl
    | with_reducible intro _ _ _ _
    | with_reducible intro _ _ _
    | simp only [fst_ite]
    | simp only [snd_ite]
    | split
    | dsimp only
    | refine keeps_of_fst (by with_reducible assumption) ?_
    | refine keeps_of_snd (by with_reducible assumption) ?_)

theorem execLocksmithZeroise_runs (s : State) :
    ∃ t, execLocksmithZeroise s = .next t ∧ Keeps s t := by
  unfold execLocksmithZeroise
  refine ⟨_, rfl, ?_⟩
  have kz := Keeps.refl s
  repeat' (first
    | with_reducible assumption
    | with_reducible apply keeps_whenLive
    | with_reducible apply keeps_closeAllAfter
    | with_reducible apply keeps_setR
    | with_reducible apply keeps_ite
    | simp only [keeps_upd]
    | with_reducible intro _ _ _ _
    | with_reducible intro _ _ _
    | split
    | dsimp only)

theorem execKeysReloaded_runs (s : State) :
    ∃ t, execKeysReloaded s = .next t ∧ Keeps s t := by
  unfold execKeysReloaded
  refine ⟨_, rfl, ?_⟩
  have kz := Keeps.refl s
  repeat' (first
    | with_reducible assumption
    | with_reducible apply keeps_whenLive
    | with_reducible apply keeps_guardOn
    | with_reducible apply keeps_setR
    | with_reducible apply keeps_ite
    | simp only [keeps_upd]
    | with_reducible intro _ _ _ _
    | with_reducible intro _ _ _
    | split
    | dsimp only)

theorem execIntakePoll_runs (s : State) :
    ∃ t, execIntakePoll s = .next t ∧ Keeps s t := by
  unfold execIntakePoll
  refine ⟨_, rfl, ?_⟩
  have kz := Keeps.refl s
  repeat' (first
    | with_reducible assumption
    | with_reducible apply keeps_whenLive
    | with_reducible apply keeps_guardOn
    | with_reducible apply keeps_pollSlot
    | with_reducible apply keeps_ite
    | simp only [keeps_upd]
    | with_reducible apply keeps_foldl
    | with_reducible intro _ _ _ _
    | with_reducible intro _ _ _
    | simp only [fst_ite]
    | simp only [snd_ite]
    | split
    | dsimp only)

theorem execDescriptorRead_runs (slot : _) (s : State) :
    ∃ t, execDescriptorRead slot s = .next t ∧ Keeps s t := by
  unfold execDescriptorRead
  refine ⟨_, rfl, ?_⟩
  have kz := Keeps.refl s
  repeat' (first
    | with_reducible assumption
    | with_reducible apply keeps_whenLive
    | with_reducible apply keeps_guardOn
    | with_reducible apply keeps_modSlot
    | with_reducible apply keeps_notCopied
    | with_reducible apply keeps_cooperAlloc
    | with_reducible apply keeps_addR
    | with_reducible apply keeps_ite
    | simp only [keeps_upd]
    | with_reducible intro _ _ _ _
    | with_reducible intro _ _ _
    | simp only [fst_ite]
    | simp only [snd_ite]
    | split
    | refine keeps_startRead (by with_reducible assumption) ?_
    | dsimp only
    | refine keeps_of_fst (by with_reducible assumption) ?_)

theorem execAuCopyDone_runs (slot : _) (s : State) :
    ∃ t, execAuCopyDone slot s = .next t ∧ Keeps s t := by
  unfold execAuCopyDone
  refine ⟨_, rfl, ?_⟩
  have kz := Keeps.refl s
  repeat' (first
    | with_reducible assumption
    | with_reducible apply keeps_whenLive
    | with_reducible apply keeps_guardOn
    | with_reducible apply keeps_whenLive
    | with_reducible apply keeps_readFailed
    | with_reducible apply keeps_modSlot
    | with_reducible apply keeps_consume
    | with_reducible apply keeps_recDrop
    | with_reducible apply keeps_ite
    | simp only [keeps_upd]
    | with_reducible apply keeps_foldl
    | with_reducible apply keeps_foldl1
    | with_reducible apply keeps_foldl2
    | with_reducible intro _ _ _ _
    | with_reducible intro _ _ _
    | simp only [fst_ite]
    | simp only [snd_ite]
    | split
    | dsimp only
    | refine keeps_of_fst (by with_reducible assumption) ?_
    | refine keeps_of_snd (by with_reducible assumption) ?_)

theorem execPictureDecodeStart_runs (claims : _) (s : State) :
    ∃ t, execPictureDecodeStart claims s = .next t ∧ Keeps s t := by
  unfold execPictureDecodeStart
  refine ⟨_, rfl, ?_⟩
  have kz := Keeps.refl s
  repeat' (first
    | with_reducible assumption
    | with_reducible apply keeps_whenLive
    | with_reducible apply keeps_guardOn
    | with_reducible apply keeps_whenLive
    | with_reducible apply keeps_refusePicture
    | with_reducible apply keeps_tryStart
    | with_reducible apply keeps_ite
    | simp only [keeps_upd]
    | with_reducible apply keeps_foldl
    | with_reducible apply keeps_foldl1
    | with_reducible apply keeps_foldl2
    | with_reducible intro _ _ _ _
    | with_reducible intro _ _ _
    | simp only [fst_ite]
    | simp only [snd_ite]
    | split
    | dsimp only
    | refine keeps_of_fst (by with_reducible assumption) ?_
    | refine keeps_of_snd (by with_reducible assumption) ?_)

theorem execDecodeComplete_runs (core : _) (d : _) (s : State) :
    ∃ t, execDecodeComplete core d s = .next t ∧ Keeps s t := by
  unfold execDecodeComplete
  refine ⟨_, rfl, ?_⟩
  have kz := Keeps.refl s
  repeat' (first
    | with_reducible assumption
    | with_reducible apply keeps_whenLive
    | with_reducible apply keeps_guardOn
    | with_reducible apply keeps_whenLive
    | with_reducible apply keeps_core
    | with_reducible apply keeps_endDecode
    | with_reducible apply keeps_forward
    | with_reducible apply keeps_pictureMade
    | with_reducible apply keeps_ite
    | simp only [keeps_upd]
    | with_reducible apply keeps_foldl
    | with_reducible apply keeps_foldl1
    | with_reducible apply keeps_foldl2
    | with_reducible intro _ _ _ _
    | with_reducible intro _ _ _
    | simp only [fst_ite]
    | simp only [snd_ite]
    | split
    | dsimp only
    | refine keeps_of_fst (by with_reducible assumption) ?_
    | refine keeps_of_snd (by with_reducible assumption) ?_)

theorem execDecodeBudgetExpiry_runs (core : _) (s : State) :
    ∃ t, execDecodeBudgetExpiry core s = .next t ∧ Keeps s t := by
  unfold execDecodeBudgetExpiry
  refine ⟨_, rfl, ?_⟩
  have kz := Keeps.refl s
  repeat' (first
    | with_reducible assumption
    | with_reducible apply keeps_whenLive
    | with_reducible apply keeps_guardOn
    | with_reducible apply keeps_cooperFree
    | with_reducible apply keeps_freeGang
    | with_reducible apply keeps_refuseAu
    | with_reducible apply keeps_endDecode
    | with_reducible apply keeps_modSlot
    | with_reducible apply keeps_addI
    | with_reducible apply keeps_ite
    | simp only [keeps_upd]
    | with_reducible apply keeps_foldl
    | with_reducible intro _ _ _ _
    | with_reducible intro _ _ _
    | simp only [fst_ite]
    | simp only [snd_ite]
    | split
    | dsimp only)

theorem execFrameStart_runs (port : _) (s : State) :
    ∃ t, execFrameStart port s = .next t ∧ Keeps s t := by
  unfold execFrameStart
  refine ⟨_, rfl, ?_⟩
  have kz := Keeps.refl s
  repeat' (first
    | with_reducible assumption
    | with_reducible apply keeps_whenLive
    | with_reducible apply keeps_guardOn
    | with_reducible apply keeps_earlyStart
    | with_reducible apply keeps_commitPage
    | with_reducible apply keeps_goLive
    | with_reducible apply keeps_noteStale
    | with_reducible apply keeps_beginFrame
    | with_reducible apply keeps_ite
    | simp only [keeps_upd]
    | with_reducible intro _ _ _ _
    | with_reducible intro _ _ _
    | split
    | dsimp only)

theorem execCsiPacket_runs (port : _) (pkt : _) (s : State) :
    ∃ t, execCsiPacket port pkt s = .next t ∧ Keeps s t := by
  unfold execCsiPacket
  refine ⟨_, rfl, ?_⟩
  have kz := Keeps.refl s
  repeat' (first
    | with_reducible assumption
    | with_reducible apply keeps_whenLive
    | with_reducible apply keeps_guardOn
    | with_reducible apply keeps_addI
    | with_reducible apply keeps_badLine
    | with_reducible apply keeps_modCsi
    | with_reducible apply keeps_ite
    | simp only [keeps_upd]
    | with_reducible intro _ _ _ _
    | with_reducible intro _ _ _
    | split
    | dsimp only)

theorem execFrameEnd_runs (port : _) (s : State) :
    ∃ t, execFrameEnd port s = .next t ∧ Keeps s t := by
  unfold execFrameEnd
  refine ⟨_, rfl, ?_⟩
  have kz := Keeps.refl s
  repeat' (first
    | with_reducible assumption
    | with_reducible apply keeps_whenLive
    | with_reducible apply keeps_guardOn
    | with_reducible apply keeps_closeFrame
    | with_reducible apply keeps_ite
    | simp only [keeps_upd]
    | with_reducible intro _ _ _ _
    | with_reducible intro _ _ _
    | split
    | dsimp only)

theorem execFrameEndTimeout_runs (port : _) (s : State) :
    ∃ t, execFrameEndTimeout port s = .next t ∧ Keeps s t := by
  unfold execFrameEndTimeout
  refine ⟨_, rfl, ?_⟩
  have kz := Keeps.refl s
  repeat' (first
    | with_reducible assumption
    | with_reducible apply keeps_whenLive
    | with_reducible apply keeps_guardOn
    | with_reducible apply keeps_modCsi
    | with_reducible apply keeps_addI
    | with_reducible apply keeps_closeFrame
    | with_reducible apply keeps_ite
    | simp only [keeps_upd]
    | with_reducible intro _ _ _ _
    | with_reducible intro _ _ _
    | split
    | dsimp only)

theorem execRecordItem_runs (slot : _) (s : State) :
    ∃ t, execRecordItem slot s = .next t ∧ Keeps s t := by
  unfold execRecordItem
  refine ⟨_, rfl, ?_⟩
  have kz := Keeps.refl s
  repeat' (first
    | with_reducible assumption
    | with_reducible apply keeps_whenLive
    | with_reducible apply keeps_guardOn
    | with_reducible apply keeps_modRec
    | with_reducible apply keeps_modSlot
    | with_reducible apply keeps_cooperFree
    | with_reducible apply keeps_recDrop
    | with_reducible apply keeps_addX
    | with_reducible apply keeps_ite
    | simp only [keeps_upd]
    | with_reducible intro _ _ _ _
    | with_reducible intro _ _ _
    | split
    | refine keeps_takeItem (by with_reducible assumption) ?_
    | dsimp only)

theorem execScalerStageStart_runs (item : _) (stage : _) (s : State) :
    ∃ t, execScalerStageStart item stage s = .next t ∧ Keeps s t := by
  unfold execScalerStageStart
  refine ⟨_, rfl, ?_⟩
  have kz := Keeps.refl s
  repeat' (first
    | with_reducible assumption
    | with_reducible apply keeps_whenLive
    | with_reducible apply keeps_guardOn
    | with_reducible apply keeps_countWait
    | with_reducible apply keeps_ite
    | simp only [keeps_upd]
    | with_reducible intro _ _ _ _
    | with_reducible intro _ _ _
    | split
    | dsimp only)

theorem execScalerStageDone_runs (s : State) :
    ∃ t, execScalerStageDone s = .next t ∧ Keeps s t := by
  unfold execScalerStageDone
  refine ⟨_, rfl, ?_⟩
  have kz := Keeps.refl s
  repeat' (first
    | with_reducible assumption
    | with_reducible apply keeps_whenLive
    | with_reducible apply keeps_guardOn
    | with_reducible apply keeps_whenLive
    | with_reducible apply keeps_guardOn
    | with_reducible apply keeps_hbmFault
    | with_reducible apply keeps_markDone
    | with_reducible apply keeps_modItem
    | with_reducible apply keeps_stageWaits
    | with_reducible apply keeps_putScaler
    | with_reducible apply keeps_ite
    | simp only [keeps_upd]
    | with_reducible apply keeps_foldl
    | with_reducible apply keeps_foldl1
    | with_reducible apply keeps_foldl2
    | exact fun _ h => h
    | exact fun _ _ => rfl
    | with_reducible intro _ _ _ _
    | with_reducible intro _ _ _
    | simp only [fst_ite]
    | simp only [snd_ite]
    | split
    | dsimp only
    | refine keeps_of_fst (by with_reducible assumption) ?_
    | refine keeps_of_snd (by with_reducible assumption) ?_)

theorem execSickleStageStart_runs (unit : _) (item : _) (stage : _) (s : State) :
    ∃ t, execSickleStageStart unit item stage s = .next t ∧ Keeps s t := by
  unfold execSickleStageStart
  refine ⟨_, rfl, ?_⟩
  have kz := Keeps.refl s
  repeat' (first
    | with_reducible assumption
    | with_reducible apply keeps_whenLive
    | with_reducible apply keeps_guardOn
    | with_reducible apply keeps_stageBoxes
    | with_reducible apply keeps_countWait
    | with_reducible apply keeps_endItem
    | with_reducible apply keeps_putSickle
    | with_reducible apply keeps_endSickle
    | with_reducible apply keeps_ite
    | simp only [keeps_upd]
    | with_reducible intro _ _ _ _
    | with_reducible intro _ _ _
    | simp only [fst_ite]
    | simp only [snd_ite]
    | split
    | dsimp only
    | refine keeps_of_fst (by with_reducible assumption) ?_)

theorem execSickleGranuleRead_runs (unit : _) (s : State) :
    ∃ t, execSickleGranuleRead unit s = .next t ∧ Keeps s t := by
  unfold execSickleGranuleRead
  refine ⟨_, rfl, ?_⟩
  have kz := Keeps.refl s
  repeat' (first
    | with_reducible assumption
    | with_reducible apply keeps_whenLive
    | with_reducible apply keeps_guardOn
    | with_reducible apply keeps_putSickle
    | with_reducible apply keeps_ite
    | simp only [keeps_upd]
    | with_reducible intro _ _ _ _
    | with_reducible intro _ _ _
    | split
    | dsimp only)

theorem execSickleBoxStart_runs (unit : _) (s : State) :
    ∃ t, execSickleBoxStart unit s = .next t ∧ Keeps s t := by
  unfold execSickleBoxStart
  refine ⟨_, rfl, ?_⟩
  have kz := Keeps.refl s
  repeat' (first
    | with_reducible assumption
    | with_reducible apply keeps_whenLive
    | with_reducible apply keeps_guardOn
    | with_reducible apply keeps_putSickle
    | with_reducible apply keeps_ite
    | simp only [keeps_upd]
    | with_reducible intro _ _ _ _
    | with_reducible intro _ _ _
    | split
    | dsimp only)

theorem execSickleBoxEnd_runs (unit : _) (s : State) :
    ∃ t, execSickleBoxEnd unit s = .next t ∧ Keeps s t := by
  unfold execSickleBoxEnd
  refine ⟨_, rfl, ?_⟩
  have kz := Keeps.refl s
  repeat' (first
    | with_reducible assumption
    | with_reducible apply keeps_whenLive
    | with_reducible apply keeps_guardOn
    | with_reducible apply keeps_whenLive
    | with_reducible apply keeps_guardOn
    | with_reducible apply keeps_hbmFault
    | with_reducible apply keeps_addI
    | with_reducible apply keeps_putSickle
    | with_reducible apply keeps_stripeOut
    | with_reducible apply keeps_foldl
    | with_reducible apply keeps_nameWrites
    | with_reducible apply keeps_afterPut
    | with_reducible apply keeps_endSickle
    | with_reducible apply keeps_ite
    | simp only [keeps_upd]
    | with_reducible apply keeps_foldl
    | with_reducible apply keeps_foldl1
    | with_reducible apply keeps_foldl2
    | exact fun _ h => h
    | exact fun _ _ => rfl
    | with_reducible intro _ _ _ _
    | with_reducible intro _ _ _
    | simp only [fst_ite]
    | simp only [snd_ite]
    | split
    | dsimp only
    | refine keeps_of_fst (by with_reducible assumption) ?_
    | refine keeps_of_snd (by with_reducible assumption) ?_)

theorem execPack_runs (item : _) (stage : _) (samples : _) (s : State) :
    ∃ t, execPack item stage samples s = .next t ∧ Keeps s t := by
  unfold execPack
  refine ⟨_, rfl, ?_⟩
  have kz := Keeps.refl s
  repeat' (first
    | with_reducible assumption
    | with_reducible apply keeps_whenLive
    | with_reducible apply keeps_guardOn
    | with_reducible apply keeps_whenLive
    | with_reducible apply keeps_guardOn
    | with_reducible apply keeps_packSamples
    | with_reducible apply keeps_addI
    | with_reducible apply keeps_endItem
    | with_reducible apply keeps_foldl
    | with_reducible apply keeps_granPut
    | with_reducible apply keeps_afterPut
    | with_reducible apply keeps_ite
    | simp only [keeps_upd]
    | with_reducible apply keeps_foldl
    | with_reducible apply keeps_foldl1
    | with_reducible apply keeps_foldl2
    | exact fun _ h => h
    | exact fun _ _ => rfl
    | with_reducible intro _ _ _ _
    | with_reducible intro _ _ _
    | simp only [fst_ite]
    | simp only [snd_ite]
    | split
    | dsimp only
    | refine keeps_of_fst (by with_reducible assumption) ?_
    | refine keeps_of_snd (by with_reducible assumption) ?_)

theorem execEncoderPictureTake_runs (enc : _) (slot : _) (src : _) (s : State) :
    ∃ t, execEncoderPictureTake enc slot src s = .next t ∧ Keeps s t := by
  unfold execEncoderPictureTake
  refine ⟨_, rfl, ?_⟩
  have kz := Keeps.refl s
  repeat' (first
    | with_reducible assumption
    | with_reducible apply keeps_whenLive
    | with_reducible apply keeps_guardOn
    | with_reducible apply keeps_addI
    | with_reducible apply keeps_modEnc
    | with_reducible apply keeps_startEnc
    | with_reducible apply keeps_ite
    | simp only [keeps_upd]
    | with_reducible intro _ _ _ _
    | with_reducible intro _ _ _
    | split
    | dsimp only)

theorem execEncodeSliceDone_runs (enc : _) (s : State) :
    ∃ t, execEncodeSliceDone enc s = .next t ∧ Keeps s t := by
  unfold execEncodeSliceDone
  refine ⟨_, rfl, ?_⟩
  have kz := Keeps.refl s
  repeat' (first
    | with_reducible assumption
    | with_reducible apply keeps_whenLive
    | with_reducible apply keeps_guardOn
    | with_reducible apply keeps_whenLive
    | with_reducible apply keeps_guardOn
    | with_reducible apply keeps_modEnc
    | with_reducible apply keeps_emitSlice
    | with_reducible apply keeps_ite
    | simp only [keeps_upd]
    | with_reducible apply keeps_foldl
    | with_reducible apply keeps_foldl1
    | with_reducible apply keeps_foldl2
    | exact fun _ h => h
    | exact fun _ _ => rfl
    | with_reducible intro _ _ _ _
    | with_reducible intro _ _ _
    | simp only [fst_ite]
    | simp only [snd_ite]
    | split
    | dsimp only
    | refine keeps_of_fst (by with_reducible assumption) ?_
    | refine keeps_of_snd (by with_reducible assumption) ?_)

theorem execEncodePictureDone_runs (enc : _) (s : State) :
    ∃ t, execEncodePictureDone enc s = .next t ∧ Keeps s t := by
  unfold execEncodePictureDone
  refine ⟨_, rfl, ?_⟩
  have kz := Keeps.refl s
  repeat' (first
    | with_reducible assumption
    | with_reducible apply keeps_whenLive
    | with_reducible apply keeps_guardOn
    | with_reducible apply keeps_whenLive
    | with_reducible apply keeps_guardOn
    | with_reducible apply keeps_commitPage
    | with_reducible apply keeps_finishEnc
    | with_reducible apply keeps_startEnc
    | with_reducible apply keeps_stopEncoder
    | with_reducible apply keeps_ite
    | simp only [keeps_upd]
    | with_reducible apply keeps_foldl
    | with_reducible apply keeps_foldl1
    | with_reducible apply keeps_foldl2
    | exact fun _ h => h
    | exact fun _ _ => rfl
    | with_reducible intro _ _ _ _
    | with_reducible intro _ _ _
    | simp only [fst_ite]
    | simp only [snd_ite]
    | split
    | dsimp only
    | refine keeps_of_fst (by with_reducible assumption) ?_
    | refine keeps_of_snd (by with_reducible assumption) ?_)

theorem execLedgerPoll_runs (s : State) :
    ∃ t, execLedgerPoll s = .next t ∧ Keeps s t := by
  unfold execLedgerPoll
  refine ⟨_, rfl, ?_⟩
  have kz := Keeps.refl s
  repeat' (first
    | with_reducible assumption
    | with_reducible apply keeps_whenLive
    | with_reducible apply keeps_guardOn
    | with_reducible apply keeps_addR
    | with_reducible apply keeps_ite
    | simp only [keeps_upd]
    | with_reducible intro _ _ _ _
    | with_reducible intro _ _ _
    | split
    | refine keeps_startRead (by with_reducible assumption) ?_
    | dsimp only)

theorem execLedgerEntryArrival_runs (s : State) :
    ∃ t, execLedgerEntryArrival s = .next t ∧ Keeps s t := by
  unfold execLedgerEntryArrival
  refine ⟨_, rfl, ?_⟩
  have kz := Keeps.refl s
  repeat' (first
    | with_reducible assumption
    | with_reducible apply keeps_whenLive
    | with_reducible apply keeps_guardOn
    | with_reducible apply keeps_addR
    | with_reducible apply keeps_refuseEntry
    | with_reducible apply keeps_keepRepeat
    | with_reducible apply keeps_enqueue
    | with_reducible apply keeps_settlePoll
    | with_reducible apply keeps_ite
    | simp only [keeps_upd]
    | with_reducible intro _ _ _ _
    | with_reducible intro _ _ _
    | split
    | dsimp only)

theorem execPinnedLaunchDecision_runs (item : _) (s : State) :
    ∃ t, execPinnedLaunchDecision item s = .next t ∧ Keeps s t := by
  unfold execPinnedLaunchDecision
  refine ⟨_, rfl, ?_⟩
  have kz := Keeps.refl s
  repeat' (first
    | with_reducible assumption
    | with_reducible apply keeps_whenLive
    | with_reducible apply keeps_guardOn
    | with_reducible apply keeps_addItem
    | with_reducible apply keeps_decidePinned
    | with_reducible apply keeps_ite
    | simp only [keeps_upd]
    | with_reducible intro _ _ _ _
    | with_reducible intro _ _ _
    | split
    | dsimp only)

theorem execPinnedLaunch_runs (item : _) (s : State) :
    ∃ t, execPinnedLaunch item s = .next t ∧ Keeps s t := by
  unfold execPinnedLaunch
  refine ⟨_, rfl, ?_⟩
  have kz := Keeps.refl s
  repeat' (first
    | with_reducible assumption
    | with_reducible apply keeps_whenLive
    | with_reducible apply keeps_guardOn
    | with_reducible apply keeps_addR
    | with_reducible apply keeps_endItem
    | with_reducible apply keeps_launchItem
    | with_reducible apply keeps_modItem
    | with_reducible apply keeps_endItemWith
    | with_reducible apply keeps_ite
    | simp only [keeps_upd]
    | with_reducible intro _ _ _ _
    | with_reducible intro _ _ _
    | split
    | dsimp only)

theorem execPooledPlacement_runs (s : State) :
    ∃ t, execPooledPlacement s = .next t ∧ Keeps s t := by
  unfold execPooledPlacement
  refine ⟨_, rfl, ?_⟩
  have kz := Keeps.refl s
  repeat' (first
    | with_reducible assumption
    | with_reducible apply keeps_whenLive
    | with_reducible apply keeps_guardOn
    | with_reducible apply keeps_placeLevels
    | with_reducible apply keeps_ite
    | simp only [keeps_upd]
    | with_reducible intro _ _ _ _
    | with_reducible intro _ _ _
    | split
    | refine keeps_placeHolders (by with_reducible assumption) ?_
    | dsimp only)

theorem execEviction_runs (s : State) :
    ∃ t, execEviction s = .next t ∧ Keeps s t := by
  unfold execEviction
  refine ⟨_, rfl, ?_⟩
  have kz := Keeps.refl s
  repeat' (first
    | with_reducible assumption
    | with_reducible apply keeps_whenLive
    | with_reducible apply keeps_guardOn
    | with_reducible apply keeps_modItem
    | with_reducible apply keeps_stopCore
    | with_reducible apply keeps_ite
    | simp only [keeps_upd]
    | with_reducible apply keeps_foldl
    | with_reducible intro _ _ _ _
    | with_reducible intro _ _ _
    | simp only [fst_ite]
    | simp only [snd_ite]
    | split
    | dsimp only)

theorem execDeadlineRefusal_runs (item : _) (s : State) :
    ∃ t, execDeadlineRefusal item s = .next t ∧ Keeps s t := by
  unfold execDeadlineRefusal
  refine ⟨_, rfl, ?_⟩
  have kz := Keeps.refl s
  repeat' (first
    | with_reducible assumption
    | with_reducible apply keeps_whenLive
    | with_reducible apply keeps_guardOn
    | with_reducible apply keeps_addR
    | with_reducible apply keeps_endItem
    | with_reducible apply keeps_ite
    | simp only [keeps_upd]
    | with_reducible intro _ _ _ _
    | with_reducible intro _ _ _
    | split
    | dsimp only)

theorem execPreemptionArrival_runs (core : _) (s : State) :
    ∃ t, execPreemptionArrival core s = .next t ∧ Keeps s t := by
  unfold execPreemptionArrival
  refine ⟨_, rfl, ?_⟩
  have kz := Keeps.refl s
  repeat' (first
    | with_reducible assumption
    | with_reducible apply keeps_whenLive
    | with_reducible apply keeps_guardOn
    | with_reducible apply keeps_abandonRestore
    | with_reducible apply keeps_stopCore
    | with_reducible apply keeps_ite
    | simp only [keeps_upd]
    | with_reducible intro _ _ _ _
    | with_reducible intro _ _ _
    | split
    | dsimp only)

theorem execContextSave_runs (core : _) (s : State) :
    ∃ t, execContextSave core s = .next t ∧ Keeps s t := by
  unfold execContextSave
  refine ⟨_, rfl, ?_⟩
  have kz := Keeps.refl s
  repeat' (first
    | with_reducible refine keeps_saved _ _ _ ?_ (fun _ => contextOf_canon _ _)
    | with_reducible assumption
    | with_reducible apply keeps_whenLive
    | with_reducible apply keeps_guardOn
    | with_reducible apply keeps_readRows
    | with_reducible apply keeps_useCarter
    | with_reducible apply keeps_usePhase3
    | with_reducible apply keeps_afterBins
    | with_reducible apply keeps_refreshCtx
    | with_reducible apply keeps_addR
    | with_reducible apply keeps_setI
    | with_reducible apply keeps_ite
    | simp only [keeps_upd]
    | with_reducible intro _ _ _ _
    | with_reducible intro _ _ _
    | simp only [fst_ite]
    | simp only [snd_ite]
    | split
    | dsimp only
    | refine keeps_of_fst (by with_reducible assumption) ?_)

theorem execContextSaveLanded_runs (core : _) (s : State) :
    ∃ t, execContextSaveLanded core s = .next t ∧ Keeps s t := by
  unfold execContextSaveLanded
  refine ⟨_, rfl, ?_⟩
  have kz := Keeps.refl s
  repeat' (first
    | with_reducible assumption
    | with_reducible apply keeps_whenLive
    | with_reducible apply keeps_guardOn
    | with_reducible apply keeps_clearCore
    | with_reducible apply keeps_modItem
    | with_reducible apply keeps_ite
    | simp only [keeps_upd]
    | with_reducible intro _ _ _ _
    | with_reducible intro _ _ _
    | split
    | dsimp only)

theorem execContextMove_runs (ctx : _) (s : State) :
    ∃ t, execContextMove ctx s = .next t ∧ Keeps s t := by
  unfold execContextMove
  refine ⟨_, rfl, ?_⟩
  have kz := Keeps.refl s
  repeat' (first
    | with_reducible assumption
    | with_reducible apply keeps_whenLive
    | with_reducible apply keeps_guardOn
    | with_reducible apply keeps_addR
    | with_reducible apply keeps_ite
    | simp only [keeps_upd]
    | with_reducible intro _ _ _ _
    | with_reducible intro _ _ _
    | split
    | dsimp only)

theorem execContextMoveDone_runs (ctx : _) (s : State) :
    ∃ t, execContextMoveDone ctx s = .next t ∧ Keeps s t := by
  unfold execContextMoveDone
  refine ⟨_, rfl, ?_⟩
  have kz := Keeps.refl s
  repeat' (first
    | with_reducible assumption
    | with_reducible apply keeps_whenLive
    | with_reducible apply keeps_guardOn
    | with_reducible apply keeps_refreshCtx
    | with_reducible apply keeps_addR
    | with_reducible apply keeps_ite
    | simp only [keeps_upd]
    | with_reducible intro _ _ _ _
    | with_reducible intro _ _ _
    | split
    | dsimp only)

theorem execContextRestore_runs (item : _) (s : State) :
    ∃ t, execContextRestore item s = .next t ∧ Keeps s t := by
  unfold execContextRestore
  refine ⟨_, rfl, ?_⟩
  have kz := Keeps.refl s
  repeat' (first
    | with_reducible apply keeps_restored
    | with_reducible assumption
    | with_reducible apply keeps_whenLive
    | with_reducible apply keeps_guardOn
    | with_reducible apply keeps_restoreTag
    | with_reducible apply keeps_useCarter
    | with_reducible apply keeps_usePhase3
    | with_reducible apply keeps_writeRows
    | with_reducible apply keeps_setI
    | with_reducible apply keeps_clearTag
    | with_reducible apply keeps_modCore
    | with_reducible apply keeps_addR
    | with_reducible apply keeps_resumeItem
    | with_reducible apply keeps_ite
    | simp only [keeps_upd]
    | with_reducible intro _ _ _ _
    | exact fun _ h => h
    | with_reducible intro _ _ _
    | simp only [fst_ite]
    | split
    | dsimp only)

theorem execCreditReturnTimeout_runs (core : _) (s : State) :
    ∃ t, execCreditReturnTimeout core s = .next t ∧ Keeps s t := by
  unfold execCreditReturnTimeout
  refine ⟨_, rfl, ?_⟩
  have kz := Keeps.refl s
  repeat' (first
    | with_reducible assumption
    | with_reducible apply keeps_whenLive
    | with_reducible apply keeps_guardOn
    | with_reducible apply keeps_linkFault
    | with_reducible apply keeps_fresh
    | with_reducible apply keeps_ite
    | simp only [keeps_upd]
    | with_reducible intro _ _ _ _
    | with_reducible intro _ _ _
    | simp only [fst_ite]
    | simp only [snd_ite]
    | split
    | dsimp only
    | refine keeps_of_snd (by with_reducible assumption) ?_)

theorem execLeaseExpiry_runs (s : State) :
    ∃ t, execLeaseExpiry s = .next t ∧ Keeps s t := by
  unfold execLeaseExpiry
  refine ⟨_, rfl, ?_⟩
  have kz := Keeps.refl s
  repeat' (first
    | with_reducible assumption
    | with_reducible apply keeps_whenLive
    | with_reducible apply keeps_guardOn
    | with_reducible apply keeps_endPoll
    | with_reducible apply keeps_dropReads
    | with_reducible apply keeps_putBoth
    | with_reducible apply keeps_disableRing
    | with_reducible apply keeps_setR
    | with_reducible apply keeps_endItems
    | with_reducible apply keeps_raiseInt
    | with_reducible apply keeps_stopEncoder
    | with_reducible apply keeps_closeAllAfter
    | with_reducible apply keeps_ite
    | simp only [keeps_upd]
    | with_reducible apply keeps_foldl
    | with_reducible intro _ _ _ _
    | with_reducible intro _ _ _
    | simp only [fst_ite]
    | simp only [snd_ite]
    | split
    | dsimp only)

theorem execAutonomousRepeat_runs (plan : _) (offset : _) (s : State) :
    ∃ t, execAutonomousRepeat plan offset s = .next t ∧ Keeps s t := by
  unfold execAutonomousRepeat
  refine ⟨_, rfl, ?_⟩
  have kz := Keeps.refl s
  repeat' (first
    | with_reducible assumption
    | with_reducible apply keeps_whenLive
    | with_reducible apply keeps_guardOn
    | with_reducible apply keeps_settle
    | with_reducible apply keeps_addItem
    | with_reducible apply keeps_ite
    | simp only [keeps_upd]
    | with_reducible intro _ _ _ _
    | with_reducible intro _ _ _
    | split
    | dsimp only)

/-- An instruction of an engine, once live, answers a state that keeps what is kept. -/
theorem runCmd_runs (s : State) (p : Nat) (cmd : TileCmd) (e : Engine) (r : Bool) :
    ∃ t, (Host.Outcome.next (whenLive s fun s => runCmd s p cmd e r) : Out) = .next t ∧ Keeps s t :=
  ⟨_, rfl, keeps_whenLive _ _ (fun _ _ h => keeps_runCmd _ _ _ _ _ h) (Keeps.refl s)⟩

theorem execLd_runs (core : _) (g : _) (d : _) (bytes : _) (tok : _) (s : State) :
    ∃ t, execLd core g d bytes tok s = .next t ∧ Keeps s t := runCmd_runs _ _ _ _ _

theorem execSt_runs (core : _) (x : _) (g : _) (bytes : _) (tok : _) (s : State) :
    ∃ t, execSt core x g bytes tok s = .next t ∧ Keeps s t := runCmd_runs _ _ _ _ _

theorem execLdw_runs (core : _) (g : _) (x : _) (bytes : _) (tag : _) (tok : _) (s : State) :
    ∃ t, execLdw core g x bytes tag tok s = .next t ∧ Keeps s t := runCmd_runs _ _ _ _ _

theorem execCb_runs (core : _) (x : _) (tok : _) (s : State) :
    ∃ t, execCb core x tok s = .next t ∧ Keeps s t := runCmd_runs _ _ _ _ _

theorem execMm_runs (core : _) (op : _) (tok : _) (residueErr : _) (s : State) :
    ∃ t, execMm core op tok residueErr s = .next t ∧ Keeps s t := runCmd_runs _ _ _ _ _

theorem execRelu_runs (core : _) (fmt : _) (n : _) (x : _) (y : _) (tok : _) (s : State) :
    ∃ t, execRelu core fmt n x y tok s = .next t ∧ Keeps s t := runCmd_runs _ _ _ _ _

theorem execClip_runs (core : _) (fmt : _) (n : _) (lo : _) (hi : _) (x : _) (y : _) (tok : _) (s : State) :
    ∃ t, execClip core fmt n lo hi x y tok s = .next t ∧ Keeps s t := runCmd_runs _ _ _ _ _

theorem execRequantise_runs (core : _) (src : _) (n : _) (x : _) (scl : _) (y : _) (om : _) (tok : _) (s : State) :
    ∃ t, execRequantise core src n x scl y om tok s = .next t ∧ Keeps s t := runCmd_runs _ _ _ _ _

theorem execTableFunction_runs (core : _) (n : _) (p : _) (x : _) (y : _) (tok : _) (s : State) :
    ∃ t, execTableFunction core n p x y tok s = .next t ∧ Keeps s t := runCmd_runs _ _ _ _ _

theorem execMaxAbs_runs (core : _) (fmt : _) (n : _) (x : _) (y : _) (tok : _) (s : State) :
    ∃ t, execMaxAbs core fmt n x y tok s = .next t ∧ Keeps s t := runCmd_runs _ _ _ _ _

theorem execSoftmax_runs (core : _) (n : _) (src : _) (scale : _) (dst : _) (x : _) (y : _) (tok : _) (s : State) :
    ∃ t, execSoftmax core n src scale dst x y tok s = .next t ∧ Keeps s t := runCmd_runs _ _ _ _ _

theorem execLayerNormalisation_runs (core : _) (n : _) (eps : _) (x : _) (gamma : _) (beta : _) (y : _) (tok : _) (s : State) :
    ∃ t, execLayerNormalisation core n eps x gamma beta y tok s = .next t ∧ Keeps s t := runCmd_runs _ _ _ _ _

theorem execBoxDecoding_runs (core : _) (p : _) (anchors : _) (scores : _) (regs : _) (y : _) (tok : _) (s : State) :
    ∃ t, execBoxDecoding core p anchors scores regs y tok s = .next t ∧ Keeps s t := runCmd_runs _ _ _ _ _

theorem execAdd_runs (core : _) (fmt : _) (psum : _) (n : _) (x1 : _) (x2 : _) (y : _) (opr : _) (tok : _) (s : State) :
    ∃ t, execAdd core fmt psum n x1 x2 y opr tok s = .next t ∧ Keeps s t := runCmd_runs _ _ _ _ _

theorem execMultiply_runs (core : _) (fmt : _) (n : _) (x1 : _) (x2 : _) (y : _) (tok : _) (s : State) :
    ∃ t, execMultiply core fmt n x1 x2 y tok s = .next t ∧ Keeps s t := runCmd_runs _ _ _ _ _

theorem execFusedMultiplyAdd_runs (core : _) (fmt : _) (n : _) (x1 : _) (x2 : _) (x3 : _) (y : _) (opr : _) (tok : _) (s : State) :
    ∃ t, execFusedMultiplyAdd core fmt n x1 x2 x3 y opr tok s = .next t ∧ Keeps s t := runCmd_runs _ _ _ _ _

theorem execMin_runs (core : _) (fmt : _) (n : _) (x1 : _) (x2 : _) (y : _) (tok : _) (s : State) :
    ∃ t, execMin core fmt n x1 x2 y tok s = .next t ∧ Keeps s t := runCmd_runs _ _ _ _ _

theorem execMax_runs (core : _) (fmt : _) (n : _) (x1 : _) (x2 : _) (y : _) (opr : _) (tok : _) (s : State) :
    ∃ t, execMax core fmt n x1 x2 y opr tok s = .next t ∧ Keeps s t := runCmd_runs _ _ _ _ _

theorem execConvert_runs (core : _) (src : _) (dst : _) (n : _) (x : _) (y : _) (om : _) (tok : _) (s : State) :
    ∃ t, execConvert core src dst n x y om tok s = .next t ∧ Keeps s t := runCmd_runs _ _ _ _ _

theorem execDerive_runs (core : _) (fmt : _) (sStage : _) (clip : _) (int16 : _) (x : _) (y : _) (tok : _) (s : State) :
    ∃ t, execDerive core fmt sStage clip int16 x y tok s = .next t ∧ Keeps s t := runCmd_runs _ _ _ _ _

theorem execBiasq_runs (core : _) (n : _) (sa : _) (sw : _) (b : _) (y : _) (tok : _) (s : State) :
    ∃ t, execBiasq core n sa sw b y tok s = .next t ∧ Keeps s t := runCmd_runs _ _ _ _ _

theorem execReg_runs (core : _) (bin : _) (r : _) (base : _) (len : _) (circ : _) (tok : _) (s : State) :
    ∃ t, execReg core bin r base len circ tok s = .next t ∧ Keeps s t := by
  unfold execReg
  refine ⟨_, rfl, ?_⟩
  have kz := Keeps.refl s
  repeat' (first
    | with_reducible assumption
    | with_reducible apply keeps_whenLive
    | with_reducible apply keeps_guardOn
    | with_reducible apply keeps_whenLive
    | with_reducible apply keeps_regIns
    | with_reducible apply keeps_ite
    | simp only [keeps_upd]
    | with_reducible apply keeps_foldl
    | with_reducible apply keeps_foldl1
    | with_reducible apply keeps_foldl2
    | exact fun _ h => h
    | exact fun _ _ => rfl
    | with_reducible intro _ _ _ _
    | with_reducible intro _ _ _
    | simp only [fst_ite]
    | simp only [snd_ite]
    | split
    | dsimp only
    | refine keeps_of_fst (by with_reducible assumption) ?_
    | refine keeps_of_snd (by with_reducible assumption) ?_)

theorem execLoop_runs (core : _) (n : _) (strides : _) (tok : _) (s : State) :
    ∃ t, execLoop core n strides tok s = .next t ∧ Keeps s t := by
  unfold execLoop
  refine ⟨_, rfl, ?_⟩
  have kz := Keeps.refl s
  repeat' (first
    | with_reducible assumption
    | with_reducible apply keeps_whenLive
    | with_reducible apply keeps_guardOn
    | with_reducible apply keeps_whenLive
    | with_reducible apply keeps_loopIns
    | with_reducible apply keeps_ite
    | simp only [keeps_upd]
    | with_reducible apply keeps_foldl
    | with_reducible apply keeps_foldl1
    | with_reducible apply keeps_foldl2
    | exact fun _ h => h
    | exact fun _ _ => rfl
    | with_reducible intro _ _ _ _
    | with_reducible intro _ _ _
    | simp only [fst_ite]
    | simp only [snd_ite]
    | split
    | dsimp only
    | refine keeps_of_fst (by with_reducible assumption) ?_
    | refine keeps_of_snd (by with_reducible assumption) ?_)

theorem execEndl_runs (core : _) (tok : _) (s : State) :
    ∃ t, execEndl core tok s = .next t ∧ Keeps s t := by
  unfold execEndl
  refine ⟨_, rfl, ?_⟩
  have kz := Keeps.refl s
  repeat' (first
    | with_reducible assumption
    | with_reducible apply keeps_whenLive
    | with_reducible apply keeps_guardOn
    | with_reducible apply keeps_whenLive
    | with_reducible apply keeps_endlIns
    | with_reducible apply keeps_ite
    | simp only [keeps_upd]
    | with_reducible apply keeps_foldl
    | with_reducible apply keeps_foldl1
    | with_reducible apply keeps_foldl2
    | exact fun _ h => h
    | exact fun _ _ => rfl
    | with_reducible intro _ _ _ _
    | with_reducible intro _ _ _
    | simp only [fst_ite]
    | simp only [snd_ite]
    | split
    | dsimp only
    | refine keeps_of_fst (by with_reducible assumption) ?_
    | refine keeps_of_snd (by with_reducible assumption) ?_)

theorem execWait_runs (core : _) (w : _) (tok : _) (s : State) :
    ∃ t, execWait core w tok s = .next t ∧ Keeps s t := by
  unfold execWait
  refine ⟨_, rfl, ?_⟩
  have kz := Keeps.refl s
  repeat' (first
    | with_reducible assumption
    | with_reducible apply keeps_whenLive
    | with_reducible apply keeps_guardOn
    | with_reducible apply keeps_whenLive
    | with_reducible apply keeps_waitIns
    | with_reducible apply keeps_ite
    | simp only [keeps_upd]
    | with_reducible apply keeps_foldl
    | with_reducible apply keeps_foldl1
    | with_reducible apply keeps_foldl2
    | exact fun _ h => h
    | exact fun _ _ => rfl
    | with_reducible intro _ _ _ _
    | with_reducible intro _ _ _
    | simp only [fst_ite]
    | simp only [snd_ite]
    | split
    | dsimp only
    | refine keeps_of_fst (by with_reducible assumption) ?_
    | refine keeps_of_snd (by with_reducible assumption) ?_)

theorem execSig_runs (core : _) (n : _) (tok : _) (s : State) :
    ∃ t, execSig core n tok s = .next t ∧ Keeps s t := by
  unfold execSig
  refine ⟨_, rfl, ?_⟩
  have kz := Keeps.refl s
  repeat' (first
    | with_reducible assumption
    | with_reducible apply keeps_whenLive
    | with_reducible apply keeps_guardOn
    | with_reducible apply keeps_whenLive
    | with_reducible apply keeps_sigIns
    | with_reducible apply keeps_ite
    | simp only [keeps_upd]
    | with_reducible apply keeps_foldl
    | with_reducible apply keeps_foldl1
    | with_reducible apply keeps_foldl2
    | exact fun _ h => h
    | exact fun _ _ => rfl
    | with_reducible intro _ _ _ _
    | with_reducible intro _ _ _
    | simp only [fst_ite]
    | simp only [snd_ite]
    | split
    | dsimp only
    | refine keeps_of_fst (by with_reducible assumption) ?_
    | refine keeps_of_snd (by with_reducible assumption) ?_)

theorem execBnd_runs (core : _) (live : _) (tok : _) (s : State) :
    ∃ t, execBnd core live tok s = .next t ∧ Keeps s t := by
  unfold execBnd
  refine ⟨_, rfl, ?_⟩
  have kz := Keeps.refl s
  repeat' (first
    | with_reducible assumption
    | with_reducible apply keeps_whenLive
    | with_reducible apply keeps_guardOn
    | with_reducible apply keeps_whenLive
    | with_reducible apply keeps_bndIns
    | with_reducible apply keeps_ite
    | simp only [keeps_upd]
    | with_reducible apply keeps_foldl
    | with_reducible apply keeps_foldl1
    | with_reducible apply keeps_foldl2
    | exact fun _ h => h
    | exact fun _ _ => rfl
    | with_reducible intro _ _ _ _
    | with_reducible intro _ _ _
    | simp only [fst_ite]
    | simp only [snd_ite]
    | split
    | dsimp only
    | refine keeps_of_fst (by with_reducible assumption) ?_
    | refine keeps_of_snd (by with_reducible assumption) ?_)

theorem execEndOp_runs (core : _) (tok : _) (s : State) :
    ∃ t, execEndOp core tok s = .next t ∧ Keeps s t := by
  unfold execEndOp
  refine ⟨_, rfl, ?_⟩
  have kz := Keeps.refl s
  repeat' (first
    | with_reducible assumption
    | with_reducible apply keeps_whenLive
    | with_reducible apply keeps_guardOn
    | with_reducible apply keeps_whenLive
    | with_reducible apply keeps_pumpCore
    | with_reducible apply keeps_guardOn
    | with_reducible apply keeps_runTile
    | with_reducible apply keeps_modItem
    | with_reducible apply keeps_finishItem
    | with_reducible apply keeps_stopCore
    | with_reducible apply keeps_ite
    | simp only [keeps_upd]
    | with_reducible apply keeps_foldl
    | with_reducible apply keeps_foldl1
    | with_reducible apply keeps_foldl2
    | exact fun _ h => h
    | exact fun _ _ => rfl
    | with_reducible intro _ _ _ _
    | with_reducible intro _ _ _
    | simp only [fst_ite]
    | simp only [snd_ite]
    | split
    | dsimp only
    | refine keeps_of_fst (by with_reducible assumption) ?_
    | refine keeps_of_snd (by with_reducible assumption) ?_)

theorem execTrackStepStart_runs (s : State) :
    ∃ t, execTrackStepStart s = .next t ∧ Keeps s t := by
  unfold execTrackStepStart
  refine ⟨_, rfl, ?_⟩
  have kz := Keeps.refl s
  repeat' (first
    | with_reducible assumption
    | with_reducible apply keeps_whenLive
    | with_reducible apply keeps_guardOn
    | with_reducible apply keeps_refreshTrk
    | with_reducible apply keeps_addR
    | with_reducible apply keeps_settle
    | with_reducible apply keeps_ite
    | simp only [keeps_upd]
    | with_reducible intro _ _ _ _
    | with_reducible intro _ _ _
    | split
    | dsimp only)

theorem execEmbWaitExpiry_runs (slot : _) (s : State) :
    ∃ t, execEmbWaitExpiry slot s = .next t ∧ Keeps s t := by
  unfold execEmbWaitExpiry
  refine ⟨_, rfl, ?_⟩
  have kz := Keeps.refl s
  repeat' (first
    | with_reducible assumption
    | with_reducible apply keeps_whenLive
    | with_reducible apply keeps_guardOn
    | with_reducible apply keeps_whenLive
    | with_reducible apply keeps_guardOn
    | with_reducible apply keeps_resumeStep
    | with_reducible apply keeps_evtTrack
    | with_reducible apply keeps_ite
    | simp only [keeps_upd]
    | with_reducible apply keeps_foldl
    | with_reducible apply keeps_foldl1
    | with_reducible apply keeps_foldl2
    | exact fun _ h => h
    | exact fun _ _ => rfl
    | with_reducible intro _ _ _ _
    | with_reducible intro _ _ _
    | simp only [fst_ite]
    | simp only [snd_ite]
    | split
    | dsimp only
    | refine keeps_of_fst (by with_reducible assumption) ?_
    | refine keeps_of_snd (by with_reducible assumption) ?_)

theorem execTrackStepEnd_runs (slot : _) (s : State) :
    ∃ t, execTrackStepEnd slot s = .next t ∧ Keeps s t := by
  unfold execTrackStepEnd
  refine ⟨_, rfl, ?_⟩
  have kz := Keeps.refl s
  repeat' (first
    | with_reducible assumption
    | with_reducible apply keeps_whenLive
    | with_reducible apply keeps_guardOn
    | with_reducible apply keeps_endStep
    | with_reducible apply keeps_ite
    | simp only [keeps_upd]
    | with_reducible intro _ _ _ _
    | with_reducible intro _ _ _
    | split
    | dsimp only)

theorem execRecordWrite_runs (s : State) :
    ∃ t, execRecordWrite s = .next t ∧ Keeps s t := by
  unfold execRecordWrite
  refine ⟨_, rfl, ?_⟩
  have kz := Keeps.refl s
  repeat' (first
    | with_reducible assumption
    | with_reducible apply keeps_whenLive
    | with_reducible apply keeps_afterTake
    | with_reducible apply keeps_ite
    | simp only [keeps_upd]
    | with_reducible intro _ _ _ _
    | with_reducible intro _ _ _
    | split
    | refine keeps_takeRec (by with_reducible assumption) ?_
    | dsimp only)

theorem execRingIrqTimer_runs (ring : _) (s : State) :
    ∃ t, execRingIrqTimer ring s = .next t ∧ Keeps s t := by
  unfold execRingIrqTimer
  refine ⟨_, rfl, ?_⟩
  have kz := Keeps.refl s
  repeat' (first
    | with_reducible assumption
    | with_reducible apply keeps_whenLive
    | with_reducible apply keeps_guardOn
    | with_reducible apply keeps_ringSignal
    | with_reducible apply keeps_ite
    | simp only [keeps_upd]
    | with_reducible intro _ _ _ _
    | with_reducible intro _ _ _
    | split
    | dsimp only)

theorem execScrubSlot_runs (clu : _) (s : State) :
    ∃ t, execScrubSlot clu s = .next t ∧ Keeps s t := by
  unfold execScrubSlot
  refine ⟨_, rfl, ?_⟩
  have kz := Keeps.refl s
  repeat' (first
    | with_reducible assumption
    | with_reducible apply keeps_whenLive
    | with_reducible apply keeps_guardOn
    | with_reducible apply keeps_copyStep
    | with_reducible apply keeps_scrubBank
    | with_reducible apply keeps_addI
    | with_reducible apply keeps_ite
    | simp only [keeps_upd]
    | with_reducible apply keeps_foldl
    | with_reducible intro _ _ _ _
    | with_reducible intro _ _ _
    | simp only [fst_ite]
    | simp only [snd_ite]
    | split
    | dsimp only)

theorem execBankDrainEnd_runs (clu : _) (bank : _) (s : State) :
    ∃ t, execBankDrainEnd clu bank s = .next t ∧ Keeps s t := by
  unfold execBankDrainEnd
  refine ⟨_, rfl, ?_⟩
  have kz := Keeps.refl s
  repeat' (first
    | with_reducible assumption
    | with_reducible apply keeps_whenLive
    | with_reducible apply keeps_guardOn
    | with_reducible apply keeps_refreshDark
    | with_reducible apply keeps_switchOff
    | with_reducible apply keeps_setI
    | with_reducible apply keeps_ite
    | simp only [keeps_upd]
    | with_reducible intro _ _ _ _
    | with_reducible intro _ _ _
    | split
    | dsimp only)

theorem execBankZeroFillDone_runs (clu : _) (bank : _) (s : State) :
    ∃ t, execBankZeroFillDone clu bank s = .next t ∧ Keeps s t := by
  unfold execBankZeroFillDone
  refine ⟨_, rfl, ?_⟩
  have kz := Keeps.refl s
  repeat' (first
    | with_reducible assumption
    | with_reducible apply keeps_whenLive
    | with_reducible apply keeps_guardOn
    | with_reducible apply keeps_refreshDark
    | with_reducible apply keeps_modClu
    | with_reducible apply keeps_ite
    | simp only [keeps_upd]
    | with_reducible intro _ _ _ _
    | exact fun _ h => h
    | with_reducible intro _ _ _
    | split
    | dsimp only)

theorem execDomainUsable_runs (dom : _) (s : State) :
    ∃ t, execDomainUsable dom s = .next t ∧ Keeps s t := by
  unfold execDomainUsable
  refine ⟨_, rfl, ?_⟩
  have kz := Keeps.refl s
  repeat' (first
    | with_reducible assumption
    | with_reducible apply keeps_whenLive
    | with_reducible apply keeps_guardOn
    | with_reducible apply keeps_setDom
    | with_reducible apply keeps_modClu
    | with_reducible apply keeps_ite
    | simp only [keeps_upd]
    | with_reducible intro _ _ _ _
    | exact fun _ h => h
    | with_reducible intro _ _ _
    | split
    | dsimp only)

theorem execCooperAllocation_runs (owner : _) (bytes : _) (mask : _) (s : State) :
    ∃ t, execCooperAllocation owner bytes mask s = .next t ∧ Keeps s t := by
  unfold execCooperAllocation
  refine ⟨_, rfl, ?_⟩
  have kz := Keeps.refl s
  repeat' (first
    | with_reducible assumption
    | with_reducible apply keeps_whenLive
    | with_reducible apply keeps_cooperAlloc
    | with_reducible apply keeps_ite
    | simp only [keeps_upd]
    | with_reducible intro _ _ _ _
    | with_reducible intro _ _ _
    | simp only [fst_ite]
    | simp only [snd_ite]
    | split
    | dsimp only
    | refine keeps_of_fst (by with_reducible assumption) ?_)

theorem execCooperFree_runs (handle : _) (s : State) :
    ∃ t, execCooperFree handle s = .next t ∧ Keeps s t := by
  unfold execCooperFree
  refine ⟨_, rfl, ?_⟩
  have kz := Keeps.refl s
  repeat' (first
    | with_reducible assumption
    | with_reducible apply keeps_whenLive
    | with_reducible apply keeps_cooperFree
    | with_reducible apply keeps_ite
    | simp only [keeps_upd]
    | with_reducible intro _ _ _ _
    | with_reducible intro _ _ _
    | split
    | dsimp only)

theorem execCooperRefill_runs (pool : _) (s : State) :
    ∃ t, execCooperRefill pool s = .next t ∧ Keeps s t := by
  unfold execCooperRefill
  refine ⟨_, rfl, ?_⟩
  have kz := Keeps.refl s
  repeat' (first
    | with_reducible assumption
    | with_reducible apply keeps_whenLive
    | with_reducible apply keeps_guardOn
    | with_reducible apply keeps_addR
    | with_reducible apply keeps_modPool
    | with_reducible apply keeps_ite
    | simp only [keeps_upd]
    | with_reducible intro _ _ _ _
    | with_reducible intro _ _ _
    | split
    | dsimp only)

theorem execListLinkRead_runs (pool : _) (s : State) :
    ∃ t, execListLinkRead pool s = .next t ∧ Keeps s t := by
  unfold execListLinkRead
  refine ⟨_, rfl, ?_⟩
  have kz := Keeps.refl s
  repeat' (first
    | with_reducible assumption
    | with_reducible apply keeps_whenLive
    | with_reducible apply keeps_guardOn
    | with_reducible apply keeps_whenLive
    | with_reducible apply keeps_readLink
    | with_reducible apply keeps_ite
    | simp only [keeps_upd]
    | with_reducible apply keeps_foldl
    | with_reducible apply keeps_foldl1
    | with_reducible apply keeps_foldl2
    | exact fun _ h => h
    | exact fun _ _ => rfl
    | with_reducible intro _ _ _ _
    | with_reducible intro _ _ _
    | simp only [fst_ite]
    | simp only [snd_ite]
    | split
    | dsimp only
    | refine keeps_of_fst (by with_reducible assumption) ?_
    | refine keeps_of_snd (by with_reducible assumption) ?_)

theorem execHbmRequest_runs (req : _) (s : State) :
    ∃ t, execHbmRequest req s = .next t ∧ Keeps s t := by
  unfold execHbmRequest
  refine ⟨_, rfl, ?_⟩
  have kz := Keeps.refl s
  repeat' (first
    | with_reducible assumption
    | with_reducible apply keeps_whenLive
    | with_reducible apply keeps_hbmFault
    | with_reducible apply keeps_hbmSettle
    | with_reducible apply keeps_setHbmQ
    | with_reducible apply keeps_setI
    | with_reducible apply keeps_ite
    | simp only [keeps_upd]
    | with_reducible intro _ _ _ _
    | with_reducible intro _ _ _
    | split
    | dsimp only)

theorem execHbmReadData_runs (pch : _) (id : _) (s : State) :
    ∃ t, execHbmReadData pch id s = .next t ∧ Keeps s t := by
  unfold execHbmReadData
  refine ⟨_, rfl, ?_⟩
  have kz := Keeps.refl s
  repeat' (first
    | with_reducible assumption
    | with_reducible apply keeps_whenLive
    | with_reducible apply keeps_guardOn
    | with_reducible apply keeps_whenLive
    | with_reducible apply keeps_guardOn
    | with_reducible apply keeps_hbmSettle
    | with_reducible apply keeps_serveEnt
    | with_reducible apply keeps_ite
    | simp only [keeps_upd]
    | with_reducible apply keeps_foldl
    | with_reducible apply keeps_foldl1
    | with_reducible apply keeps_foldl2
    | exact fun _ h => h
    | exact fun _ _ => rfl
    | with_reducible intro _ _ _ _
    | with_reducible intro _ _ _
    | simp only [fst_ite]
    | simp only [snd_ite]
    | split
    | dsimp only
    | refine keeps_of_fst (by with_reducible assumption) ?_
    | refine keeps_of_snd (by with_reducible assumption) ?_)

theorem execRefresh_runs (pch : _) (s : State) :
    ∃ t, execRefresh pch s = .next t ∧ Keeps s t := by
  unfold execRefresh
  refine ⟨_, rfl, ?_⟩
  have kz := Keeps.refl s
  repeat' (first
    | with_reducible assumption
    | with_reducible apply keeps_whenLive
    | with_reducible apply keeps_guardOn
    | with_reducible apply keeps_addI
    | with_reducible apply keeps_setI
    | with_reducible apply keeps_ite
    | simp only [keeps_upd]
    | with_reducible intro _ _ _ _
    | with_reducible intro _ _ _
    | split
    | dsimp only)

theorem execStackTemperatureRead_runs (deg : _) (s : State) :
    ∃ t, execStackTemperatureRead deg s = .next t ∧ Keeps s t := by
  unfold execStackTemperatureRead
  refine ⟨_, rfl, ?_⟩
  have kz := Keeps.refl s
  repeat' (first
    | with_reducible assumption
    | with_reducible apply keeps_whenLive
    | with_reducible apply keeps_guardOn
    | with_reducible apply keeps_setR
    | with_reducible apply keeps_compareTemps
    | with_reducible apply keeps_putTemp
    | with_reducible apply keeps_ite
    | simp only [keeps_upd]
    | with_reducible intro _ _ _ _
    | with_reducible intro _ _ _
    | split
    | dsimp only)

theorem execHbmPatrolRead_runs (pch : _) (s : State) :
    ∃ t, execHbmPatrolRead pch s = .next t ∧ Keeps s t := by
  unfold execHbmPatrolRead
  refine ⟨_, rfl, ?_⟩
  have kz := Keeps.refl s
  repeat' (first
    | with_reducible assumption
    | with_reducible apply keeps_whenLive
    | with_reducible apply keeps_guardOn
    | with_reducible apply keeps_whenLive
    | with_reducible apply keeps_guardOn
    | with_reducible apply keeps_patrolIssue
    | with_reducible apply keeps_addI
    | with_reducible apply keeps_ite
    | simp only [keeps_upd]
    | with_reducible apply keeps_foldl
    | with_reducible apply keeps_foldl1
    | with_reducible apply keeps_foldl2
    | exact fun _ h => h
    | exact fun _ _ => rfl
    | with_reducible intro _ _ _ _
    | with_reducible intro _ _ _
    | simp only [fst_ite]
    | simp only [snd_ite]
    | split
    | dsimp only
    | refine keeps_of_fst (by with_reducible assumption) ?_
    | refine keeps_of_snd (by with_reducible assumption) ?_)

theorem execPowerDownEntry_runs (ch : _) (s : State) :
    ∃ t, execPowerDownEntry ch s = .next t ∧ Keeps s t := by
  unfold execPowerDownEntry
  refine ⟨_, rfl, ?_⟩
  have kz := Keeps.refl s
  repeat' (first
    | with_reducible assumption
    | with_reducible apply keeps_whenLive
    | with_reducible apply keeps_guardOn
    | with_reducible apply keeps_addI
    | with_reducible apply keeps_setI
    | with_reducible apply keeps_flushWb
    | with_reducible apply keeps_ite
    | simp only [keeps_upd]
    | with_reducible intro _ _ _ _
    | with_reducible intro _ _ _
    | split
    | dsimp only)

theorem execRepairDone_runs (ch : _) (ok : _) (s : State) :
    ∃ t, execRepairDone ch ok s = .next t ∧ Keeps s t := by
  unfold execRepairDone
  refine ⟨_, rfl, ?_⟩
  have kz := Keeps.refl s
  repeat' (first
    | with_reducible assumption
    | with_reducible apply keeps_whenLive
    | with_reducible apply keeps_putBoth
    | with_reducible apply keeps_fwEvent
    | with_reducible apply keeps_writeRecord
    | with_reducible apply keeps_hbmSettle
    | with_reducible apply keeps_ite
    | simp only [keeps_upd]
    | with_reducible intro _ _ _ _
    | with_reducible intro _ _ _
    | split
    | dsimp only)

theorem execProbe_runs (port : _) (s : State) :
    ∃ t, execProbe port s = .next t ∧ Keeps s t := by
  unfold execProbe
  refine ⟨_, rfl, ?_⟩
  have kz := Keeps.refl s
  repeat' (first
    | with_reducible assumption
    | with_reducible apply keeps_whenLive
    | with_reducible apply keeps_guardOn
    | with_reducible apply keeps_sendProbe
    | with_reducible apply keeps_ite
    | simp only [keeps_upd]
    | with_reducible intro _ _ _ _
    | with_reducible intro _ _ _
    | split
    | dsimp only)

theorem execProbeReceived_runs (port : _) (t1 : _) (s : State) :
    ∃ t, execProbeReceived port t1 s = .next t ∧ Keeps s t := by
  unfold execProbeReceived
  refine ⟨_, rfl, ?_⟩
  have kz := Keeps.refl s
  repeat' (first
    | with_reducible assumption
    | with_reducible apply keeps_whenLive
    | with_reducible apply keeps_guardOn
    | with_reducible apply keeps_sendFlits
    | with_reducible apply keeps_ite
    | simp only [keeps_upd]
    | with_reducible intro _ _ _ _
    | with_reducible intro _ _ _
    | split
    | dsimp only)

theorem execEchoReceived_runs (port : _) (t1 : _) (t2 : _) (t3 : _) (s : State) :
    ∃ t, execEchoReceived port t1 t2 t3 s = .next t ∧ Keeps s t := by
  unfold execEchoReceived
  refine ⟨_, rfl, ?_⟩
  have kz := Keeps.refl s
  repeat' (first
    | with_reducible assumption
    | with_reducible apply keeps_whenLive
    | with_reducible apply keeps_guardOn
    | with_reducible apply keeps_portDown
    | with_reducible apply keeps_setI
    | with_reducible apply keeps_ite
    | simp only [keeps_upd]
    | with_reducible intro _ _ _ _
    | with_reducible intro _ _ _
    | split
    | dsimp only)

theorem execMarker_runs (s : State) :
    ∃ t, execMarker s = .next t ∧ Keeps s t := by
  unfold execMarker
  refine ⟨_, rfl, ?_⟩
  have kz := Keeps.refl s
  repeat' (first
    | with_reducible assumption
    | with_reducible apply keeps_whenLive
    | with_reducible apply keeps_guardOn
    | with_reducible apply keeps_sendFlits
    | with_reducible apply keeps_ite
    | simp only [keeps_upd]
    | with_reducible apply keeps_foldl
    | with_reducible intro _ _ _ _
    | with_reducible intro _ _ _
    | simp only [fst_ite]
    | simp only [snd_ite]
    | split
    | dsimp only)

theorem execMarkerAbsent_runs (s : State) :
    ∃ t, execMarkerAbsent s = .next t ∧ Keeps s t := by
  unfold execMarkerAbsent
  refine ⟨_, rfl, ?_⟩
  have kz := Keeps.refl s
  repeat' (first
    | with_reducible assumption
    | with_reducible apply keeps_whenLive
    | with_reducible apply keeps_guardOn
    | with_reducible apply keeps_portDown
    | with_reducible apply keeps_ite
    | simp only [keeps_upd]
    | with_reducible intro _ _ _ _
    | with_reducible intro _ _ _
    | split
    | dsimp only)

theorem execTimeInAbsent_runs (s : State) :
    ∃ t, execTimeInAbsent s = .next t ∧ Keeps s t := by
  unfold execTimeInAbsent
  refine ⟨_, rfl, ?_⟩
  have kz := Keeps.refl s
  repeat' (first
    | with_reducible refine keeps_fab _ (keeps_fresh _ (by assumption)) ?_
    | exact rfl
    | with_reducible assumption
    | with_reducible apply keeps_whenLive
    | with_reducible apply keeps_guardOn
    | with_reducible apply keeps_drift
    | with_reducible apply keeps_fresh
    | with_reducible apply keeps_ite
    | simp only [keeps_upd]
    | with_reducible intro _ _ _ _
    | with_reducible intro _ _ _
    | simp only [fst_ite]
    | simp only [snd_ite]
    | split
    | dsimp only
    | refine keeps_of_snd (by with_reducible assumption) ?_)

theorem execTimeOutStart_runs (s : State) :
    ∃ t, execTimeOutStart s = .next t ∧ Keeps s t := by
  unfold execTimeOutStart
  refine ⟨_, rfl, ?_⟩
  have kz := Keeps.refl s
  repeat' (first
    | with_reducible assumption
    | with_reducible apply keeps_whenLive
    | with_reducible apply keeps_guardOn
    | with_reducible apply keeps_ite
    | simp only [keeps_upd]
    | with_reducible intro _ _ _ _
    | with_reducible intro _ _ _
    | split
    | dsimp only)

theorem execTimeOutEnd_runs (s : State) :
    ∃ t, execTimeOutEnd s = .next t ∧ Keeps s t := by
  unfold execTimeOutEnd
  refine ⟨_, rfl, ?_⟩
  have kz := Keeps.refl s
  repeat' (first
    | with_reducible assumption
    | with_reducible apply keeps_whenLive
    | with_reducible apply keeps_guardOn
    | with_reducible apply keeps_ite
    | simp only [keeps_upd]
    | with_reducible intro _ _ _ _
    | with_reducible intro _ _ _
    | split
    | dsimp only)

theorem execFlitReceived_runs (port : _) (f : _) (s : State) :
    ∃ t, execFlitReceived port f s = .next t ∧ Keeps s t := by
  unfold execFlitReceived
  refine ⟨_, rfl, ?_⟩
  have kz := Keeps.refl s
  repeat' (first
    | with_reducible assumption
    | with_reducible apply keeps_whenLive
    | with_reducible apply keeps_guardOn
    | with_reducible apply keeps_modLink
    | with_reducible apply keeps_addI
    | with_reducible apply keeps_takeFlit
    | with_reducible apply keeps_reply
    | with_reducible apply keeps_ite
    | simp only [keeps_upd]
    | with_reducible intro _ _ _ _
    | with_reducible intro _ _ _
    | split
    | dsimp only)

theorem execNakReceived_runs (port : _) (seq : _) (s : State) :
    ∃ t, execNakReceived port seq s = .next t ∧ Keeps s t := by
  unfold execNakReceived
  refine ⟨_, rfl, ?_⟩
  have kz := Keeps.refl s
  repeat' (first
    | with_reducible assumption
    | with_reducible apply keeps_whenLive
    | with_reducible apply keeps_guardOn
    | with_reducible apply keeps_portDown
    | with_reducible apply keeps_emit
    | with_reducible apply keeps_addI
    | with_reducible apply keeps_modLink
    | with_reducible apply keeps_ite
    | simp only [keeps_upd]
    | with_reducible apply keeps_foldl
    | with_reducible intro _ _ _ _
    | with_reducible intro _ _ _
    | simp only [fst_ite]
    | simp only [snd_ite]
    | split
    | dsimp only)

theorem execLinkUp_runs (port : _) (peer : _) (peerPort : _) (laneErrs : _) (ok : _) (s : State) :
    ∃ t, execLinkUp port peer peerPort laneErrs ok s = .next t ∧ Keeps s t := by
  unfold execLinkUp
  refine ⟨_, rfl, ?_⟩
  have kz := Keeps.refl s
  repeat' (first
    | with_reducible assumption
    | with_reducible apply keeps_whenLive
    | with_reducible apply keeps_guardOn
    | with_reducible apply keeps_setI
    | with_reducible apply keeps_modLink
    | with_reducible apply keeps_sendProbe
    | with_reducible apply keeps_ite
    | simp only [keeps_upd]
    | with_reducible intro _ _ _ _
    | with_reducible intro _ _ _
    | split
    | dsimp only)

theorem execCreditReturn_runs (port : _) (lane : _) (n : _) (s : State) :
    ∃ t, execCreditReturn port lane n s = .next t ∧ Keeps s t := by
  unfold execCreditReturn
  refine ⟨_, rfl, ?_⟩
  have kz := Keeps.refl s
  repeat' (first
    | with_reducible assumption
    | with_reducible apply keeps_whenLive
    | with_reducible apply keeps_guardOn
    | with_reducible apply keeps_modLink
    | with_reducible apply keeps_modCore
    | with_reducible apply keeps_pump
    | with_reducible apply keeps_ite
    | simp only [keeps_upd]
    | with_reducible apply keeps_foldl
    | with_reducible apply keeps_foldl1
    | with_reducible intro _ _ _ _
    | exact fun _ h => h
    | with_reducible intro _ _ _
    | simp only [fst_ite]
    | simp only [snd_ite]
    | split
    | dsimp only)

theorem execTransferUnitStart_runs (item : _) (entry : _) (s : State) :
    ∃ t, execTransferUnitStart item entry s = .next t ∧ Keeps s t := by
  unfold execTransferUnitStart
  refine ⟨_, rfl, ?_⟩
  have kz := Keeps.refl s
  repeat' (first
    | with_reducible assumption
    | with_reducible apply keeps_whenLive
    | with_reducible apply keeps_guardOn
    | with_reducible apply keeps_granGet
    | with_reducible apply keeps_afterGran
    | with_reducible apply keeps_relayDrain
    | with_reducible apply keeps_modLink
    | with_reducible apply keeps_sendFlits
    | with_reducible apply keeps_ite
    | simp only [keeps_upd]
    | with_reducible intro _ _ _ _
    | with_reducible intro _ _ _
    | simp only [fst_ite]
    | simp only [snd_ite]
    | split
    | dsimp only
    | refine keeps_of_fst (by with_reducible assumption) ?_)

theorem execUnitLanded_runs (item : _) (entry : _) (s : State) :
    ∃ t, execUnitLanded item entry s = .next t ∧ Keeps s t := by
  unfold execUnitLanded
  refine ⟨_, rfl, ?_⟩
  have kz := Keeps.refl s
  repeat' (first
    | with_reducible assumption
    | with_reducible apply keeps_whenLive
    | with_reducible apply keeps_guardOn
    | with_reducible apply keeps_putUnit
    | with_reducible apply keeps_landBytes
    | with_reducible apply keeps_signalUnit
    | with_reducible apply keeps_ite
    | simp only [keeps_upd]
    | with_reducible intro _ _ _ _
    | with_reducible intro _ _ _
    | split
    | dsimp only)

theorem execDueTick_runs (item : _) (entry : _) (s : State) :
    ∃ t, execDueTick item entry s = .next t ∧ Keeps s t := by
  unfold execDueTick
  refine ⟨_, rfl, ?_⟩
  have kz := Keeps.refl s
  repeat' (first
    | with_reducible assumption
    | with_reducible apply keeps_whenLive
    | with_reducible apply keeps_guardOn
    | with_reducible apply keeps_signalUnit
    | with_reducible apply keeps_ite
    | simp only [keeps_upd]
    | with_reducible intro _ _ _ _
    | with_reducible intro _ _ _
    | split
    | dsimp only)

theorem execSlackExpiry_runs (item : _) (entry : _) (s : State) :
    ∃ t, execSlackExpiry item entry s = .next t ∧ Keeps s t := by
  unfold execSlackExpiry
  refine ⟨_, rfl, ?_⟩
  have kz := Keeps.refl s
  repeat' (first
    | with_reducible assumption
    | with_reducible apply keeps_whenLive
    | with_reducible apply keeps_guardOn
    | with_reducible apply keeps_endItem
    | with_reducible apply keeps_linkFault
    | with_reducible apply keeps_fresh
    | with_reducible apply keeps_ite
    | simp only [keeps_upd]
    | with_reducible intro _ _ _ _
    | with_reducible intro _ _ _
    | simp only [fst_ite]
    | simp only [snd_ite]
    | split
    | dsimp only
    | refine keeps_of_snd (by with_reducible assumption) ?_)

theorem execRelayUnitLanded_runs (u : _) (s : State) :
    ∃ t, execRelayUnitLanded u s = .next t ∧ Keeps s t := by
  unfold execRelayUnitLanded
  refine ⟨_, rfl, ?_⟩
  have kz := Keeps.refl s
  repeat' (first
    | with_reducible assumption
    | with_reducible apply keeps_whenLive
    | with_reducible apply keeps_guardOn
    | with_reducible apply keeps_addR
    | with_reducible apply keeps_landBytes
    | with_reducible apply keeps_putUnit
    | with_reducible apply keeps_signalUnit
    | with_reducible apply keeps_ite
    | simp only [keeps_upd]
    | with_reducible intro _ _ _ _
    | with_reducible intro _ _ _
    | split
    | dsimp only)

theorem execFaultReport_runs (f : _) (s : State) :
    ∃ t, execFaultReport f s = .next t ∧ Keeps s t := by
  unfold execFaultReport
  refine ⟨_, rfl, ?_⟩
  have kz := Keeps.refl s
  repeat' (first
    | with_reducible assumption
    | with_reducible apply keeps_whenLive
    | with_reducible apply keeps_coreFault
    | with_reducible apply keeps_addI
    | with_reducible apply keeps_memoryFault
    | with_reducible apply keeps_darkFault
    | with_reducible apply keeps_portDown
    | with_reducible apply keeps_pairFault
    | with_reducible apply keeps_trackFault
    | with_reducible apply keeps_compareTemps
    | with_reducible apply keeps_decoderFault
    | with_reducible apply keeps_enterSafe
    | with_reducible apply keeps_ite
    | simp only [keeps_upd]
    | with_reducible intro _ _ _ _
    | with_reducible intro _ _ _
    | split
    | dsimp only)

theorem execSpareResetCheckDone_runs (clu : _) (ok : _) (s : State) :
    ∃ t, execSpareResetCheckDone clu ok s = .next t ∧ Keeps s t := by
  unfold execSpareResetCheckDone
  refine ⟨_, rfl, ?_⟩
  have kz := Keeps.refl s
  repeat' (first
    | with_reducible assumption
    | with_reducible apply keeps_whenLive
    | with_reducible apply keeps_guardOn
    | with_reducible apply keeps_whenLive
    | with_reducible apply keeps_clu
    | with_reducible apply keeps_setI
    | with_reducible apply keeps_modCore
    | with_reducible apply keeps_setSpare
    | with_reducible apply keeps_setPlace
    | with_reducible apply keeps_supersedeMap
    | with_reducible apply keeps_addR
    | with_reducible apply keeps_clearTag
    | with_reducible apply keeps_nextReport
    | with_reducible apply keeps_relaunchAll
    | with_reducible apply keeps_noSpare
    | with_reducible apply keeps_retireCore
    | with_reducible apply keeps_ite
    | simp only [keeps_upd]
    | with_reducible apply keeps_foldl
    | with_reducible apply keeps_foldl1
    | with_reducible apply keeps_foldl2
    | exact fun _ h => h
    | exact fun _ _ => rfl
    | with_reducible intro _ _ _ _
    | with_reducible intro _ _ _
    | simp only [fst_ite]
    | simp only [snd_ite]
    | split
    | dsimp only
    | refine keeps_of_fst (by with_reducible assumption) ?_
    | refine keeps_of_snd (by with_reducible assumption) ?_)

theorem execPeriodBreach_runs (pipe : _) (s : State) :
    ∃ t, execPeriodBreach pipe s = .next t ∧ Keeps s t := by
  unfold execPeriodBreach
  refine ⟨_, rfl, ?_⟩
  have kz := Keeps.refl s
  repeat' (first
    | with_reducible assumption
    | with_reducible apply keeps_whenLive
    | with_reducible apply keeps_guardOn
    | with_reducible apply keeps_breach
    | with_reducible apply keeps_ite
    | simp only [keeps_upd]
    | with_reducible intro _ _ _ _
    | with_reducible intro _ _ _
    | split
    | dsimp only)

theorem execDivergence_runs (pair : _) (s : State) :
    ∃ t, execDivergence pair s = .next t ∧ Keeps s t := by
  unfold execDivergence
  refine ⟨_, rfl, ?_⟩
  have kz := Keeps.refl s
  repeat' (first
    | with_reducible assumption
    | with_reducible apply keeps_whenLive
    | with_reducible apply keeps_pairFault
    | with_reducible apply keeps_ite
    | simp only [keeps_upd]
    | with_reducible intro _ _ _ _
    | with_reducible intro _ _ _
    | split
    | dsimp only)

theorem execWatchdogExpiry_runs (pair : _) (s : State) :
    ∃ t, execWatchdogExpiry pair s = .next t ∧ Keeps s t := by
  unfold execWatchdogExpiry
  refine ⟨_, rfl, ?_⟩
  have kz := Keeps.refl s
  repeat' (first
    | with_reducible assumption
    | with_reducible apply keeps_whenLive
    | with_reducible apply keeps_pairFault
    | with_reducible apply keeps_ite
    | simp only [keeps_upd]
    | with_reducible intro _ _ _ _
    | with_reducible intro _ _ _
    | split
    | dsimp only)

theorem execPairRestartDone_runs (pair : _) (s : State) :
    ∃ t, execPairRestartDone pair s = .next t ∧ Keeps s t := by
  unfold execPairRestartDone
  refine ⟨_, rfl, ?_⟩
  have kz := Keeps.refl s
  repeat' (first
    | with_reducible assumption
    | with_reducible apply keeps_whenLive
    | with_reducible apply keeps_guardOn
    | with_reducible apply keeps_setR
    | with_reducible apply keeps_flashReplay
    | with_reducible apply keeps_ite
    | simp only [keeps_upd]
    | with_reducible intro _ _ _ _
    | with_reducible intro _ _ _
    | split
    | dsimp only)

theorem execBothPairsResetTimeout_runs (s : State) :
    ∃ t, execBothPairsResetTimeout s = .next t ∧ Keeps s t := by
  unfold execBothPairsResetTimeout
  refine ⟨_, rfl, ?_⟩
  have kz := Keeps.refl s
  repeat' (first
    | with_reducible assumption
    | with_reducible apply keeps_whenLive
    | with_reducible apply keeps_enterSafe
    | with_reducible apply keeps_ite
    | simp only [keeps_upd]
    | with_reducible intro _ _ _ _
    | with_reducible intro _ _ _
    | split
    | dsimp only)

theorem execFaultJournalWrite_runs (s : State) :
    ∃ t, execFaultJournalWrite s = .next t ∧ Keeps s t := by
  unfold execFaultJournalWrite
  refine ⟨_, rfl, ?_⟩
  have kz := Keeps.refl s
  repeat' (first
    | with_reducible assumption
    | with_reducible apply keeps_whenLive
    | with_reducible apply keeps_guardOn
    | with_reducible apply keeps_logWrite
    | with_reducible apply keeps_setR
    | with_reducible apply keeps_ite
    | simp only [keeps_upd]
    | with_reducible intro _ _ _ _
    | with_reducible intro _ _ _
    | split
    | dsimp only)

theorem execDumWrite_runs (kind : _) (unit : _) (sub : _) (value : _) (s : State) :
    ∃ t, execDumWrite kind unit sub value s = .next t ∧ Keeps s t := by
  unfold execDumWrite
  refine ⟨_, rfl, ?_⟩
  have kz := Keeps.refl s
  repeat' (first
    | with_reducible assumption
    | with_reducible apply keeps_whenLive
    | with_reducible apply keeps_guardOn
    | with_reducible apply keeps_applyDum
    | with_reducible apply keeps_writeRecord
    | with_reducible apply keeps_setR
    | with_reducible apply keeps_ite
    | simp only [keeps_upd]
    | with_reducible intro _ _ _ _
    | with_reducible intro _ _ _
    | split
    | dsimp only)

theorem execWinnowSegmentStart_runs (g : _) (s : State) :
    ∃ t, execWinnowSegmentStart g s = .next t ∧ Keeps s t := by
  unfold execWinnowSegmentStart
  refine ⟨_, rfl, ?_⟩
  have kz := Keeps.refl s
  repeat' (first
    | with_reducible assumption
    | with_reducible apply keeps_whenLive
    | with_reducible apply keeps_guardOn
    | with_reducible apply keeps_addR
    | with_reducible apply keeps_ite
    | simp only [keeps_upd]
    | with_reducible intro _ _ _ _
    | with_reducible intro _ _ _
    | split
    | dsimp only)

theorem execWinnowSegmentEnd_runs (unitKind : _) (unit : _) (pass_ : _) (s : State) :
    ∃ t, execWinnowSegmentEnd unitKind unit pass_ s = .next t ∧ Keeps s t := by
  unfold execWinnowSegmentEnd
  refine ⟨_, rfl, ?_⟩
  have kz := Keeps.refl s
  repeat' (first
    | with_reducible assumption
    | with_reducible apply keeps_whenLive
    | with_reducible apply keeps_dropRun
    | with_reducible apply keeps_testPassed
    | with_reducible apply keeps_addR
    | with_reducible apply keeps_proveService
    | with_reducible apply keeps_finding
    | with_reducible apply keeps_ite
    | simp only [keeps_upd]
    | with_reducible intro _ _ _ _
    | with_reducible intro _ _ _
    | split
    | dsimp only)

theorem execTestOverrun_runs (unitKind : _) (unit : _) (s : State) :
    ∃ t, execTestOverrun unitKind unit s = .next t ∧ Keeps s t := by
  unfold execTestOverrun
  refine ⟨_, rfl, ?_⟩
  have kz := Keeps.refl s
  repeat' (first
    | with_reducible assumption
    | with_reducible apply keeps_whenLive
    | with_reducible apply keeps_guardOn
    | with_reducible apply keeps_dropRun
    | with_reducible apply keeps_safUnit
    | with_reducible apply keeps_addR
    | with_reducible apply keeps_safNow
    | with_reducible apply keeps_finding
    | with_reducible apply keeps_ite
    | simp only [keeps_upd]
    | with_reducible intro _ _ _ _
    | with_reducible intro _ _ _
    | simp only [fst_ite]
    | simp only [snd_ite]
    | split
    | dsimp only
    | refine keeps_of_fst (by with_reducible assumption) ?_)

theorem execGoldenWindowCutoff_runs (item : _) (s : State) :
    ∃ t, execGoldenWindowCutoff item s = .next t ∧ Keeps s t := by
  unfold execGoldenWindowCutoff
  refine ⟨_, rfl, ?_⟩
  have kz := Keeps.refl s
  repeat' (first
    | with_reducible assumption
    | with_reducible apply keeps_whenLive
    | with_reducible apply keeps_guardOn
    | with_reducible apply keeps_fresh
    | with_reducible apply keeps_endItem
    | with_reducible apply keeps_safNow
    | with_reducible apply keeps_addR
    | with_reducible apply keeps_ite
    | simp only [keeps_upd]
    | with_reducible intro _ _ _ _
    | with_reducible intro _ _ _
    | simp only [fst_ite]
    | simp only [snd_ite]
    | split
    | dsimp only
    | refine keeps_of_snd (by with_reducible assumption) ?_)

theorem execHandoverStart_runs (clu : _) (core : _) (s : State) :
    ∃ t, execHandoverStart clu core s = .next t ∧ Keeps s t := by
  unfold execHandoverStart
  refine ⟨_, rfl, ?_⟩
  have kz := Keeps.refl s
  repeat' (first
    | with_reducible assumption
    | with_reducible apply keeps_whenLive
    | with_reducible apply keeps_guardOn
    | with_reducible apply keeps_putF
    | with_reducible apply keeps_testPassed
    | with_reducible apply keeps_ite
    | simp only [keeps_upd]
    | with_reducible intro _ _ _ _
    | with_reducible intro _ _ _
    | split
    | dsimp only)

theorem execHandoverSubstitution_runs (clu : _) (s : State) :
    ∃ t, execHandoverSubstitution clu s = .next t ∧ Keeps s t := by
  unfold execHandoverSubstitution
  refine ⟨_, rfl, ?_⟩
  have kz := Keeps.refl s
  repeat' (first
    | with_reducible refine keeps_handedOver _ _ (by with_reducible assumption) ?_
    | with_reducible assumption
    | with_reducible apply keeps_whenLive
    | with_reducible apply keeps_guardOn
    | with_reducible apply keeps_whenLive
    | with_reducible apply keeps_guardOn
    | with_reducible apply keeps_addR
    | with_reducible apply keeps_setPlace
    | with_reducible apply keeps_setI
    | with_reducible apply keeps_modCore
    | with_reducible apply keeps_setTag
    | with_reducible apply keeps_clearTag
    | with_reducible apply keeps_safNow
    | with_reducible apply keeps_setSpare
    | with_reducible apply keeps_retireCore
    | with_reducible apply keeps_ite
    | simp only [keeps_upd]
    | with_reducible apply keeps_foldl
    | with_reducible apply keeps_foldl1
    | with_reducible apply keeps_foldl2
    | exact fun _ h => h
    | exact fun _ _ => rfl
    | with_reducible intro _ _ _ _
    | with_reducible intro _ _ _
    | simp only [fst_ite]
    | simp only [snd_ite]
    | split
    | dsimp only
    | refine keeps_of_fst (by with_reducible assumption) ?_
    | refine keeps_of_snd (by with_reducible assumption) ?_)

theorem execCoreTestDone_runs (core : _) (pass_ : _) (age : _) (s : State) :
    ∃ t, execCoreTestDone core pass_ age s = .next t ∧ Keeps s t := by
  unfold execCoreTestDone
  refine ⟨_, rfl, ?_⟩
  have kz := Keeps.refl s
  repeat' (first
    | exact fun _ _ => rfl
    | with_reducible assumption
    | with_reducible apply keeps_whenLive
    | with_reducible apply keeps_guardOn
    | with_reducible apply keeps_setI
    | with_reducible apply keeps_modCore
    | with_reducible apply keeps_setSpare
    | with_reducible apply keeps_checkCluster
    | with_reducible apply keeps_safNow
    | with_reducible apply keeps_retireCore
    | with_reducible apply keeps_ite
    | simp only [keeps_upd]
    | with_reducible intro _ _ _ _
    | exact fun _ h => h
    | with_reducible intro _ _ _
    | split
    | dsimp only)

theorem execLatentOverdue_runs (seg : _) (unitKind : _) (unit : _) (s : State) :
    ∃ t, execLatentOverdue seg unitKind unit s = .next t ∧ Keeps s t := by
  unfold execLatentOverdue
  refine ⟨_, rfl, ?_⟩
  have kz := Keeps.refl s
  repeat' (first
    | with_reducible assumption
    | with_reducible apply keeps_whenLive
    | with_reducible apply keeps_guardOn
    | with_reducible apply keeps_fresh
    | with_reducible apply keeps_safUnit
    | with_reducible apply keeps_safNow
    | with_reducible apply keeps_addR
    | with_reducible apply keeps_latchFault
    | with_reducible apply keeps_ite
    | simp only [keeps_upd]
    | with_reducible intro _ _ _ _
    | with_reducible intro _ _ _
    | simp only [fst_ite]
    | simp only [snd_ite]
    | split
    | dsimp only
    | refine keeps_of_fst (by with_reducible assumption) ?_
    | refine keeps_of_snd (by with_reducible assumption) ?_)

theorem execFlashPatrol_runs (block : _) (page : _) (bits : _) (s : State) :
    ∃ t, execFlashPatrol block page bits s = .next t ∧ Keeps s t := by
  unfold execFlashPatrol
  refine ⟨_, rfl, ?_⟩
  have kz := Keeps.refl s
  repeat' (first
    | with_reducible assumption
    | with_reducible apply keeps_whenLive
    | with_reducible apply keeps_guardOn
    | with_reducible apply keeps_addR
    | with_reducible apply keeps_growBad
    | with_reducible apply keeps_loseCopies
    | with_reducible apply keeps_refreshBlock
    | with_reducible apply keeps_ite
    | simp only [keeps_upd]
    | with_reducible intro _ _ _ _
    | with_reducible intro _ _ _
    | split
    | dsimp only)

theorem execWearLevelMove_runs (part : _) (s : State) :
    ∃ t, execWearLevelMove part s = .next t ∧ Keeps s t := by
  unfold execWearLevelMove
  refine ⟨_, rfl, ?_⟩
  have kz := Keeps.refl s
  repeat' (first
    | with_reducible assumption
    | with_reducible apply keeps_whenLive
    | with_reducible apply keeps_guardOn
    | with_reducible apply keeps_moveRecs
    | with_reducible apply keeps_queueOps
    | with_reducible apply keeps_ite
    | simp only [keeps_upd]
    | with_reducible intro _ _ _ _
    | with_reducible intro _ _ _
    | split
    | dsimp only)

theorem execThermalConversion_runs (degs : _) (s : State) :
    ∃ t, execThermalConversion degs s = .next t ∧ Keeps s t := by
  unfold execThermalConversion
  refine ⟨_, rfl, ?_⟩
  have kz := Keeps.refl s
  repeat' (first
    | with_reducible assumption
    | with_reducible apply keeps_putTemp
    | with_reducible apply keeps_compareTemps
    | with_reducible apply keeps_holdLevels
    | with_reducible apply keeps_ite
    | simp only [keeps_upd]
    | with_reducible apply keeps_foldl
    | with_reducible apply keeps_foldl1
    | with_reducible intro _ _ _ _
    | with_reducible intro _ _ _
    | simp only [fst_ite]
    | simp only [snd_ite]
    | split
    | dsimp only)

theorem execUnlistedCommand_runs (r : _) (code : _) (s : State) :
    ∃ t, execUnlistedCommand r code s = .next t ∧ Keeps s t := by
  unfold execUnlistedCommand
  refine ⟨_, rfl, ?_⟩
  have kz := Keeps.refl s
  repeat' (first
    | exact (by assumption : Keeps _ _)
    | with_reducible assumption
    | with_reducible apply keeps_whenLive
    | with_reducible apply keeps_mailbox
    | with_reducible apply keeps_ite
    | simp only [keeps_upd]
    | with_reducible intro _ _ _ _
    | with_reducible intro _ _ _
    | split
    | dsimp only)

theorem execFlashOperationDone_runs (ok : _) (s : State) :
    ∃ t, execFlashOperationDone ok s = .next t ∧ Keeps s t := by
  unfold execFlashOperationDone
  refine ⟨_, rfl, ?_⟩
  have kz := Keeps.refl s
  repeat' (first
    | with_reducible assumption
    | with_reducible apply keeps_whenLive
    | with_reducible apply keeps_fwStep
    | with_reducible apply keeps_flashDone
    | with_reducible apply keeps_ite
    | simp only [keeps_upd]
    | with_reducible intro _ _ _ _
    | with_reducible intro _ _ _
    | split
    | dsimp only)

theorem execPcieLinkUp_runs (speed : _) (width : _) (s : State) :
    ∃ t, execPcieLinkUp speed width s = .next t ∧ Keeps s t := by
  unfold execPcieLinkUp
  refine ⟨_, rfl, ?_⟩
  have kz := Keeps.refl s
  repeat' (first
    | with_reducible assumption
    | with_reducible apply keeps_whenLive
    | with_reducible apply keeps_guardOn
    | with_reducible apply keeps_setR
    | with_reducible apply keeps_ite
    | simp only [keeps_upd]
    | with_reducible intro _ _ _ _
    | with_reducible intro _ _ _
    | split
    | dsimp only)

theorem execBusMasterEnableSet_runs (s : State) :
    ∃ t, execBusMasterEnableSet s = .next t ∧ Keeps s t := by
  unfold execBusMasterEnableSet
  refine ⟨_, rfl, ?_⟩
  have kz := Keeps.refl s
  repeat' (first
    | with_reducible assumption
    | with_reducible apply keeps_whenLive
    | with_reducible apply keeps_guardOn
    | with_reducible apply keeps_resumeIssue
    | with_reducible apply keeps_ite
    | simp only [keeps_upd]
    | with_reducible intro _ _ _ _
    | with_reducible intro _ _ _
    | split
    | dsimp only)

theorem execPmeStatusClear_runs (s : State) :
    ∃ t, execPmeStatusClear s = .next t ∧ Keeps s t := by
  unfold execPmeStatusClear
  refine ⟨_, rfl, ?_⟩
  have kz := Keeps.refl s
  repeat' (first
    | with_reducible assumption
    | with_reducible apply keeps_whenLive
    | with_reducible apply keeps_setR
    | with_reducible apply keeps_ite
    | simp only [keeps_upd]
    | with_reducible intro _ _ _ _
    | with_reducible intro _ _ _
    | split
    | dsimp only)

theorem execSpareBankCopyStart_runs (clu : _) (bank : _) (s : State) :
    ∃ t, execSpareBankCopyStart clu bank s = .next t ∧ Keeps s t := by
  unfold execSpareBankCopyStart
  refine ⟨_, rfl, ?_⟩
  have kz := Keeps.refl s
  repeat' (first
    | with_reducible assumption
    | with_reducible apply keeps_whenLive
    | with_reducible apply keeps_guardOn
    | with_reducible apply keeps_setI
    | with_reducible apply keeps_modClu
    | with_reducible apply keeps_ite
    | simp only [keeps_upd]
    | with_reducible intro _ _ _ _
    | exact fun _ h => h
    | with_reducible intro _ _ _
    | split
    | dsimp only)

theorem execDeferredDomainSwitchOn_runs (s : State) :
    ∃ t, execDeferredDomainSwitchOn s = .next t ∧ Keeps s t := by
  unfold execDeferredDomainSwitchOn
  refine ⟨_, rfl, ?_⟩
  have kz := Keeps.refl s
  repeat' (first
    | with_reducible assumption
    | with_reducible apply keeps_whenLive
    | with_reducible apply keeps_guardOn
    | with_reducible apply keeps_closeSwitch
    | with_reducible apply keeps_ite
    | simp only [keeps_upd]
    | with_reducible intro _ _ _ _
    | with_reducible intro _ _ _
    | split
    | dsimp only)

theorem execSelfRefreshExitDone_runs (s : State) :
    ∃ t, execSelfRefreshExitDone s = .next t ∧ Keeps s t := by
  unfold execSelfRefreshExitDone
  refine ⟨_, rfl, ?_⟩
  have kz := Keeps.refl s
  repeat' (first
    | with_reducible assumption
    | with_reducible apply keeps_whenLive
    | with_reducible apply keeps_guardOn
    | with_reducible apply keeps_setI
    | with_reducible apply keeps_setR
    | with_reducible apply keeps_hbmSettle
    | with_reducible apply keeps_admitWaiting
    | with_reducible apply keeps_ite
    | simp only [keeps_upd]
    | with_reducible apply keeps_foldl
    | with_reducible intro _ _ _ _
    | with_reducible intro _ _ _
    | simp only [fst_ite]
    | simp only [snd_ite]
    | split
    | dsimp only)

theorem execEntropyHealthTest_runs (pass_ : _) (s : State) :
    ∃ t, execEntropyHealthTest pass_ s = .next t ∧ Keeps s t := by
  unfold execEntropyHealthTest
  refine ⟨_, rfl, ?_⟩
  have kz := Keeps.refl s
  repeat' (first
    | with_reducible assumption
    | with_reducible apply keeps_whenLive
    | with_reducible apply keeps_ite
    | simp only [keeps_upd]
    | with_reducible intro _ _ _ _
    | with_reducible intro _ _ _
    | split
    | dsimp only)

end Sys2Proof.Machine
end

