-- ==== Sys2Proof/Laws/Canon.lean ====
section
/-!
SUPPORT. Sys2Proof/Laws/Canon.lean: the resets, a phase marker, a SYSREF edge and a tick keep the memories canonical too, and what
each leaves of the base part.
-/

namespace Sys2Proof.Machine

theorem reset_canon : State.reset.Canon := by
  refine ⟨by decide, by decide, by decide, fun k => ?_, fun k => ?_, fun k => ?_, ?_⟩ <;> rfl

theorem Keeps.canon {s t : State} (h : Keeps s t) (c : s.Canon) : t.Canon := h.2 c

/-- What a fundamental reset keeps is canonical where it was. -/
theorem fundamental_canon (s : State) (aon : Bool) (p : PowerS) (h : s.Canon) : (fundamental s aon p).Canon := by
  unfold fundamental
  refine (keeps_gradeLevels _ (Keeps.refl _)).canon ⟨?_, rfl, rfl, fun k => rfl, fun k => rfl, fun k => rfl, rfl⟩
  cases aon
  · rfl
  · exact twf_tfilter 0 (fun k => aonFields.any (fun f => decide (f.id = keyId k))) _ h.1

theorem fundamental_base (s : State) (aon : Bool) (p : PowerS) :
    (fundamental s aon p).base =
      ⟨s.pending, 0, false, s.gradeSC, s.serial, p.vddAon, p.perst, p.clkHold, p.testEn, p.smbAddr, none⟩ := by
  unfold fundamental
  exact (keeps_gradeLevels _ (Keeps.refl _)).1

/-! ## Power, PERST_N and clock loss -/

theorem execVddAonPowerOn_runs (sc : Bool) (serial : Nat) (testEn : Bool) (smbAddr : Nat) (s : State) :
    ∃ t, execVddAonPowerOn sc serial testEn smbAddr s = .next t ∧ (s.Canon → t.Canon) ∧
      t.base = if s.power.vddAon then s.base
        else ⟨s.pending, s.tally, s.tallyRun, sc, serial % 2 ^ 64, true, true, false, testEn, smbAddr % 4, s.fab.step⟩ := by
  unfold execVddAonPowerOn guardOn
  refine ⟨_, rfl, ?_⟩
  cases s.power.vddAon
  · have k := keeps_gradeLevels { s with
      gradeSC := sc, serial := serial % 2 ^ 64, power := { testEn := testEn, smbAddr := smbAddr % 4 } } (Keeps.refl _)
    exact ⟨fun c => k.canon c, k.1⟩
  · exact ⟨id, rfl⟩

theorem execVddAonPowerLoss_runs (s : State) :
    ∃ t, execVddAonPowerLoss s = .next t ∧ (s.Canon → t.Canon) ∧
      t.base = if s.power.vddAon then ⟨s.pending, 0, false, s.gradeSC, s.serial, false, true, false, false, 0, none⟩
        else s.base := by
  unfold execVddAonPowerLoss guardOn
  refine ⟨_, rfl, ?_⟩
  cases s.power.vddAon
  · exact ⟨id, rfl⟩
  · exact ⟨fun c => ⟨rfl, rfl, (fundamental_canon s false _ c).2.2⟩, fundamental_base s false _⟩

theorem execPerstNAssert_runs (s : State) :
    ∃ t, execPerstNAssert s = .next t ∧ (s.Canon → t.Canon) ∧
      t.base = if s.power.vddAon && !s.power.perst then
        ⟨s.pending, 0, false, s.gradeSC, s.serial, true, true, s.power.clkHold, s.power.testEn, s.power.smbAddr, none⟩
        else s.base := by
  unfold execPerstNAssert guardOn
  refine ⟨_, rfl, ?_⟩
  cases s.power.vddAon && !s.power.perst
  · exact ⟨id, rfl⟩
  · have k : ∀ t, Keeps t (if s.power.clkHold then t else setR t F.PWR_RESET_CAUSE 1) := by
      intro t
      split
      · exact Keeps.refl t
      · exact keeps_setR _ _ _ (Keeps.refl t)
    exact ⟨fun c => (k _).canon (fundamental_canon s true _ c), (k _).1.trans (fundamental_base s true _)⟩

theorem execPerstNRelease_runs (boot : BootIn) (s : State) :
    ∃ t, execPerstNRelease boot s = .next t ∧ (s.Canon → t.Canon) ∧
      t.base = if s.power.vddAon && s.power.perst then
        ⟨s.pending, 0, true, s.gradeSC, s.serial, s.power.vddAon, false, false, s.power.testEn, s.power.smbAddr, s.fab.step⟩
        else s.base := by
  unfold execPerstNRelease guardOn
  refine ⟨_, rfl, ?_⟩
  cases s.power.vddAon && s.power.perst
  · exact ⟨id, rfl⟩
  · have h : ∀ z x : State, Keeps z (setR (setR (setR x F.CLK_PLL 63) F.PCIE_LINK_STATE 1) F.MGMT_BOOT_COUNT z.mgmt.bootCount) →
        Keeps z (match bootSlotOf (setR (setR (setR x F.CLK_PLL 63) F.PCIE_LINK_STATE 1) F.MGMT_BOOT_COUNT z.mgmt.bootCount) with
          | some (slot, i, fb) =>
            bootDevice (setR (setR (setR x F.CLK_PLL 63) F.PCIE_LINK_STATE 1) F.MGMT_BOOT_COUNT z.mgmt.bootCount) boot slot i fb
          | none => setR (setR (setR (setR (setR (setR x F.CLK_PLL 63) F.PCIE_LINK_STATE 1) F.MGMT_BOOT_COUNT z.mgmt.bootCount)
              F.MGMT_STATE_PAIR_A 3) F.MGMT_STATE_PAIR_B 3) F.SYS_STATUS_HALTED 1) := by
      intro z x k
      split
      · exact keeps_bootDevice _ _ _ _ _ k
      · exact keeps_setR _ _ _ (keeps_setR _ _ _ (keeps_setR _ _ _ k))
    have k := h { s with
      tally := 0
      tallyRun := true
      power := { s.power with perst := false, clkHold := false, xspiCsHigh := false }
      mgmt := { s.mgmt with bootCount := s.mgmt.bootCount + 1 } } _
      (keeps_setR _ _ _ (keeps_setR _ _ _ (keeps_setR _ _ _ (Keeps.refl _))))
    exact ⟨fun c => k.canon c, k.1⟩

theorem execClockLossReset_runs (cause : Nat) (s : State) :
    ∃ t, execClockLossReset cause s = .next t ∧ (s.Canon → t.Canon) ∧
      t.base = if s.live && decide (cause < 5) then
        ⟨s.pending, 0, false, s.gradeSC, s.serial, true, false, true, s.power.testEn, s.power.smbAddr, none⟩
        else s.base := by
  unfold execClockLossReset whenLive
  refine ⟨_, rfl, ?_⟩
  cases s.live
  · exact ⟨id, rfl⟩
  · have kr : ∀ (z t : State) f v, Keeps z t → Keeps z (setR t f v) := fun z t f v h => keeps_setR t f v h
    by_cases h : cause < 5
    · have k := fun t => kr _ _ F.PWR_RESET_CAUSE 2 (kr _ _ F.CLK_LOSS (2 ^ cause) (Keeps.refl t))
      simp only [if_true, if_pos h, decide_eq_true h, Bool.and_self]
      exact ⟨fun c => (k _).canon (fundamental_canon s true _ c), (k _).1.trans (fundamental_base s true _)⟩
    · simp only [if_true, if_neg h, decide_eq_false h, Bool.and_false, Bool.false_eq_true, if_false]
      have k : Keeps s (if cause = 5 then
            if 2 ≤ reg (setR (setR s F.CLK_LOSS 32) F.CLK_PLL (clrBit (reg s F.CLK_PLL) 3)) F.PCIE_LINK_STATE then
              linkDown (setR (setR s F.CLK_LOSS 32) F.CLK_PLL (clrBit (reg s F.CLK_PLL) 3))
            else setR (setR s F.CLK_LOSS 32) F.CLK_PLL (clrBit (reg s F.CLK_PLL) 3)
          else if cause = 6 then
            (upto 4).foldl (fun t p => if portUp t p then portDown t p false else t)
              (setR (setR s F.CLK_LOSS 64) F.CLK_PLL (clrBit (reg s F.CLK_PLL) 5))
          else s) := by
        have k5 := kr _ _ F.CLK_PLL (clrBit (reg s F.CLK_PLL) 3) (kr _ _ F.CLK_LOSS 32 (Keeps.refl s))
        refine keeps_ite _ (keeps_ite _ (keeps_linkDown _ k5) k5) (keeps_ite _ ?_ (Keeps.refl s))
        refine keeps_foldl _ _ _ (fun y t p k => keeps_ite _ (keeps_portDown _ _ _ k) k) ?_
        exact kr _ _ _ _ (kr _ _ _ _ (Keeps.refl s))
      exact ⟨k.2, k.1⟩

/-! ## The TAP -/

theorem execTapInstruction_runs (ir : TapIr) (dr : List Bool) (s : State) :
    (∃ t, execTapInstruction ir dr s = .next t ∧ Keeps s t) ∨
      (execTapInstruction ir dr s = .refused .debugInstruction ∧ Instr.stopsAt (.tapInstruction ir dr) s) := by
  have k := Keeps.refl s
  have ke : ∀ o, Keeps s (emit (shiftFree s dr.length).1 o) := fun o => keeps_emit _ _ (keeps_shiftFree _ _ k)
  unfold execTapInstruction
  cases hv : s.power.vddAon with
  | false => exact Or.inl ⟨s, rfl, k⟩
  | true =>
    cases ir with
    | bypass => exact Or.inl ⟨_, rfl, keeps_emit _ _ k⟩
    | idcode => exact Or.inl ⟨_, rfl, ke _⟩
    | samplePreload => exact Or.inl ⟨_, rfl, ke _⟩
    | extest => exact Or.inl ⟨_, rfl, keeps_ite _ (ke _) k⟩
    | debug n =>
      cases h : s.live && flag s F.SEC_STATE_JTAG_OPEN with
      | false => exact Or.inl ⟨s, by simp, k⟩
      | true =>
        rw [Bool.and_eq_true] at h
        exact Or.inr ⟨by simp, hv, h.1, h.2⟩

/-! ## The Tally -/

/-- What a marker or an edge leaves: all of the base part but a waiting step, which is a multiple of 13 ticks. -/
def StepsBy13 (s t : State) : Prop :=
  (s.Canon → t.Canon) ∧ (t.base = s.base ∨ ∃ d : Int, 13 ∣ d ∧ t.base = { s.base with step := some d })

theorem Keeps.stepsBy13 {s t : State} (h : Keeps s t) : StepsBy13 s t := ⟨h.2, Or.inl h.1⟩

theorem stepsBy13_setStep {s x : State} (d : Int) (fb : FabS) (k : Keeps s x) (h : fb.step = some (13 * d)) :
    StepsBy13 s { x with fab := fb } := by
  refine ⟨fun c => k.canon c, Or.inr ⟨13 * d, ⟨d, rfl⟩, ?_⟩⟩
  have hb := k.1
  simp only [State.base, Base.mk.injEq] at hb ⊢
  simp [hb, h]

theorem execMarkerReceived_runs (port value : Nat) (s : State) :
    ∃ t, execMarkerReceived port value s = .next t ∧ StepsBy13 s t := by
  unfold execMarkerReceived whenLive guardOn
  refine ⟨_, rfl, ?_⟩
  split
  · simp only
    split
    · have k1 : Keeps s (setR (addR { s with fab := { s.fab with lastMarker := some s.now } } F.TALLY_MARKERS 1) F.TALLY_STATE_RESID
          (enc 8 ((value : Int) + regI s F.LINK_HOP port - s.now - 13 * rhe ((value : Int) + regI s F.LINK_HOP port - s.now) 13))) :=
        keeps_setR _ _ _ (keeps_addR _ _ _ (keeps_fab _ (Keeps.refl s) rfl))
      split
      · split
        · exact (keeps_setR _ _ _ (keeps_putBoth _ _ _ _ _ _ (keeps_fab _ k1 rfl))).stepsBy13
        · exact stepsBy13_setStep _ _ k1 rfl
      · split
        · exact (keeps_outOfStep _ _ k1).stepsBy13
        · exact k1.stepsBy13
    · exact (Keeps.refl s).stepsBy13
  · exact (Keeps.refl s).stepsBy13

theorem execTimeInEdge_runs (s : State) : ∃ t, execTimeInEdge s = .next t ∧ StepsBy13 s t := by
  unfold execTimeInEdge whenLive
  refine ⟨_, rfl, ?_⟩
  split
  · have k1 : Keeps s (setPairI (addR { s with fab := { s.fab with lastEdge := some s.now } } F.TIME_EDGES 1) F.TALLY_TIME_STAMP_LO
        F.TALLY_TIME_STAMP_HI 0 s.now) := keeps_setPairI _ _ _ _ _ (keeps_addR _ _ _ (keeps_fab _ (Keeps.refl s) rfl))
    simp only
    split
    · exact stepsBy13_setStep _ _ k1 rfl
    · split
      · exact k1.stepsBy13
      · refine Keeps.stepsBy13 ?_
        have k2 := fun fb (h : fb.step = _) v => keeps_setR _ F.TALLY_TIME_ERR v (keeps_fab fb k1 h)
        refine keeps_ite _ (keeps_drift _ _ ?_) ?_
        · exact k2 _ rfl _
        · exact k2 _ rfl _
  · exact (Keeps.refl s).stepsBy13

theorem stepTally_keeps (s : State) (d : Int) :
    (s.Canon → (stepTally s d).Canon) ∧
      (stepTally s d).base = { s.base with tally := s.tally + BitVec.ofInt 64 d, step := none } := by
  have k : ∀ z : State, Keeps z (setR (putBoth z F.TALLY_CTRL_ALIGN 0 0 0 0) F.TALLY_STATE_STATE 2) :=
    fun z => keeps_setR _ _ _ (keeps_putBoth _ _ _ _ _ _ (Keeps.refl z))
  unfold stepTally
  simp only
  split
  · exact ⟨fun c => (k _).canon c, (k _).1⟩
  · exact ⟨id, rfl⟩

/-- What moves by itself in a tick keeps all but the Tally. -/
theorem moved_keeps (s : State) :
    let t := hbmTick (enterAll { portsTick (pumpFlights s) with tally := (portsTick (pumpFlights s)).tally + 1 })
    (s.Canon → t.Canon) ∧ t.base = { s.base with tally := s.tally + 1 } := by
  have k := keeps_portsTick _ (keeps_pumpFlights s (Keeps.refl s))
  have k2 := fun z => keeps_hbmTick _ (keeps_enterAll z (Keeps.refl z))
  generalize portsTick (pumpFlights s) = s0 at k ⊢
  have h : ({ s0 with tally := s0.tally + 1 } : State).base = { s.base with tally := s.tally + 1 } := by
    have hb := k.1
    simp only [State.base, Base.mk.injEq] at hb ⊢
    simp [hb]
  exact ⟨fun c => (k2 _).canon (k.canon c), (k2 _).1.trans h⟩

/-- A tick: one more on the Tally while the base domain runs, and the waiting step at a SYSREF edge. -/
theorem tick_keeps (s : State) :
    (s.Canon → (tick s).Canon) ∧
      (tick s).base = if s.tallyRun then
        match s.fab.step with
        | some d => if (s.tally + 1).toNat % 13 = 0 then { s.base with tally := s.tally + 1 + BitVec.ofInt 64 d, step := none }
          else { s.base with tally := s.tally + 1 }
        | none => { s.base with tally := s.tally + 1 }
      else s.base := by
  unfold tick
  split
  · have m := moved_keeps s
    simp only at m ⊢
    generalize hbmTick (enterAll { portsTick (pumpFlights s) with tally := (portsTick (pumpFlights s)).tally + 1 }) = t at m ⊢
    have hs : t.fab.step = s.fab.step := congrArg Base.step m.2
    have ht : t.tally = s.tally + 1 := congrArg Base.tally m.2
    rw [hs]
    cases h : s.fab.step with
    | none => exact ⟨m.1, m.2⟩
    | some d =>
      have k := stepTally_keeps t d
      have hn : t.now = (s.tally + 1).toNat := congrArg BitVec.toNat ht
      simp only [hn]
      split
      · refine ⟨fun c => k.1 (m.1 c), k.2.trans ?_⟩
        rw [m.2, ht]
      · exact m
  · exact ⟨id, rfl⟩

end Sys2Proof.Machine
end

