-- ==== Sys2Proof/Laws/State.lean ====
section
/-!
SUPPORT. Sys2Proof/Laws/State.lean: what the smallest operations leave of the state, one lemma per field; reading a register field
after writing one; reading a table entry after changing one.
-/

namespace Sys2Proof.Machine

/-! ## The short names of a register write -/

@[simp] theorem setR_eq (s : State) (f : Fld) (v : Nat) : setR s f v = putF s f 0 0 0 v := rfl
@[simp] theorem setI_eq (s : State) (f : Fld) (i v : Nat) : setI s f i v = putF s f i 0 0 v := rfl
@[simp] theorem setS_eq (s : State) (f : Fld) (n v : Nat) : setS s f n v = putF s f 0 n 0 v := rfl
@[simp] theorem setX_eq (s : State) (f : Fld) (k v : Nat) : setX s f k v = putF s f 0 0 k v := rfl
@[simp] theorem addR_eq (s : State) (f : Fld) (n : Nat) : addR s f n = putF s f 0 0 0 (getF s f 0 0 0 + n) := rfl
@[simp] theorem addI_eq (s : State) (f : Fld) (i n : Nat) : addI s f i n = putF s f i 0 0 (getF s f i 0 0 + n) := rfl
@[simp] theorem addS_eq (s : State) (f : Fld) (k n : Nat) : addS s f k n = putF s f 0 k 0 (getF s f 0 k 0 + n) := rfl
@[simp] theorem addX_eq (s : State) (f : Fld) (k n : Nat) : addX s f k n = putF s f 0 0 k (getF s f 0 0 k + n) := rfl
@[simp] theorem reg_eq (s : State) (f : Fld) : reg s f = getF s f 0 0 0 := rfl
@[simp] theorem regI_eq (s : State) (f : Fld) (i : Nat) : regI s f i = getF s f i 0 0 := rfl
@[simp] theorem regS_eq (s : State) (f : Fld) (n : Nat) : regS s f n = getF s f 0 n 0 := rfl
@[simp] theorem regX_eq (s : State) (f : Fld) (k : Nat) : regX s f k = getF s f 0 0 k := rfl

/-! ## Reading after writing -/

/-- Two fields, with their instance, selector value and element, name the same place of the register file. -/
def samePlace (f : Fld) (i k x : Nat) (g : Fld) (j l y : Nat) : Prop := f.key i k x = g.key j l y

theorem xor_code (f : Fld) (i x v : Nat) : (f.code i x v).xor (f.reset i x) = v % 2 ^ f.width := by
  show ((v % 2 ^ f.width) ^^^ (f.reset i x)) ^^^ (f.reset i x) = v % 2 ^ f.width
  rw [Nat.xor_assoc, Nat.xor_self, Nat.xor_zero]

/-- A field reads as it was written, cut to its width. -/
@[simp] theorem getF_putF_same (s : State) (f : Fld) (i k x v : Nat) : getF (putF s f i k x v) f i k x = v % 2 ^ f.width := by
  unfold getF putF
  rw [tget_tset_same, xor_code]

/-- Another place of the register file reads as before. -/
theorem getF_putF_other (s : State) (f g : Fld) (i k x v j l y : Nat) (h : g.key j l y ≠ f.key i k x) :
    getF (putF s f i k x v) g j l y = getF s g j l y := by
  unfold getF putF
  rw [tget_tset_other _ _ _ h]

@[simp] theorem getSh_putSh_same (s : State) (f : Fld) (i k x v : Nat) : getSh (putSh s f i k x v) f i k x = v % 2 ^ f.width := by
  unfold getSh putSh
  rw [tget_tset_same, xor_code]

theorem getSh_putSh_other (s : State) (f g : Fld) (i k x v j l y : Nat) (h : g.key j l y ≠ f.key i k x) :
    getSh (putSh s f i k x v) g j l y = getSh s g j l y := by
  unfold getSh putSh
  rw [tget_tset_other _ _ _ h]

@[simp] theorem getF_putSh (s : State) (f g : Fld) (i k x v j l y : Nat) : getF (putSh s f i k x v) g j l y = getF s g j l y := rfl

@[simp] theorem getSh_putF (s : State) (f g : Fld) (i k x v j l y : Nat) : getSh (putF s f i k x v) g j l y = getSh s g j l y := rfl

/-- Places are told apart by page, writer, field, selector value and element, within the bounds every field keeps. -/
theorem key_inj (f g : Fld) (i k x j l y : Nat) (hf : f.id < 1024) (hg : g.id < 1024) (hk : k < 1024) (hl : l < 1024)
    (hx : x < 128) (hy : y < 128) (h : f.key i k x = g.key j l y) : f.base + i = g.base + j ∧ f.id = g.id ∧ k = l ∧ x = y := by
  unfold Fld.key at h
  have h2 : (if f.wr = .fw then 1 else 0) < 2 := by split <;> omega
  have h3 : (if g.wr = .fw then 1 else 0) < 2 := by split <;> omega
  omega

theorem getF_other {s t : State} (h : t.rf = s.rf) (f : Fld) (i k x : Nat) : getF t f i k x = getF s f i k x := by
  unfold getF
  rw [h]

/-! ## One lemma per field and operation -/

@[simp] theorem putF_pending (s : State) (f : Fld) (i k x v : Nat) : (putF s f i k x v).pending = s.pending := rfl
@[simp] theorem putF_tally (s : State) (f : Fld) (i k x v : Nat) : (putF s f i k x v).tally = s.tally := rfl
@[simp] theorem putF_tallyRun (s : State) (f : Fld) (i k x v : Nat) : (putF s f i k x v).tallyRun = s.tallyRun := rfl
@[simp] theorem putF_freeCtr (s : State) (f : Fld) (i k x v : Nat) : (putF s f i k x v).freeCtr = s.freeCtr := rfl
@[simp] theorem putF_gradeSC (s : State) (f : Fld) (i k x v : Nat) : (putF s f i k x v).gradeSC = s.gradeSC := rfl
@[simp] theorem putF_serial (s : State) (f : Fld) (i k x v : Nat) : (putF s f i k x v).serial = s.serial := rfl
@[simp] theorem putF_power (s : State) (f : Fld) (i k x v : Nat) : (putF s f i k x v).power = s.power := rfl
@[simp] theorem putF_pcie (s : State) (f : Fld) (i k x v : Nat) : (putF s f i k x v).pcie = s.pcie := rfl
@[simp] theorem putF_strm (s : State) (f : Fld) (i k x v : Nat) : (putF s f i k x v).strm = s.strm := rfl
@[simp] theorem putF_shape (s : State) (f : Fld) (i k x v : Nat) : (putF s f i k x v).shape = s.shape := rfl
@[simp] theorem putF_disp (s : State) (f : Fld) (i k x v : Nat) : (putF s f i k x v).disp = s.disp := rfl
@[simp] theorem putF_plans (s : State) (f : Fld) (i k x v : Nat) : (putF s f i k x v).plans = s.plans := rfl
@[simp] theorem putF_claims (s : State) (f : Fld) (i k x v : Nat) : (putF s f i k x v).claims = s.claims := rfl
@[simp] theorem putF_ctxs (s : State) (f : Fld) (i k x v : Nat) : (putF s f i k x v).ctxs = s.ctxs := rfl
@[simp] theorem putF_ctxCores (s : State) (f : Fld) (i k x v : Nat) : (putF s f i k x v).ctxCores = s.ctxCores := rfl
@[simp] theorem putF_sems (s : State) (f : Fld) (i k x v : Nat) : (putF s f i k x v).sems = s.sems := rfl
@[simp] theorem putF_cores (s : State) (f : Fld) (i k x v : Nat) : (putF s f i k x v).cores = s.cores := rfl
@[simp] theorem putF_clus (s : State) (f : Fld) (i k x v : Nat) : (putF s f i k x v).clus = s.clus := rfl
@[simp] theorem putF_hbm (s : State) (f : Fld) (i k x v : Nat) : (putF s f i k x v).hbm = s.hbm := rfl
@[simp] theorem putF_pools (s : State) (f : Fld) (i k x v : Nat) : (putF s f i k x v).pools = s.pools := rfl
@[simp] theorem putF_trk (s : State) (f : Fld) (i k x v : Nat) : (putF s f i k x v).trk = s.trk := rfl
@[simp] theorem putF_out (s : State) (f : Fld) (i k x v : Nat) : (putF s f i k x v).out = s.out := rfl
@[simp] theorem putF_reeve (s : State) (f : Fld) (i k x v : Nat) : (putF s f i k x v).reeve = s.reeve := rfl
@[simp] theorem putF_faults (s : State) (f : Fld) (i k x v : Nat) : (putF s f i k x v).faults = s.faults := rfl
@[simp] theorem putF_winnow (s : State) (f : Fld) (i k x v : Nat) : (putF s f i k x v).winnow = s.winnow := rfl
@[simp] theorem putF_sec (s : State) (f : Fld) (i k x v : Nat) : (putF s f i k x v).sec = s.sec := rfl
@[simp] theorem putF_mgmt (s : State) (f : Fld) (i k x v : Nat) : (putF s f i k x v).mgmt = s.mgmt := rfl
@[simp] theorem putF_flash (s : State) (f : Fld) (i k x v : Nat) : (putF s f i k x v).flash = s.flash := rfl
@[simp] theorem putF_fab (s : State) (f : Fld) (i k x v : Nat) : (putF s f i k x v).fab = s.fab := rfl

@[simp] theorem putSh_pending (s : State) (f : Fld) (i k x v : Nat) : (putSh s f i k x v).pending = s.pending := rfl
@[simp] theorem putSh_tally (s : State) (f : Fld) (i k x v : Nat) : (putSh s f i k x v).tally = s.tally := rfl
@[simp] theorem putSh_tallyRun (s : State) (f : Fld) (i k x v : Nat) : (putSh s f i k x v).tallyRun = s.tallyRun := rfl
@[simp] theorem putSh_freeCtr (s : State) (f : Fld) (i k x v : Nat) : (putSh s f i k x v).freeCtr = s.freeCtr := rfl
@[simp] theorem putSh_gradeSC (s : State) (f : Fld) (i k x v : Nat) : (putSh s f i k x v).gradeSC = s.gradeSC := rfl
@[simp] theorem putSh_serial (s : State) (f : Fld) (i k x v : Nat) : (putSh s f i k x v).serial = s.serial := rfl
@[simp] theorem putSh_power (s : State) (f : Fld) (i k x v : Nat) : (putSh s f i k x v).power = s.power := rfl
@[simp] theorem putSh_pcie (s : State) (f : Fld) (i k x v : Nat) : (putSh s f i k x v).pcie = s.pcie := rfl
@[simp] theorem putSh_strm (s : State) (f : Fld) (i k x v : Nat) : (putSh s f i k x v).strm = s.strm := rfl
@[simp] theorem putSh_shape (s : State) (f : Fld) (i k x v : Nat) : (putSh s f i k x v).shape = s.shape := rfl
@[simp] theorem putSh_disp (s : State) (f : Fld) (i k x v : Nat) : (putSh s f i k x v).disp = s.disp := rfl
@[simp] theorem putSh_plans (s : State) (f : Fld) (i k x v : Nat) : (putSh s f i k x v).plans = s.plans := rfl
@[simp] theorem putSh_claims (s : State) (f : Fld) (i k x v : Nat) : (putSh s f i k x v).claims = s.claims := rfl
@[simp] theorem putSh_ctxs (s : State) (f : Fld) (i k x v : Nat) : (putSh s f i k x v).ctxs = s.ctxs := rfl
@[simp] theorem putSh_ctxCores (s : State) (f : Fld) (i k x v : Nat) : (putSh s f i k x v).ctxCores = s.ctxCores := rfl
@[simp] theorem putSh_sems (s : State) (f : Fld) (i k x v : Nat) : (putSh s f i k x v).sems = s.sems := rfl
@[simp] theorem putSh_cores (s : State) (f : Fld) (i k x v : Nat) : (putSh s f i k x v).cores = s.cores := rfl
@[simp] theorem putSh_clus (s : State) (f : Fld) (i k x v : Nat) : (putSh s f i k x v).clus = s.clus := rfl
@[simp] theorem putSh_hbm (s : State) (f : Fld) (i k x v : Nat) : (putSh s f i k x v).hbm = s.hbm := rfl
@[simp] theorem putSh_pools (s : State) (f : Fld) (i k x v : Nat) : (putSh s f i k x v).pools = s.pools := rfl
@[simp] theorem putSh_trk (s : State) (f : Fld) (i k x v : Nat) : (putSh s f i k x v).trk = s.trk := rfl
@[simp] theorem putSh_out (s : State) (f : Fld) (i k x v : Nat) : (putSh s f i k x v).out = s.out := rfl
@[simp] theorem putSh_reeve (s : State) (f : Fld) (i k x v : Nat) : (putSh s f i k x v).reeve = s.reeve := rfl
@[simp] theorem putSh_faults (s : State) (f : Fld) (i k x v : Nat) : (putSh s f i k x v).faults = s.faults := rfl
@[simp] theorem putSh_winnow (s : State) (f : Fld) (i k x v : Nat) : (putSh s f i k x v).winnow = s.winnow := rfl
@[simp] theorem putSh_sec (s : State) (f : Fld) (i k x v : Nat) : (putSh s f i k x v).sec = s.sec := rfl
@[simp] theorem putSh_mgmt (s : State) (f : Fld) (i k x v : Nat) : (putSh s f i k x v).mgmt = s.mgmt := rfl
@[simp] theorem putSh_flash (s : State) (f : Fld) (i k x v : Nat) : (putSh s f i k x v).flash = s.flash := rfl
@[simp] theorem putSh_fab (s : State) (f : Fld) (i k x v : Nat) : (putSh s f i k x v).fab = s.fab := rfl

@[simp] theorem putBoth_pending (s : State) (f : Fld) (i k x v : Nat) : (putBoth s f i k x v).pending = s.pending := rfl
@[simp] theorem putBoth_tally (s : State) (f : Fld) (i k x v : Nat) : (putBoth s f i k x v).tally = s.tally := rfl
@[simp] theorem putBoth_tallyRun (s : State) (f : Fld) (i k x v : Nat) : (putBoth s f i k x v).tallyRun = s.tallyRun := rfl
@[simp] theorem putBoth_freeCtr (s : State) (f : Fld) (i k x v : Nat) : (putBoth s f i k x v).freeCtr = s.freeCtr := rfl
@[simp] theorem putBoth_gradeSC (s : State) (f : Fld) (i k x v : Nat) : (putBoth s f i k x v).gradeSC = s.gradeSC := rfl
@[simp] theorem putBoth_serial (s : State) (f : Fld) (i k x v : Nat) : (putBoth s f i k x v).serial = s.serial := rfl
@[simp] theorem putBoth_power (s : State) (f : Fld) (i k x v : Nat) : (putBoth s f i k x v).power = s.power := rfl
@[simp] theorem putBoth_pcie (s : State) (f : Fld) (i k x v : Nat) : (putBoth s f i k x v).pcie = s.pcie := rfl
@[simp] theorem putBoth_strm (s : State) (f : Fld) (i k x v : Nat) : (putBoth s f i k x v).strm = s.strm := rfl
@[simp] theorem putBoth_shape (s : State) (f : Fld) (i k x v : Nat) : (putBoth s f i k x v).shape = s.shape := rfl
@[simp] theorem putBoth_disp (s : State) (f : Fld) (i k x v : Nat) : (putBoth s f i k x v).disp = s.disp := rfl
@[simp] theorem putBoth_plans (s : State) (f : Fld) (i k x v : Nat) : (putBoth s f i k x v).plans = s.plans := rfl
@[simp] theorem putBoth_claims (s : State) (f : Fld) (i k x v : Nat) : (putBoth s f i k x v).claims = s.claims := rfl
@[simp] theorem putBoth_ctxs (s : State) (f : Fld) (i k x v : Nat) : (putBoth s f i k x v).ctxs = s.ctxs := rfl
@[simp] theorem putBoth_ctxCores (s : State) (f : Fld) (i k x v : Nat) : (putBoth s f i k x v).ctxCores = s.ctxCores := rfl
@[simp] theorem putBoth_sems (s : State) (f : Fld) (i k x v : Nat) : (putBoth s f i k x v).sems = s.sems := rfl
@[simp] theorem putBoth_cores (s : State) (f : Fld) (i k x v : Nat) : (putBoth s f i k x v).cores = s.cores := rfl
@[simp] theorem putBoth_clus (s : State) (f : Fld) (i k x v : Nat) : (putBoth s f i k x v).clus = s.clus := rfl
@[simp] theorem putBoth_hbm (s : State) (f : Fld) (i k x v : Nat) : (putBoth s f i k x v).hbm = s.hbm := rfl
@[simp] theorem putBoth_pools (s : State) (f : Fld) (i k x v : Nat) : (putBoth s f i k x v).pools = s.pools := rfl
@[simp] theorem putBoth_trk (s : State) (f : Fld) (i k x v : Nat) : (putBoth s f i k x v).trk = s.trk := rfl
@[simp] theorem putBoth_out (s : State) (f : Fld) (i k x v : Nat) : (putBoth s f i k x v).out = s.out := rfl
@[simp] theorem putBoth_reeve (s : State) (f : Fld) (i k x v : Nat) : (putBoth s f i k x v).reeve = s.reeve := rfl
@[simp] theorem putBoth_faults (s : State) (f : Fld) (i k x v : Nat) : (putBoth s f i k x v).faults = s.faults := rfl
@[simp] theorem putBoth_winnow (s : State) (f : Fld) (i k x v : Nat) : (putBoth s f i k x v).winnow = s.winnow := rfl
@[simp] theorem putBoth_sec (s : State) (f : Fld) (i k x v : Nat) : (putBoth s f i k x v).sec = s.sec := rfl
@[simp] theorem putBoth_mgmt (s : State) (f : Fld) (i k x v : Nat) : (putBoth s f i k x v).mgmt = s.mgmt := rfl
@[simp] theorem putBoth_flash (s : State) (f : Fld) (i k x v : Nat) : (putBoth s f i k x v).flash = s.flash := rfl
@[simp] theorem putBoth_fab (s : State) (f : Fld) (i k x v : Nat) : (putBoth s f i k x v).fab = s.fab := rfl

@[simp] theorem emit_pending (s : State) (o : HostOut) : (emit s o).pending = s.pending := rfl
@[simp] theorem emit_tally (s : State) (o : HostOut) : (emit s o).tally = s.tally := rfl
@[simp] theorem emit_tallyRun (s : State) (o : HostOut) : (emit s o).tallyRun = s.tallyRun := rfl
@[simp] theorem emit_freeCtr (s : State) (o : HostOut) : (emit s o).freeCtr = s.freeCtr := rfl
@[simp] theorem emit_gradeSC (s : State) (o : HostOut) : (emit s o).gradeSC = s.gradeSC := rfl
@[simp] theorem emit_serial (s : State) (o : HostOut) : (emit s o).serial = s.serial := rfl
@[simp] theorem emit_rf (s : State) (o : HostOut) : (emit s o).rf = s.rf := rfl
@[simp] theorem emit_power (s : State) (o : HostOut) : (emit s o).power = s.power := rfl
@[simp] theorem emit_strm (s : State) (o : HostOut) : (emit s o).strm = s.strm := rfl
@[simp] theorem emit_shape (s : State) (o : HostOut) : (emit s o).shape = s.shape := rfl
@[simp] theorem emit_disp (s : State) (o : HostOut) : (emit s o).disp = s.disp := rfl
@[simp] theorem emit_plans (s : State) (o : HostOut) : (emit s o).plans = s.plans := rfl
@[simp] theorem emit_claims (s : State) (o : HostOut) : (emit s o).claims = s.claims := rfl
@[simp] theorem emit_ctxs (s : State) (o : HostOut) : (emit s o).ctxs = s.ctxs := rfl
@[simp] theorem emit_ctxCores (s : State) (o : HostOut) : (emit s o).ctxCores = s.ctxCores := rfl
@[simp] theorem emit_sems (s : State) (o : HostOut) : (emit s o).sems = s.sems := rfl
@[simp] theorem emit_cores (s : State) (o : HostOut) : (emit s o).cores = s.cores := rfl
@[simp] theorem emit_clus (s : State) (o : HostOut) : (emit s o).clus = s.clus := rfl
@[simp] theorem emit_hbm (s : State) (o : HostOut) : (emit s o).hbm = s.hbm := rfl
@[simp] theorem emit_pools (s : State) (o : HostOut) : (emit s o).pools = s.pools := rfl
@[simp] theorem emit_trk (s : State) (o : HostOut) : (emit s o).trk = s.trk := rfl
@[simp] theorem emit_out (s : State) (o : HostOut) : (emit s o).out = s.out := rfl
@[simp] theorem emit_reeve (s : State) (o : HostOut) : (emit s o).reeve = s.reeve := rfl
@[simp] theorem emit_faults (s : State) (o : HostOut) : (emit s o).faults = s.faults := rfl
@[simp] theorem emit_winnow (s : State) (o : HostOut) : (emit s o).winnow = s.winnow := rfl
@[simp] theorem emit_sec (s : State) (o : HostOut) : (emit s o).sec = s.sec := rfl
@[simp] theorem emit_mgmt (s : State) (o : HostOut) : (emit s o).mgmt = s.mgmt := rfl
@[simp] theorem emit_flash (s : State) (o : HostOut) : (emit s o).flash = s.flash := rfl
@[simp] theorem emit_fab (s : State) (o : HostOut) : (emit s o).fab = s.fab := rfl

@[simp] theorem setPba_pending (s : State) (v : Nat) (b : Bool) : (setPba s v b).pending = s.pending := rfl
@[simp] theorem setPba_tally (s : State) (v : Nat) (b : Bool) : (setPba s v b).tally = s.tally := rfl
@[simp] theorem setPba_tallyRun (s : State) (v : Nat) (b : Bool) : (setPba s v b).tallyRun = s.tallyRun := rfl
@[simp] theorem setPba_freeCtr (s : State) (v : Nat) (b : Bool) : (setPba s v b).freeCtr = s.freeCtr := rfl
@[simp] theorem setPba_gradeSC (s : State) (v : Nat) (b : Bool) : (setPba s v b).gradeSC = s.gradeSC := rfl
@[simp] theorem setPba_serial (s : State) (v : Nat) (b : Bool) : (setPba s v b).serial = s.serial := rfl
@[simp] theorem setPba_rf (s : State) (v : Nat) (b : Bool) : (setPba s v b).rf = s.rf := rfl
@[simp] theorem setPba_power (s : State) (v : Nat) (b : Bool) : (setPba s v b).power = s.power := rfl
@[simp] theorem setPba_strm (s : State) (v : Nat) (b : Bool) : (setPba s v b).strm = s.strm := rfl
@[simp] theorem setPba_shape (s : State) (v : Nat) (b : Bool) : (setPba s v b).shape = s.shape := rfl
@[simp] theorem setPba_disp (s : State) (v : Nat) (b : Bool) : (setPba s v b).disp = s.disp := rfl
@[simp] theorem setPba_plans (s : State) (v : Nat) (b : Bool) : (setPba s v b).plans = s.plans := rfl
@[simp] theorem setPba_claims (s : State) (v : Nat) (b : Bool) : (setPba s v b).claims = s.claims := rfl
@[simp] theorem setPba_ctxs (s : State) (v : Nat) (b : Bool) : (setPba s v b).ctxs = s.ctxs := rfl
@[simp] theorem setPba_ctxCores (s : State) (v : Nat) (b : Bool) : (setPba s v b).ctxCores = s.ctxCores := rfl
@[simp] theorem setPba_sems (s : State) (v : Nat) (b : Bool) : (setPba s v b).sems = s.sems := rfl
@[simp] theorem setPba_cores (s : State) (v : Nat) (b : Bool) : (setPba s v b).cores = s.cores := rfl
@[simp] theorem setPba_clus (s : State) (v : Nat) (b : Bool) : (setPba s v b).clus = s.clus := rfl
@[simp] theorem setPba_hbm (s : State) (v : Nat) (b : Bool) : (setPba s v b).hbm = s.hbm := rfl
@[simp] theorem setPba_pools (s : State) (v : Nat) (b : Bool) : (setPba s v b).pools = s.pools := rfl
@[simp] theorem setPba_trk (s : State) (v : Nat) (b : Bool) : (setPba s v b).trk = s.trk := rfl
@[simp] theorem setPba_out (s : State) (v : Nat) (b : Bool) : (setPba s v b).out = s.out := rfl
@[simp] theorem setPba_reeve (s : State) (v : Nat) (b : Bool) : (setPba s v b).reeve = s.reeve := rfl
@[simp] theorem setPba_faults (s : State) (v : Nat) (b : Bool) : (setPba s v b).faults = s.faults := rfl
@[simp] theorem setPba_winnow (s : State) (v : Nat) (b : Bool) : (setPba s v b).winnow = s.winnow := rfl
@[simp] theorem setPba_sec (s : State) (v : Nat) (b : Bool) : (setPba s v b).sec = s.sec := rfl
@[simp] theorem setPba_mgmt (s : State) (v : Nat) (b : Bool) : (setPba s v b).mgmt = s.mgmt := rfl
@[simp] theorem setPba_flash (s : State) (v : Nat) (b : Bool) : (setPba s v b).flash = s.flash := rfl
@[simp] theorem setPba_fab (s : State) (v : Nat) (b : Bool) : (setPba s v b).fab = s.fab := rfl

@[simp] theorem aer_pending (s : State) (e : AerErr) : (aer s e).pending = s.pending := rfl
@[simp] theorem aer_tally (s : State) (e : AerErr) : (aer s e).tally = s.tally := rfl
@[simp] theorem aer_tallyRun (s : State) (e : AerErr) : (aer s e).tallyRun = s.tallyRun := rfl
@[simp] theorem aer_freeCtr (s : State) (e : AerErr) : (aer s e).freeCtr = s.freeCtr := rfl
@[simp] theorem aer_gradeSC (s : State) (e : AerErr) : (aer s e).gradeSC = s.gradeSC := rfl
@[simp] theorem aer_serial (s : State) (e : AerErr) : (aer s e).serial = s.serial := rfl
@[simp] theorem aer_rf (s : State) (e : AerErr) : (aer s e).rf = s.rf := rfl
@[simp] theorem aer_power (s : State) (e : AerErr) : (aer s e).power = s.power := rfl
@[simp] theorem aer_strm (s : State) (e : AerErr) : (aer s e).strm = s.strm := rfl
@[simp] theorem aer_shape (s : State) (e : AerErr) : (aer s e).shape = s.shape := rfl
@[simp] theorem aer_disp (s : State) (e : AerErr) : (aer s e).disp = s.disp := rfl
@[simp] theorem aer_plans (s : State) (e : AerErr) : (aer s e).plans = s.plans := rfl
@[simp] theorem aer_claims (s : State) (e : AerErr) : (aer s e).claims = s.claims := rfl
@[simp] theorem aer_ctxs (s : State) (e : AerErr) : (aer s e).ctxs = s.ctxs := rfl
@[simp] theorem aer_ctxCores (s : State) (e : AerErr) : (aer s e).ctxCores = s.ctxCores := rfl
@[simp] theorem aer_sems (s : State) (e : AerErr) : (aer s e).sems = s.sems := rfl
@[simp] theorem aer_cores (s : State) (e : AerErr) : (aer s e).cores = s.cores := rfl
@[simp] theorem aer_clus (s : State) (e : AerErr) : (aer s e).clus = s.clus := rfl
@[simp] theorem aer_hbm (s : State) (e : AerErr) : (aer s e).hbm = s.hbm := rfl
@[simp] theorem aer_pools (s : State) (e : AerErr) : (aer s e).pools = s.pools := rfl
@[simp] theorem aer_trk (s : State) (e : AerErr) : (aer s e).trk = s.trk := rfl
@[simp] theorem aer_out (s : State) (e : AerErr) : (aer s e).out = s.out := rfl
@[simp] theorem aer_reeve (s : State) (e : AerErr) : (aer s e).reeve = s.reeve := rfl
@[simp] theorem aer_faults (s : State) (e : AerErr) : (aer s e).faults = s.faults := rfl
@[simp] theorem aer_winnow (s : State) (e : AerErr) : (aer s e).winnow = s.winnow := rfl
@[simp] theorem aer_sec (s : State) (e : AerErr) : (aer s e).sec = s.sec := rfl
@[simp] theorem aer_mgmt (s : State) (e : AerErr) : (aer s e).mgmt = s.mgmt := rfl
@[simp] theorem aer_flash (s : State) (e : AerErr) : (aer s e).flash = s.flash := rfl
@[simp] theorem aer_fab (s : State) (e : AerErr) : (aer s e).fab = s.fab := rfl

@[simp] theorem modCore_pending (s : State) (c : Nat) (f : CoreS → CoreS) : (modCore s c f).pending = s.pending := rfl
@[simp] theorem modCore_tally (s : State) (c : Nat) (f : CoreS → CoreS) : (modCore s c f).tally = s.tally := rfl
@[simp] theorem modCore_tallyRun (s : State) (c : Nat) (f : CoreS → CoreS) : (modCore s c f).tallyRun = s.tallyRun := rfl
@[simp] theorem modCore_freeCtr (s : State) (c : Nat) (f : CoreS → CoreS) : (modCore s c f).freeCtr = s.freeCtr := rfl
@[simp] theorem modCore_gradeSC (s : State) (c : Nat) (f : CoreS → CoreS) : (modCore s c f).gradeSC = s.gradeSC := rfl
@[simp] theorem modCore_serial (s : State) (c : Nat) (f : CoreS → CoreS) : (modCore s c f).serial = s.serial := rfl
@[simp] theorem modCore_rf (s : State) (c : Nat) (f : CoreS → CoreS) : (modCore s c f).rf = s.rf := rfl
@[simp] theorem modCore_power (s : State) (c : Nat) (f : CoreS → CoreS) : (modCore s c f).power = s.power := rfl
@[simp] theorem modCore_pcie (s : State) (c : Nat) (f : CoreS → CoreS) : (modCore s c f).pcie = s.pcie := rfl
@[simp] theorem modCore_strm (s : State) (c : Nat) (f : CoreS → CoreS) : (modCore s c f).strm = s.strm := rfl
@[simp] theorem modCore_shape (s : State) (c : Nat) (f : CoreS → CoreS) : (modCore s c f).shape = s.shape := rfl
@[simp] theorem modCore_disp (s : State) (c : Nat) (f : CoreS → CoreS) : (modCore s c f).disp = s.disp := rfl
@[simp] theorem modCore_plans (s : State) (c : Nat) (f : CoreS → CoreS) : (modCore s c f).plans = s.plans := rfl
@[simp] theorem modCore_claims (s : State) (c : Nat) (f : CoreS → CoreS) : (modCore s c f).claims = s.claims := rfl
@[simp] theorem modCore_ctxs (s : State) (c : Nat) (f : CoreS → CoreS) : (modCore s c f).ctxs = s.ctxs := rfl
@[simp] theorem modCore_ctxCores (s : State) (c : Nat) (f : CoreS → CoreS) : (modCore s c f).ctxCores = s.ctxCores := rfl
@[simp] theorem modCore_sems (s : State) (c : Nat) (f : CoreS → CoreS) : (modCore s c f).sems = s.sems := rfl
@[simp] theorem modCore_clus (s : State) (c : Nat) (f : CoreS → CoreS) : (modCore s c f).clus = s.clus := rfl
@[simp] theorem modCore_hbm (s : State) (c : Nat) (f : CoreS → CoreS) : (modCore s c f).hbm = s.hbm := rfl
@[simp] theorem modCore_pools (s : State) (c : Nat) (f : CoreS → CoreS) : (modCore s c f).pools = s.pools := rfl
@[simp] theorem modCore_trk (s : State) (c : Nat) (f : CoreS → CoreS) : (modCore s c f).trk = s.trk := rfl
@[simp] theorem modCore_out (s : State) (c : Nat) (f : CoreS → CoreS) : (modCore s c f).out = s.out := rfl
@[simp] theorem modCore_reeve (s : State) (c : Nat) (f : CoreS → CoreS) : (modCore s c f).reeve = s.reeve := rfl
@[simp] theorem modCore_faults (s : State) (c : Nat) (f : CoreS → CoreS) : (modCore s c f).faults = s.faults := rfl
@[simp] theorem modCore_winnow (s : State) (c : Nat) (f : CoreS → CoreS) : (modCore s c f).winnow = s.winnow := rfl
@[simp] theorem modCore_sec (s : State) (c : Nat) (f : CoreS → CoreS) : (modCore s c f).sec = s.sec := rfl
@[simp] theorem modCore_mgmt (s : State) (c : Nat) (f : CoreS → CoreS) : (modCore s c f).mgmt = s.mgmt := rfl
@[simp] theorem modCore_flash (s : State) (c : Nat) (f : CoreS → CoreS) : (modCore s c f).flash = s.flash := rfl
@[simp] theorem modCore_fab (s : State) (c : Nat) (f : CoreS → CoreS) : (modCore s c f).fab = s.fab := rfl

@[simp] theorem modClu_pending (s : State) (k : Nat) (f : CluS → CluS) : (modClu s k f).pending = s.pending := rfl
@[simp] theorem modClu_tally (s : State) (k : Nat) (f : CluS → CluS) : (modClu s k f).tally = s.tally := rfl
@[simp] theorem modClu_tallyRun (s : State) (k : Nat) (f : CluS → CluS) : (modClu s k f).tallyRun = s.tallyRun := rfl
@[simp] theorem modClu_freeCtr (s : State) (k : Nat) (f : CluS → CluS) : (modClu s k f).freeCtr = s.freeCtr := rfl
@[simp] theorem modClu_gradeSC (s : State) (k : Nat) (f : CluS → CluS) : (modClu s k f).gradeSC = s.gradeSC := rfl
@[simp] theorem modClu_serial (s : State) (k : Nat) (f : CluS → CluS) : (modClu s k f).serial = s.serial := rfl
@[simp] theorem modClu_rf (s : State) (k : Nat) (f : CluS → CluS) : (modClu s k f).rf = s.rf := rfl
@[simp] theorem modClu_power (s : State) (k : Nat) (f : CluS → CluS) : (modClu s k f).power = s.power := rfl
@[simp] theorem modClu_pcie (s : State) (k : Nat) (f : CluS → CluS) : (modClu s k f).pcie = s.pcie := rfl
@[simp] theorem modClu_strm (s : State) (k : Nat) (f : CluS → CluS) : (modClu s k f).strm = s.strm := rfl
@[simp] theorem modClu_shape (s : State) (k : Nat) (f : CluS → CluS) : (modClu s k f).shape = s.shape := rfl
@[simp] theorem modClu_disp (s : State) (k : Nat) (f : CluS → CluS) : (modClu s k f).disp = s.disp := rfl
@[simp] theorem modClu_plans (s : State) (k : Nat) (f : CluS → CluS) : (modClu s k f).plans = s.plans := rfl
@[simp] theorem modClu_claims (s : State) (k : Nat) (f : CluS → CluS) : (modClu s k f).claims = s.claims := rfl
@[simp] theorem modClu_ctxs (s : State) (k : Nat) (f : CluS → CluS) : (modClu s k f).ctxs = s.ctxs := rfl
@[simp] theorem modClu_ctxCores (s : State) (k : Nat) (f : CluS → CluS) : (modClu s k f).ctxCores = s.ctxCores := rfl
@[simp] theorem modClu_sems (s : State) (k : Nat) (f : CluS → CluS) : (modClu s k f).sems = s.sems := rfl
@[simp] theorem modClu_cores (s : State) (k : Nat) (f : CluS → CluS) : (modClu s k f).cores = s.cores := rfl
@[simp] theorem modClu_hbm (s : State) (k : Nat) (f : CluS → CluS) : (modClu s k f).hbm = s.hbm := rfl
@[simp] theorem modClu_pools (s : State) (k : Nat) (f : CluS → CluS) : (modClu s k f).pools = s.pools := rfl
@[simp] theorem modClu_trk (s : State) (k : Nat) (f : CluS → CluS) : (modClu s k f).trk = s.trk := rfl
@[simp] theorem modClu_out (s : State) (k : Nat) (f : CluS → CluS) : (modClu s k f).out = s.out := rfl
@[simp] theorem modClu_reeve (s : State) (k : Nat) (f : CluS → CluS) : (modClu s k f).reeve = s.reeve := rfl
@[simp] theorem modClu_faults (s : State) (k : Nat) (f : CluS → CluS) : (modClu s k f).faults = s.faults := rfl
@[simp] theorem modClu_winnow (s : State) (k : Nat) (f : CluS → CluS) : (modClu s k f).winnow = s.winnow := rfl
@[simp] theorem modClu_sec (s : State) (k : Nat) (f : CluS → CluS) : (modClu s k f).sec = s.sec := rfl
@[simp] theorem modClu_mgmt (s : State) (k : Nat) (f : CluS → CluS) : (modClu s k f).mgmt = s.mgmt := rfl
@[simp] theorem modClu_flash (s : State) (k : Nat) (f : CluS → CluS) : (modClu s k f).flash = s.flash := rfl
@[simp] theorem modClu_fab (s : State) (k : Nat) (f : CluS → CluS) : (modClu s k f).fab = s.fab := rfl

@[simp] theorem modPool_pending (s : State) (p : Nat) (f : PoolS → PoolS) : (modPool s p f).pending = s.pending := rfl
@[simp] theorem modPool_tally (s : State) (p : Nat) (f : PoolS → PoolS) : (modPool s p f).tally = s.tally := rfl
@[simp] theorem modPool_tallyRun (s : State) (p : Nat) (f : PoolS → PoolS) : (modPool s p f).tallyRun = s.tallyRun := rfl
@[simp] theorem modPool_freeCtr (s : State) (p : Nat) (f : PoolS → PoolS) : (modPool s p f).freeCtr = s.freeCtr := rfl
@[simp] theorem modPool_gradeSC (s : State) (p : Nat) (f : PoolS → PoolS) : (modPool s p f).gradeSC = s.gradeSC := rfl
@[simp] theorem modPool_serial (s : State) (p : Nat) (f : PoolS → PoolS) : (modPool s p f).serial = s.serial := rfl
@[simp] theorem modPool_rf (s : State) (p : Nat) (f : PoolS → PoolS) : (modPool s p f).rf = s.rf := rfl
@[simp] theorem modPool_power (s : State) (p : Nat) (f : PoolS → PoolS) : (modPool s p f).power = s.power := rfl
@[simp] theorem modPool_pcie (s : State) (p : Nat) (f : PoolS → PoolS) : (modPool s p f).pcie = s.pcie := rfl
@[simp] theorem modPool_strm (s : State) (p : Nat) (f : PoolS → PoolS) : (modPool s p f).strm = s.strm := rfl
@[simp] theorem modPool_shape (s : State) (p : Nat) (f : PoolS → PoolS) : (modPool s p f).shape = s.shape := rfl
@[simp] theorem modPool_disp (s : State) (p : Nat) (f : PoolS → PoolS) : (modPool s p f).disp = s.disp := rfl
@[simp] theorem modPool_plans (s : State) (p : Nat) (f : PoolS → PoolS) : (modPool s p f).plans = s.plans := rfl
@[simp] theorem modPool_claims (s : State) (p : Nat) (f : PoolS → PoolS) : (modPool s p f).claims = s.claims := rfl
@[simp] theorem modPool_ctxs (s : State) (p : Nat) (f : PoolS → PoolS) : (modPool s p f).ctxs = s.ctxs := rfl
@[simp] theorem modPool_ctxCores (s : State) (p : Nat) (f : PoolS → PoolS) : (modPool s p f).ctxCores = s.ctxCores := rfl
@[simp] theorem modPool_sems (s : State) (p : Nat) (f : PoolS → PoolS) : (modPool s p f).sems = s.sems := rfl
@[simp] theorem modPool_cores (s : State) (p : Nat) (f : PoolS → PoolS) : (modPool s p f).cores = s.cores := rfl
@[simp] theorem modPool_clus (s : State) (p : Nat) (f : PoolS → PoolS) : (modPool s p f).clus = s.clus := rfl
@[simp] theorem modPool_hbm (s : State) (p : Nat) (f : PoolS → PoolS) : (modPool s p f).hbm = s.hbm := rfl
@[simp] theorem modPool_trk (s : State) (p : Nat) (f : PoolS → PoolS) : (modPool s p f).trk = s.trk := rfl
@[simp] theorem modPool_out (s : State) (p : Nat) (f : PoolS → PoolS) : (modPool s p f).out = s.out := rfl
@[simp] theorem modPool_reeve (s : State) (p : Nat) (f : PoolS → PoolS) : (modPool s p f).reeve = s.reeve := rfl
@[simp] theorem modPool_faults (s : State) (p : Nat) (f : PoolS → PoolS) : (modPool s p f).faults = s.faults := rfl
@[simp] theorem modPool_winnow (s : State) (p : Nat) (f : PoolS → PoolS) : (modPool s p f).winnow = s.winnow := rfl
@[simp] theorem modPool_sec (s : State) (p : Nat) (f : PoolS → PoolS) : (modPool s p f).sec = s.sec := rfl
@[simp] theorem modPool_mgmt (s : State) (p : Nat) (f : PoolS → PoolS) : (modPool s p f).mgmt = s.mgmt := rfl
@[simp] theorem modPool_flash (s : State) (p : Nat) (f : PoolS → PoolS) : (modPool s p f).flash = s.flash := rfl
@[simp] theorem modPool_fab (s : State) (p : Nat) (f : PoolS → PoolS) : (modPool s p f).fab = s.fab := rfl

@[simp] theorem modPlan_pending (s : State) (i : Nat) (f : PlanS → PlanS) : (modPlan s i f).pending = s.pending := rfl
@[simp] theorem modPlan_tally (s : State) (i : Nat) (f : PlanS → PlanS) : (modPlan s i f).tally = s.tally := rfl
@[simp] theorem modPlan_tallyRun (s : State) (i : Nat) (f : PlanS → PlanS) : (modPlan s i f).tallyRun = s.tallyRun := rfl
@[simp] theorem modPlan_freeCtr (s : State) (i : Nat) (f : PlanS → PlanS) : (modPlan s i f).freeCtr = s.freeCtr := rfl
@[simp] theorem modPlan_gradeSC (s : State) (i : Nat) (f : PlanS → PlanS) : (modPlan s i f).gradeSC = s.gradeSC := rfl
@[simp] theorem modPlan_serial (s : State) (i : Nat) (f : PlanS → PlanS) : (modPlan s i f).serial = s.serial := rfl
@[simp] theorem modPlan_rf (s : State) (i : Nat) (f : PlanS → PlanS) : (modPlan s i f).rf = s.rf := rfl
@[simp] theorem modPlan_power (s : State) (i : Nat) (f : PlanS → PlanS) : (modPlan s i f).power = s.power := rfl
@[simp] theorem modPlan_pcie (s : State) (i : Nat) (f : PlanS → PlanS) : (modPlan s i f).pcie = s.pcie := rfl
@[simp] theorem modPlan_strm (s : State) (i : Nat) (f : PlanS → PlanS) : (modPlan s i f).strm = s.strm := rfl
@[simp] theorem modPlan_shape (s : State) (i : Nat) (f : PlanS → PlanS) : (modPlan s i f).shape = s.shape := rfl
@[simp] theorem modPlan_disp (s : State) (i : Nat) (f : PlanS → PlanS) : (modPlan s i f).disp = s.disp := rfl
@[simp] theorem modPlan_claims (s : State) (i : Nat) (f : PlanS → PlanS) : (modPlan s i f).claims = s.claims := rfl
@[simp] theorem modPlan_ctxs (s : State) (i : Nat) (f : PlanS → PlanS) : (modPlan s i f).ctxs = s.ctxs := rfl
@[simp] theorem modPlan_ctxCores (s : State) (i : Nat) (f : PlanS → PlanS) : (modPlan s i f).ctxCores = s.ctxCores := rfl
@[simp] theorem modPlan_sems (s : State) (i : Nat) (f : PlanS → PlanS) : (modPlan s i f).sems = s.sems := rfl
@[simp] theorem modPlan_cores (s : State) (i : Nat) (f : PlanS → PlanS) : (modPlan s i f).cores = s.cores := rfl
@[simp] theorem modPlan_clus (s : State) (i : Nat) (f : PlanS → PlanS) : (modPlan s i f).clus = s.clus := rfl
@[simp] theorem modPlan_hbm (s : State) (i : Nat) (f : PlanS → PlanS) : (modPlan s i f).hbm = s.hbm := rfl
@[simp] theorem modPlan_pools (s : State) (i : Nat) (f : PlanS → PlanS) : (modPlan s i f).pools = s.pools := rfl
@[simp] theorem modPlan_trk (s : State) (i : Nat) (f : PlanS → PlanS) : (modPlan s i f).trk = s.trk := rfl
@[simp] theorem modPlan_out (s : State) (i : Nat) (f : PlanS → PlanS) : (modPlan s i f).out = s.out := rfl
@[simp] theorem modPlan_reeve (s : State) (i : Nat) (f : PlanS → PlanS) : (modPlan s i f).reeve = s.reeve := rfl
@[simp] theorem modPlan_faults (s : State) (i : Nat) (f : PlanS → PlanS) : (modPlan s i f).faults = s.faults := rfl
@[simp] theorem modPlan_winnow (s : State) (i : Nat) (f : PlanS → PlanS) : (modPlan s i f).winnow = s.winnow := rfl
@[simp] theorem modPlan_sec (s : State) (i : Nat) (f : PlanS → PlanS) : (modPlan s i f).sec = s.sec := rfl
@[simp] theorem modPlan_mgmt (s : State) (i : Nat) (f : PlanS → PlanS) : (modPlan s i f).mgmt = s.mgmt := rfl
@[simp] theorem modPlan_flash (s : State) (i : Nat) (f : PlanS → PlanS) : (modPlan s i f).flash = s.flash := rfl
@[simp] theorem modPlan_fab (s : State) (i : Nat) (f : PlanS → PlanS) : (modPlan s i f).fab = s.fab := rfl

@[simp] theorem modItem_pending (s : State) (k : Nat) (f : Item → Item) : (modItem s k f).pending = s.pending := rfl
@[simp] theorem modItem_tally (s : State) (k : Nat) (f : Item → Item) : (modItem s k f).tally = s.tally := rfl
@[simp] theorem modItem_tallyRun (s : State) (k : Nat) (f : Item → Item) : (modItem s k f).tallyRun = s.tallyRun := rfl
@[simp] theorem modItem_freeCtr (s : State) (k : Nat) (f : Item → Item) : (modItem s k f).freeCtr = s.freeCtr := rfl
@[simp] theorem modItem_gradeSC (s : State) (k : Nat) (f : Item → Item) : (modItem s k f).gradeSC = s.gradeSC := rfl
@[simp] theorem modItem_serial (s : State) (k : Nat) (f : Item → Item) : (modItem s k f).serial = s.serial := rfl
@[simp] theorem modItem_rf (s : State) (k : Nat) (f : Item → Item) : (modItem s k f).rf = s.rf := rfl
@[simp] theorem modItem_power (s : State) (k : Nat) (f : Item → Item) : (modItem s k f).power = s.power := rfl
@[simp] theorem modItem_pcie (s : State) (k : Nat) (f : Item → Item) : (modItem s k f).pcie = s.pcie := rfl
@[simp] theorem modItem_strm (s : State) (k : Nat) (f : Item → Item) : (modItem s k f).strm = s.strm := rfl
@[simp] theorem modItem_shape (s : State) (k : Nat) (f : Item → Item) : (modItem s k f).shape = s.shape := rfl
@[simp] theorem modItem_plans (s : State) (k : Nat) (f : Item → Item) : (modItem s k f).plans = s.plans := rfl
@[simp] theorem modItem_claims (s : State) (k : Nat) (f : Item → Item) : (modItem s k f).claims = s.claims := rfl
@[simp] theorem modItem_ctxs (s : State) (k : Nat) (f : Item → Item) : (modItem s k f).ctxs = s.ctxs := rfl
@[simp] theorem modItem_ctxCores (s : State) (k : Nat) (f : Item → Item) : (modItem s k f).ctxCores = s.ctxCores := rfl
@[simp] theorem modItem_sems (s : State) (k : Nat) (f : Item → Item) : (modItem s k f).sems = s.sems := rfl
@[simp] theorem modItem_cores (s : State) (k : Nat) (f : Item → Item) : (modItem s k f).cores = s.cores := rfl
@[simp] theorem modItem_clus (s : State) (k : Nat) (f : Item → Item) : (modItem s k f).clus = s.clus := rfl
@[simp] theorem modItem_hbm (s : State) (k : Nat) (f : Item → Item) : (modItem s k f).hbm = s.hbm := rfl
@[simp] theorem modItem_pools (s : State) (k : Nat) (f : Item → Item) : (modItem s k f).pools = s.pools := rfl
@[simp] theorem modItem_trk (s : State) (k : Nat) (f : Item → Item) : (modItem s k f).trk = s.trk := rfl
@[simp] theorem modItem_out (s : State) (k : Nat) (f : Item → Item) : (modItem s k f).out = s.out := rfl
@[simp] theorem modItem_reeve (s : State) (k : Nat) (f : Item → Item) : (modItem s k f).reeve = s.reeve := rfl
@[simp] theorem modItem_faults (s : State) (k : Nat) (f : Item → Item) : (modItem s k f).faults = s.faults := rfl
@[simp] theorem modItem_winnow (s : State) (k : Nat) (f : Item → Item) : (modItem s k f).winnow = s.winnow := rfl
@[simp] theorem modItem_sec (s : State) (k : Nat) (f : Item → Item) : (modItem s k f).sec = s.sec := rfl
@[simp] theorem modItem_mgmt (s : State) (k : Nat) (f : Item → Item) : (modItem s k f).mgmt = s.mgmt := rfl
@[simp] theorem modItem_flash (s : State) (k : Nat) (f : Item → Item) : (modItem s k f).flash = s.flash := rfl
@[simp] theorem modItem_fab (s : State) (k : Nat) (f : Item → Item) : (modItem s k f).fab = s.fab := rfl

@[simp] theorem modSlot_pending (s : State) (n : Nat) (f : SlotS → SlotS) : (modSlot s n f).pending = s.pending := rfl
@[simp] theorem modSlot_tally (s : State) (n : Nat) (f : SlotS → SlotS) : (modSlot s n f).tally = s.tally := rfl
@[simp] theorem modSlot_tallyRun (s : State) (n : Nat) (f : SlotS → SlotS) : (modSlot s n f).tallyRun = s.tallyRun := rfl
@[simp] theorem modSlot_freeCtr (s : State) (n : Nat) (f : SlotS → SlotS) : (modSlot s n f).freeCtr = s.freeCtr := rfl
@[simp] theorem modSlot_gradeSC (s : State) (n : Nat) (f : SlotS → SlotS) : (modSlot s n f).gradeSC = s.gradeSC := rfl
@[simp] theorem modSlot_serial (s : State) (n : Nat) (f : SlotS → SlotS) : (modSlot s n f).serial = s.serial := rfl
@[simp] theorem modSlot_rf (s : State) (n : Nat) (f : SlotS → SlotS) : (modSlot s n f).rf = s.rf := rfl
@[simp] theorem modSlot_power (s : State) (n : Nat) (f : SlotS → SlotS) : (modSlot s n f).power = s.power := rfl
@[simp] theorem modSlot_pcie (s : State) (n : Nat) (f : SlotS → SlotS) : (modSlot s n f).pcie = s.pcie := rfl
@[simp] theorem modSlot_shape (s : State) (n : Nat) (f : SlotS → SlotS) : (modSlot s n f).shape = s.shape := rfl
@[simp] theorem modSlot_disp (s : State) (n : Nat) (f : SlotS → SlotS) : (modSlot s n f).disp = s.disp := rfl
@[simp] theorem modSlot_plans (s : State) (n : Nat) (f : SlotS → SlotS) : (modSlot s n f).plans = s.plans := rfl
@[simp] theorem modSlot_claims (s : State) (n : Nat) (f : SlotS → SlotS) : (modSlot s n f).claims = s.claims := rfl
@[simp] theorem modSlot_ctxs (s : State) (n : Nat) (f : SlotS → SlotS) : (modSlot s n f).ctxs = s.ctxs := rfl
@[simp] theorem modSlot_ctxCores (s : State) (n : Nat) (f : SlotS → SlotS) : (modSlot s n f).ctxCores = s.ctxCores := rfl
@[simp] theorem modSlot_sems (s : State) (n : Nat) (f : SlotS → SlotS) : (modSlot s n f).sems = s.sems := rfl
@[simp] theorem modSlot_cores (s : State) (n : Nat) (f : SlotS → SlotS) : (modSlot s n f).cores = s.cores := rfl
@[simp] theorem modSlot_clus (s : State) (n : Nat) (f : SlotS → SlotS) : (modSlot s n f).clus = s.clus := rfl
@[simp] theorem modSlot_hbm (s : State) (n : Nat) (f : SlotS → SlotS) : (modSlot s n f).hbm = s.hbm := rfl
@[simp] theorem modSlot_pools (s : State) (n : Nat) (f : SlotS → SlotS) : (modSlot s n f).pools = s.pools := rfl
@[simp] theorem modSlot_trk (s : State) (n : Nat) (f : SlotS → SlotS) : (modSlot s n f).trk = s.trk := rfl
@[simp] theorem modSlot_out (s : State) (n : Nat) (f : SlotS → SlotS) : (modSlot s n f).out = s.out := rfl
@[simp] theorem modSlot_reeve (s : State) (n : Nat) (f : SlotS → SlotS) : (modSlot s n f).reeve = s.reeve := rfl
@[simp] theorem modSlot_faults (s : State) (n : Nat) (f : SlotS → SlotS) : (modSlot s n f).faults = s.faults := rfl
@[simp] theorem modSlot_winnow (s : State) (n : Nat) (f : SlotS → SlotS) : (modSlot s n f).winnow = s.winnow := rfl
@[simp] theorem modSlot_sec (s : State) (n : Nat) (f : SlotS → SlotS) : (modSlot s n f).sec = s.sec := rfl
@[simp] theorem modSlot_mgmt (s : State) (n : Nat) (f : SlotS → SlotS) : (modSlot s n f).mgmt = s.mgmt := rfl
@[simp] theorem modSlot_flash (s : State) (n : Nat) (f : SlotS → SlotS) : (modSlot s n f).flash = s.flash := rfl
@[simp] theorem modSlot_fab (s : State) (n : Nat) (f : SlotS → SlotS) : (modSlot s n f).fab = s.fab := rfl

@[simp] theorem modLink_pending (s : State) (p : Nat) (f : LinkS → LinkS) : (modLink s p f).pending = s.pending := rfl
@[simp] theorem modLink_tally (s : State) (p : Nat) (f : LinkS → LinkS) : (modLink s p f).tally = s.tally := rfl
@[simp] theorem modLink_tallyRun (s : State) (p : Nat) (f : LinkS → LinkS) : (modLink s p f).tallyRun = s.tallyRun := rfl
@[simp] theorem modLink_freeCtr (s : State) (p : Nat) (f : LinkS → LinkS) : (modLink s p f).freeCtr = s.freeCtr := rfl
@[simp] theorem modLink_gradeSC (s : State) (p : Nat) (f : LinkS → LinkS) : (modLink s p f).gradeSC = s.gradeSC := rfl
@[simp] theorem modLink_serial (s : State) (p : Nat) (f : LinkS → LinkS) : (modLink s p f).serial = s.serial := rfl
@[simp] theorem modLink_rf (s : State) (p : Nat) (f : LinkS → LinkS) : (modLink s p f).rf = s.rf := rfl
@[simp] theorem modLink_power (s : State) (p : Nat) (f : LinkS → LinkS) : (modLink s p f).power = s.power := rfl
@[simp] theorem modLink_pcie (s : State) (p : Nat) (f : LinkS → LinkS) : (modLink s p f).pcie = s.pcie := rfl
@[simp] theorem modLink_strm (s : State) (p : Nat) (f : LinkS → LinkS) : (modLink s p f).strm = s.strm := rfl
@[simp] theorem modLink_shape (s : State) (p : Nat) (f : LinkS → LinkS) : (modLink s p f).shape = s.shape := rfl
@[simp] theorem modLink_disp (s : State) (p : Nat) (f : LinkS → LinkS) : (modLink s p f).disp = s.disp := rfl
@[simp] theorem modLink_plans (s : State) (p : Nat) (f : LinkS → LinkS) : (modLink s p f).plans = s.plans := rfl
@[simp] theorem modLink_claims (s : State) (p : Nat) (f : LinkS → LinkS) : (modLink s p f).claims = s.claims := rfl
@[simp] theorem modLink_ctxs (s : State) (p : Nat) (f : LinkS → LinkS) : (modLink s p f).ctxs = s.ctxs := rfl
@[simp] theorem modLink_ctxCores (s : State) (p : Nat) (f : LinkS → LinkS) : (modLink s p f).ctxCores = s.ctxCores := rfl
@[simp] theorem modLink_sems (s : State) (p : Nat) (f : LinkS → LinkS) : (modLink s p f).sems = s.sems := rfl
@[simp] theorem modLink_cores (s : State) (p : Nat) (f : LinkS → LinkS) : (modLink s p f).cores = s.cores := rfl
@[simp] theorem modLink_clus (s : State) (p : Nat) (f : LinkS → LinkS) : (modLink s p f).clus = s.clus := rfl
@[simp] theorem modLink_hbm (s : State) (p : Nat) (f : LinkS → LinkS) : (modLink s p f).hbm = s.hbm := rfl
@[simp] theorem modLink_pools (s : State) (p : Nat) (f : LinkS → LinkS) : (modLink s p f).pools = s.pools := rfl
@[simp] theorem modLink_trk (s : State) (p : Nat) (f : LinkS → LinkS) : (modLink s p f).trk = s.trk := rfl
@[simp] theorem modLink_out (s : State) (p : Nat) (f : LinkS → LinkS) : (modLink s p f).out = s.out := rfl
@[simp] theorem modLink_reeve (s : State) (p : Nat) (f : LinkS → LinkS) : (modLink s p f).reeve = s.reeve := rfl
@[simp] theorem modLink_faults (s : State) (p : Nat) (f : LinkS → LinkS) : (modLink s p f).faults = s.faults := rfl
@[simp] theorem modLink_winnow (s : State) (p : Nat) (f : LinkS → LinkS) : (modLink s p f).winnow = s.winnow := rfl
@[simp] theorem modLink_sec (s : State) (p : Nat) (f : LinkS → LinkS) : (modLink s p f).sec = s.sec := rfl
@[simp] theorem modLink_mgmt (s : State) (p : Nat) (f : LinkS → LinkS) : (modLink s p f).mgmt = s.mgmt := rfl
@[simp] theorem modLink_flash (s : State) (p : Nat) (f : LinkS → LinkS) : (modLink s p f).flash = s.flash := rfl

end Sys2Proof.Machine
end

