-- ==== Sys2Proof/Laws/Mailbox.lean ====
section
/-!
SUPPORT. Sys2Proof/Laws/Mailbox.lean: what the mailbox does with a request that passes its checks, with one that comes outside every
session, and with one that proves a challenge (14_security_and_sessions.md R337, R338).
-/

namespace Sys2Proof.Machine

theorem sess_setR (s : State) (f : Fld) (v i : Nat) : sess (setR s f v) i = sess s i := rfl

theorem sess_addR (s : State) (f : Fld) (v i : Nat) : sess (addR s f v) i = sess s i := rfl

theorem sess_putSess (s : State) (i : Nat) (x : Sess) : sess (putSess s i x) i = x := by
  show tget {} (tset {} s.sec.sess i x) i = x
  rw [tget_tset_same]

theorem tagOf_addR (s : State) (f : Fld) (v i : Nat) : tagOf (addR s f v) i = tagOf s i := rfl

theorem mbMay_badRun (s t : State) (i cmd n : Nat) (roles : Option Nat → Bool) (h : sess t i = { sess s i with badRun := n }) :
    mbMay t i cmd roles = mbMay s i cmd roles := by
  unfold mbMay
  rw [h]

theorem mbFrom_slot {s : State} {r : MbReq} {cmd : Nat} (h0 : r.session ≠ 0) (ht : tagOf s (r.session % 16) = r.session)
    (ho : (asker s r).isOpen = true ∨ ((asker s r).pending = true ∧ cmd = 2)) : mbFrom s r cmd = .slot (r.session % 16) := by
  unfold mbFrom
  rw [if_neg h0]
  exact if_pos ⟨ht, ho⟩

/-- A request that passes every check is carried out in the state that counts it. -/
theorem mailbox_asks {s : State} {r : MbReq} {cmd : Nat} {p : List Byte} {roles : Option Nat → Bool} (no4 : Nat) (body : State → State)
    (h : Asks s r cmd p roles) : mailbox cmd r p roles no4 body s = body (asked s r) := by
  obtain ⟨_, hu, hb, h0, ht, ho, hq, htag, hm⟩ := h
  have hfrom : mbFrom (addR s F.SEC_COMMANDS 1) r cmd = .slot (r.session % 16) :=
    mbFrom_slot (s := addR s F.SEC_COMMANDS 1) h0 ht (Or.inl ho)
  have hw : wantTag (addR s F.SEC_COMMANDS 1) r (r.session % 16) cmd p = r.tag :=
    ((if_pos ho : wantTag (addR s F.SEC_COMMANDS 1) r (r.session % 16) cmd p = _).trans htag.symm)
  have hm' : mbMay (putSess (addR s F.SEC_COMMANDS 1) (r.session % 16)
      { sess (addR s F.SEC_COMMANDS 1) (r.session % 16) with badRun := 0 }) (r.session % 16) cmd roles = true :=
    (mbMay_badRun s _ _ _ 0 roles (sess_putSess _ _ _)).trans hm
  have hs : (if (sess (addR s F.SEC_COMMANDS 1) (r.session % 16)).isOpen = true
      then (sess (addR s F.SEC_COMMANDS 1) (r.session % 16)).seq else 0) = r.seq := (if_pos ho).trans hq.symm
  unfold mailbox guardOn
  rw [if_pos hu]
  refine (if_neg (fun h => hb h.1)).trans ?_
  dsimp only
  rw [hfrom]
  dsimp only
  rw [hs, hw, if_neg (by simp), if_neg (by simp)]
  rw [if_pos hm', if_pos (show (sess (addR s F.SEC_COMMANDS 1) (r.session % 16)).isOpen = true from ho)]
  rfl

/-- A request outside every session, of a command that may come so, is carried out in the state that counts it. -/
theorem mailbox_openly {s : State} {r : MbReq} (cmd : Nat) (p : List Byte) (roles : Option Nat → Bool) (no4 : Nat)
    (body : State → State) (h : AsksOpenly s r) (hc : cmd = 1 ∨ cmd = 4 ∨ cmd = 0x41) (hr : roles none = true) :
    mailbox cmd r p roles no4 body s = body (addR s F.SEC_COMMANDS 1) := by
  obtain ⟨hl, hu, hb, h0, ht⟩ := h
  have hfrom : mbFrom (addR s F.SEC_COMMANDS 1) r cmd = .none := by
    simp only [mbFrom, if_pos h0, if_pos hc]
  unfold mailbox guardOn
  rw [if_pos hu]
  refine (if_neg (fun h => hb h.1)).trans ?_
  dsimp only
  rw [hfrom]
  dsimp only
  rw [if_neg (by simp [ht]), if_pos hr]

/-- The answer to a challenge is carried out in the state that counts it. -/
theorem mailbox_proves {s : State} {r : MbReq} (p : List Byte) (roles : Option Nat → Bool) (no4 : Nat) (body : State → State)
    (hu : pageUp s 7 = true) (hb : reg s F.SEC_MB_STATE_STATE ≠ 1) (h0 : r.session ≠ 0) (ht : tagOf s (r.session % 16) = r.session)
    (ho : (asker s r).isOpen = false) (hp : (asker s r).pending = true) (hq : r.seq = 0)
    (htag : r.tag = Config.kmac256 ((roleKey s (asker s r).role).getD 0) (transcript s (r.session % 16)) 256 "LK6424 PROVE") :
    mailbox 2 r p roles no4 body s =
      body (putSess (addR s F.SEC_COMMANDS 1) (r.session % 16) { asker s r with badRun := 0 }) := by
  have hfrom : mbFrom (addR s F.SEC_COMMANDS 1) r 2 = .slot (r.session % 16) :=
    mbFrom_slot (s := addR s F.SEC_COMMANDS 1) h0 ht (Or.inr ⟨hp, rfl⟩)
  have ho' : (sess (addR s F.SEC_COMMANDS 1) (r.session % 16)).isOpen ≠ true := by
    rw [show (sess (addR s F.SEC_COMMANDS 1) (r.session % 16)).isOpen = false from ho]
    simp
  have hw : wantTag (addR s F.SEC_COMMANDS 1) r (r.session % 16) 2 p = r.tag := (if_neg ho').trans htag.symm
  have hm' : mbMay (putSess (addR s F.SEC_COMMANDS 1) (r.session % 16)
      { sess (addR s F.SEC_COMMANDS 1) (r.session % 16) with badRun := 0 }) (r.session % 16) 2 roles = true :=
    (mbMay_badRun s _ _ _ 0 roles (sess_putSess _ _ _)).trans ((if_neg ho').trans rfl)
  have hs : (if (sess (addR s F.SEC_COMMANDS 1) (r.session % 16)).isOpen = true
      then (sess (addR s F.SEC_COMMANDS 1) (r.session % 16)).seq else 0) = r.seq := (if_neg ho').trans hq.symm
  unfold mailbox guardOn
  rw [if_pos hu]
  refine (if_neg (fun h => hb h.1)).trans ?_
  dsimp only
  rw [hfrom]
  dsimp only
  rw [hs, hw, if_neg (by simp), if_neg (by simp)]
  rw [if_pos hm', if_neg ho']
  rfl

end Sys2Proof.Machine
end

