-- ==== Sys2Proof/Laws/PerInstr.lean ====
section
/-!
SUPPORT. Sys2Proof/Laws/PerInstr.lean: what holds of every command: it answers a next state but for the one stop, keeps the memories
canonical, and leaves the base part alone unless it is one of those that change it. One lemma per command.
-/

namespace Sys2Proof.Laws

open Sys2Proof.Machine

/-- What every command does. -/
def Runs.Statement (i : Sys2Proof.Instr) : Prop :=
  ∀ s : Machine.State, (∃ t, Machine.exec i s = .next t ∧ (s.Canon → t.Canon) ∧
    (i.changesBase = false → t.base = s.base)) ∨
    (Machine.exec i s = .refused .debugInstruction ∧ i.stopsAt s)

theorem Runs.of_keeps {i : Sys2Proof.Instr} (h : ∀ s : Machine.State, ∃ t, Machine.exec i s = .next t ∧ Machine.Keeps s t) :
    Runs.Statement i := by
  intro s
  obtain ⟨t, h1, h2⟩ := h s
  exact Or.inl ⟨t, h1, h2.2, fun _ => h2.1⟩

theorem Runs.vddAonPowerOn (sc : Bool) (serial : Nat) (testEn : Bool) (smbAddr : Nat) :
    Runs.Statement (.vddAonPowerOn sc serial testEn smbAddr) := by
  intro s
  obtain ⟨t, h1, h2, _⟩ := Machine.execVddAonPowerOn_runs sc serial testEn smbAddr s
  exact Or.inl ⟨t, h1, h2, fun h => nomatch h⟩

theorem Runs.perstNAssert : Runs.Statement .perstNAssert := by
  intro s
  obtain ⟨t, h1, h2, _⟩ := Machine.execPerstNAssert_runs s
  exact Or.inl ⟨t, h1, h2, fun h => nomatch h⟩

theorem Runs.perstNRelease (boot : BootIn) :
    Runs.Statement (.perstNRelease boot) := by
  intro s
  obtain ⟨t, h1, h2, _⟩ := Machine.execPerstNRelease_runs boot s
  exact Or.inl ⟨t, h1, h2, fun h => nomatch h⟩

theorem Runs.clockLossReset (cause : Nat) :
    Runs.Statement (.clockLossReset cause) := by
  intro s
  obtain ⟨t, h1, h2, _⟩ := Machine.execClockLossReset_runs cause s
  exact Or.inl ⟨t, h1, h2, fun h => nomatch h⟩

theorem Runs.hotReset : Runs.Statement .hotReset :=
  Runs.of_keeps (Machine.execHotReset_runs)

theorem Runs.linkDown : Runs.Statement .linkDown :=
  Runs.of_keeps (Machine.execLinkDown_runs)

theorem Runs.functionLevelReset : Runs.Statement .functionLevelReset :=
  Runs.of_keeps (Machine.execFunctionLevelReset_runs)

theorem Runs.d3hotEntry : Runs.Statement .d3hotEntry :=
  Runs.of_keeps (Machine.execD3hotEntry_runs)

theorem Runs.d0Return : Runs.Statement .d0Return :=
  Runs.of_keeps (Machine.execD0Return_runs)

theorem Runs.pmeTurnOff : Runs.Statement .pmeTurnOff :=
  Runs.of_keeps (Machine.execPmeTurnOff_runs)

theorem Runs.busMasterEnableClear : Runs.Statement .busMasterEnableClear :=
  Runs.of_keeps (Machine.execBusMasterEnableClear_runs)

theorem Runs.completionReceived (tag : Nat) (status : CplStatus) (bytes : List Byte) :
    Runs.Statement (.completionReceived tag status bytes) :=
  Runs.of_keeps (Machine.execCompletionReceived_runs tag status bytes)

theorem Runs.completionTimeout (tag : Nat) :
    Runs.Statement (.completionTimeout tag) :=
  Runs.of_keeps (Machine.execCompletionTimeout_runs tag)

theorem Runs.msixUnmask (vector : Nat) :
    Runs.Statement (.msixUnmask vector) :=
  Runs.of_keeps (Machine.execMsixUnmask_runs vector)

theorem Runs.smbusReadTemperature (sensor : Nat) :
    Runs.Statement (.smbusReadTemperature sensor) :=
  Runs.of_keeps (Machine.execSmbusReadTemperature_runs sensor)

theorem Runs.smbusReadVcore : Runs.Statement .smbusReadVcore :=
  Runs.of_keeps (Machine.execSmbusReadVcore_runs)

theorem Runs.smbusReadStatus : Runs.Statement .smbusReadStatus :=
  Runs.of_keeps (Machine.execSmbusReadStatus_runs)

theorem Runs.smbusReadTrim : Runs.Statement .smbusReadTrim :=
  Runs.of_keeps (Machine.execSmbusReadTrim_runs)

theorem Runs.smbusWake : Runs.Statement .smbusWake :=
  Runs.of_keeps (Machine.execSmbusWake_runs)

theorem Runs.alertResponse : Runs.Statement .alertResponse :=
  Runs.of_keeps (Machine.execAlertResponse_runs)

theorem Runs.registerWrite (by_ : Writer) (space : Space) (addr : Nat) (size : Nat) (value : Nat) :
    Runs.Statement (.registerWrite by_ space addr size value) :=
  Runs.of_keeps (Machine.execRegisterWrite_runs by_ space addr size value)

theorem Runs.loRead (space : Space) (addr size : Nat) :
    Runs.Statement (.loRead space addr size) :=
  Runs.of_keeps (Machine.execLoRead_runs space addr size)

theorem Runs.rcRead (addr : Nat) :
    Runs.Statement (.rcRead addr) :=
  Runs.of_keeps (Machine.execRcRead_runs addr)

theorem Runs.intStatusClear (addr : Nat) (value : Nat) (session : Option Nat) :
    Runs.Statement (.intStatusClear addr value session) :=
  Runs.of_keeps (Machine.execIntStatusClear_runs addr value session)

theorem Runs.intForce (page : Nat) (bits : Nat) (session : Nat) :
    Runs.Statement (.intForce page bits session) :=
  Runs.of_keeps (Machine.execIntForce_runs page bits session)

theorem Runs.errClr (page : Nat) (session : Option Nat) :
    Runs.Statement (.errClr page session) :=
  Runs.of_keeps (Machine.execErrClr_runs page session)

theorem Runs.pageCommitHost (page : Nat) (sel : Nat) (session : Option Nat) :
    Runs.Statement (.pageCommitHost page sel session) :=
  Runs.of_keeps (Machine.execPageCommitHost_runs page sel session)

theorem Runs.pageCommitFw (page : Nat) :
    Runs.Statement (.pageCommitFw page) :=
  Runs.of_keeps (Machine.execPageCommitFw_runs page)

theorem Runs.commitPoint (page : Nat) :
    Runs.Statement (.commitPoint page) :=
  Runs.of_keeps (Machine.execCommitPoint_runs page)

theorem Runs.ringRidxWrite (ring : Nat) (idx : Nat) :
    Runs.Statement (.ringRidxWrite ring idx) :=
  Runs.of_keeps (Machine.execRingRidxWrite_runs ring idx)

theorem Runs.dispJournalRidxWrite (idx : Nat) :
    Runs.Statement (.dispJournalRidxWrite idx) :=
  Runs.of_keeps (Machine.execDispJournalRidxWrite_runs idx)

theorem Runs.relayOutRidxWrite (idx : Nat) :
    Runs.Statement (.relayOutRidxWrite idx) :=
  Runs.of_keeps (Machine.execRelayOutRidxWrite_runs idx)

theorem Runs.leaseRenew : Runs.Statement .leaseRenew :=
  Runs.of_keeps (Machine.execLeaseRenew_runs)

theorem Runs.reeveFaultClr (session : Option Nat) :
    Runs.Statement (.reeveFaultClr session) :=
  Runs.of_keeps (Machine.execReeveFaultClr_runs session)

theorem Runs.mgmtFjSelWrite (n : Nat) :
    Runs.Statement (.mgmtFjSelWrite n) :=
  Runs.of_keeps (Machine.execMgmtFjSelWrite_runs n)

theorem Runs.trainingRun (ch : Nat) (value : Nat) :
    Runs.Statement (.trainingRun ch value) :=
  Runs.of_keeps (Machine.execTrainingRun_runs ch value)

theorem Runs.trainingRunDone (ch : Nat) (mism : List Nat) :
    Runs.Statement (.trainingRunDone ch mism) :=
  Runs.of_keeps (Machine.execTrainingRunDone_runs ch mism)

theorem Runs.openOp (r : MbReq) (role : Nat) (iface : Nat) (minSvn : Nat) (hwm : Nat) (hostNonce : Nat) :
    Runs.Statement (.openOp r role iface minSvn hwm hostNonce) :=
  Runs.of_keeps (Machine.execOpenOp_runs r role iface minSvn hwm hostNonce)

theorem Runs.prove (r : MbReq) :
    Runs.Statement (.prove r) :=
  Runs.of_keeps (Machine.execProve_runs r)

theorem Runs.challengeExpiry (slot : Nat) :
    Runs.Statement (.challengeExpiry slot) :=
  Runs.of_keeps (Machine.execChallengeExpiry_runs slot)

theorem Runs.close (r : MbReq) :
    Runs.Statement (.close r) :=
  Runs.of_keeps (Machine.execClose_runs r)

theorem Runs.provision (r : MbReq) (role : Nat) (ct : List Byte) :
    Runs.Statement (.provision r role ct) :=
  Runs.of_keeps (Machine.execProvision_runs r role ct)

theorem Runs.roleClear (r : MbReq) (role : Nat) :
    Runs.Statement (.roleClear r role) :=
  Runs.of_keeps (Machine.execRoleClear_runs r role)

theorem Runs.regWrite (r : MbReq) (count : Nat) (writes : List RegW) :
    Runs.Statement (.regWrite r count writes) :=
  Runs.of_keeps (Machine.execRegWrite_runs r count writes)

theorem Runs.adopt (r : MbReq) (mask : Nat) :
    Runs.Statement (.adopt r mask) :=
  Runs.of_keeps (Machine.execAdopt_runs r mask)

theorem Runs.reeveSet (r : MbReq) (pipe : Nat) (cfg : Nat) (age : Nat) (period : Nat) :
    Runs.Statement (.reeveSet r pipe cfg age period) :=
  Runs.of_keeps (Machine.execReeveSet_runs r pipe cfg age period)

theorem Runs.modelKey (r : MbReq) (keyId : Nat) (ct : List Byte) :
    Runs.Statement (.modelKey r keyId ct) :=
  Runs.of_keeps (Machine.execModelKey_runs r keyId ct)

theorem Runs.modelKeyDelete (r : MbReq) (keyId : Nat) :
    Runs.Statement (.modelKeyDelete r keyId) :=
  Runs.of_keeps (Machine.execModelKeyDelete_runs r keyId)

theorem Runs.install (r : MbReq) (addr : Nat) (len : Nat) (img : PlanImage) :
    Runs.Statement (.install r addr len img) :=
  Runs.of_keeps (Machine.execInstall_runs r addr len img)

theorem Runs.installCommit : Runs.Statement .installCommit :=
  Runs.of_keeps (Machine.execInstallCommit_runs)

theorem Runs.uninstall (r : MbReq) (plan : Nat) :
    Runs.Statement (.uninstall r plan) :=
  Runs.of_keeps (Machine.execUninstall_runs r plan)

theorem Runs.unlockStream (r : MbReq) (mask : Nat) :
    Runs.Statement (.unlockStream r mask) :=
  Runs.of_keeps (Machine.execUnlockStream_runs r mask)

theorem Runs.unlockTensor (r : MbReq) (plan : Nat) (output : Nat) (count : Nat) :
    Runs.Statement (.unlockTensor r plan output count) :=
  Runs.of_keeps (Machine.execUnlockTensor_runs r plan output count)

theorem Runs.embRead (r : MbReq) (slot : Nat) (first : Nat) (count : Nat) :
    Runs.Statement (.embRead r slot first count) :=
  Runs.of_keeps (Machine.execEmbRead_runs r slot first count)

theorem Runs.lock (r : MbReq) (mask : Nat) (plan : Nat) :
    Runs.Statement (.lock r mask plan) :=
  Runs.of_keeps (Machine.execLock_runs r mask plan)

theorem Runs.lockAck (r : MbReq) :
    Runs.Statement (.lockAck r) :=
  Runs.of_keeps (Machine.execLockAck_runs r)

theorem Runs.attest (r : MbReq) (nonce : Nat) :
    Runs.Statement (.attest r nonce) :=
  Runs.of_keeps (Machine.execAttest_runs r nonce)

theorem Runs.getCert (r : MbReq) (part : Nat) :
    Runs.Statement (.getCert r part) :=
  Runs.of_keeps (Machine.execGetCert_runs r part)

theorem Runs.fwUpdate (r : MbReq) (addr : Nat) (len : Nat) (img : FwImage) :
    Runs.Statement (.fwUpdate r addr len img) :=
  Runs.of_keeps (Machine.execFwUpdate_runs r addr len img)

theorem Runs.repairAuth (r : MbReq) (ch : Nat) (row : Nat) :
    Runs.Statement (.repairAuth r ch row) :=
  Runs.of_keeps (Machine.execRepairAuth_runs r ch row)

theorem Runs.recover (r : MbReq) :
    Runs.Statement (.recover r) :=
  Runs.of_keeps (Machine.execRecover_runs r)

theorem Runs.testMode (r : MbReq) (on : Bool) :
    Runs.Statement (.testMode r on) :=
  Runs.of_keeps (Machine.execTestMode_runs r on)

theorem Runs.placementEdit (r : MbReq) (edits : List (Nat × Nat)) :
    Runs.Statement (.placementEdit r edits) :=
  Runs.of_keeps (Machine.execPlacementEdit_runs r edits)

theorem Runs.jtagUnlock (r : MbReq) :
    Runs.Statement (.jtagUnlock r) :=
  Runs.of_keeps (Machine.execJtagUnlock_runs r)

theorem Runs.locksmithZeroise : Runs.Statement .locksmithZeroise :=
  Runs.of_keeps (Machine.execLocksmithZeroise_runs)

theorem Runs.keysReloaded : Runs.Statement .keysReloaded :=
  Runs.of_keeps (Machine.execKeysReloaded_runs)

theorem Runs.intakePoll : Runs.Statement .intakePoll :=
  Runs.of_keeps (Machine.execIntakePoll_runs)

theorem Runs.descriptorRead (slot : Nat) :
    Runs.Statement (.descriptorRead slot) :=
  Runs.of_keeps (Machine.execDescriptorRead_runs slot)

theorem Runs.auCopyDone (slot : Nat) :
    Runs.Statement (.auCopyDone slot) :=
  Runs.of_keeps (Machine.execAuCopyDone_runs slot)

theorem Runs.pictureDecodeStart (claims : Claims) :
    Runs.Statement (.pictureDecodeStart claims) :=
  Runs.of_keeps (Machine.execPictureDecodeStart_runs claims)

theorem Runs.decodeComplete (core : Nat) (d : Decoded) :
    Runs.Statement (.decodeComplete core d) :=
  Runs.of_keeps (Machine.execDecodeComplete_runs core d)

theorem Runs.decodeBudgetExpiry (core : Nat) :
    Runs.Statement (.decodeBudgetExpiry core) :=
  Runs.of_keeps (Machine.execDecodeBudgetExpiry_runs core)

theorem Runs.frameStart (port : Nat) :
    Runs.Statement (.frameStart port) :=
  Runs.of_keeps (Machine.execFrameStart_runs port)

theorem Runs.csiPacket (port : Nat) (pkt : CsiPkt) :
    Runs.Statement (.csiPacket port pkt) :=
  Runs.of_keeps (Machine.execCsiPacket_runs port pkt)

theorem Runs.frameEnd (port : Nat) :
    Runs.Statement (.frameEnd port) :=
  Runs.of_keeps (Machine.execFrameEnd_runs port)

theorem Runs.frameEndTimeout (port : Nat) :
    Runs.Statement (.frameEndTimeout port) :=
  Runs.of_keeps (Machine.execFrameEndTimeout_runs port)

theorem Runs.recordItem (slot : Nat) :
    Runs.Statement (.recordItem slot) :=
  Runs.of_keeps (Machine.execRecordItem_runs slot)

theorem Runs.scalerStageStart (item : Nat) (stage : Nat) :
    Runs.Statement (.scalerStageStart item stage) :=
  Runs.of_keeps (Machine.execScalerStageStart_runs item stage)

theorem Runs.scalerStageDone : Runs.Statement .scalerStageDone :=
  Runs.of_keeps (Machine.execScalerStageDone_runs)

theorem Runs.sickleStageStart (unit : Nat) (item : Nat) (stage : Nat) :
    Runs.Statement (.sickleStageStart unit item stage) :=
  Runs.of_keeps (Machine.execSickleStageStart_runs unit item stage)

theorem Runs.sickleGranuleRead (unit : Nat) :
    Runs.Statement (.sickleGranuleRead unit) :=
  Runs.of_keeps (Machine.execSickleGranuleRead_runs unit)

theorem Runs.sickleBoxStart (unit : Nat) :
    Runs.Statement (.sickleBoxStart unit) :=
  Runs.of_keeps (Machine.execSickleBoxStart_runs unit)

theorem Runs.sickleBoxEnd (unit : Nat) :
    Runs.Statement (.sickleBoxEnd unit) :=
  Runs.of_keeps (Machine.execSickleBoxEnd_runs unit)

theorem Runs.pack (item : Nat) (stage : Nat) (samples : List PackSrc) :
    Runs.Statement (.pack item stage samples) :=
  Runs.of_keeps (Machine.execPack_runs item stage samples)

theorem Runs.encoderPictureTake (enc : Nat) (slot : Nat) (src : Nat) :
    Runs.Statement (.encoderPictureTake enc slot src) :=
  Runs.of_keeps (Machine.execEncoderPictureTake_runs enc slot src)

theorem Runs.encodeSliceDone (enc : Nat) :
    Runs.Statement (.encodeSliceDone enc) :=
  Runs.of_keeps (Machine.execEncodeSliceDone_runs enc)

theorem Runs.encodePictureDone (enc : Nat) :
    Runs.Statement (.encodePictureDone enc) :=
  Runs.of_keeps (Machine.execEncodePictureDone_runs enc)

theorem Runs.ledgerPoll : Runs.Statement .ledgerPoll :=
  Runs.of_keeps (Machine.execLedgerPoll_runs)

theorem Runs.ledgerEntryArrival : Runs.Statement .ledgerEntryArrival :=
  Runs.of_keeps (Machine.execLedgerEntryArrival_runs)

theorem Runs.pinnedLaunchDecision (item : Nat) :
    Runs.Statement (.pinnedLaunchDecision item) :=
  Runs.of_keeps (Machine.execPinnedLaunchDecision_runs item)

theorem Runs.pinnedLaunch (item : Nat) :
    Runs.Statement (.pinnedLaunch item) :=
  Runs.of_keeps (Machine.execPinnedLaunch_runs item)

theorem Runs.pooledPlacement : Runs.Statement .pooledPlacement :=
  Runs.of_keeps (Machine.execPooledPlacement_runs)

theorem Runs.eviction : Runs.Statement .eviction :=
  Runs.of_keeps (Machine.execEviction_runs)

theorem Runs.deadlineRefusal (item : Nat) :
    Runs.Statement (.deadlineRefusal item) :=
  Runs.of_keeps (Machine.execDeadlineRefusal_runs item)

theorem Runs.preemptionArrival (core : Nat) :
    Runs.Statement (.preemptionArrival core) :=
  Runs.of_keeps (Machine.execPreemptionArrival_runs core)

theorem Runs.contextSave (core : Nat) :
    Runs.Statement (.contextSave core) :=
  Runs.of_keeps (Machine.execContextSave_runs core)

theorem Runs.contextSaveLanded (core : Nat) :
    Runs.Statement (.contextSaveLanded core) :=
  Runs.of_keeps (Machine.execContextSaveLanded_runs core)

theorem Runs.contextMove (ctx : Nat) :
    Runs.Statement (.contextMove ctx) :=
  Runs.of_keeps (Machine.execContextMove_runs ctx)

theorem Runs.contextMoveDone (ctx : Nat) :
    Runs.Statement (.contextMoveDone ctx) :=
  Runs.of_keeps (Machine.execContextMoveDone_runs ctx)

theorem Runs.contextRestore (item : Nat) :
    Runs.Statement (.contextRestore item) :=
  Runs.of_keeps (Machine.execContextRestore_runs item)

theorem Runs.creditReturnTimeout (core : Nat) :
    Runs.Statement (.creditReturnTimeout core) :=
  Runs.of_keeps (Machine.execCreditReturnTimeout_runs core)

theorem Runs.leaseExpiry : Runs.Statement .leaseExpiry :=
  Runs.of_keeps (Machine.execLeaseExpiry_runs)

theorem Runs.autonomousRepeat (plan : Nat) (offset : Nat) :
    Runs.Statement (.autonomousRepeat plan offset) :=
  Runs.of_keeps (Machine.execAutonomousRepeat_runs plan offset)

theorem Runs.ld (core : Nat) (g : GranRef) (d : LdDst) (bytes : Nat) (tok : Toks) :
    Runs.Statement (.ld core g d bytes tok) :=
  Runs.of_keeps (Machine.execLd_runs core g d bytes tok)

theorem Runs.st (core : Nat) (x : BinRef) (g : GranRef) (bytes : Nat) (tok : Toks) :
    Runs.Statement (.st core x g bytes tok) :=
  Runs.of_keeps (Machine.execSt_runs core x g bytes tok)

theorem Runs.ldw (core : Nat) (g : GranRef) (x : BinRef) (bytes : Nat) (tag : Nat) (tok : Toks) :
    Runs.Statement (.ldw core g x bytes tag tok) :=
  Runs.of_keeps (Machine.execLdw_runs core g x bytes tag tok)

theorem Runs.cb (core : Nat) (x : BinRef) (tok : Toks) :
    Runs.Statement (.cb core x tok) :=
  Runs.of_keeps (Machine.execCb_runs core x tok)

theorem Runs.mm (core : Nat) (op : MMOp) (tok : Toks) (residueErr : Bool) :
    Runs.Statement (.mm core op tok residueErr) :=
  Runs.of_keeps (Machine.execMm_runs core op tok residueErr)

theorem Runs.relu (core : Nat) (fmt : Fmt) (n : Nat) (x : BinRef) (y : BinRef) (tok : Toks) :
    Runs.Statement (.relu core fmt n x y tok) :=
  Runs.of_keeps (Machine.execRelu_runs core fmt n x y tok)

theorem Runs.clip (core : Nat) (fmt : Fmt) (n : Nat) (lo : Nat) (hi : Nat) (x : BinRef) (y : BinRef) (tok : Toks) :
    Runs.Statement (.clip core fmt n lo hi x y tok) :=
  Runs.of_keeps (Machine.execClip_runs core fmt n lo hi x y tok)

theorem Runs.requantise (core : Nat) (src : Fmt) (n : Nat) (x : BinRef) (scl : BinRef) (y : BinRef) (om : Option OutMap) (tok : Toks) :
    Runs.Statement (.requantise core src n x scl y om tok) :=
  Runs.of_keeps (Machine.execRequantise_runs core src n x scl y om tok)

theorem Runs.tableFunction (core : Nat) (n : Nat) (p : TabPar) (x : BinRef) (y : BinRef) (tok : Toks) :
    Runs.Statement (.tableFunction core n p x y tok) :=
  Runs.of_keeps (Machine.execTableFunction_runs core n p x y tok)

theorem Runs.maxAbs (core : Nat) (fmt : Fmt) (n : Nat) (x : BinRef) (y : BinRef) (tok : Toks) :
    Runs.Statement (.maxAbs core fmt n x y tok) :=
  Runs.of_keeps (Machine.execMaxAbs_runs core fmt n x y tok)

theorem Runs.softmax (core : Nat) (n : Nat) (src : Fmt) (scale : Nat) (dst : Fmt) (x : BinRef) (y : BinRef) (tok : Toks) :
    Runs.Statement (.softmax core n src scale dst x y tok) :=
  Runs.of_keeps (Machine.execSoftmax_runs core n src scale dst x y tok)

theorem Runs.layerNormalisation (core : Nat) (n : Nat) (eps : Nat) (x : BinRef) (gamma : BinRef) (beta : BinRef) (y : BinRef) (tok : Toks) :
    Runs.Statement (.layerNormalisation core n eps x gamma beta y tok) :=
  Runs.of_keeps (Machine.execLayerNormalisation_runs core n eps x gamma beta y tok)

theorem Runs.boxDecoding (core : Nat) (p : BoxPar) (anchors : BinRef) (scores : BinRef) (regs : BinRef) (y : BinRef) (tok : Toks) :
    Runs.Statement (.boxDecoding core p anchors scores regs y tok) :=
  Runs.of_keeps (Machine.execBoxDecoding_runs core p anchors scores regs y tok)

theorem Runs.add (core : Nat) (fmt : Fmt) (psum : Bool) (n : Nat) (x1 : BinRef) (x2 : BinRef) (y : BinRef) (opr : Option Nat) (tok : Toks) :
    Runs.Statement (.add core fmt psum n x1 x2 y opr tok) :=
  Runs.of_keeps (Machine.execAdd_runs core fmt psum n x1 x2 y opr tok)

theorem Runs.multiply (core : Nat) (fmt : Fmt) (n : Nat) (x1 : BinRef) (x2 : BinRef) (y : BinRef) (tok : Toks) :
    Runs.Statement (.multiply core fmt n x1 x2 y tok) :=
  Runs.of_keeps (Machine.execMultiply_runs core fmt n x1 x2 y tok)

theorem Runs.fusedMultiplyAdd (core : Nat) (fmt : Fmt) (n : Nat) (x1 : BinRef) (x2 : BinRef) (x3 : BinRef) (y : BinRef) (opr : Option Nat) (tok : Toks) :
    Runs.Statement (.fusedMultiplyAdd core fmt n x1 x2 x3 y opr tok) :=
  Runs.of_keeps (Machine.execFusedMultiplyAdd_runs core fmt n x1 x2 x3 y opr tok)

theorem Runs.min (core : Nat) (fmt : Fmt) (n : Nat) (x1 : BinRef) (x2 : BinRef) (y : BinRef) (tok : Toks) :
    Runs.Statement (.min core fmt n x1 x2 y tok) :=
  Runs.of_keeps (Machine.execMin_runs core fmt n x1 x2 y tok)

theorem Runs.max (core : Nat) (fmt : Fmt) (n : Nat) (x1 : BinRef) (x2 : BinRef) (y : BinRef) (opr : Option Nat) (tok : Toks) :
    Runs.Statement (.max core fmt n x1 x2 y opr tok) :=
  Runs.of_keeps (Machine.execMax_runs core fmt n x1 x2 y opr tok)

theorem Runs.convert (core : Nat) (src : Fmt) (dst : Fmt) (n : Nat) (x : BinRef) (y : BinRef) (om : Option OutMap) (tok : Toks) :
    Runs.Statement (.convert core src dst n x y om tok) :=
  Runs.of_keeps (Machine.execConvert_runs core src dst n x y om tok)

theorem Runs.derive (core : Nat) (fmt : Fmt) (sStage : StageScale) (clip : Nat) (int16 : Bool) (x : BinRef) (y : BinRef) (tok : Toks) :
    Runs.Statement (.derive core fmt sStage clip int16 x y tok) :=
  Runs.of_keeps (Machine.execDerive_runs core fmt sStage clip int16 x y tok)

theorem Runs.biasq (core : Nat) (n : Nat) (sa : BinRef) (sw : BinRef) (b : BinRef) (y : BinRef) (tok : Toks) :
    Runs.Statement (.biasq core n sa sw b y tok) :=
  Runs.of_keeps (Machine.execBiasq_runs core n sa sw b y tok)

theorem Runs.reg (core : Nat) (bin : Bin) (r : Nat) (base : Nat) (len : Nat) (circ : Bool) (tok : Toks) :
    Runs.Statement (.reg core bin r base len circ tok) :=
  Runs.of_keeps (Machine.execReg_runs core bin r base len circ tok)

theorem Runs.loop (core : Nat) (n : Nat) (strides : List Int) (tok : Toks) :
    Runs.Statement (.loop core n strides tok) :=
  Runs.of_keeps (Machine.execLoop_runs core n strides tok)

theorem Runs.endl (core : Nat) (tok : Toks) :
    Runs.Statement (.endl core tok) :=
  Runs.of_keeps (Machine.execEndl_runs core tok)

theorem Runs.wait (core : Nat) (w : WaitOn) (tok : Toks) :
    Runs.Statement (.wait core w tok) :=
  Runs.of_keeps (Machine.execWait_runs core w tok)

theorem Runs.sig (core : Nat) (n : Nat) (tok : Toks) :
    Runs.Statement (.sig core n tok) :=
  Runs.of_keeps (Machine.execSig_runs core n tok)

theorem Runs.bnd (core : Nat) (live : List (Bin × Nat)) (tok : Toks) :
    Runs.Statement (.bnd core live tok) :=
  Runs.of_keeps (Machine.execBnd_runs core live tok)

theorem Runs.endOp (core : Nat) (tok : Toks) :
    Runs.Statement (.endOp core tok) :=
  Runs.of_keeps (Machine.execEndOp_runs core tok)

theorem Runs.trackStepStart : Runs.Statement .trackStepStart :=
  Runs.of_keeps (Machine.execTrackStepStart_runs)

theorem Runs.embWaitExpiry (slot : Nat) :
    Runs.Statement (.embWaitExpiry slot) :=
  Runs.of_keeps (Machine.execEmbWaitExpiry_runs slot)

theorem Runs.trackStepEnd (slot : Nat) :
    Runs.Statement (.trackStepEnd slot) :=
  Runs.of_keeps (Machine.execTrackStepEnd_runs slot)

theorem Runs.recordWrite : Runs.Statement .recordWrite :=
  Runs.of_keeps (Machine.execRecordWrite_runs)

theorem Runs.ringIrqTimer (ring : Nat) :
    Runs.Statement (.ringIrqTimer ring) :=
  Runs.of_keeps (Machine.execRingIrqTimer_runs ring)

theorem Runs.scrubSlot (clu : Nat) :
    Runs.Statement (.scrubSlot clu) :=
  Runs.of_keeps (Machine.execScrubSlot_runs clu)

theorem Runs.bankDrainEnd (clu : Nat) (bank : Nat) :
    Runs.Statement (.bankDrainEnd clu bank) :=
  Runs.of_keeps (Machine.execBankDrainEnd_runs clu bank)

theorem Runs.bankZeroFillDone (clu : Nat) (bank : Nat) :
    Runs.Statement (.bankZeroFillDone clu bank) :=
  Runs.of_keeps (Machine.execBankZeroFillDone_runs clu bank)

theorem Runs.domainUsable (dom : Nat) :
    Runs.Statement (.domainUsable dom) :=
  Runs.of_keeps (Machine.execDomainUsable_runs dom)

theorem Runs.cooperAllocation (owner : Nat) (bytes : Nat) (mask : Nat) :
    Runs.Statement (.cooperAllocation owner bytes mask) :=
  Runs.of_keeps (Machine.execCooperAllocation_runs owner bytes mask)

theorem Runs.cooperFree (handle : Nat) :
    Runs.Statement (.cooperFree handle) :=
  Runs.of_keeps (Machine.execCooperFree_runs handle)

theorem Runs.cooperRefill (pool : Nat) :
    Runs.Statement (.cooperRefill pool) :=
  Runs.of_keeps (Machine.execCooperRefill_runs pool)

theorem Runs.listLinkRead (pool : Nat) :
    Runs.Statement (.listLinkRead pool) :=
  Runs.of_keeps (Machine.execListLinkRead_runs pool)

theorem Runs.hbmRequest (req : HbmReq) :
    Runs.Statement (.hbmRequest req) :=
  Runs.of_keeps (Machine.execHbmRequest_runs req)

theorem Runs.hbmReadData (pch : Nat) (id : Nat) :
    Runs.Statement (.hbmReadData pch id) :=
  Runs.of_keeps (Machine.execHbmReadData_runs pch id)

theorem Runs.refresh (pch : Nat) :
    Runs.Statement (.refresh pch) :=
  Runs.of_keeps (Machine.execRefresh_runs pch)

theorem Runs.stackTemperatureRead (deg : Int) :
    Runs.Statement (.stackTemperatureRead deg) :=
  Runs.of_keeps (Machine.execStackTemperatureRead_runs deg)

theorem Runs.hbmPatrolRead (pch : Nat) :
    Runs.Statement (.hbmPatrolRead pch) :=
  Runs.of_keeps (Machine.execHbmPatrolRead_runs pch)

theorem Runs.powerDownEntry (ch : Nat) :
    Runs.Statement (.powerDownEntry ch) :=
  Runs.of_keeps (Machine.execPowerDownEntry_runs ch)

theorem Runs.repairDone (ch : Nat) (ok : Bool) :
    Runs.Statement (.repairDone ch ok) :=
  Runs.of_keeps (Machine.execRepairDone_runs ch ok)

theorem Runs.probe (port : Nat) :
    Runs.Statement (.probe port) :=
  Runs.of_keeps (Machine.execProbe_runs port)

theorem Runs.probeReceived (port : Nat) (t1 : Nat) :
    Runs.Statement (.probeReceived port t1) :=
  Runs.of_keeps (Machine.execProbeReceived_runs port t1)

theorem Runs.echoReceived (port : Nat) (t1 : Nat) (t2 : Nat) (t3 : Nat) :
    Runs.Statement (.echoReceived port t1 t2 t3) :=
  Runs.of_keeps (Machine.execEchoReceived_runs port t1 t2 t3)

theorem Runs.marker : Runs.Statement .marker :=
  Runs.of_keeps (Machine.execMarker_runs)

theorem Runs.markerReceived (port : Nat) (value : Nat) :
    Runs.Statement (.markerReceived port value) := by
  intro s
  obtain ⟨t, h1, h2, _⟩ := Machine.execMarkerReceived_runs port value s
  exact Or.inl ⟨t, h1, h2, fun h => nomatch h⟩

theorem Runs.markerAbsent : Runs.Statement .markerAbsent :=
  Runs.of_keeps (Machine.execMarkerAbsent_runs)

theorem Runs.timeInEdge : Runs.Statement .timeInEdge := by
  intro s
  obtain ⟨t, h1, h2, _⟩ := Machine.execTimeInEdge_runs s
  exact Or.inl ⟨t, h1, h2, fun h => nomatch h⟩

theorem Runs.timeInAbsent : Runs.Statement .timeInAbsent :=
  Runs.of_keeps (Machine.execTimeInAbsent_runs)

theorem Runs.timeOutStart : Runs.Statement .timeOutStart :=
  Runs.of_keeps (Machine.execTimeOutStart_runs)

theorem Runs.timeOutEnd : Runs.Statement .timeOutEnd :=
  Runs.of_keeps (Machine.execTimeOutEnd_runs)

theorem Runs.flitReceived (port : Nat) (f : Flit) :
    Runs.Statement (.flitReceived port f) :=
  Runs.of_keeps (Machine.execFlitReceived_runs port f)

theorem Runs.nakReceived (port : Nat) (seq : Nat) :
    Runs.Statement (.nakReceived port seq) :=
  Runs.of_keeps (Machine.execNakReceived_runs port seq)

theorem Runs.linkUp (port : Nat) (peer : Nat) (peerPort : Nat) (laneErrs : List Nat) (ok : Bool) :
    Runs.Statement (.linkUp port peer peerPort laneErrs ok) :=
  Runs.of_keeps (Machine.execLinkUp_runs port peer peerPort laneErrs ok)

theorem Runs.creditReturn (port : Nat) (lane : Nat) (n : Nat) :
    Runs.Statement (.creditReturn port lane n) :=
  Runs.of_keeps (Machine.execCreditReturn_runs port lane n)

theorem Runs.transferUnitStart (item : Nat) (entry : Nat) :
    Runs.Statement (.transferUnitStart item entry) :=
  Runs.of_keeps (Machine.execTransferUnitStart_runs item entry)

theorem Runs.unitLanded (item : Nat) (entry : Nat) :
    Runs.Statement (.unitLanded item entry) :=
  Runs.of_keeps (Machine.execUnitLanded_runs item entry)

theorem Runs.dueTick (item : Nat) (entry : Nat) :
    Runs.Statement (.dueTick item entry) :=
  Runs.of_keeps (Machine.execDueTick_runs item entry)

theorem Runs.slackExpiry (item : Nat) (entry : Nat) :
    Runs.Statement (.slackExpiry item entry) :=
  Runs.of_keeps (Machine.execSlackExpiry_runs item entry)

theorem Runs.relayUnitLanded (u : RelayUnit) :
    Runs.Statement (.relayUnitLanded u) :=
  Runs.of_keeps (Machine.execRelayUnitLanded_runs u)

theorem Runs.faultReport (f : FaultRep) :
    Runs.Statement (.faultReport f) :=
  Runs.of_keeps (Machine.execFaultReport_runs f)

theorem Runs.spareResetCheckDone (clu : Nat) (ok : Bool) :
    Runs.Statement (.spareResetCheckDone clu ok) :=
  Runs.of_keeps (Machine.execSpareResetCheckDone_runs clu ok)

theorem Runs.periodBreach (pipe : Nat) :
    Runs.Statement (.periodBreach pipe) :=
  Runs.of_keeps (Machine.execPeriodBreach_runs pipe)

theorem Runs.divergence (pair : Nat) :
    Runs.Statement (.divergence pair) :=
  Runs.of_keeps (Machine.execDivergence_runs pair)

theorem Runs.watchdogExpiry (pair : Nat) :
    Runs.Statement (.watchdogExpiry pair) :=
  Runs.of_keeps (Machine.execWatchdogExpiry_runs pair)

theorem Runs.pairRestartDone (pair : Nat) :
    Runs.Statement (.pairRestartDone pair) :=
  Runs.of_keeps (Machine.execPairRestartDone_runs pair)

theorem Runs.bothPairsResetTimeout : Runs.Statement .bothPairsResetTimeout :=
  Runs.of_keeps (Machine.execBothPairsResetTimeout_runs)

theorem Runs.faultJournalWrite : Runs.Statement .faultJournalWrite :=
  Runs.of_keeps (Machine.execFaultJournalWrite_runs)

theorem Runs.dumWrite (kind : Nat) (unit : Nat) (sub : Nat) (value : Nat) :
    Runs.Statement (.dumWrite kind unit sub value) :=
  Runs.of_keeps (Machine.execDumWrite_runs kind unit sub value)

theorem Runs.winnowSegmentStart (g : SegReq) :
    Runs.Statement (.winnowSegmentStart g) :=
  Runs.of_keeps (Machine.execWinnowSegmentStart_runs g)

theorem Runs.winnowSegmentEnd (unitKind : Nat) (unit : Nat) (pass_ : Bool) :
    Runs.Statement (.winnowSegmentEnd unitKind unit pass_) :=
  Runs.of_keeps (Machine.execWinnowSegmentEnd_runs unitKind unit pass_)

theorem Runs.testOverrun (unitKind : Nat) (unit : Nat) :
    Runs.Statement (.testOverrun unitKind unit) :=
  Runs.of_keeps (Machine.execTestOverrun_runs unitKind unit)

theorem Runs.goldenWindowCutoff (item : Nat) :
    Runs.Statement (.goldenWindowCutoff item) :=
  Runs.of_keeps (Machine.execGoldenWindowCutoff_runs item)

theorem Runs.handoverStart (clu : Nat) (core : Nat) :
    Runs.Statement (.handoverStart clu core) :=
  Runs.of_keeps (Machine.execHandoverStart_runs clu core)

theorem Runs.handoverSubstitution (clu : Nat) :
    Runs.Statement (.handoverSubstitution clu) :=
  Runs.of_keeps (Machine.execHandoverSubstitution_runs clu)

theorem Runs.coreTestDone (core : Nat) (pass_ : Bool) (age : Nat) :
    Runs.Statement (.coreTestDone core pass_ age) :=
  Runs.of_keeps (Machine.execCoreTestDone_runs core pass_ age)

theorem Runs.latentOverdue (seg : Nat) (unitKind : Nat) (unit : Nat) :
    Runs.Statement (.latentOverdue seg unitKind unit) :=
  Runs.of_keeps (Machine.execLatentOverdue_runs seg unitKind unit)

theorem Runs.flashPatrol (block : Nat) (page : Nat) (bits : List Nat) :
    Runs.Statement (.flashPatrol block page bits) :=
  Runs.of_keeps (Machine.execFlashPatrol_runs block page bits)

theorem Runs.wearLevelMove (part : Nat) :
    Runs.Statement (.wearLevelMove part) :=
  Runs.of_keeps (Machine.execWearLevelMove_runs part)

theorem Runs.thermalConversion (degs : List Int) :
    Runs.Statement (.thermalConversion degs) :=
  Runs.of_keeps (Machine.execThermalConversion_runs degs)

theorem Runs.unlistedCommand (r : MbReq) (code : Nat) :
    Runs.Statement (.unlistedCommand r code) :=
  Runs.of_keeps (Machine.execUnlistedCommand_runs r code)

theorem Runs.flashOperationDone (ok : Bool) :
    Runs.Statement (.flashOperationDone ok) :=
  Runs.of_keeps (Machine.execFlashOperationDone_runs ok)

theorem Runs.pcieLinkUp (speed : Nat) (width : Nat) :
    Runs.Statement (.pcieLinkUp speed width) :=
  Runs.of_keeps (Machine.execPcieLinkUp_runs speed width)

theorem Runs.busMasterEnableSet : Runs.Statement .busMasterEnableSet :=
  Runs.of_keeps (Machine.execBusMasterEnableSet_runs)

theorem Runs.pmeStatusClear : Runs.Statement .pmeStatusClear :=
  Runs.of_keeps (Machine.execPmeStatusClear_runs)

theorem Runs.spareBankCopyStart (clu : Nat) (bank : Nat) :
    Runs.Statement (.spareBankCopyStart clu bank) :=
  Runs.of_keeps (Machine.execSpareBankCopyStart_runs clu bank)

theorem Runs.deferredDomainSwitchOn : Runs.Statement .deferredDomainSwitchOn :=
  Runs.of_keeps (Machine.execDeferredDomainSwitchOn_runs)

theorem Runs.selfRefreshExitDone : Runs.Statement .selfRefreshExitDone :=
  Runs.of_keeps (Machine.execSelfRefreshExitDone_runs)

theorem Runs.tapInstruction (ir : Machine.TapIr) (dr : List Bool) : Runs.Statement (.tapInstruction ir dr) := by
  intro s
  obtain ⟨t, h1, h2⟩ | h := Machine.execTapInstruction_runs ir dr s
  · exact Or.inl ⟨t, h1, h2.2, fun _ => h2.1⟩
  · exact Or.inr h

theorem Runs.vddAonPowerLoss : Runs.Statement .vddAonPowerLoss := by
  intro s
  obtain ⟨t, h1, h2, _⟩ := Machine.execVddAonPowerLoss_runs s
  exact Or.inl ⟨t, h1, h2, fun h => nomatch h⟩

theorem Runs.entropyHealthTest (pass_ : Bool) :
    Runs.Statement (.entropyHealthTest pass_) :=
  Runs.of_keeps (Machine.execEntropyHealthTest_runs pass_)

end Sys2Proof.Laws
end

