-- ==== Sys2Proof/Laws/Tile.lean ====
section
/-!
SUPPORT. Sys2Proof/Laws/Tile.lean: what an instruction that reaches its core does: it issues with its rows and its room there, it issues
and stays in flight, it waits, or it refuses its input (04_compute_core.md R87 to R90, R92, R104, R107; 06 R134; log entry 133).
-/

namespace Sys2Proof.Machine

/-- An item found under a key has it. -/
theorem item?_key {s : State} {k : Nat} {it : Item} (h : item? s k = some it) : it.key = k := by
  have q := List.find?_some h
  exact of_decide_eq_true q

/-- The item that runs on a core is the one whose key the core holds. -/
theorem itemOn_item {s : State} {p : Nat} {it : Item} (h : itemOn s p = some it) :
    (core s p).item = some it.key ∧ item? s it.key = some it := by
  unfold itemOn at h
  cases hc : (core s p).item with
  | none => rw [hc] at h; cases h
  | some k =>
    rw [hc] at h
    have hk := item?_key (s := s) h
    subst hk
    exact ⟨rfl, h⟩

/-- An instruction of the loop engine takes its effect. -/
theorem runLoop_issues {s0 s : State} {p : Nat} {it : Item} {c : TileCmd} (n : Nat) (eff : Nat → State → State)
    (h : Issues s0 p c .loop it s) : runLoop s0 p c n eff = eff it.key (issueOn s p c .loop n) := by
  obtain ⟨_, rfl, hi, ho⟩ := h
  unfold runLoop runTile
  rw [(itemOn_item hi).1]
  exact if_pos ho

/-- A core that runs no item ignores an instruction of the loop engine; what is in flight has gone on. -/
theorem runLoop_idle {s : State} {p : Nat} (c : TileCmd) (n : Nat) (eff : Nat → State → State)
    (h : (core (pumpCore s p) p).item = none) : runLoop s p c n eff = pumpCore s p := by
  unfold runLoop runTile
  rw [h]

/-- An instruction of an engine whose operands all stand in bins, with its rows and its room there, has its effect. -/
theorem runIns_feeds {s : State} {p : Nat} {it : Item} {c : TileCmd} {e : Engine} {n : Nat} {rd wr : List (Oper × Nat)} {post : Post}
    (r : Bool) (hi : itemOn s p = some it) (ho : issueOk s p it.key c e = true) (hf : Feeds s p it rd wr) :
    runIns s p c e n rd wr r post = effectOn s p it c e n rd post := by
  obtain ⟨h1, h2, h3⟩ := hf
  unfold runIns
  rw [hi]
  simp only [ho, h1, h2, h3, Bool.not_true, Bool.not_false, Bool.and_self, Bool.false_eq_true, if_false, if_true]
  rfl

/-- An instruction of an engine that issues without its rows, its room or its bins stays in flight. -/
theorem runIns_flies {s : State} {p : Nat} {it : Item} {c : TileCmd} {e : Engine} {n : Nat} {rd wr : List (Oper × Nat)} {post : Post}
    (r : Bool) (hi : itemOn s p = some it) (ho : issueOk s p it.key c e = true) (hf : ¬Feeds s p it rd wr) :
    runIns s p c e n rd wr r post = startFlight (flushBins s p) p it c e n rd r := by
  unfold runIns
  rw [hi]
  have hn : (opersReady s p it rd && wr.all (operRoom s p it) && !(rd ++ wr).any (fun x => x.1.isGran)) = false := by
    refine Bool.eq_false_iff.mpr fun h => hf ?_
    simp only [Bool.and_eq_true, Bool.not_eq_true'] at h
    exact ⟨h.1.1, h.1.2, h.2⟩
  simp only [ho, hn, Bool.not_true, Bool.false_eq_true, if_false]

/-- An instruction reaches its core, its item takes its input, and its rows and its room are there: it has its effect. -/
theorem runCmd_feeds {s0 s : State} {p : Nat} {it : Item} {c : TileCmd} {e : Engine} (r : Bool) (h : Issues s0 p c e it s)
    (hr : insRefuses s it c = false) (hd : insReady s p c = true)
    (hf : Feeds s p it (insRun s p it c r).rd (insRun s p it c r).wr) :
    runCmd s0 p c e r = effectOn s p it c e (insRun s p it c r).cycles (insRun s p it c r).rd (insRun s p it c r).post := by
  obtain ⟨_, rfl, hi, ho⟩ := h
  unfold runCmd
  simp only [hi, hr, hd, Bool.false_and, Bool.not_true, Bool.false_eq_true, if_false]
  exact runIns_feeds r hi ho hf

/-- An instruction reaches its core without its rows, its room or its bins: it stays in flight. -/
theorem runCmd_flies {s0 s : State} {p : Nat} {it : Item} {c : TileCmd} {e : Engine} (r : Bool) (h : Issues s0 p c e it s)
    (hr : insRefuses s it c = false) (hd : insReady s p c = true)
    (hf : ¬Feeds s p it (insRun s p it c r).rd (insRun s p it c r).wr) :
    runCmd s0 p c e r = startFlight (flushBins s p) p it c e (insRun s p it c r).cycles (insRun s p it c r).rd r := by
  obtain ⟨_, rfl, hi, ho⟩ := h
  unfold runCmd
  simp only [hi, hr, hd, Bool.false_and, Bool.not_true, Bool.false_eq_true, if_false]
  exact runIns_flies r hi ho hf

/-- An instruction whose operator cannot take its input ends its item with 0x201 (06 R134). -/
theorem runCmd_refuses {s0 s : State} {p : Nat} {it : Item} {c : TileCmd} {e : Engine} (r : Bool) (h : Issues s0 p c e it s)
    (hr : insRefuses s it c = true) : runCmd s0 p c e r = endItem s it.key 0x201 := by
  obtain ⟨_, rfl, hi, ho⟩ := h
  unfold runCmd
  simp only [hi, hr, ho, Bool.and_self, if_true]

/-- An instruction reaches a core that runs no item: what is in flight has gone on. -/
theorem runCmd_idle {s : State} {p : Nat} (c : TileCmd) (e : Engine) (r : Bool) (h : itemOn (pumpCore s p) p = none) :
    runCmd s p c e r = pumpCore s p := by
  unfold runCmd
  simp only [h]

end Sys2Proof.Machine
end

