-- ==== Sys2Proof/WellFormed.lean ====
section
/-!
DEFINITION. Sys2Proof/WellFormed.lean: the operands each command can carry: the numbers of its unit, port, slot, page or bank, and the
widths of its fields. What the device refuses with a status or a reason is well-formed here: its refusal is its meaning.
-/

namespace Sys2Proof

open Sys2Proof.Machine

/-- A mailbox request's fields fit their widths (14_security_and_sessions.md Table 14-5). -/
def Machine.MbReq.ok (r : MbReq) : Bool := decide (r.session < 2 ^ 16) && decide (r.seq < 2 ^ 64) && decide (r.tag < 2 ^ 256)

/-- A stage scale keeps its ranges (05 R118): FP32 bits, region numbers, G from −30 to 30. -/
def Machine.StageScale.wf (x : StageScale) : Bool :=
  match x with
  | .fixed s => decide (s < 2 ^ 32)
  | .prod sa sw g => decide (sa.reg < 8) && decide (sw.reg < 8) && decide (-30 ≤ g) && decide (g ≤ 30)
  | .pow g => decide (-30 ≤ g) && decide (g ≤ 30)

/-- A request comes from a cluster or a client of the hub (09 R217); the controller's own requests are not commanded. -/
def Machine.HbmSrc.wf (x : HbmSrc) : Bool :=
  match x with
  | .staging k => decide (k < 8)
  | .carter k => decide (k < 8)
  | .client n => decide (n < 29)
  | .controller => false

/-- The operands are ones the command can carry. -/
def Instr.wf (i : Instr) : Bool :=
  match i with
  | .vddAonPowerOn _ serial _ smbAddr => decide (serial < 2 ^ 64) && decide (smbAddr < 4)
  | .perstNAssert => true
  | .perstNRelease _ => true
  | .clockLossReset cause => decide (cause < 7)
  | .hotReset => true
  | .linkDown => true
  | .functionLevelReset => true
  | .d3hotEntry => true
  | .d0Return => true
  | .pmeTurnOff => true
  | .busMasterEnableClear => true
  | .completionReceived tag _ _ => decide (tag < 1024)
  | .completionTimeout tag => decide (tag < 1024)
  | .msixUnmask vector => decide (vector < 64)
  | .smbusReadTemperature sensor => decide (sensor < 13)
  | .smbusReadVcore => true
  | .smbusReadStatus => true
  | .smbusReadTrim => true
  | .smbusWake => true
  | .alertResponse => true
  | .registerWrite _ _ addr size value => decide (addr < 2 ^ 48) && decide (size ≤ 64) && decide (value < 2 ^ 256 * 2 ^ 256)
  | .loRead _ addr size => decide (addr < 2 ^ 26) && decide (1 ≤ size) && decide (size ≤ 64)
  | .rcRead addr => decide (addr < 2 ^ 26)
  | .intStatusClear addr value _ => decide (addr < 2 ^ 24) && decide (value < 2 ^ 32)
  | .intForce page bits session => decide (page < 139) && decide (bits < 2 ^ 32) && decide (session < 2 ^ 16)
  | .errClr page _ => decide (page < 139)
  | .pageCommitHost page sel _ => decide (page < 139) && decide (sel < 2 ^ 32)
  | .pageCommitFw page => decide (page < 139)
  | .commitPoint page => decide (page < 139)
  | .ringRidxWrite ring idx => decide (ring < 16) && decide (idx < 2 ^ 32)
  | .dispJournalRidxWrite idx => decide (idx < 2 ^ 32)
  | .relayOutRidxWrite idx => decide (idx < 2 ^ 32)
  | .leaseRenew => true
  | .reeveFaultClr _ => true
  | .mgmtFjSelWrite n => decide (n < 2 ^ 32)
  | .trainingRun ch value => decide (ch < 16) && decide (value < 2 ^ 32)
  | .trainingRunDone ch mism => decide (ch < 16) && decide (mism.length ≤ 72)
  | .openOp r role iface minSvn hwm hostNonce =>
    r.ok && decide (role < 256) && decide (iface < 2 ^ 16) && decide (minSvn < 2 ^ 16) &&
    decide (hwm < 2 ^ 32) && decide (hostNonce < 2 ^ 256)
  | .prove r => r.ok
  | .challengeExpiry slot => decide (slot < 16)
  | .close r => r.ok
  | .provision r role ct => r.ok && decide (role < 256) && decide (ct.length = 1568)
  | .roleClear r role => r.ok && decide (role < 256)
  | .regWrite r count writes => r.ok && decide (count < 2 ^ 16) && decide (writes.length ≤ 335)
  | .adopt r mask => r.ok && decide (mask < 2 ^ 76)
  | .reeveSet r pipe cfg age period =>
    r.ok && decide (pipe < 2 ^ 16) && decide (cfg < 2 ^ 32) && decide (age < 2 ^ 32) &&
    decide (period < 2 ^ 32)
  | .modelKey r keyId ct => r.ok && decide (keyId < 2 ^ 64) && decide (ct.length = 1568)
  | .modelKeyDelete r keyId => r.ok && decide (keyId < 2 ^ 64)
  | .install r addr len _ => r.ok && decide (addr < 2 ^ 64) && decide (len < 2 ^ 32)
  | .installCommit => true
  | .uninstall r plan => r.ok && decide (plan < 2 ^ 16)
  | .unlockStream r mask => r.ok && decide (mask < 2 ^ 76)
  | .unlockTensor r plan output count => r.ok && decide (plan < 2 ^ 16) && decide (output < 256) && decide (count < 256)
  | .embRead r slot first count => r.ok && decide (slot < 76) && decide (first < 2 ^ 32) && decide (count < 256)
  | .lock r mask plan => r.ok && decide (mask < 2 ^ 76) && decide (plan < 2 ^ 16)
  | .lockAck r => r.ok
  | .attest r nonce => r.ok && decide (nonce < 2 ^ 256)
  | .getCert r part => r.ok && decide (part < 256)
  | .fwUpdate r addr len _ => r.ok && decide (addr < 2 ^ 64) && decide (len < 2 ^ 32)
  | .repairAuth r ch row => r.ok && decide (ch < 256) && decide (row < 2 ^ 32)
  | .recover r => r.ok
  | .testMode r _ => r.ok
  | .placementEdit r edits => r.ok && decide (edits.length ≤ 64)
  | .jtagUnlock r => r.ok
  | .locksmithZeroise => true
  | .keysReloaded => true
  | .intakePoll => true
  | .descriptorRead slot => decide (slot < 76)
  | .auCopyDone slot => decide (slot < 76)
  | .pictureDecodeStart _ => true
  | .decodeComplete core _ => decide (core < 9)
  | .decodeBudgetExpiry core => decide (core < 9)
  | .frameStart port => decide (port < 8)
  | .csiPacket port _ => decide (port < 8)
  | .frameEnd port => decide (port < 8)
  | .frameEndTimeout port => decide (port < 8)
  | .recordItem slot => decide (72 ≤ slot) && decide (slot < 76)
  | .scalerStageStart item stage => decide (item < 2 ^ 41) && decide (stage < 64)
  | .scalerStageDone => true
  | .sickleStageStart unit item stage => decide (unit < 2) && decide (item < 2 ^ 41) && decide (stage < 64)
  | .sickleGranuleRead unit => decide (unit < 2)
  | .sickleBoxStart unit => decide (unit < 2)
  | .sickleBoxEnd unit => decide (unit < 2)
  | .pack item stage samples => decide (item < 2 ^ 41) && decide (stage < 64) && decide (samples.length < 2 ^ 16)
  | .encoderPictureTake enc slot src => decide (enc < 2) && decide (slot < 72) && decide (src < 2 ^ 64)
  | .encodeSliceDone enc => decide (enc < 2)
  | .encodePictureDone enc => decide (enc < 2)
  | .ledgerPoll => true
  | .ledgerEntryArrival => true
  | .pinnedLaunchDecision item => decide (item < 2 ^ 41)
  | .pinnedLaunch item => decide (item < 2 ^ 41)
  | .pooledPlacement => true
  | .eviction => true
  | .deadlineRefusal item => decide (item < 2 ^ 41)
  | .preemptionArrival core => decide (core < 72)
  | .contextSave core => decide (core < 72)
  | .contextSaveLanded core => decide (core < 72)
  | .contextMove ctx => decide (ctx < 2 ^ 16)
  | .contextMoveDone ctx => decide (ctx < 2 ^ 16)
  | .contextRestore item => decide (item < 2 ^ 41)
  | .creditReturnTimeout core => decide (core < 72)
  | .leaseExpiry => true
  | .autonomousRepeat plan offset => decide (plan < 256) && decide (offset < 2 ^ 64)
  | .ld core _ _ bytes _ => decide (core < 72) && decide (bytes < 2 ^ 24)
  | .st core x _ bytes _ => decide (core < 72) && decide (x.reg < 8) && decide (bytes < 2 ^ 24)
  | .ldw core _ x bytes tag _ =>
    decide (core < 72) && decide (x.reg < 8) && decide (bytes < 2 ^ 24) && decide (1 ≤ tag) && decide (tag < 256)
  | .cb core x _ => decide (core < 72) && decide (x.reg < 8)
  | .mm core _ _ _ => decide (core < 72)
  | .relu core _ n x y _ => decide (core < 72) && decide (n < 2 ^ 24) && decide (x.reg < 8) && decide (y.reg < 8)
  | .clip core _ n lo hi x y _ =>
    decide (core < 72) && decide (n < 2 ^ 24) && decide (lo < 2 ^ 32) && decide (hi < 2 ^ 32) &&
    decide (x.reg < 8) && decide (y.reg < 8)
  | .requantise core _ n x scl y _ _ =>
    decide (core < 72) && decide (n < 2 ^ 24) && decide (x.reg < 8) && decide (scl.reg < 8) &&
    decide (y.reg < 8)
  | .tableFunction core n _ x y _ => decide (core < 72) && decide (n < 2 ^ 24) && decide (x.reg < 8) && decide (y.reg < 8)
  | .maxAbs core _ n x y _ => decide (core < 72) && decide (n < 2 ^ 24) && decide (x.reg < 8) && decide (y.reg < 8)
  | .softmax core n _ scale _ x y _ =>
    decide (core < 72) && decide (n < 2 ^ 24) && decide (scale < 2 ^ 32) && decide (x.reg < 8) &&
    decide (y.reg < 8)
  | .layerNormalisation core n eps x gamma beta y _ =>
    decide (core < 72) && decide (n < 2 ^ 24) && decide (eps < 2 ^ 32) && decide (x.reg < 8) &&
    decide (gamma.reg < 8) && decide (beta.reg < 8) && decide (y.reg < 8)
  | .boxDecoding core _ anchors scores regs y _ =>
    decide (core < 72) && decide (anchors.reg < 8) && decide (scores.reg < 8) && decide (regs.reg < 8) &&
    decide (y.reg < 8)
  | .add core _ _ n x1 x2 y _ _ =>
    decide (core < 72) && decide (n < 2 ^ 24) && decide (x1.reg < 8) && decide (x2.reg < 8) &&
    decide (y.reg < 8)
  | .multiply core _ n x1 x2 y _ =>
    decide (core < 72) && decide (n < 2 ^ 24) && decide (x1.reg < 8) && decide (x2.reg < 8) &&
    decide (y.reg < 8)
  | .fusedMultiplyAdd core _ n x1 x2 x3 y _ _ =>
    decide (core < 72) && decide (n < 2 ^ 24) && decide (x1.reg < 8) && decide (x2.reg < 8) &&
    decide (x3.reg < 8) && decide (y.reg < 8)
  | .min core _ n x1 x2 y _ =>
    decide (core < 72) && decide (n < 2 ^ 24) && decide (x1.reg < 8) && decide (x2.reg < 8) &&
    decide (y.reg < 8)
  | .max core _ n x1 x2 y _ _ =>
    decide (core < 72) && decide (n < 2 ^ 24) && decide (x1.reg < 8) && decide (x2.reg < 8) &&
    decide (y.reg < 8)
  | .convert core _ _ n x y _ _ => decide (core < 72) && decide (n < 2 ^ 24) && decide (x.reg < 8) && decide (y.reg < 8)
  | .derive core _ sStage clp _ x y _ =>
    decide (core < 72) && sStage.wf && decide (clp < 2 ^ 32) && decide (x.reg < 8) &&
    decide (y.reg < 8)
  | .biasq core n sa sw b y _ =>
    decide (core < 72) && decide (n < 2 ^ 24) && decide (sa.reg < 8) && decide (sw.reg < 8) &&
    decide (b.reg < 8) && decide (y.reg < 8)
  | .reg core _ r base len _ _ => decide (core < 72) && decide (r < 8) && decide (base < 4096) && decide (len ≤ 4096)
  | .loop core n strides _ => decide (core < 72) && decide (1 ≤ n) && decide (strides.length ≤ 8)
  | .endl core _ => decide (core < 72)
  | .wait core _ _ => decide (core < 72)
  | .sig core n _ => decide (core < 72) && decide (n < 4096)
  | .bnd core live _ => decide (core < 72) && live.all (fun x => decide (x.2 < 8))
  | .endOp core _ => decide (core < 72)
  | .trackStepStart => true
  | .embWaitExpiry slot => decide (slot < 64)
  | .trackStepEnd slot => decide (slot < 64)
  | .recordWrite => true
  | .ringIrqTimer ring => decide (ring < 16)
  | .scrubSlot clu => decide (clu < 8)
  | .bankDrainEnd clu bank => decide (clu < 8) && decide (bank < 17)
  | .bankZeroFillDone clu bank => decide (clu < 8) && decide (bank < 17)
  | .domainUsable dom => decide (dom < 256)
  | .cooperAllocation owner bytes mask => decide (owner < 256) && decide (bytes < 2 ^ 32) && decide (mask < 2 ^ 16)
  | .cooperFree handle => decide (handle < 2 ^ 32)
  | .cooperRefill pool => decide (pool < 16)
  | .listLinkRead pool => decide (pool < 16)
  | .hbmRequest req => decide (req.addr < 2 ^ 40) && req.src.wf
  | .hbmReadData pch id => decide (pch < 32) && decide (id < 2 ^ 32)
  | .refresh pch => decide (pch < 32)
  | .stackTemperatureRead deg => decide (-128 ≤ deg) && decide (deg < 256)
  | .hbmPatrolRead pch => decide (pch < 32)
  | .powerDownEntry ch => decide (ch < 16)
  | .repairDone ch _ => decide (ch < 16)
  | .probe port => decide (port < 4)
  | .probeReceived port t1 => decide (port < 4) && decide (t1 < 2 ^ 64)
  | .echoReceived port t1 t2 t3 => decide (port < 4) && decide (t1 < 2 ^ 64) && decide (t2 < 2 ^ 64) && decide (t3 < 2 ^ 64)
  | .marker => true
  | .markerReceived port value => decide (port < 4) && decide (value < 2 ^ 64)
  | .markerAbsent => true
  | .timeInEdge => true
  | .timeInAbsent => true
  | .timeOutStart => true
  | .timeOutEnd => true
  | .flitReceived port _ => decide (port < 4)
  | .nakReceived port seq => decide (port < 4) && decide (seq < 256)
  | .linkUp port peer peerPort laneErrs _ =>
    decide (port < 4) && decide (peer < 2 ^ 8) && decide (peerPort < 4) && decide (laneErrs.length ≤ 17)
  | .creditReturn port lane n => decide (port < 4) && decide (lane < 4) && decide (n < 256)
  | .transferUnitStart item entry => decide (item < 2 ^ 41) && decide (entry < 4096)
  | .unitLanded item entry => decide (item < 2 ^ 41) && decide (entry < 4096)
  | .dueTick item entry => decide (item < 2 ^ 41) && decide (entry < 4096)
  | .slackExpiry item entry => decide (item < 2 ^ 41) && decide (entry < 4096)
  | .relayUnitLanded u => decide (u.entry < 4096)
  | .faultReport _ => true
  | .spareResetCheckDone clu _ => decide (clu < 8)
  | .periodBreach pipe => decide (pipe < 64)
  | .divergence pair => decide (pair < 2)
  | .watchdogExpiry pair => decide (pair < 2)
  | .pairRestartDone pair => decide (pair < 2)
  | .bothPairsResetTimeout => true
  | .faultJournalWrite => true
  | .dumWrite kind unit sub value =>
    decide (kind < 256) && decide (unit < 2 ^ 16) && decide (sub < 2 ^ 16) && decide (value < 2 ^ 24)
  | .winnowSegmentStart g => decide (g.seg < 9)
  | .winnowSegmentEnd unitKind unit _ => decide (unitKind < 16) && decide (unit < 2 ^ 16)
  | .testOverrun unitKind unit => decide (unitKind < 16) && decide (unit < 2 ^ 16)
  | .goldenWindowCutoff item => decide (item < 2 ^ 41)
  | .handoverStart clu core => decide (clu < 8) && decide (core < 9)
  | .handoverSubstitution clu => decide (clu < 8)
  | .coreTestDone core _ age => decide (core < 72) && decide (age < 2 ^ 32)
  | .latentOverdue seg unitKind unit => decide (seg < 16) && decide (unitKind < 16) && decide (unit < 2 ^ 16)
  | .flashPatrol block page bits => decide (block < 4096) && decide (page < 64) && decide (bits.length = 4)
  | .wearLevelMove part => decide (part < 7)
  | .thermalConversion degs => decide (degs.length = 12)
  | .unlistedCommand r code => r.ok && decide (code < 2 ^ 16)
  | .flashOperationDone _ => true
  | .pcieLinkUp speed width => decide (speed < 16) && decide (width < 64)
  | .busMasterEnableSet => true
  | .pmeStatusClear => true
  | .spareBankCopyStart clu bank => decide (clu < 8) && decide (bank < 16)
  | .deferredDomainSwitchOn => true
  | .selfRefreshExitDone => true
  | .tapInstruction _ _ => true
  | .vddAonPowerLoss => true
  | .entropyHealthTest _ => true

end Sys2Proof
end

