-- ==== Sys2Proof/Tests/Slice0.lean ====
section
/-! SUPPORT. Sys2Proof/Tests/Slice0.lean: the well-formedness smoke test (an ill-formed command for each check and a
well-formed one for each constructor), a state and operands that meet the hypotheses of each obligation, and the
effect of single commands and the spec's worked examples on fixed values. -/

set_option maxRecDepth 20000

-- One theorem after another: evaluated side by side in one text they would need a thread each.
set_option Elab.async false

namespace Sys2Proof.Tests
open Sys2Proof.Machine
open Sys2Proof

/-! ## Well-formedness -/

def rq : MbReq := ⟨0, 0, 0⟩
def pk : CsiPkt := ⟨0, 0, 0, true, []⟩
def gr : GranRef := { width := 0, bank := 0, start := 0 }
def br : BinRef := ⟨.act, 0, 0, []⟩
def mo : MMOp := { mode := .i8, flow := .ws, m := 0, n := 0, k := 0, a := br, w := br, tiles := [], acc := false }
def tp : TabPar := ⟨0, 0, 0, 0, 0, 0, false, false⟩
def bp : BoxPar := { dist := false, anchors := 0, classes := 0, frac := 0, thr := 0, cap := 0, tab := tp }
def cm : Claims := { codec := 0, profile := 0, tools := true, w := 0, h := 0, dpb := 0, level := 0, hibit := false, rap := false, units := 0 }
def dc : Decoded := ⟨.c420, [], [], [], [], [], none, [], 0, []⟩

def ill0 : List Instr :=
  [.vddAonPowerOn true (2 ^ 64) true 0, .vddAonPowerOn true 0 true 4, .clockLossReset 7, .completionReceived 1024 .ok [],
   .completionTimeout 1024, .msixUnmask 64, .smbusReadTemperature 13, .registerWrite .host .bar0 (2 ^ 48) 0 0,
   .registerWrite .host .bar0 0 65 0, .registerWrite .host .bar0 0 0 (2 ^ 256 * 2 ^ 256), .loRead .bar0 (2 ^ 26) 4, .loRead .bar0 0 0, .loRead .bar0 0 65, .rcRead (2 ^ 26),
   .intStatusClear (2 ^ 24) 0 none, .intStatusClear 0 (2 ^ 32) none, .intForce 139 0 0, .intForce 0 (2 ^ 32) 0,
   .intForce 0 0 (2 ^ 16), .errClr 139 none, .pageCommitHost 139 0 none, .pageCommitHost 0 (2 ^ 32) none, .pageCommitFw 139,
   .commitPoint 139, .ringRidxWrite 16 0, .ringRidxWrite 0 (2 ^ 32)]

def ill1 : List Instr :=
  [.dispJournalRidxWrite (2 ^ 32), .relayOutRidxWrite (2 ^ 32), .mgmtFjSelWrite (2 ^ 32), .trainingRun 16 0,
   .trainingRun 0 (2 ^ 32), .trainingRunDone 16 [], .trainingRunDone 0 (List.replicate 73 0), .openOp ⟨2 ^ 16, 0, 0⟩ 0 0 0 0 0,
   .openOp ⟨0, 2 ^ 64, 0⟩ 0 0 0 0 0, .openOp ⟨0, 0, 2 ^ 256⟩ 0 0 0 0 0, .openOp rq 256 0 0 0 0, .openOp rq 0 (2 ^ 16) 0 0 0,
   .openOp rq 0 0 (2 ^ 16) 0 0, .openOp rq 0 0 0 (2 ^ 32) 0, .openOp rq 0 0 0 0 (2 ^ 256), .prove ⟨2 ^ 16, 0, 0⟩,
   .prove ⟨0, 2 ^ 64, 0⟩, .prove ⟨0, 0, 2 ^ 256⟩, .challengeExpiry 16, .close ⟨2 ^ 16, 0, 0⟩, .close ⟨0, 2 ^ 64, 0⟩,
   .close ⟨0, 0, 2 ^ 256⟩, .provision ⟨2 ^ 16, 0, 0⟩ 0 (List.replicate 1568 0),
   .provision ⟨0, 2 ^ 64, 0⟩ 0 (List.replicate 1568 0)]

def ill2 : List Instr :=
  [.provision ⟨0, 0, 2 ^ 256⟩ 0 (List.replicate 1568 0), .provision rq 256 (List.replicate 1568 0), .provision rq 0 [],
   .roleClear ⟨2 ^ 16, 0, 0⟩ 0, .roleClear ⟨0, 2 ^ 64, 0⟩ 0, .roleClear ⟨0, 0, 2 ^ 256⟩ 0, .roleClear rq 256,
   .regWrite ⟨2 ^ 16, 0, 0⟩ 0 [], .regWrite ⟨0, 2 ^ 64, 0⟩ 0 [], .regWrite ⟨0, 0, 2 ^ 256⟩ 0 [], .regWrite rq (2 ^ 16) [],
   .regWrite rq 0 (List.replicate 336 ⟨0, 0, 0⟩), .adopt ⟨2 ^ 16, 0, 0⟩ 0, .adopt ⟨0, 2 ^ 64, 0⟩ 0, .adopt ⟨0, 0, 2 ^ 256⟩ 0,
   .adopt rq (2 ^ 76), .reeveSet ⟨2 ^ 16, 0, 0⟩ 0 0 0 0, .reeveSet ⟨0, 2 ^ 64, 0⟩ 0 0 0 0, .reeveSet ⟨0, 0, 2 ^ 256⟩ 0 0 0 0,
   .reeveSet rq (2 ^ 16) 0 0 0, .reeveSet rq 0 (2 ^ 32) 0 0, .reeveSet rq 0 0 (2 ^ 32) 0, .reeveSet rq 0 0 0 (2 ^ 32),
   .modelKey ⟨2 ^ 16, 0, 0⟩ 0 (List.replicate 1568 0)]

def ill3 : List Instr :=
  [.modelKey ⟨0, 2 ^ 64, 0⟩ 0 (List.replicate 1568 0), .modelKey ⟨0, 0, 2 ^ 256⟩ 0 (List.replicate 1568 0),
   .modelKey rq (2 ^ 64) (List.replicate 1568 0), .modelKey rq 0 [], .modelKeyDelete ⟨2 ^ 16, 0, 0⟩ 0,
   .modelKeyDelete ⟨0, 2 ^ 64, 0⟩ 0, .modelKeyDelete ⟨0, 0, 2 ^ 256⟩ 0, .modelKeyDelete rq (2 ^ 64),
   .install ⟨2 ^ 16, 0, 0⟩ 0 0 {}, .install ⟨0, 2 ^ 64, 0⟩ 0 0 {}, .install ⟨0, 0, 2 ^ 256⟩ 0 0 {}, .install rq (2 ^ 64) 0 {},
   .install rq 0 (2 ^ 32) {}, .uninstall ⟨2 ^ 16, 0, 0⟩ 0, .uninstall ⟨0, 2 ^ 64, 0⟩ 0, .uninstall ⟨0, 0, 2 ^ 256⟩ 0,
   .uninstall rq (2 ^ 16), .unlockStream ⟨2 ^ 16, 0, 0⟩ 0, .unlockStream ⟨0, 2 ^ 64, 0⟩ 0, .unlockStream ⟨0, 0, 2 ^ 256⟩ 0,
   .unlockStream rq (2 ^ 76), .unlockTensor ⟨2 ^ 16, 0, 0⟩ 0 0 0, .unlockTensor ⟨0, 2 ^ 64, 0⟩ 0 0 0,
   .unlockTensor ⟨0, 0, 2 ^ 256⟩ 0 0 0]

def ill4 : List Instr :=
  [.unlockTensor rq (2 ^ 16) 0 0, .unlockTensor rq 0 256 0, .unlockTensor rq 0 0 256, .embRead ⟨2 ^ 16, 0, 0⟩ 0 0 0,
   .embRead ⟨0, 2 ^ 64, 0⟩ 0 0 0, .embRead ⟨0, 0, 2 ^ 256⟩ 0 0 0, .embRead rq 76 0 0, .embRead rq 0 (2 ^ 32) 0,
   .embRead rq 0 0 256, .lock ⟨2 ^ 16, 0, 0⟩ 0 0, .lock ⟨0, 2 ^ 64, 0⟩ 0 0, .lock ⟨0, 0, 2 ^ 256⟩ 0 0, .lock rq (2 ^ 76) 0,
   .lock rq 0 (2 ^ 16), .lockAck ⟨2 ^ 16, 0, 0⟩, .lockAck ⟨0, 2 ^ 64, 0⟩, .lockAck ⟨0, 0, 2 ^ 256⟩, .attest ⟨2 ^ 16, 0, 0⟩ 0,
   .attest ⟨0, 2 ^ 64, 0⟩ 0, .attest ⟨0, 0, 2 ^ 256⟩ 0, .attest rq (2 ^ 256), .getCert ⟨2 ^ 16, 0, 0⟩ 0,
   .getCert ⟨0, 2 ^ 64, 0⟩ 0, .getCert ⟨0, 0, 2 ^ 256⟩ 0]

def ill5 : List Instr :=
  [.getCert rq 256, .fwUpdate ⟨2 ^ 16, 0, 0⟩ 0 0 {}, .fwUpdate ⟨0, 2 ^ 64, 0⟩ 0 0 {}, .fwUpdate ⟨0, 0, 2 ^ 256⟩ 0 0 {},
   .fwUpdate rq (2 ^ 64) 0 {}, .fwUpdate rq 0 (2 ^ 32) {}, .repairAuth ⟨2 ^ 16, 0, 0⟩ 0 0, .repairAuth ⟨0, 2 ^ 64, 0⟩ 0 0,
   .repairAuth ⟨0, 0, 2 ^ 256⟩ 0 0, .repairAuth rq 256 0, .repairAuth rq 0 (2 ^ 32), .recover ⟨2 ^ 16, 0, 0⟩,
   .recover ⟨0, 2 ^ 64, 0⟩, .recover ⟨0, 0, 2 ^ 256⟩, .testMode ⟨2 ^ 16, 0, 0⟩ true, .testMode ⟨0, 2 ^ 64, 0⟩ true,
   .testMode ⟨0, 0, 2 ^ 256⟩ true, .placementEdit ⟨2 ^ 16, 0, 0⟩ [], .placementEdit ⟨0, 2 ^ 64, 0⟩ [],
   .placementEdit ⟨0, 0, 2 ^ 256⟩ [], .placementEdit rq (List.replicate 65 (0, 0)), .jtagUnlock ⟨2 ^ 16, 0, 0⟩,
   .jtagUnlock ⟨0, 2 ^ 64, 0⟩, .jtagUnlock ⟨0, 0, 2 ^ 256⟩]

def ill6 : List Instr :=
  [.descriptorRead 76, .auCopyDone 76, .decodeComplete 9 dc, .decodeBudgetExpiry 9, .frameStart 8, .csiPacket 8 pk, .frameEnd 8,
   .frameEndTimeout 8, .recordItem 71, .recordItem 76, .scalerStageStart (2 ^ 41) 0, .scalerStageStart 0 64,
   .sickleStageStart 2 0 0, .sickleStageStart 0 (2 ^ 41) 0, .sickleStageStart 0 0 64, .sickleGranuleRead 2, .sickleBoxStart 2,
   .sickleBoxEnd 2, .pack (2 ^ 41) 0 [], .pack 0 64 [], .encoderPictureTake 2 0 0, .encoderPictureTake 0 72 0,
   .encoderPictureTake 0 0 (2 ^ 64), .encodeSliceDone 2]

def ill7 : List Instr :=
  [.encodePictureDone 2, .pinnedLaunchDecision (2 ^ 41), .pinnedLaunch (2 ^ 41), .deadlineRefusal (2 ^ 41),
   .preemptionArrival 72, .contextSave 72, .contextSaveLanded 72, .contextMove (2 ^ 16), .contextMoveDone (2 ^ 16),
   .contextRestore (2 ^ 41), .creditReturnTimeout 72, .autonomousRepeat 256 0, .autonomousRepeat 0 (2 ^ 64),
   .ld 72 gr (.table 0) 0 {}, .ld 0 gr (.table 0) (2 ^ 24) {}, .st 72 br gr 0 {}, .st 0 ⟨.act, 8, 0, []⟩ gr 0 {},
   .st 0 br gr (2 ^ 24) {}, .ldw 72 gr br 0 1 {}, .ldw 0 gr ⟨.act, 8, 0, []⟩ 0 1 {}, .ldw 0 gr br (2 ^ 24) 1 {},
   .ldw 0 gr br 0 0 {}, .ldw 0 gr br 0 256 {}, .cb 72 br {}]

def ill8 : List Instr :=
  [.cb 0 ⟨.act, 8, 0, []⟩ {}, .mm 72 mo {} true, .relu 72 .i32 0 br br {}, .relu 0 .i32 (2 ^ 24) br br {},
   .relu 0 .i32 0 ⟨.act, 8, 0, []⟩ br {}, .relu 0 .i32 0 br ⟨.act, 8, 0, []⟩ {}, .clip 72 .i32 0 0 0 br br {},
   .clip 0 .i32 (2 ^ 24) 0 0 br br {}, .clip 0 .i32 0 (2 ^ 32) 0 br br {}, .clip 0 .i32 0 0 (2 ^ 32) br br {},
   .clip 0 .i32 0 0 0 ⟨.act, 8, 0, []⟩ br {}, .clip 0 .i32 0 0 0 br ⟨.act, 8, 0, []⟩ {}, .requantise 72 .i32 0 br br br none {},
   .requantise 0 .i32 (2 ^ 24) br br br none {}, .requantise 0 .i32 0 ⟨.act, 8, 0, []⟩ br br none {},
   .requantise 0 .i32 0 br ⟨.act, 8, 0, []⟩ br none {}, .requantise 0 .i32 0 br br ⟨.act, 8, 0, []⟩ none {},
   .tableFunction 72 0 tp br br {}, .tableFunction 0 (2 ^ 24) tp br br {}, .tableFunction 0 0 tp ⟨.act, 8, 0, []⟩ br {},
   .tableFunction 0 0 tp br ⟨.act, 8, 0, []⟩ {}, .maxAbs 72 .i32 0 br br {}, .maxAbs 0 .i32 (2 ^ 24) br br {},
   .maxAbs 0 .i32 0 ⟨.act, 8, 0, []⟩ br {}]

def ill9 : List Instr :=
  [.maxAbs 0 .i32 0 br ⟨.act, 8, 0, []⟩ {}, .softmax 72 0 .i32 0 .i32 br br {}, .softmax 0 (2 ^ 24) .i32 0 .i32 br br {},
   .softmax 0 0 .i32 (2 ^ 32) .i32 br br {}, .softmax 0 0 .i32 0 .i32 ⟨.act, 8, 0, []⟩ br {},
   .softmax 0 0 .i32 0 .i32 br ⟨.act, 8, 0, []⟩ {}, .layerNormalisation 72 0 0 br br br br {},
   .layerNormalisation 0 (2 ^ 24) 0 br br br br {}, .layerNormalisation 0 0 (2 ^ 32) br br br br {},
   .layerNormalisation 0 0 0 ⟨.act, 8, 0, []⟩ br br br {}, .layerNormalisation 0 0 0 br ⟨.act, 8, 0, []⟩ br br {},
   .layerNormalisation 0 0 0 br br ⟨.act, 8, 0, []⟩ br {}, .layerNormalisation 0 0 0 br br br ⟨.act, 8, 0, []⟩ {},
   .boxDecoding 72 bp br br br br {}, .boxDecoding 0 bp ⟨.act, 8, 0, []⟩ br br br {},
   .boxDecoding 0 bp br ⟨.act, 8, 0, []⟩ br br {}, .boxDecoding 0 bp br br ⟨.act, 8, 0, []⟩ br {},
   .boxDecoding 0 bp br br br ⟨.act, 8, 0, []⟩ {}, .add 72 .i32 true 0 br br br none {},
   .add 0 .i32 true (2 ^ 24) br br br none {}, .add 0 .i32 true 0 ⟨.act, 8, 0, []⟩ br br none {},
   .add 0 .i32 true 0 br ⟨.act, 8, 0, []⟩ br none {}, .add 0 .i32 true 0 br br ⟨.act, 8, 0, []⟩ none {},
   .multiply 72 .i32 0 br br br {}]

def ill10 : List Instr :=
  [.multiply 0 .i32 (2 ^ 24) br br br {}, .multiply 0 .i32 0 ⟨.act, 8, 0, []⟩ br br {},
   .multiply 0 .i32 0 br ⟨.act, 8, 0, []⟩ br {}, .multiply 0 .i32 0 br br ⟨.act, 8, 0, []⟩ {},
   .fusedMultiplyAdd 72 .i32 0 br br br br none {}, .fusedMultiplyAdd 0 .i32 (2 ^ 24) br br br br none {},
   .fusedMultiplyAdd 0 .i32 0 ⟨.act, 8, 0, []⟩ br br br none {}, .fusedMultiplyAdd 0 .i32 0 br ⟨.act, 8, 0, []⟩ br br none {},
   .fusedMultiplyAdd 0 .i32 0 br br ⟨.act, 8, 0, []⟩ br none {}, .fusedMultiplyAdd 0 .i32 0 br br br ⟨.act, 8, 0, []⟩ none {},
   .min 72 .i32 0 br br br {}, .min 0 .i32 (2 ^ 24) br br br {}, .min 0 .i32 0 ⟨.act, 8, 0, []⟩ br br {},
   .min 0 .i32 0 br ⟨.act, 8, 0, []⟩ br {}, .min 0 .i32 0 br br ⟨.act, 8, 0, []⟩ {}, .max 72 .i32 0 br br br none {},
   .max 0 .i32 (2 ^ 24) br br br none {}, .max 0 .i32 0 ⟨.act, 8, 0, []⟩ br br none {},
   .max 0 .i32 0 br ⟨.act, 8, 0, []⟩ br none {}, .max 0 .i32 0 br br ⟨.act, 8, 0, []⟩ none {}, .convert 72 .i32 .i32 0 br br none {},
   .convert 0 .i32 .i32 (2 ^ 24) br br none {}, .convert 0 .i32 .i32 0 ⟨.act, 8, 0, []⟩ br none {},
   .convert 0 .i32 .i32 0 br ⟨.act, 8, 0, []⟩ none {}]

def ill11 : List Instr :=
  [.derive 72 .i32 (.fixed 0) 0 true br br {}, .derive 0 .i32 (.prod br ⟨.act, 8, 0, []⟩ 0) 0 true br br {},
   .derive 0 .i32 (.prod br br 31) 0 true br br {}, .derive 0 .i32 (.pow (-31)) 0 true br br {},
   .derive 0 .i32 (.fixed (2 ^ 32)) 0 true br br {}, .derive 0 .i32 (.fixed 0) (2 ^ 32) true br br {},
   .derive 0 .i32 (.fixed 0) 0 true ⟨.act, 8, 0, []⟩ br {}, .derive 0 .i32 (.fixed 0) 0 true br ⟨.act, 8, 0, []⟩ {}, .biasq 72 0 br br br br {},
   .biasq 0 (2 ^ 24) br br br br {}, .biasq 0 0 ⟨.act, 8, 0, []⟩ br br br {}, .biasq 0 0 br ⟨.act, 8, 0, []⟩ br br {},
   .biasq 0 0 br br ⟨.act, 8, 0, []⟩ br {}, .biasq 0 0 br br br ⟨.act, 8, 0, []⟩ {}, .reg 72 .act 0 0 0 true {},
   .reg 0 .act 8 0 0 true {}, .reg 0 .act 0 4096 0 true {}, .reg 0 .act 0 0 4097 true {}, .loop 72 1 [] {}, .loop 0 0 [] {},
   .loop 0 1 (List.replicate 9 0) {}, .endl 72 {}, .wait 72 (.token 0) {}, .sig 72 0 {}, .sig 0 4096 {}, .bnd 72 [] {},
   .bnd 0 [(.act, 8)] {}]

def ill12 : List Instr :=
  [.endOp 72 {}, .embWaitExpiry 64, .trackStepEnd 64, .ringIrqTimer 16, .scrubSlot 8, .bankDrainEnd 8 0, .bankDrainEnd 0 17,
   .bankZeroFillDone 8 0, .bankZeroFillDone 0 17, .domainUsable 256, .cooperAllocation 256 0 0, .cooperAllocation 0 (2 ^ 32) 0,
   .cooperAllocation 0 0 (2 ^ 16), .cooperFree (2 ^ 32), .cooperRefill 16, .listLinkRead 16,
   .hbmRequest { id := 0, src := .carter 0, addr := 2 ^ 40, wr := false },
   .hbmRequest { id := 0, src := .carter 8, addr := 0, wr := false }, .hbmRequest { id := 0, src := .client 29, addr := 0, wr := false },
   .hbmRequest { id := 0, src := .staging 8, addr := 0, wr := false }, .hbmRequest { id := 0, src := .controller, addr := 0, wr := false },
   .hbmReadData 32 0, .hbmReadData 0 (2 ^ 32), .refresh 32,
   .stackTemperatureRead (-129), .stackTemperatureRead 256, .hbmPatrolRead 32, .powerDownEntry 16]

def ill13 : List Instr :=
  [.repairDone 16 true, .probe 4, .probeReceived 4 0, .probeReceived 0 (2 ^ 64), .echoReceived 4 0 0 0,
   .echoReceived 0 (2 ^ 64) 0 0, .echoReceived 0 0 (2 ^ 64) 0, .echoReceived 0 0 0 (2 ^ 64), .markerReceived 4 0,
   .markerReceived 0 (2 ^ 64), .flitReceived 4 ⟨0, false, false, 0, 0, [], .probe⟩, .nakReceived 4 0, .nakReceived 0 256,
   .linkUp 4 0 0 [] true, .linkUp 0 (2 ^ 8) 0 [] true, .linkUp 0 0 4 [] true, .linkUp 0 0 0 (List.replicate 18 0) true,
   .creditReturn 4 0 0, .creditReturn 0 4 0, .creditReturn 0 0 256, .transferUnitStart (2 ^ 41) 0, .transferUnitStart 0 4096,
   .unitLanded (2 ^ 41) 0, .unitLanded 0 4096]

def ill14 : List Instr :=
  [.dueTick (2 ^ 41) 0, .dueTick 0 4096, .slackExpiry (2 ^ 41) 0, .slackExpiry 0 4096,
   .relayUnitLanded ⟨0, 0, 0, 0, 4096, 0, [], 0⟩, .spareResetCheckDone 8 true, .periodBreach 64, .divergence 2,
   .watchdogExpiry 2, .pairRestartDone 2, .dumWrite 256 0 0 0, .dumWrite 0 (2 ^ 16) 0 0, .dumWrite 0 0 (2 ^ 16) 0,
   .dumWrite 0 0 0 (2 ^ 24), .winnowSegmentStart ⟨9, 1, 0⟩, .winnowSegmentEnd 16 0 true, .winnowSegmentEnd 0 (2 ^ 16) true,
   .testOverrun 16 0, .testOverrun 0 (2 ^ 16), .goldenWindowCutoff (2 ^ 41), .handoverStart 8 0, .handoverStart 0 9,
   .handoverSubstitution 8, .coreTestDone 72 true 0]

def ill15 : List Instr :=
  [.coreTestDone 0 true (2 ^ 32), .latentOverdue 16 0 0, .latentOverdue 0 16 0, .latentOverdue 0 0 (2 ^ 16),
   .flashPatrol 4096 0 [0, 0, 0, 0], .flashPatrol 0 64 [0, 0, 0, 0], .flashPatrol 0 0 [], .wearLevelMove 7,
   .thermalConversion [], .unlistedCommand ⟨2 ^ 16, 0, 0⟩ 0, .unlistedCommand ⟨0, 2 ^ 64, 0⟩ 0,
   .unlistedCommand ⟨0, 0, 2 ^ 256⟩ 0, .unlistedCommand rq (2 ^ 16), .pcieLinkUp 16 0, .pcieLinkUp 0 64, .spareBankCopyStart 8 0,
   .spareBankCopyStart 0 16]

theorem test_refused_0 : ill0.all (fun i => !i.wf) = true := by decide

theorem test_refused_1 : ill1.all (fun i => !i.wf) = true := by decide

theorem test_refused_2 : ill2.all (fun i => !i.wf) = true := by decide

theorem test_refused_3 : ill3.all (fun i => !i.wf) = true := by decide

theorem test_refused_4 : ill4.all (fun i => !i.wf) = true := by decide

theorem test_refused_5 : ill5.all (fun i => !i.wf) = true := by decide

theorem test_refused_6 : ill6.all (fun i => !i.wf) = true := by decide

theorem test_refused_7 : ill7.all (fun i => !i.wf) = true := by decide

theorem test_refused_8 : ill8.all (fun i => !i.wf) = true := by decide

theorem test_refused_9 : ill9.all (fun i => !i.wf) = true := by decide

theorem test_refused_10 : ill10.all (fun i => !i.wf) = true := by decide

theorem test_refused_11 : ill11.all (fun i => !i.wf) = true := by decide

theorem test_refused_12 : ill12.all (fun i => !i.wf) = true := by decide

theorem test_refused_13 : ill13.all (fun i => !i.wf) = true := by decide

theorem test_refused_14 : ill14.all (fun i => !i.wf) = true := by decide

theorem test_refused_15 : ill15.all (fun i => !i.wf) = true := by decide

def well0 : List Instr :=
  [.vddAonPowerOn true 0 true 0, .perstNAssert, .perstNRelease {}, .clockLossReset 0, .hotReset, .linkDown, .functionLevelReset,
   .d3hotEntry, .d0Return, .pmeTurnOff, .busMasterEnableClear, .completionReceived 0 .ok [], .completionTimeout 0, .msixUnmask 0,
   .smbusReadTemperature 0, .smbusReadVcore, .smbusReadStatus, .smbusReadTrim, .smbusWake, .alertResponse,
   .registerWrite .host .bar0 0 0 0, .loRead .bar0 0 4, .rcRead 0, .intStatusClear 0 0 none]

def well1 : List Instr :=
  [.intForce 0 0 0, .errClr 0 none, .pageCommitHost 0 0 none, .pageCommitFw 0, .commitPoint 0, .ringRidxWrite 0 0,
   .dispJournalRidxWrite 0, .relayOutRidxWrite 0, .leaseRenew, .reeveFaultClr none, .mgmtFjSelWrite 0, .trainingRun 0 0,
   .trainingRunDone 0 [], .openOp rq 0 0 0 0 0, .prove rq, .challengeExpiry 0, .close rq,
   .provision rq 0 (List.replicate 1568 0), .roleClear rq 0, .regWrite rq 0 [], .adopt rq 0, .reeveSet rq 0 0 0 0,
   .modelKey rq 0 (List.replicate 1568 0), .modelKeyDelete rq 0]

def well2 : List Instr :=
  [.install rq 0 0 {}, .installCommit, .uninstall rq 0, .unlockStream rq 0, .unlockTensor rq 0 0 0, .embRead rq 0 0 0,
   .lock rq 0 0, .lockAck rq, .attest rq 0, .getCert rq 0, .fwUpdate rq 0 0 {}, .repairAuth rq 0 0, .recover rq,
   .testMode rq true, .placementEdit rq [], .jtagUnlock rq, .locksmithZeroise, .keysReloaded, .intakePoll, .descriptorRead 0,
   .auCopyDone 0, .pictureDecodeStart cm, .decodeComplete 0 dc, .decodeBudgetExpiry 0]

def well3 : List Instr :=
  [.frameStart 0, .csiPacket 0 pk, .frameEnd 0, .frameEndTimeout 0, .recordItem 72, .scalerStageStart 0 0, .scalerStageDone,
   .sickleStageStart 0 0 0, .sickleGranuleRead 0, .sickleBoxStart 0, .sickleBoxEnd 0, .pack 0 0 [],
   .encoderPictureTake 0 0 0, .encodeSliceDone 0, .encodePictureDone 0, .ledgerPoll, .ledgerEntryArrival,
   .pinnedLaunchDecision 0, .pinnedLaunch 0, .pooledPlacement, .eviction, .deadlineRefusal 0, .preemptionArrival 0,
   .contextSave 0]

def well4 : List Instr :=
  [.contextSaveLanded 0, .contextMove 0, .contextMoveDone 0, .contextRestore 0, .creditReturnTimeout 0, .leaseExpiry,
   .autonomousRepeat 0 0, .ld 0 gr (.table 0) 0 {}, .st 0 br gr 0 {}, .ldw 0 gr br 0 1 {}, .cb 0 br {}, .mm 0 mo {} true,
   .relu 0 .i32 0 br br {}, .clip 0 .i32 0 0 0 br br {}, .requantise 0 .i32 0 br br br none {}, .tableFunction 0 0 tp br br {},
   .maxAbs 0 .i32 0 br br {}, .softmax 0 0 .i32 0 .i32 br br {}, .layerNormalisation 0 0 0 br br br br {},
   .boxDecoding 0 bp br br br br {}, .add 0 .i32 true 0 br br br none {}, .multiply 0 .i32 0 br br br {},
   .fusedMultiplyAdd 0 .i32 0 br br br br none {}, .min 0 .i32 0 br br br {}]

def well5 : List Instr :=
  [.max 0 .i32 0 br br br none {}, .convert 0 .i32 .i32 0 br br none {}, .derive 0 .i32 (.fixed 0) 0 true br br {}, .biasq 0 0 br br br br {},
   .reg 0 .act 0 0 0 true {}, .loop 0 1 [] {}, .endl 0 {}, .wait 0 (.token 0) {}, .sig 0 0 {}, .bnd 0 [] {}, .endOp 0 {},
   .trackStepStart, .embWaitExpiry 0, .trackStepEnd 0, .recordWrite, .ringIrqTimer 0, .scrubSlot 0, .bankDrainEnd 0 0,
   .bankZeroFillDone 0 0, .domainUsable 0, .cooperAllocation 0 0 0, .cooperFree 0, .cooperRefill 0, .listLinkRead 0]

def well6 : List Instr :=
  [.hbmRequest { id := 0, src := .client 28, addr := 0, wr := false }, .hbmReadData 0 0, .refresh 0, .stackTemperatureRead 0, .hbmPatrolRead 0,
   .powerDownEntry 0, .repairDone 0 true, .probe 0, .probeReceived 0 0, .echoReceived 0 0 0 0, .marker, .markerReceived 0 0,
   .markerAbsent, .timeInEdge, .timeInAbsent, .timeOutStart, .timeOutEnd, .flitReceived 0 ⟨0, false, false, 0, 0, [], .probe⟩,
   .nakReceived 0 0, .linkUp 0 0 0 [] true, .creditReturn 0 0 0, .transferUnitStart 0 0, .unitLanded 0 0, .dueTick 0 0]

def well7 : List Instr :=
  [.slackExpiry 0 0, .relayUnitLanded ⟨0, 0, 0, 0, 0, 0, [], 0⟩, .faultReport ⟨.thermal, false⟩, .spareResetCheckDone 0 true,
   .periodBreach 0, .divergence 0, .watchdogExpiry 0, .pairRestartDone 0, .bothPairsResetTimeout, .faultJournalWrite,
   .dumWrite 0 0 0 0, .winnowSegmentStart ⟨0, 1, 0⟩, .winnowSegmentEnd 0 0 true, .testOverrun 0 0, .goldenWindowCutoff 0,
   .handoverStart 0 0, .handoverSubstitution 0, .coreTestDone 0 true 0, .latentOverdue 0 0 0, .flashPatrol 0 0 [0, 0, 0, 0],
   .wearLevelMove 0, .thermalConversion (List.replicate 12 40), .unlistedCommand rq 0, .flashOperationDone true]

def well8 : List Instr :=
  [.pcieLinkUp 0 0, .busMasterEnableSet, .pmeStatusClear, .spareBankCopyStart 0 0, .deferredDomainSwitchOn, .selfRefreshExitDone,
   .tapInstruction .bypass [], .vddAonPowerLoss, .entropyHealthTest true]

theorem test_accepted_0 : well0.all Instr.wf = true := by decide

theorem test_accepted_1 : well1.all Instr.wf = true := by decide

theorem test_accepted_2 : well2.all Instr.wf = true := by decide

theorem test_accepted_3 : well3.all Instr.wf = true := by decide

theorem test_accepted_4 : well4.all Instr.wf = true := by decide

theorem test_accepted_5 : well5.all Instr.wf = true := by decide

theorem test_accepted_6 : well6.all Instr.wf = true := by decide

theorem test_accepted_7 : well7.all Instr.wf = true := by decide

theorem test_accepted_8 : well8.all Instr.wf = true := by decide

/-- A packing of 2^16 samples is refused. -/
theorem test_refused_pack : (Instr.pack 0 0 (List.replicate (2 ^ 16) (.utt 0 0 []))).wf = false := by
  simp only [Instr.wf, List.length_replicate, Bool.and_eq_false_iff]
  decide

/-! ## The obligations' hypotheses can be met -/

/-- A running device in which no page has been brought up. -/
def run : State := { State.reset with power := { perst := false }, tallyRun := true }

/-- The pages `ps` brought up. -/
def up (ps : List Nat) (s : State) : State := ps.foldl (fun t p => setI t F.PAGE_STATUS_UP p 1) s

/-- BAR accesses served. -/
def served (s : State) : State := { s with pcie := { s.pcie with memSpace := true } }

/-- The state at Tally `t`. -/
def atT (t : Nat) (s : State) : State := { s with tally := BitVec.ofNat 64 t }

/-- Fields of single pages set. -/
def sets (l : List (Fld × Nat)) (s : State) : State := l.foldl (fun t e => setR t e.1 e.2) s

/-- Fields of page instances set. -/
def setIs (l : List (Fld × Nat × Nat)) (s : State) : State := l.foldl (fun t e => setI t e.1 e.2.1 e.2.2) s

/-- Fields behind selector values set. -/
def setSs (l : List (Fld × Nat × Nat)) (s : State) : State := l.foldl (fun t e => setS t e.1 e.2.1 e.2.2) s

theorem hyp_IdleTick :
    (State.reset.pending = [] ∧ State.reset.tallyRun = false) ∧
    (run.pending = [] ∧ run.tallyRun = true ∧ run.fab.step = none ∧ run.atRest = true) ∧
    (let s := { run with fab := { run.fab with step := some 13 } }
     s.pending = [] ∧ s.tallyRun = true ∧ s.fab.step = some 13 ∧ (s.tally + 1).toNat % 13 ≠ 0 ∧ s.atRest = true) ∧
    (let s := { atT 12 run with fab := { run.fab with step := some (-13), stepAligns := true } }
     s.pending = [] ∧ s.tallyRun = true ∧ s.fab.step = some (-13) ∧ (s.tally + 1).toNat % 13 = 0 ∧ s.fab.stepAligns = true ∧
       s.atRest = true) := by
  decide +kernel

theorem hyp_StepInv : run.Inv ∧ ∃ t, step run = .next t :=
  ⟨⟨⟨by decide +kernel, by decide +kernel, by decide +kernel, fun _ => rfl, fun _ => rfl, fun _ => rfl, rfl⟩, rfl, fun d h => nomatch h⟩, _, rfl⟩

theorem hyp_OnlyTheseTouchTheBase : Instr.changesBase (.cooperFree 0) = false ∧
    ∃ t, step { State.reset with pending := .cooperFree 0 :: [.marker] } = .next t := ⟨rfl, _, rfl⟩

theorem hyp_RegisterReadAfterWrite : F.CLK_PLL.id < 1024 ∧ F.CLK_LOSS.id < 1024 ∧ (1023 : Nat) < 1024 ∧ (127 : Nat) < 128 ∧
    (F.CLK_PLL.base + 0 ≠ F.CLK_LOSS.base + 0 ∨ F.CLK_PLL.id ≠ F.CLK_LOSS.id ∨ 1023 ≠ 0 ∨ 127 ≠ 0) := by decide +kernel

theorem hyp_MemoryReadAfterWrite :
    (15 : Nat) / 16 < 16 / 16 ∧ (16 + [(7 : Byte)].length - 1) / 16 < 32 / 16 ∧ 0 < [(7 : Byte)].length ∧ 16 / 16 ≤ 1 ∧
    1 ≤ (16 + [(7 : Byte)].length - 1) / 16 ∧ ({ data := [(3, 1)], err := [(0, 1)] } : Mem).wf = true := by decide +kernel

theorem hyp_CanonicalMemoriesAreEqual :
    let m : Mem := { data := [(3, 1), (40, 2)], err := [(2, 5)] }
    m.wf = true ∧ (∀ a, tget 0 m.data a = tget 0 m.data a) ∧ (∀ w, m.pat w = m.pat w) :=
  ⟨by decide +kernel, fun _ => rfl, fun _ => rfl⟩

theorem hyp_PowerAndResetPins :
    ({ State.reset with power := { vddAon := false } } : State).power.vddAon = false ∧
    (run.power.vddAon = true ∧ run.power.perst = false ∧ run.power.clkHold = false) ∧
    (let s := State.reset
     let s1 := { s with
      tally := 0
      tallyRun := true
      power := { s.power with perst := false, clkHold := false, xspiCsHigh := false }
      mgmt := { s.mgmt with bootCount := s.mgmt.bootCount + 1 } }
     let s2 := setR (setR (setR s1 F.CLK_PLL 63) F.PCIE_LINK_STATE 1) F.MGMT_BOOT_COUNT s1.mgmt.bootCount
     s.power.vddAon = true ∧ s.power.perst = true ∧ bootSlotOf s2 = some (0, {}, false)) ∧
    (let s := { State.reset with flash := { State.reset.flash with slotA := none } }
     s.power.vddAon = true ∧ s.power.perst = true ∧ bootSlotOf s = none) := by decide +kernel

theorem hyp_LinkResetsAndClockLoss :
    (let s := setR run F.PCIE_LINK_STATE 2
     s.live = true ∧ 2 ≤ reg s F.PCIE_LINK_STATE ∧ s.d0 = true) ∧
    (let s := setR (setR run F.PCIE_POWER_DSTATE 3) F.PCIE_LINK_STATE 4
     s.live = true ∧ 2 ≤ reg s F.PCIE_LINK_STATE ∧ s.d0 = false) ∧
    (run.live = true ∧ (0 : Nat) < 5 ∧ (4 : Nat) < 5 ∧ reg run F.PCIE_LINK_STATE < 2) := by decide +kernel

theorem hyp_HostFieldsReset :
    (F.DISP_PERIOD ∈ allFields ∧ 0 < F.DISP_PERIOD.n ∧ (0 : Nat) < 1024 ∧ (0 : Nat) < 128 ∧
      resetField F.DISP_PERIOD (F.DISP_PERIOD.base + 0) = true) ∧
    (F.CLK_PLL ∈ allFields ∧ 0 < F.CLK_PLL.n ∧ (1023 : Nat) < 1024 ∧ (127 : Nat) < 128 ∧
      resetField F.CLK_PLL (F.CLK_PLL.base + 0) = false ∧ F.CLK_PLL.id ≠ (stateFld false).id) := by decide +kernel

theorem hyp_SmbusCommands : run.power.vddAon = true ∧ (0 : Nat) < 13 ∧ (12 : Nat) < 13 ∧ State.reset.power.perst = true ∧
    State.reset.power.vddAon = true := by decide +kernel

theorem hyp_TapCommands : State.reset.power.vddAon = true ∧ State.reset.power.perst = true ∧ run.power.perst = false ∧ run.live = true ∧
    flag run F.SEC_STATE_JTAG_OPEN = false ∧ flag (setR run F.SEC_STATE_JTAG_OPEN 1) F.SEC_STATE_JTAG_OPEN = true ∧
    (setR run F.SEC_STATE_JTAG_OPEN 1).live = true := by decide +kernel

theorem hyp_Temperatures : State.reset.power.vddAon = true ∧
    (let s := setR (atT (2 ^ 20) run) F.HBMC_STATE_STATE 2
     s.live = true ∧ s.now % 2 ^ 20 = 0 ∧ reg s F.HBMC_STATE_STATE = 2) := by decide +kernel

theorem hyp_ManagementPairs :
    (run.live = true ∧ pairDown run 0 = false ∧ pairDown run 1 = false) ∧
    (let s := { run with mgmt := { run.mgmt with resetAt := [(0, some 3), (1, some 5)] } }
     s.live = true ∧ pairDown s 0 = true ∧ pairDown s 1 = true ∧
       tget none s.mgmt.resetAt 0 = some 3 ∧ tget none s.mgmt.resetAt 1 = some 5 ∧
       (3 + 13000000 < (atT 13000006 s).now ∧ 5 + 13000000 < (atT 13000006 s).now) ∧
       ((atT 13000005 s).now ≤ 3 + 13000000 ∨ (atT 13000005 s).now ≤ 5 + 13000000)) := by decide +kernel

theorem hyp_FaultsAndReactions :
    (run.live = true ∧ ({ cls := .thermal, test := true } : FaultRep).test = true ∧ ({ cls := .thermal } : FaultRep).test = false ∧
      (0 : Nat) < 72 ∧ (71 : Nat) < 72 ∧ (7 : Nat) < 8 ∧ (16 : Nat) < 17 ∧ (8 : Nat) < 9) ∧
    portUp (setI run F.LINK_STATE_STATE 3 2) 3 = true ∧
    (let r : Reaction := { core := 0, logical := some 0, spare := some 8, items := [], since := 4 }
     let s := { atT 117004 run with faults := { run.faults with reactions := [(0, some r)] } }
     s.live = true ∧ tget none s.faults.reactions 0 = some r ∧ r.logical = some 0 ∧ r.spare = some 8 ∧ r.since + 117000 ≤ s.now) ∧
    (let r : Reaction := { core := 0, logical := none, spare := none, items := [], since := 4 }
     let s := { atT 117004 run with faults := { run.faults with reactions := [(7, some r)] } }
     s.live = true ∧ tget none s.faults.reactions 7 = some r ∧ (r.logical = none ∨ r.spare = none) ∧ r.since + 117000 ≤ s.now) := by
  decide +kernel

theorem hyp_JournalsAndMap :
    (let s := { run with mgmt := { run.mgmt with fjBuf := [{}] } }
     s.live = true ∧ pairDown s 1 = false ∧ partFailed s 6 = false ∧ s.mgmt.fjBuf.isEmpty = false) ∧
    pageUp (up [8] run) 8 = true ∧ pairDown run 0 = false ∧
    (let e : DumEntry := { kind := 7, unit := 15, sub := 0, value := 1 }
     dumStands run e = true ∧ run.mgmt.dum.contains e = false ∧
     ({ run with mgmt := { run.mgmt with dum := [e] } } : State).mgmt.dum.contains e = true) := by decide +kernel

theorem hyp_AccessClasses :
    F.CLK_PLL.acc = .ro ∧ F.DISP_PERIOD.acc = .rws ∧ F.PAGE_CTRL.acc = .wo ∧ F.INT_STATUS.acc = .w1c ∧
    (F.DISP_PERIOD.id ≠ F.PAGE_STATUS_ACCESS_VIOLATION.id ∧ F.CLK_PLL.id < 1024 ∧ isRoiList F.DISP_PERIOD = false ∧
      F.DISP_PERIOD.id ≠ F.PWR_DOM_ON.id) ∧
    (F.CLK_PLL.acc ≠ .wo ∧ F.CLK_PLL.acc ≠ .rws ∧ planView run {} F.CLK_PLL = none ∧ ctxView run {} F.CLK_PLL = none ∧
      stateView run {} 11 F.CLK_PLL 0 = none) ∧ F.INT_STATUS.width = 32 ∧
    (tget 0 run.rf.hold (pageBase 11 + 0x104) = 0 ∧ pageUp (up [11] run) 11 = true ∧ (F.CLK_LOSS, 0) ∈ fieldsAt 11 0x104 ∧ F.CLK_LOSS.acc = .rc) := by decide +kernel

theorem hyp_HostRegisterAccess :
    (let s := served run
     s.live = true ∧ memServed s = true ∧ memServed run = false ∧ run.live = true ∧ 0xB104 % 4 = 0 ∧
       pageAt 0xB104 = some 11 ∧ pageAt 0x58000 = none ∧ 0x58000 % 4 = 0) ∧
    ((4 : Nat) = 4 ∧ (0xB001 % 4 ≠ 0 ∨ (4 : Nat) ≠ 4) ∧ (0 % 4 ≠ 0 ∨ (8 : Nat) ≠ 4) ∧
      (Space.bar4 = .bar0 ∨ Space.bar4 = .bar2 ∨ Space.bar4 = .bar4)) ∧
    flag (setR run F.PCIE_LINK_STATE 4) F.PCIE_LINK_STATE = true ∧
    (flag run F.PCIE_LINK_STATE = false ∨ 0 % 4 ≠ 0 ∨ (4 : Nat) ≠ 4) := by decide +kernel

theorem hyp_RegisterCommands :
    (let s := served (up [0, 1, 2, 5, 11, 15, 134] run)
     (∀ p ∈ [0, 11], s.live = true ∧ p < 139 ∧ pageUp s p = true ∧ memServed s = true ∧ mayWrite .direct p F.INT_STATUS = true ∧
       mayWrite .direct p F.PAGE_STATUS_ACCESS_VIOLATION = true ∧ mayWrite .direct p F.PAGE_CTRL = true) ∧
       pageAt (0xB000 + F.INT_STATUS.off) = some 11 ∧
       (fieldsAt 11 ((0xB000 + F.INT_STATUS.off) % 0x1000)).any (fun e => decide (e.1.acc = .w1c)) = true ∧
       ((none : Option Nat).isSome || memServed s) = true ∧ pageUp s 5 = true ∧ pageUp s 2 = true ∧
       (15 : Nat) < 16 ∧ pageUp s 15 = true ∧ pageUp s 1 = true ∧ pageUp s (119 + 15) = true ∧
       -- an index at the write index and one beyond the ring, the journal and the relay-out area
       (regX s F.RING_WIDX 15 + 2 ^ 32 - 0 % 2 ^ 32) % 2 ^ 32 ≤ (ringSpan s 15).2 ∧
       (ringSpan s 15).2 < (regX s F.RING_WIDX 15 + 2 ^ 32 - 1 % 2 ^ 32) % 2 ^ 32 ∧
       (reg s F.DISP_JOURNAL_WIDX + 2 ^ 32 - 0 % 2 ^ 32) % 2 ^ 32 ≤ journalSize s ∧
       journalSize s < (reg s F.DISP_JOURNAL_WIDX + 2 ^ 32 - 1 % 2 ^ 32) % 2 ^ 32 ∧
       (reg s F.RELAY_OUT_WIDX + 2 ^ 32 - 0 % 2 ^ 32) % 2 ^ 32 ≤ relaySize s ∧
       relaySize s < (reg s F.RELAY_OUT_WIDX + 2 ^ 32 - 1 % 2 ^ 32) % 2 ^ 32 ∧
       (let i := 2 ^ 32 - (2 ^ 26 - 2 ^ 21)
        (reg s F.DISP_JOURNAL_WIDX + 2 ^ 32 - i % 2 ^ 32) % 2 ^ 32 ≤ journalSize s ∧
        journalFree (setR s F.DISP_JOURNAL_RIDX (i % 2 ^ 32)) ≤ 2 ^ 21) ∧
       2 ^ 21 < journalFree (setR s F.DISP_JOURNAL_RIDX (0 % 2 ^ 32))) ∧
    (let s := { up [5, 11, 138] run with sec := { run.sec with sess := [(1, { gen := 1, isOpen := true, role := 0 })] } }
     s.live = true ∧ pageUp s 11 = true ∧ pageUp s 5 = true ∧ pageUp s 138 = true ∧ tagOpen s 17 none = true ∧
       mayWrite (.cmd 17 (sess s (17 % 16)).role) 11 F.INT_FORCE = true ∧
       mayWrite (.cmd 17 (sess s (17 % 16)).role) 5 F.REEVE_FAULT_CLR = true ∧
       mayWrite (.cmd 17 (sess s (17 % 16)).role) 138 F.INT_STATUS = true ∧
       mayWrite (.cmd 17 (sess s (17 % 16)).role) 138 F.PAGE_CTRL = true) ∧
    (let s0 := setR (served (up [2] run)) F.DISP_LEDGER_CFG_EN 1
     let s := { s0 with disp := { s0.disp with leaseEnd := some 9 } }
     s.live = true ∧ s.disp.leaseEnd = some 9 ∧ pageUp s 2 = true ∧ memServed s = true ∧ leaseRuns s = true ∧
       (atT 9 s).now ≤ 9 ∧ (leaseRuns run = false ∨ 9 < run.now) ∧ 9 < (atT 10 s).now) ∧
    (let s := { run with hbm := { run.hbm with trainRun := [(15, true)] } }
     s.live = true ∧ tget false s.hbm.trainRun 15 = true) := by decide +kernel

theorem hyp_PageCommits :
    (let s := up [0, 2, 5] run
     s.live = true ∧ pageUp s 0 = true ∧ pageLevel 0 = 0 ∧ pageUp s 2 = true ∧ pageLevel 2 ≠ 0 ∧ pageUp s 5 = true ∧
       pageUp (up [138] run) 138 = true ∧ (138 : Nat) < 139) ∧
    (let s := { up [2] run with sec := { run.sec with sess := [(1, { gen := 1, isOpen := true, role := 0 })] } }
     s.live = true ∧ pageUp s 2 = true ∧ tagOpen s 17 (some (pageRole 2)) = true ∧ pageLevel 2 ≠ 0) ∧
    (let x : Snap := { page := 12, fw := false, sel := 0, session := 0, at_ := 4, vals := [] }
     let s := { atT 5 run with rf := { run.rf with snaps := [x] } }
     let s0 := dropSnap s x.page false
     s.rf.snaps = [x] ∧ x.fw = false ∧ atPoint s (goLive s x) x false = true ∧ checkSnap s0 (goLive s0 x) x = 0 ∧
       (∀ d, needDom (goLive s0 x) x = some d → domOn s d = true)) ∧
    (let s := setDom run 223 true
     s.live = true ∧ (7 : Nat) < 8 ∧ domOn s (220 + 7 / 2) = true) ∧
    (let p : EncPic := { src := 0, num := 0, slices := 2 }
     let s := setI { run with strm := { run.strm with encs := [(1, { queue := [p], slice := 2, started := true })] } } F.ENC_CTRL_EN 1 1
     s.live = true ∧ (enc_ s 1).queue = p :: [] ∧ regI s F.ENC_CTRL_EN 1 ≠ 0 ∧ (enc_ s 1).started = true ∧
       (enc_ s 1).slice = p.slices) := by decide +kernel

theorem hyp_PcieCommitNeedsASource :
    let x : Snap := { page := 13, fw := false, sel := 0, session := 0, at_ := 4, vals := [(F.PCIE_WATCH_EN.key 0 0 0, 1)] }
    let s := { atT 5 run with rf := { run.rf with snaps := [x] } }
    let c := goLive (dropSnap s 13 false) x
    s.live = true ∧ s.rf.snaps = [x] ∧ x.page = 13 ∧ x.fw = false ∧ x.at_ < s.now ∧ flag c F.PCIE_WATCH_EN = true ∧
      flag c F.PCIE_WATCH_SAF = false ∧ flag c F.PCIE_WATCH_CONFIRMED = false ∧ flag c F.PCIE_WATCH_LOST = false ∧
      flag c F.PCIE_WATCH_PLAN_EVT = false ∧ flag c F.PCIE_WATCH_PIN = false := by decide +kernel

theorem hyp_SnapshotsGoLiveWhole :
    (let x : Snap := { page := 13, fw := false, sel := 0, session := 0, at_ := 0, vals := [(F.PCIE_WATCH_EN.key 0 0 0, 1)] }
     checkSnap (dropSnap run 13 false) (goLive (dropSnap run 13 false) x) x = 57) ∧
    (let x : Snap := { page := 115, fw := false, sel := 0, session := 0, at_ := 0, vals := [] }
     checkSnap run (goLive run x) x = 0 ∧ needDom (goLive run x) x = none) ∧
    (let s := setI run F.LINK_CTRL 3 1
     let x : Snap := { page := 138, fw := false, sel := 0, session := 0, at_ := 0, vals := [] }
     checkSnap s (goLive s x) x = 0 ∧ needDom (goLive s x) x = some 225 ∧ domOn s 225 = false) := by decide +kernel

/-- A session of role `role` is open in slot 1, with key 5 and next sequence number 1, and the mailbox page is up. -/
def sessOf (role : Nat) : State :=
  { up [7] run with sec := { run.sec with sess := [(1, { gen := 1, isOpen := true, role := role, key := 5, seq := 1 })] } }

/-- Its request with command code `cmd` and payload `p`. -/
def askOf (cmd : Nat) (p : List Byte) : MbReq := { session := 17, seq := 1, tag := reqTag 5 17 cmd 1 p }

/-- Such a request is accepted in every state that differs from `sessOf role` in nothing it is checked against, when the role may
give the command. -/
theorem asks_like {s : State} (role cmd : Nat) (p : List Byte) (roles : Option Nat → Bool) (hl : s.live = true)
    (hu : pageUp s 7 = true) (hm : reg s F.SEC_MB_STATE_STATE ≠ 1) (hs : s.sec.sess = (sessOf role).sec.sess)
    (h : mbMay s 1 cmd roles = true) : Asks s (askOf cmd p) cmd p roles := by
  have hi : (askOf cmd p).session % 16 = 1 := by simp [askOf]
  have he : sess s 1 = { gen := 1, isOpen := true, role := role, key := 5, seq := 1 } := by rw [sess, hs]; rfl
  have ha : asker s (askOf cmd p) = { gen := 1, isOpen := true, role := role, key := 5, seq := 1 } := by rw [asker, hi, he]
  refine ⟨hl, hu, hm, by simp [askOf], ?_, ?_, ?_, ?_, ?_⟩
  · rw [hi, tagOf, he]; rfl
  · rw [ha]
  · rw [ha]; rfl
  · rw [ha]; rfl
  · rw [hi]; exact h

/-- The mailbox takes the requests of the session of `sessOf role`. -/
theorem asks_of (role cmd : Nat) (p : List Byte) (roles : Option Nat → Bool) (hr : role < 5)
    (h : mbMay (sessOf role) 1 cmd roles = true) : Asks (sessOf role) (askOf cmd p) cmd p roles := by
  have hm : reg (sessOf role) F.SEC_MB_STATE_STATE ≠ 1 := by
    rcases role with _ | _ | _ | _ | _ | _
    all_goals first | decide +kernel | omega
  have hu : pageUp (sessOf role) 7 = true := by
    rcases role with _ | _ | _ | _ | _ | _
    all_goals first | decide +kernel | omega
  exact asks_like role cmd p roles rfl hu hm rfl h

theorem hyp_OpeningASession :
    (let s := { sets [(F.SEC_STATE_KEYS_READY, 1)] (up [7] run) with sec := { run.sec with roleKeys := [(0, some 3)] } }
     AsksOpenly s { session := 0, seq := 0, tag := 0 } ∧ openRefusal (addR s F.SEC_COMMANDS 1) 0 (reg s F.SEC_IFACE_IFACE) 0 = none ∧
       (upto 16).find? (fun i => !(sess s i).isOpen && !(sess s i).pending) = some 0) ∧
    (AsksOpenly (up [7] run) { session := 0, seq := 0, tag := 0 } ∧
      openRefusal (addR (up [7] run) F.SEC_COMMANDS 1) 0 0 0 = some 12) ∧
    (let s := { up [7] run with sec := { run.sec with sess := [(1, { gen := 1, pending := true })] } }
     let r : MbReq := { session := 17, seq := 0, tag := Config.kmac256 ((roleKey s 0).getD 0) (transcript s 1) 256 "LK6424 PROVE" }
     s.live = true ∧ pageUp s 7 = true ∧ reg s F.SEC_MB_STATE_STATE ≠ 1 ∧ r.session ≠ 0 ∧ tagOf s (r.session % 16) = r.session ∧
       (asker s r).isOpen = false ∧ (asker s r).pending = true ∧ r.seq = 0 ∧
       r.tag = Config.kmac256 ((roleKey s (asker s r).role).getD 0) (transcript s (r.session % 16)) 256 "LK6424 PROVE") ∧
    Asks (sessOf 2) (askOf 3 []) 3 [] anyRole ∧
    (let s := { atT second run with sec := { run.sec with sess := [(15, { pending := true, openedAt := 0 })] } }
     s.live = true ∧ (15 : Nat) < 16 ∧ (sess s 15).pending = true ∧ (sess s 15).openedAt + second ≤ s.now) :=
  ⟨⟨⟨by decide +kernel, by decide +kernel, by decide +kernel, rfl, rfl⟩, by decide +kernel, by decide +kernel⟩,
    ⟨⟨by decide +kernel, by decide +kernel, by decide +kernel, rfl, rfl⟩, by decide +kernel⟩,
    ⟨by decide +kernel, by decide +kernel, by decide +kernel, by decide, by decide +kernel, rfl, rfl, rfl, rfl⟩,
    asks_of 2 3 [] anyRole (by decide) (by decide +kernel), by decide +kernel⟩

theorem hyp_KeysOfTheLocksmith :
    (let s := sets [(F.SEC_STATE_PUF_OK, 1)] (up [7] run)
     AsksOpenly s { session := 0, seq := 0, tag := 0 } ∧ (3 : Nat) ≤ 4 ∧ tget none s.sec.flashRole 3 = none ∧
       s.sec.lostRoles.testBit 3 = false ∧ reg s F.SEC_STATE_PUF_OK ≠ 0 ∧ pairDown (addR s F.SEC_COMMANDS 1) 1 = false ∧
       partFailed (addR s F.SEC_COMMANDS 1) 3 = false ∧ (4 < 5 ∨ (tget none s.sec.flashRole 5).isSome = true ∨ s.sec.lostRoles.testBit 5 = true)) ∧
    (Asks (sessOf 4) (askOf 5 (Machine.le 1 4 ++ [0, 0, 0])) 5 (Machine.le 1 4 ++ [0, 0, 0]) (mayClear 4) ∧
      (let s1 := asked (sessOf 4) (askOf 5 (Machine.le 1 4 ++ [0, 0, 0]))
       pairDown s1 1 = false ∧ partFailed s1 3 = false ∧ (tget none s1.sec.flashRole 4).isSome = true)) ∧
    (Asks (sessOf 1) (askOf 0x20 (Machine.le 8 7 ++ [1])) 0x20 (Machine.le 8 7 ++ [1]) (onlyRole 1) ∧
      (let s1 := asked (sessOf 1) (askOf 0x20 (Machine.le 8 7 ++ [1]))
       pairDown s1 1 = false ∧ partFailed s1 3 = false ∧ s1.sec.modelKeys.any (fun k => decide (k.1 = 7)) = false ∧
         s1.sec.modelKeys.length < 64)) ∧
    (Asks (sessOf 1) (askOf 0x21 (Machine.le 8 7)) 0x21 (Machine.le 8 7) (onlyRole 1) ∧
      (let s1 := asked (sessOf 1) (askOf 0x21 (Machine.le 8 7))
       pairDown s1 1 = false ∧ partFailed s1 3 = false ∧ keyInUse s1 7 = false)) ∧
    (let s := { sessOf 1 with plans := [(0, { st := .installed, img := { hdr := { keyId := 7 } } })] }
     Asks s (askOf 0x21 (Machine.le 8 7)) 0x21 (Machine.le 8 7) (onlyRole 1) ∧
       keyInUse (asked s (askOf 0x21 (Machine.le 8 7))) 7 = true) ∧
    (let s := sets [(F.SEC_STATE_PUF_OK, 1), (F.SEC_STATE_ZEROISED, 1)] run
     s.live = true ∧ flag s F.SEC_STATE_ZEROISED = true ∧ pairDown s 1 = false ∧ flag s F.SEC_STATE_PUF_OK = true) :=
  ⟨⟨⟨by decide +kernel, by decide +kernel, by decide +kernel, rfl, rfl⟩, by decide +kernel⟩,
    ⟨asks_of 4 5 _ (mayClear 4) (by decide) (by decide +kernel), rfl, by decide +kernel, by decide +kernel⟩,
    ⟨asks_of 1 0x20 _ (onlyRole 1) (by decide) (by decide +kernel), rfl, by decide +kernel, rfl, by decide +kernel⟩,
    ⟨asks_of 1 0x21 _ (onlyRole 1) (by decide) (by decide +kernel), rfl, by decide +kernel, rfl⟩,
    ⟨asks_like 1 0x21 _ (onlyRole 1) rfl rfl (by decide +kernel) rfl (by decide +kernel), by decide +kernel⟩,
    by decide +kernel⟩

theorem hyp_ReleasesAndLocks :
    Asks (sessOf 0) (askOf 0x11 (Config.mbPayload 0x11 [1])) 0x11 (Config.mbPayload 0x11 [1]) (onlyRole 0) ∧
    (let s := { sessOf 2 with strm := { run.strm with slots := [(71, { isOpen := true })] } }
     let r := askOf 0x30 (Config.mbPayload 0x30 [2 ^ 71])
     Asks s r 0x30 (Config.mbPayload 0x30 [2 ^ 71]) (onlyRole 2) ∧ 2 ^ 71 < 2 ^ 72 ∧
       (upto 72).any (fun n => (2 ^ 71).testBit n && !slotOpen (asked s r) n) = false) ∧
    (Asks (sessOf 2) (askOf 0x30 (Config.mbPayload 0x30 [2 ^ 72])) 0x30 (Config.mbPayload 0x30 [2 ^ 72]) (onlyRole 2) ∧
      (2 ^ 72 ≤ 2 ^ 72 ∨ (upto 72).any (fun n => (2 ^ 72).testBit n && !slotOpen (asked (sessOf 2) (askOf 0x30 (Config.mbPayload 0x30 [2 ^ 72]))) n) = true)) ∧
    (let s := { sessOf 2 with plans := [(3, { st := .installed, gen := 1 })] }
     let r := askOf 0x31 (Config.mbPayload 0x31 [259, 15, 255])
     Asks s r 0x31 (Config.mbPayload 0x31 [259, 15, 255]) (onlyRole 2) ∧ 15 < 16 ∧ 1 ≤ 255 ∧ 255 < 256 ∧
       planInstalled (asked s r) 259 = true ∧ planInstalled (asked s r) 515 = false) ∧
    Asks (sessOf 2) (askOf 0x32 (Config.mbPayload 0x32 [0, 0, 30])) 0x32 (Config.mbPayload 0x32 [0, 0, 30]) (onlyRole 2) ∧
    Asks (sessOf 2) (askOf 0x33 (Config.mbPayload 0x33 [1, 0])) 0x33 (Config.mbPayload 0x33 [1, 0]) (onlyRole 2) ∧
    Asks (sessOf 2) (askOf 0x34 []) 0x34 [] (onlyRole 2) :=
  ⟨asks_of 0 0x11 _ (onlyRole 0) (by decide) (by decide +kernel),
    ⟨asks_like 2 0x30 _ (onlyRole 2) rfl rfl (by decide +kernel) rfl (by decide +kernel), by decide, by decide +kernel⟩,
    ⟨asks_of 2 0x30 _ (onlyRole 2) (by decide) (by decide +kernel), Or.inl (Nat.le_refl _)⟩,
    ⟨asks_like 2 0x31 _ (onlyRole 2) rfl rfl (by decide +kernel) rfl (by decide +kernel), by decide, by decide, by decide,
      by decide +kernel, by decide +kernel⟩,
    asks_of 2 0x32 _ (onlyRole 2) (by decide) (by decide +kernel), asks_of 2 0x33 _ (onlyRole 2) (by decide) (by decide +kernel),
    asks_of 2 0x34 _ (onlyRole 2) (by decide) (by decide +kernel)⟩

theorem hyp_Attestation :
    (let r := askOf 0x40 (Machine.le 32 9)
     Asks (sessOf 3) r 0x40 (Machine.le 32 9) anyRole ∧ pairDown (asked (sessOf 3) r) 1 = false ∧ reg (asked (sessOf 3) r) F.SEC_XMSS < 2 ^ 20 ∧
       (reg (asked (sessOf 3) r) F.SEC_XMSS_END ≤ reg (asked (sessOf 3) r) F.SEC_XMSS → partFailed (asked (sessOf 3) r) 4 = false)) ∧
    (let s := sets [(F.SEC_XMSS, 2 ^ 20)] (sessOf 3)
     let r := askOf 0x40 (Machine.le 32 9)
     Asks s r 0x40 (Machine.le 32 9) anyRole ∧ pairDown (asked s r) 1 = false ∧ 2 ^ 20 ≤ reg (asked s r) F.SEC_XMSS) ∧
    (let r := askOf 0x41 (Config.mbPayload 0x41 [1])
     Asks (sessOf 3) r 0x41 (Config.mbPayload 0x41 [1]) (fun _ => true) ∧ pairDown (asked (sessOf 3) r) 1 = false) ∧
    (AsksOpenly (up [7] run) { session := 0, seq := 0, tag := 0 } ∧ pairDown (addR (up [7] run) F.SEC_COMMANDS 1) 1 = false) :=
  ⟨⟨asks_of 3 0x40 _ anyRole (by decide) (by decide +kernel), rfl, by decide +kernel, fun _ => by decide +kernel⟩,
    ⟨asks_like 3 0x40 _ anyRole rfl rfl (by decide +kernel) rfl (by decide +kernel), rfl, by decide +kernel⟩,
    ⟨asks_of 3 0x41 _ (fun _ => true) (by decide) (by decide +kernel), rfl⟩,
    ⟨by decide +kernel, by decide +kernel, by decide +kernel, rfl, rfl⟩, by decide +kernel⟩

theorem hyp_MaintenanceCommands :
    (let r := askOf 0x51 (Config.mbPayload 0x51 [15, 3])
     Asks (sessOf 3) r 0x51 (Config.mbPayload 0x51 [15, 3]) (onlyRole 3) ∧ pairDown (asked (sessOf 3) r) 1 = false) ∧
    (Asks (sessOf 3) (askOf 0x52 []) 0x52 [] (onlyRole 3) ∧ (asked (sessOf 3) (askOf 0x52 [])).inSafe = false) ∧
    (let s := setR (sessOf 3) F.SYS_STATUS_SAFE 1
     Asks s (askOf 0x52 []) 0x52 [] (onlyRole 3) ∧ (asked s (askOf 0x52 [])).inSafe = true ∧ safeCause (asked s (askOf 0x52 [])) = false ∧
       safeCause (setR (asked s (askOf 0x52 [])) F.THERM_STATE_CRIT 1) = true) ∧
    (let s := setR (sessOf 4) F.SYS_STATUS_PHASE 1
     let r := askOf 0x60 (Config.mbPayload 0x60 [bnat true])
     Asks s r 0x60 (Config.mbPayload 0x60 [bnat true]) (onlyRole 4) ∧ (asked s r).phase = 1) ∧
    (let s := { setR (sessOf 4) F.SYS_STATUS_PHASE 2 with sec := { (sessOf 4).sec with testBy := some 17 } }
     let r := askOf 0x60 (Config.mbPayload 0x60 [bnat false])
     Asks s r 0x60 (Config.mbPayload 0x60 [bnat false]) (onlyRole 4) ∧ (asked s r).phase = 2 ∧ (asked s r).sec.testBy = some r.session) ∧
    (let r := askOf 0x60 (Config.mbPayload 0x60 [bnat true])
     Asks (sessOf 4) r 0x60 (Config.mbPayload 0x60 [bnat true]) (onlyRole 4) ∧ (asked (sessOf 4) r).phase ≠ 1) ∧
    (let r := askOf 0x60 (Config.mbPayload 0x60 [bnat false])
     Asks (sessOf 4) r 0x60 (Config.mbPayload 0x60 [bnat false]) (onlyRole 4) ∧
       ((asked (sessOf 4) r).phase ≠ 2 ∨ (asked (sessOf 4) r).sec.testBy ≠ some r.session)) ∧
    (let r := askOf 0x62 []
     Asks (sessOf 4) r 0x62 [] (onlyRole 4) ∧ pairDown (asked (sessOf 4) r) 1 = false ∧ partFailed (asked (sessOf 4) r) 3 = false) ∧
    (let r := askOf 0x50 (Config.mbPayload 0x50 [0, 0])
     let s1 := asked (sessOf 3) r
     Asks (sessOf 3) r 0x50 (Config.mbPayload 0x50 [0, 0]) (onlyRole 3) ∧ pairDown s1 1 = false ∧ partFailed s1 (1 + idleSlot s1) = false ∧
       startRead s1 .fwImage 0 294912 false = none ∧ 1 ≤ 294912 ∧ 294912 ≤ 294912 ∧ ((0 : Nat) = 0 ∨ 294912 < 0)) ∧
    (let s := { sessOf 3 with pcie := { run.pcie with bme := true, memSpace := true } }
     let r := askOf 0x50 (Config.mbPayload 0x50 [0, 1])
     Asks s r 0x50 (Config.mbPayload 0x50 [0, 1]) (onlyRole 3) ∧ ∃ t, startRead (asked s r) .fwImage 0 1 false = some t) ∧
    (let s := sessOf 3
     let r := askOf 0x99 (Config.mbPayload 0x99 [])
     s.live = true ∧ pageUp s 7 = true ∧ reg s F.SEC_MB_STATE_STATE ≠ 1 ∧ r.session ≠ 0 ∧ tagOf s (r.session % 16) = r.session ∧
       (asker s r).isOpen = true ∧ r.seq = (asker s r).seq ∧
       r.tag = reqTag (asker s r).key r.session 0x99 r.seq (Config.mbPayload 0x99 [])) :=
  ⟨⟨asks_of 3 0x51 _ (onlyRole 3) (by decide) (by decide +kernel), rfl⟩,
    ⟨asks_of 3 0x52 _ (onlyRole 3) (by decide) (by decide +kernel), by decide +kernel⟩,
    ⟨asks_like 3 0x52 _ (onlyRole 3) rfl (by decide +kernel) (by decide +kernel) rfl (by decide +kernel), by decide +kernel, by decide +kernel,
      by decide +kernel⟩,
    ⟨asks_like 4 0x60 _ (onlyRole 4) rfl (by decide +kernel) (by decide +kernel) rfl (by decide +kernel), by decide +kernel⟩,
    ⟨asks_like 4 0x60 _ (onlyRole 4) rfl (by decide +kernel) (by decide +kernel) rfl (by decide +kernel), by decide +kernel, by decide +kernel⟩,
    ⟨asks_of 4 0x60 _ (onlyRole 4) (by decide) (by decide +kernel), by decide +kernel⟩,
    ⟨asks_of 4 0x60 _ (onlyRole 4) (by decide) (by decide +kernel), by decide +kernel⟩,
    ⟨asks_of 4 0x62 _ (onlyRole 4) (by decide) (by decide +kernel), rfl, by decide +kernel⟩,
    ⟨asks_of 3 0x50 _ (onlyRole 3) (by decide) (by decide +kernel), rfl, by decide +kernel, by decide +kernel, by decide, by decide, by decide⟩,
    ⟨asks_like 3 0x50 _ (onlyRole 3) rfl (by decide +kernel) (by decide +kernel) rfl (by decide +kernel),
      Option.isSome_iff_exists.mp (by decide +kernel)⟩,
    rfl, by decide +kernel, by decide +kernel, by decide, by decide +kernel, by decide +kernel, by decide +kernel, rfl⟩

theorem hyp_ConfigurationCommands :
    (let w : List RegW := [{ base := 0x2000, off := 0x100, value := 1 }]
     let r := askOf 0x10 (regPayload 1 w)
     Asks (sessOf 0) r 0x10 (regPayload 1 w) regRoles ∧ 1 ≤ 1 ∧ 1 ≤ 335 ∧ w.length = 1) ∧
    (Asks (sessOf 3) (askOf 0x10 (regPayload 336 [])) 0x10 (regPayload 336 []) regRoles ∧
      ((336 : Nat) = 0 ∨ 335 < 336 ∨ ([] : List RegW).length ≠ 336)) ∧
    (let r := askOf 0x12 (Config.mbPayload 0x12 [63, 1, 2, 3])
     Asks (sessOf 0) r 0x12 (Config.mbPayload 0x12 [63, 1, 2, 3]) (onlyRole 0) ∧ pairDown (asked (sessOf 0) r) 0 = false ∧ 63 < 64) ∧
    (let r := askOf 0x12 (Config.mbPayload 0x12 [64, 1, 2, 3])
     Asks (sessOf 0) r 0x12 (Config.mbPayload 0x12 [64, 1, 2, 3]) (onlyRole 0) ∧ pairDown (asked (sessOf 0) r) 0 = false ∧ 64 ≤ 64) ∧
    (let r := askOf 0x61 (Config.mbPayload 0x61 ([(0, 8)].flatMap (fun e => [e.1, e.2])))
     Asks (sessOf 4) r 0x61 (Config.mbPayload 0x61 ([(0, 8)].flatMap (fun e => [e.1, e.2]))) (onlyRole 4) ∧ pairDown (asked (sessOf 4) r) 1 = false) :=
  ⟨⟨asks_of 0 0x10 _ regRoles (by decide) (by decide +kernel), by decide, by decide, rfl⟩,
    ⟨asks_of 3 0x10 _ regRoles (by decide) (by decide +kernel), by decide⟩,
    ⟨asks_of 0 0x12 _ (onlyRole 0) (by decide) (by decide +kernel), rfl, by decide⟩,
    ⟨asks_of 0 0x12 _ (onlyRole 0) (by decide) (by decide +kernel), rfl, by decide⟩,
    asks_of 4 0x61 _ (onlyRole 4) (by decide) (by decide +kernel), rfl⟩

theorem hyp_PlanCommands :
    (let s := { sessOf 1 with pcie := { run.pcie with bme := true } }
     let r := askOf 0x22 (Config.mbPayload 0x22 [4096, 256])
     Asks s r 0x22 (Config.mbPayload 0x22 [4096, 256]) (onlyRole 1) ∧ pairDown (asked s r) 1 = false ∧
       ∃ t, startRead (asked s r) .planImage 4096 256 false = some t) ∧
    (let r := askOf 0x22 (Config.mbPayload 0x22 [4096, 256])
     Asks (sessOf 1) r 0x22 (Config.mbPayload 0x22 [4096, 256]) (onlyRole 1) ∧ pairDown (asked (sessOf 1) r) 1 = false ∧
       startRead (asked (sessOf 1) r) .planImage 4096 256 false = none) ∧
    (let x : Install := { req := { session := 17, seq := 1, tag := 0 }, len := 256, img := { hdr := { tags := 256 } }, idx := some 0 }
     let s := { run with sec := { run.sec with install := some x } }
     s.live = true ∧ s.sec.install = some x ∧ x.idx = some 0 ∧ pairDown s 1 = false ∧ installReason s 0 x.img = 4) ∧
    (let img : PlanImage := { hdr := { cls := 1, maxBatch := 0 }, timeline := some { period := 65536, offsets := [] } }
     let x : Install := { req := { session := 17, seq := 1, tag := 0 }, len := 256, img := img, idx := some 255 }
     let s := { run with sec := { run.sec with install := some x } }
     s.live = true ∧ s.sec.install = some x ∧ x.idx = some 255 ∧ pairDown s 1 = false ∧ installReason s 255 x.img = 0) ∧
    (let s := { sessOf 1 with plans := [(255, { st := .installed, gen := 1 })] }
     let r := askOf 0x23 (Config.mbPayload 0x23 [511])
     Asks s r 0x23 (Config.mbPayload 0x23 [511]) (onlyRole 1) ∧ pairDown (asked s r) 1 = false ∧ planInstalled (asked s r) 511 = true) ∧
    (let r := askOf 0x23 (Config.mbPayload 0x23 [0])
     Asks (sessOf 1) r 0x23 (Config.mbPayload 0x23 [0]) (onlyRole 1) ∧ pairDown (asked (sessOf 1) r) 1 = false ∧
       planInstalled (asked (sessOf 1) r) 0 = false) :=
  ⟨⟨asks_like 1 0x22 _ (onlyRole 1) rfl (by decide +kernel) (by decide +kernel) rfl (by decide +kernel), rfl,
      Option.isSome_iff_exists.mp (by decide +kernel)⟩,
    ⟨asks_of 1 0x22 _ (onlyRole 1) (by decide) (by decide +kernel), rfl, by decide +kernel⟩,
    ⟨rfl, rfl, rfl, rfl, by decide +kernel⟩, ⟨rfl, rfl, rfl, rfl, by decide +kernel⟩,
    ⟨asks_like 1 0x23 _ (onlyRole 1) rfl (by decide +kernel) (by decide +kernel) rfl (by decide +kernel), rfl, by decide +kernel⟩,
    asks_of 1 0x23 _ (onlyRole 1) (by decide) (by decide +kernel), rfl, by decide +kernel⟩

/-- The item that `tile` runs. -/
def tileItem : Item := { key := 1, st := .running, cores := [0] }

/-- Core 0 runs item 1 of plan-table entry 0, whose program of rank 0 is `cmds` and whose operators are `ops`. -/
def tile (cmds : List TileCmd) (ops : List OpDesc := []) : State :=
  setI { run with
    plans := [(0, { st := .installed, img := { progs := [(0, cmds)], ops := ops } })]
    disp := { run.disp with items := [tileItem] }
    cores := [(0, { item := some 1 })] } F.CORE_STATE_STATE 0 1

/-- With nothing in flight, nothing goes on. -/
theorem pump_none {s : State} {p : Nat} (h : ∀ e, (Machine.core s p).flight e = none) : pumpCore s p = s := by
  simp [pumpCore, pumpEngine, h]

/-- An instruction that waits for no token issues there to any engine. -/
theorem issues_tile (c : TileCmd) (ops : List OpDesc) (e : Engine) (h : c.tok.waits = []) :
    Issues (tile [c] ops) 0 c e tileItem (tile [c] ops) := by
  refine ⟨rfl, pump_none fun e => by cases e <;> rfl, rfl, ?_⟩
  have h1 : getF (tile [c] ops) F.CORE_STATE_STATE 0 0 0 = 1 := by
    show getF (setI run F.CORE_STATE_STATE 0 1) F.CORE_STATE_STATE 0 0 0 = 1
    decide +kernel
  have h2 : (Machine.core (tile [c] ops) 0).freeAt e = 0 := by cases e <;> rfl
  have h3 : Machine.core (tile [c] ops) 0 = { item := some 1 } := rfl
  have h4 : item? (tile [c] ops) tileItem.key = some tileItem := rfl
  have h5 : progOf (tile [c] ops) 0 tileItem = [c] := rfl
  have h6 : (Machine.core (tile [c] ops) 0).flight e = none := by cases e <;> rfl
  rw [h3] at h2 h6
  simp [issueOk, h, h1, h2, h3, h4, h5, h6]
  decide

/-- Operands in bins are there, and results in bins have room: no region is circular. -/
theorem feeds_tile (cmds : List TileCmd) (ops : List OpDesc) (rd wr : List (BinRef × Nat)) :
    Feeds (tile cmds ops) 0 tileItem (rd.map (fun x => (.bin x.1, x.2))) (wr.map (fun x => (.bin x.1, x.2))) := by
  have h : ∀ b r, ((Machine.core (tile cmds ops) 0).region b r).circ = false := fun _ _ => rfl
  refine ⟨?_, ?_, ?_⟩
  · simp [opersReady, operReady, canRead, h]
  · simp [operRoom, canWrite, h]
  · simp [Oper.isGran]

theorem hyp_VectorInstructions (ins : VecOp) (rd wr : List (BinRef × Nat)) :
    Issues (tile [{ ins := .vec ins }]) 0 { ins := .vec ins } .vector tileItem (tile [{ ins := .vec ins }]) ∧
      Feeds (tile [{ ins := .vec ins }]) 0 tileItem (rd.map (fun x => (.bin x.1, x.2))) (wr.map (fun x => (.bin x.1, x.2))) :=
  ⟨issues_tile _ _ _ rfl, feeds_tile _ _ _ _⟩

/-- Operator `op` over a 2 × 2 input of one channel with a window of 2 × 2. -/
def pool2 (op : Nat) : OpDesc :=
  { op := op, path := 0, mode := 0, flow := 0, cIn := 1, cOut := 1, groups := 1, hMax := 2, wMax := 2, kh := 2, kw := 2, sh := 1, sw := 1,
    dh := 1, dw := 1, padT := 0, padB := 0, padL := 0, padR := 0, padv := 0, flags := 0, strN := 256, strH := 64, strW := 1, strC := 1,
    outLayout := 0, elem := 1, fmt := .i8, binding := 0 }

/-- The byte operand at the start of region `r` of the activation bin. -/
def act (r : Nat) : BinRef := { bin := .act, reg := r, off := 0 }

/-- Conversions whose results go where the outputs of operator 0 stand. -/
theorem hyp_VectorInstructions_mapped :
    let m : OutMap := { op := 0, pos := 0, chan := 0 }
    let cv : VecOp := .convert .i32 .bf16 32 (act 0) (act 1) (some m)
    let rq : VecOp := .requantise .i32 32 (act 0) (act 2) (act 1) (some m)
    (∀ ins : VecOp, Issues (tile [{ ins := .vec ins }] [pool2 0]) 0 { ins := .vec ins } .vector tileItem (tile [{ ins := .vec ins }] [pool2 0]) ∧
      opAt (imgOf (tile [{ ins := .vec ins }] [pool2 0]) tileItem.e) m.op = some (pool2 0)) ∧
    (let s := tile [{ ins := .vec cv }] [pool2 0]
     let r := mappedRun s 0 tileItem cv m (pool2 0)
     Feeds s 0 tileItem r.rd r.wr) ∧
    (let s := tile [{ ins := .vec rq }] [pool2 0]
     let r := mappedRun s 0 tileItem rq m (pool2 0)
     Feeds s 0 tileItem r.rd r.wr) := by
  refine ⟨fun _ => ⟨issues_tile _ _ _ rfl, rfl⟩, ?_, ?_⟩ <;> unfold Feeds <;> decide +kernel

/-- The vector instruction of operator 0: `max`, or `add`. -/
def poolCmd (avg : Bool) : VecOp :=
  if avg then .add .i8 false 1 (act 0) (act 0) (act 1) (some 0) else .max .i8 1 (act 0) (act 0) (act 1) (some 0)

theorem hyp_PoolingTakesItsCycles (avg : Bool) (d : OpDesc) :
    let s := tile [{ ins := .vec (poolCmd avg) }] [d]
    Issues s 0 { ins := .vec (poolCmd avg) } .vector tileItem s ∧ opAt (imgOf s tileItem.e) 0 = some d :=
  ⟨issues_tile _ _ _ rfl, rfl⟩

theorem hyp_PoolingTakesItsCycles_shapes :
    (let d : OpDesc := { pool2 4 with hMax := 2 ^ 16, wMax := 2 ^ 16 }
     let s := tile [{ ins := .vec (poolCmd true) }] [d]
     d.tooLarge (opShape s tileItem 0).1 (opShape s tileItem 0).2 = true) ∧
    (let d : OpDesc := { pool2 2 with hMax := 1 }
     let s := tile [{ ins := .vec (poolCmd false) }] [d]
     d.tooLarge (opShape s tileItem 0).1 (opShape s tileItem 0).2 = false ∧
       (d.outDims (opShape s tileItem 0).1 (opShape s tileItem 0).2).1 = 0) ∧
    (∀ op ∈ [2, 4],
      let d := pool2 op
      let s := tile [{ ins := .vec (poolCmd true) }] [d]
      let h := (opShape s tileItem 0).1
      let w := (opShape s tileItem 0).2
      let l := d.layout ((act 0).offset (Machine.core s 0)) h w
      d.tooLarge h w = false ∧ (d.outDims h w).1 ≠ 0 ∧
        opersReady s 0 tileItem (gather (Machine.core s 0) (act 0) d.fmt.size (poolReads d l h w)) = true ∧
        canWrite s 0 (act 1) (d.fmt.size * d.outLen (d.outDims h w).1 (d.outDims h w).2 d.cIn) = true) := by decide +kernel

/-- Crop-and-resize over the box list at the start of region 2 of the activation bin. -/
def cropCmd : VecOp := .fma .i8 1 (act 0) (act 2) (act 0) (act 1) (some 0)

/-- The box list's header holds `count` boxes, an output of `ow` × `oh` and the shift and sub-sample byte `sub`. -/
def crop (count ow oh sub hMax : Nat) : State :=
  writeRef (tile [{ ins := .vec cropCmd }] [{ pool2 0 with hMax := hMax }]) 0 (act 2)
    (Machine.le 2 count ++ [BitVec.ofNat 8 ow, BitVec.ofNat 8 oh, 0, 0, BitVec.ofNat 8 sub] ++ List.replicate 25 0) 0

/-- The hypotheses of the crop's statements on the instruction and its box list, and what its header holds. -/
def cropAt (s : State) (hMax : Nat) : Bool × CropHdr :=
  (s.live && decide ((Machine.core s 0).flight .loader = none) && decide ((Machine.core s 0).flight .array = none) &&
    decide ((Machine.core s 0).flight .vector = none) && decide (itemOn s 0 = some tileItem) &&
    issueOk s 0 tileItem.key { ins := .vec cropCmd } .vector && decide (opAt (imgOf s tileItem.e) 0 = some { pool2 0 with hMax := hMax }) &&
    canRead s 0 (act 2) 32 && !(peekList s 0 (act 2) 32).info.bad &&
    !({ pool2 0 with hMax := hMax } : OpDesc).tooLarge (opShape s tileItem 0).1 (opShape s tileItem 0).2,
   cropHdrOf (peekList s 0 (act 2) 32).bytes)

theorem hyp_TensorCropTakesItsCycles :
    (∀ s ∈ [crop 1 1 1 0 2, crop 4096 64 64 (6 * 8) 2],
      let hd := (cropAt s 2).2
      (cropAt s 2).1 = true ∧ 1 ≤ hd.count ∧ hd.count ≤ 4096 ∧ 1 ≤ hd.ow ∧ hd.ow ≤ 64 ∧ 1 ≤ hd.oh ∧ hd.oh ≤ 64 ∧ hd.sh ≤ 6 ∧
        (opShape s tileItem 0).1 ≠ 0 ∧ (opShape s tileItem 0).2 ≠ 0) ∧
    (let s := crop 1 1 1 0 2
     let d := pool2 0
     let l := d.layout ((act 0).offset (Machine.core s 0)) 2 2
     let len := 32 + 16 * (cropAt s 2).2.count
     let boxes := cropBoxes (cropAt s 2).2.count ((peekList s 0 (act 2) len).bytes.drop 32)
     let rd : List (Oper × Nat) := [(.bin (act 2), len)] ++ gather (Machine.core s 0) (act 0) d.fmt.size (cropReads d l (cropAt s 2).2 2 2 boxes)
     opersReady s 0 tileItem rd = true ∧ canWrite s 0 (act 1) 2 = true ∧ rd.any (fun x => x.1.isGran) = false) := by decide +kernel

theorem hyp_OperatorCorners :
    (∀ avg : Bool, (let d : OpDesc := { pool2 4 with hMax := 2 ^ 16, wMax := 2 ^ 16 }
      let s := tile [{ ins := .vec (poolCmd avg) }] [d]
      opAt (imgOf s tileItem.e) 0 = some d ∧ Issues s 0 { ins := .vec (poolCmd avg) } .vector tileItem s ∧
        d.tooLarge (opShape s tileItem 0).1 (opShape s tileItem 0).2 = true)) ∧
    (let d : OpDesc := { pool2 4 with hMax := 2 ^ 16, wMax := 2 ^ 16 }
     let s := tile [{ ins := .vec cropCmd }] [d]
     Issues s 0 { ins := .vec cropCmd } .vector tileItem s ∧ d.tooLarge (opShape s tileItem 0).1 (opShape s tileItem 0).2 = true) ∧
    [crop 4097 1 1 0 2, crop 1 0 1 0 2, crop 1 1 0 0 2, crop 1 65 1 0 2, crop 1 1 65 0 2, crop 1 1 1 (7 * 8) 2, crop 0 1 1 0 2].all
      (fun s =>
        let hd := (cropAt s 2).2
        (cropAt s 2).1 && (decide (4096 < hd.count ∨ hd.ow = 0 ∨ hd.oh = 0 ∨ 64 < hd.ow ∨ 64 < hd.oh ∨ 6 < hd.sh) || decide (hd.count = 0)) &&
          opersReady s 0 tileItem [(.bin (act 2), 32)]) = true ∧
    (let s := crop 1 64 64 48 0
     (cropAt s 0).1 = true ∧ (opShape s tileItem 0).1 = 0 ∧ opersReady s 0 tileItem [(.bin (act 2), 32)] = true) :=
  ⟨fun avg => ⟨rfl, issues_tile _ _ _ rfl, by cases avg <;> decide +kernel⟩, ⟨issues_tile _ _ _ rfl, by decide +kernel⟩,
    by decide +kernel, by decide +kernel⟩

theorem hyp_ArrayAndLoader (ins : TileIns) (e : Engine) (x : BinRef) :
    Issues (tile [{ ins := ins }]) 0 { ins := ins } e tileItem (tile [{ ins := ins }]) ∧
      Feeds (tile [{ ins := ins }]) 0 tileItem [(.bin x, 16)] [] :=
  ⟨issues_tile _ _ _ rfl, feeds_tile _ _ [(x, 16)] []⟩

/-- An MM of one position whose activation rows stand in region 0, or are formed for operator 0. -/
def mmOp (feed : Option Feed) : MMOp :=
  { mode := .i8, flow := .ws, m := 1, n := 1, k := 1, a := act 0, w := { bin := .weight, reg := 0, off := 0 }, tiles := [0], acc := false, feed := feed }

theorem hyp_ArrayAndLoader_mm :
    (let d : OpDesc := { pool2 4 with hMax := 2 ^ 16, wMax := 2 ^ 16 }
     mmRefuses (tile [{ ins := .mm (mmOp (some { op := 0, pos := 0, chan := 0 })) }] [d]) tileItem (mmOp (some { op := 0, pos := 0, chan := 0 })) = true) ∧
    (let s := tile [{ ins := .mm (mmOp none) }]
     mmRefuses s tileItem (mmOp none) = false ∧ opersReady s 0 tileItem (mmRun s 0 tileItem (mmOp none) false).rd = true ∧
       (mmRun s 0 tileItem (mmOp none) false).rd.any (fun x => x.1.isGran) = false) ∧
    (let s := modCore (tile [{ ins := .mm (mmOp none) }]) 0 (fun c => { c with regions := [(8, { defined := true, base := 0, len := 4, circ := true })] })
     issueOk s 0 tileItem.key { ins := .mm (mmOp none) } .array = true ∧ mmRefuses s tileItem (mmOp none) = false ∧
       opersReady s 0 tileItem (mmRun s 0 tileItem (mmOp none) false).rd = false) := by decide +kernel

theorem hyp_ArrayAndLoader_tags :
    let s := tile [{ ins := .ldw { width := 16, bank := 0, start := 0 } { bin := .weight, reg := 0, off := 0 } 64 1 }]
    regI s F.CORE_RESIDENT_TAG 0 ≠ weightTag tileItem 1 ∧
      regI (setI s F.CORE_RESIDENT_TAG 0 (weightTag tileItem 1)) F.CORE_RESIDENT_TAG 0 = weightTag tileItem 1 := by decide +kernel

theorem hyp_ArrayAndLoader_landing :
    let g : GranRef := { width := 1, bank := 0, start := 0 }
    let f : Flight := { cmd := { ins := .ld g (.bin (act 0)) 64 }, item := 1, loops := [], rd := [(.gran g, 64)], need := 0, endAt := 4 }
    let s := modCore (atT 20 (tile [])) 0 (fun c => { c with flights := [(2, some f)] })
    let s1 := underLoops s 0 f.loops
    let sp := granSpan s1 0 tileItem g
    let r := readOper s1 0 tileItem (.gran g, 64)
    let a := afterBins (modCore r.1 0 (fun k => k.busy .loader f.endAt)) 0 tileItem.key r.2.info
    let t := writeOper a.1 0 tileItem (.bin (act 0), r.2.bytes) f.endAt
    (Machine.core s 0).flight .loader = some f ∧ itemOn s 0 = some tileItem ∧ f.slotAt ≤ s.now ∧ sp.circ = none ∧ cdiv 64 64 ≤ sp.width ∧
      ((Machine.core s1 0).region .act 0).circ = false ∧ a.2 = true ∧ stillOn a.1 0 tileItem.key = true ∧
      ((Machine.core a.1 0).region .act 0).circ = false ∧ stillOn t 0 tileItem.key = true ∧ r.2.bytes ≠ [] := by decide +kernel

theorem hyp_LoopEngine (ins : TileIns) : Issues (tile [{ ins := ins }]) 0 { ins := ins } .loop tileItem (tile [{ ins := ins }]) :=
  issues_tile _ _ _ rfl

/-- The core of `tile [c]` changed by `f`, at Tally 9: the instruction still issues. -/
def tileAt (c : TileIns) (f : CoreS → CoreS) : State := modCore (atT 9 (tile [{ ins := c }])) 0 f

theorem hyp_LoopEngine_cases :
    (∀ left ∈ [0, 5], let s := tileAt .endl (fun c => { c with loops := [{ start := 0, left := left, iter := 0, strides := [] }] })
      issueOk s 0 1 { ins := .endl } .loop = true ∧ (Machine.core s 0).loops = { start := 0, left := left, iter := 0, strides := [] } :: []) ∧
    (let s := tileAt (.wait (.token 3)) (fun c => { c with tokens := 8 })
     issueOk s 0 1 { ins := .wait (.token 3) } .loop = true ∧ (Machine.core s 0).tokenSet (2 * s.now) 3 = true ∧
       (Machine.core s 0).tokenSet (2 * s.now) 4 = false) ∧
    (let s := tileAt (.wait (.tally 9)) id
     (Machine.core s 0).launched + 9 ≤ s.now ∧ s.now < (Machine.core s 0).launched + 10) ∧
    (let s := tileAt (.wait (.sem 4095)) id
     (sem (modSem s 4095 (fun y => { y with val := 1 })) 4095).val ≠ 0 ∧ (sem s 4095).val = 0) ∧
    (∀ p ∈ [none, some 9, some 10], let s := tileAt (.bnd []) (fun c => { c with preempt := p })
      issueOk s 0 1 { ins := .bnd [] } .loop = true ∧ (Machine.core s 0).preempt = p ∧ s.now = 9) ∧
    (let s := tile [{ ins := .end_ }]
     let s1 := modItem (issueOn s 0 { ins := .end_ } .loop 2) 1 (fun i => { i with ended := i.ended ++ [(Machine.core s 0).rank] })
     enginesIdle s 0 = true ∧ (item? s1 1).any (fun x => decide (x.ended.length = x.cores.length)) = true) ∧
    (let it2 : Item := { tileItem with cores := [0, 1] }
     let s := { tile [{ ins := .end_ }] with disp := { run.disp with items := [it2] } }
     let s1 := modItem (issueOn s 0 { ins := .end_ } .loop 2) 1 (fun i => { i with ended := i.ended ++ [(Machine.core s 0).rank] })
     issueOk s 0 1 { ins := .end_ } .loop = true ∧ enginesIdle s 0 = true ∧ (Machine.core s 0).preempt = none ∧
       (item? s1 1).any (fun x => decide (x.ended.length ≠ x.cores.length)) = true) := by decide +kernel

theorem hyp_LedgerCommands :
    (let s := { setR run F.DISP_LEDGER_CFG_EN 1 with disp := { run.disp with leaseEnd := some 5 } }
     s.live = true ∧ s.now % (if reg s F.DISP_PERIOD = 0 then 8192 else reg s F.DISP_PERIOD) = 0 ∧ leaseRuns s = true ∧ s.d0 = true ∧
       flag (addR (addR s F.DISP_FETCH_TIMEOUTS 1) F.PCIE_READ_FAILS 1) F.RELAY_CFG_EN = false ∧
       (let u := setR (addR (addR s F.DISP_FETCH_TIMEOUTS 1) F.PCIE_READ_FAILS 1) F.RELAY_CFG_EN 1
        flag u F.RELAY_CFG_EN = true ∧ u.pcie.reads = [])) ∧
    (let p : Poll := { pidxPending := false, count := 1, got := [(0, List.replicate 128 0)] }
     let s := { run with disp := { run.disp with poll := some p } }
     s.live = true ∧ s.disp.poll = some p ∧ (tget [] p.got p.checked).isEmpty = false ∧ p.failedFrom = none ∧ p.checked < p.count ∧
       arrivalCheck s (entryOf (tget [] p.got p.checked)) = some (0x204, 0)) ∧
    (let s := { sessOf 0 with plans := [(0, { st := .installed, gen := 1 })] }
     arrivalCheck s { plan := 256, session := 17 } = none) ∧
    (let s := { atT 5 (setR run F.DISP_LEDGER_CFG_EN 1) with disp := { run.disp with leaseEnd := some 5 } }
     s.live = true ∧ s.disp.leaseEnd = some 5 ∧ leaseRuns s = true ∧ 5 ≤ s.now) ∧
    (let r : Repeat := { idx := 3, offset := 7, e := {}, count := 0, lastLaunch := 0 }
     let s := { setR run F.DISP_LEASE_EXPIRED 1 with disp := { run.disp with repeats := [r] }, plans := [(3, { st := .installed })] }
     s.live = true ∧ s.disp.repeats.find? (fun r => decide (r.idx = 3) && decide (r.offset = 7)) = some r ∧
       (flag s F.DISP_LEASE_EXPIRED = true ∨ (s.d0 = false ∧ flag s F.PCIE_POWER_WATCH = true)) ∧ (planAt s 3).st = .installed) := by
  decide +kernel

/-- Item 1 in state `st` for plan-table entry 0, of class `cls`, on logical cores `cores`. -/
def one (it : Item) : State :=
  { run with
    plans := [(0, { st := .installed, img := { hdr := { cls := 1 }, timeline := some { period := 65536, offsets := [0] } } })]
    disp := { run.disp with items := [{ it with key := 1 }] } }

theorem hyp_PinnedItems :
    (let s := one { st := .pinned, e := { cls := 1, launch := 5200 } }
     s.live = true ∧ (1 : Nat) < goldenBase ∧ item? s 1 = some { key := 1, st := .pinned, e := { cls := 1, launch := 5200 } } ∧
       5200 ≤ s.now + 5200 ∧ firstDecision s 1 5200 (planIdx 0) = true ∧ goldenAfter s 5200 (planIdx 0) = true) ∧
    (let s := setPlace (one { st := .pinned, e := { cls := 1, launch := 5200 } }) 0 0
     let s1 := pruneResv s
     let it : Item := { key := 1, st := .pinned, e := { cls := 1, launch := 5200 } }
     item? s 1 = some it ∧ it.golden = false ∧ firstDecision s 1 5200 (planIdx 0) = true ∧ goldenAfter s 5200 (planIdx 0) = true ∧
       pickCores (imgOf s1 it.e).hdr.cores (imgOf s1 it.e).hdr.oneCluster ((upto 64).filter (freeAt s1 it.e.launch)) = some [0]) ∧
    (let img : PlanImage := { hdr := { cls := 1 }, timeline := some { period := 65536, offsets := [], golden := some { offset := 5200, length := 64, every := 1, sig := 0 } } }
     let s := { setR run F.WINNOW_CTRL_EN 1 with plans := [(9, { st := .installed, img := img })] }
     s.live = true ∧ goldenDue s 9 = some 5200 ∧ flag s F.WINNOW_CTRL_EN = true ∧ (planAt s 9).st = .installed ∧ (planAt s 9).img.hdr.cls = 1 ∧
       s.disp.items.all (fun x => decide (x.st ≠ .pinned) || decide (5200 < x.e.launch) ||
        (decide (5200 = x.e.launch) && decide (9 < planIdx x.e.plan))) = true ∧ goldenAfter s 5200 9 = true) ∧
    (let it : Item := { key := 1, st := .decided, golden := true }
     let s := one it
     s.live = true ∧ item? s 1 = some it ∧ it.e.launch ≤ s.now ∧ s.noLaunch = false ∧ it.cores.all (coreIdle s) = true) ∧
    (let it : Item := { key := 1, st := .decided, golden := true, cores := [63] }
     let s := setR (one it) F.SYS_STATUS_SAFE 1
     item? s 1 = some it ∧ (s.noLaunch = true ∨ it.cores.all (coreIdle s) = false)) ∧
    (let it : Item := { key := 1, st := .decided, late := true, cores := [63] }
     let s := setPlace (one it) 63 127
     item? s 1 = some it ∧ it.cores.any (coreGone s) = true) ∧
    (let it : Item := { key := 1, st := .decided, late := true, cores := [0] }
     let s := setPlace (one it) 0 0
     item? s 1 = some it ∧ it.cores.any (coreGone s) = false ∧ it.cores.all (coreIdle s) = true ∧
       it.cores.all (coreIdle (setI s F.CORE_STATE_STATE 0 1)) = false ∧ it.cores.any (coreGone (setI s F.CORE_STATE_STATE 0 1)) = false) ∧
    (let it : Item := { key := 1, st := .decided, e := { batch := 1 } }
     let s := one it
     item? s 1 = some it ∧ it.golden = false ∧ it.late = false ∧ s.noLaunch = false ∧ (setR s F.SYS_STATUS_SAFE 1).noLaunch = true ∧
       it.isRepeat = false ∧ allReady s it = true ∧ shapeStatus s it it.lateBinds = none ∧ it.cores.all (coreIdle s) = true) ∧
    (let it : Item := { key := 1, st := .decided, e := { bind := [5] }, lateBinds := [] }
     let s := { one it with plans := [(0, { st := .installed, img := { binds := [{}] } })] }
     item? s 1 = some it ∧ allReady s it = false) ∧
    (let it : Item := { key := 1, st := .decided, lateBinds := [0] }
     let s := { one it with plans := [(0, { st := .installed, img := { binds := [{ dims := [1] }] } })] }
     item? s 1 = some it ∧ allReady s it = true ∧ (shapeStatus s it it.lateBinds).isSome = true) := by decide +kernel

/-- A pinned boundary: core `p` of item 1 in state `st`. -/
def pre (st : ItemSt) (c : CoreS) : State :=
  { run with
    plans := [(0, { st := .installed })]
    disp := { run.disp with items := [{ key := 1, st := st, cores := [0] }] }
    cores := [(0, { c with item := some 1 })] }

theorem hyp_PooledItems :
    (run.live = true ∧ run.noLaunch = false ∧ flag run F.THERM_STATE_WARN = false) ∧
    (let it : Item := { key := 1, e := { batch := 1 } }
     let s := setDom (setPlace (one it) 0 0) 0 true
     s.live = true ∧ s.noLaunch = false ∧ flag s F.THERM_STATE_WARN = false ∧
       s.disp.items.filter (fun i => !i.isPinned && i.inherit &&
         (decide (i.st = .pooled) || decide (i.st = .saving) || decide (i.st = .out))) = [] ∧
       (waitingAt s 0).find? (headReady s) = some it ∧ it.st = .pooled ∧ pastDeadline s it = false ∧ 64 ≤ ctxFree s ∧
       placeable s it = some [0]) ∧
    (let it : Item := { key := 1, st := .out, e := { batch := 1 } }
     let s := setDom (setPlace (one it) 0 0) 0 true
     s.disp.items.filter (fun i => !i.isPinned && i.inherit &&
         (decide (i.st = .pooled) || decide (i.st = .saving) || decide (i.st = .out))) = [] ∧
       (waitingAt s 0).find? (headReady s) = some it ∧ it.st = .out ∧
       it.clusterSet.any (fun c => (clu s c.1).outOfService) = false ∧ placeable s it = some [0]) ∧
    (let it : Item := { key := 1, e := { batch := 1, deadline := 47 } }
     let s := one it
     item? s 1 = some it ∧ it.st = .pooled ∧ it.e.deadline ≠ 0 ∧ allReady s it = true ∧ pastDeadline s it = true) ∧
    (let it : Item := { key := 1, e := { batch := 1, deadline := 47, bind := [5] } }
     let s := atT 47 (one it)
     item? s 1 = some it ∧ it.st = .pooled ∧ it.e.deadline ≠ 0 ∧ allReady s it = false ∧ it.e.deadline ≤ s.now) ∧
    (let it : Item := { key := 1, st := .running, e := { batch := 1 }, cores := [0] }
     let h : Item := { key := 2, e := { batch := 1 } }
     let s := { run with
       plans := [(0, { st := .installed })]
       disp := { run.disp with items := [it, h] }
       cores := [(0, { item := some 1, blocked := some { since := 0, sem := some 1 } })] }
     s.live = true ∧ blockedHead s [0, 1, 2, 3] = some h ∧ longestBlocked s = some 1 ∧ item? s 1 = some it ∧
       (pooledCores s).all (fun p => (Machine.core s p).blocked.isSome && !(Machine.core s p).stopped) = true ∧
       (s.disp.evictFor = some h.key ∨ (upto 64).any (freeFor s h.key) = false) ∧ s.noLaunch = false) := by decide +kernel

theorem hyp_ContextsSavedAndRestored :
    (let s := pre .restoring { preempt := some 0 }
     s.live = true ∧ (Machine.core s 0).item = some 1 ∧ (Machine.core s 0).preempt = some 0 ∧ 0 ≤ s.now ∧ (Machine.core s 0).stopped = false ∧
       (item? s 1).isSome = true) ∧
    (let s := pre .running { preempt := some 0, atBnd := some [(.act, 1)], blocked := some { since := 0, sem := none } }
     (Machine.core s 0).preempt = some 0 ∧ (Machine.core s 0).stopped = false ∧ (item? s 1).any (fun it => decide (it.st ≠ .restoring)) = true ∧
       atBoundary s 0 = some [(.act, 1)]) ∧
    (let s := setI (pre .saving { stopped := true, atBnd := some [(.act, 1)], regions := [(9, { defined := true, len := 1 })], written := [(rowKey .act 0, true)] })
       F.CORE_STATE_STATE 0 1
     let r := readRows s 0 ((item? s 1).getD {}) (liveRows (Machine.core s 0) [(.act, 1)])
     s.live = true ∧ (Machine.core s 0).item = some 1 ∧ (Machine.core s 0).atBnd = some [(.act, 1)] ∧ freeCtx s = some 0 ∧ wantsSave s 0 = true ∧
       enginesIdle s 0 = true ∧ saveRuns s (0 / 9) = false ∧ saveFirst s 0 = true ∧ r.2.1.length = 1 ∧ r.2.2.bad = false) ∧
    (let s := setI (pre .saving { stopped := true, atBnd := some [(.act, 1)], regions := [(9, { defined := true, len := 1 })], written := [(rowKey .act 0, true)],
                                  abin := { err := [(0, 2 ^ 128 + 2 ^ 132)] } })
       F.CORE_STATE_STATE 0 1
     wantsSave s 0 = true ∧ saveFirst s 0 = true ∧
       (readRows s 0 ((item? s 1).getD {}) (liveRows (Machine.core s 0) [(.act, 1)])).2.2.bad = true) ∧
    (let s := atT 7 (setI (pre .saving { stopped := true }) F.CORE_STATE_STATE 0 2)
     (Machine.core s 0).item = some 1 ∧ regI s F.CORE_STATE_STATE 0 = 2 ∧ (clu s (0 / 9)).carterAt + 7 ≤ s.now ∧
       (upto 72).any (fun q => decide ((Machine.core (clearCore s 0) q).item = some 1)) = false ∧
       (upto 72).any (fun q => decide ((Machine.core (clearCore (modCore s 71 (fun c => { c with item := some 1 })) 0) q).item = some 1)) = true) ∧
    (let s := { run with ctxs := [(1023, { st := .save, item := 1 })] }
     s.live = true ∧ (tget ({} : Ctx) s.ctxs 1023).st = .save ∧
       (upto 72).all (fun p => decide ((Machine.core s p).item ≠ some (tget ({} : Ctx) s.ctxs 1023).item) ||
        decide ((Machine.core s p).rank ≠ (tget ({} : Ctx) s.ctxs 1023).rank)) = true) ∧
    (let s := { run with ctxs := [(0, { st := .moving, item := 1 })] }
     s.live = true ∧ (tget ({} : Ctx) s.ctxs 0).st = .moving) ∧
    (let it : Item := { key := 1, st := .restoring, cores := [0] }
     let s := { atT 100 (setPlace (pre .restoring {}) 0 0) with ctxs := [(5, { st := .restoring, item := 1, place := .warm })] }
     s.live = true ∧ item? s 1 = some it ∧
       (ctxsOf s 1).find? (fun e => !e.2.restored) = some (5, { st := .restoring, item := 1, place := .warm }) ∧
       physOf s (nth 64 it.cores 0) = some 0 ∧ it.st = .restoring ∧ restoreWaits s (0 / 9) it = false ∧
       carterSlot s (0 / 9) it.decision (ctxGranules (tget {} s.ctxCores 5).savedRows) + 14 ≤ s.now) := by decide +kernel

theorem hyp_ASaveKeepsWhatWasLive :
    ({} : CoreS).canon = true ∧
    (let rows : List SavedRow := [⟨.act, 4095, List.replicate (Bin.row .act) 1⟩, ⟨.weight, 4095, List.replicate (Bin.row .weight) 2⟩]
     (∀ q ∈ rows, q.row < 4096 ∧ q.bytes.length = q.bin.row) ∧ rows.Pairwise (fun a b => a.bin ≠ b.bin ∨ a.row ≠ b.row)) ∧
    (let it : Item := { key := 1, st := .running, cores := [0] }
     let s := modCore (pre .running {}) 0 (fun c => { c with psumMask := 1 })
     rowPlace s 0 it .act 7 = some 7 ∧ rowPlace s 0 it .psum 7 = some 15 ∧ (List.replicate 512 (0 : Byte)).length = Bin.row .psum) := by
  decide +kernel

theorem hyp_IntakeCommands :
    (let s := run
     s.live = true ∧ s.now % (if reg s F.INTAKE_PERIOD < 256 then 256 else reg s F.INTAKE_PERIOD) = 0 ∧ s.d0 = true ∧
       flag s F.DISP_LEASE_EXPIRED = false ∧ s.journalFull = false) ∧
    (∀ n ∈ [63, 75], let s := { run with
       pcie := { run.pcie with bme := true }
       strm := { run.strm with slots := [(n, { isOpen := true })] } }
     (n < 64 ∨ (72 ≤ n ∧ n < 76)) ∧ (slotAt s n).isOpen = true ∧ (slotAt s n).closing = false ∧ (slotAt s n).pidxPending = false ∧
       (slotAt s n).descPending = 0 ∧ waitsBuffer s n = false ∧ s.mayRead = true) ∧
    (let s := { run with
       pcie := { run.pcie with bme := true }
       strm := { run.strm with slots := [(63, { isOpen := true, fetched := [⟨0, 0, 0, 0, 0⟩] })] } }
     (slotAt s 63).fetched = ⟨0, 0, 0, 0, 0⟩ :: [] ∧ (slotAt s 63).isOpen = true ∧ (slotAt s 63).closing = false ∧ (slotAt s 63).copying = none ∧
       intakeMay s = true ∧ ((0 : Nat) = 0 ∨ 16777216 < 0 ∨ poolSize s (regS s F.ADM_POOL_POOL 63) < 0)) ∧
    (let s := { setSs [(F.COOPER_POOL_CFG_EN, 0, 1), (F.COOPER_POOL_CFG_COUNT, 0, 1), (F.COOPER_POOL_CFG_SIZE, 0, 4096)] run with
       pcie := { run.pcie with bme := true }
       pools := [(0, { free := [0], cached := 1 })]
       strm := { run.strm with slots := [(63, { isOpen := true, fetched := [⟨0, 16777216, 0, 0, 0⟩] })] } }
     let s1 := modSlot s 63 (fun x => { x with fetched := [] })
     intakeMay s = true ∧ 16777216 ≤ poolSize s (regS s F.ADM_POOL_POOL 63) ∧ poolReady s (regS s F.ADM_POOL_POOL 63) = true ∧
       mayTake s (regS s F.ADM_POOL_POOL 63) 63 = true ∧ (cooperAlloc s1 63 16777216 (2 ^ regS s F.ADM_POOL_POOL 63) none).2.isSome = true ∧
       (cooperAlloc s 63 16777216 (2 ^ regS s F.ADM_POOL_POOL 63) none).2.isSome = true ∧
       (cooperAlloc s 63 16777216 (2 ^ regS s F.ADM_POOL_POOL 63) none).1.mayRead = true ∧
       (cooperAlloc { s with pools := [] } 63 16777216 (2 ^ regS s F.ADM_POOL_POOL 63) none).2 = none) ∧
    (let s := { run with strm := { run.strm with slots := [(0, { copying := some (⟨0, 1, 0, 0, 0⟩, 3), copyRes := some (false, [7]) })] } }
     (slotAt s 0).copying = some (⟨0, 1, 0, 0, 0⟩, 3) ∧ (slotAt s 0).copyRes = some (false, [7])) ∧
    (let au (b : List Byte) : AU := { d := ⟨0, 1, 0, 0, 0⟩, arrival := 0, handle := 0, bytes := b }
     let s (b : List Byte) : State := { run with strm := { run.strm with slots := [(75, { isOpen := true, aus := [au b] })] } }
     isRecordSlot 75 = true ∧ (slotAt (s []) 75).isOpen = true ∧ (slotAt (s []) 75).aus = au [] :: [] ∧
       (((au []).bytes.drop (recOf (s []) 3).itemPos).isEmpty = true) ∧
       (((au [0xFF]).bytes.drop (recOf (s [0xFF]) 3).itemPos).isEmpty = false ∧ cborItem ((au [0xFF]).bytes.drop (recOf (s [0xFF]) 3).itemPos) = none) ∧
       (cborItem ((au [0xA1, 0, 1]).bytes.drop (recOf (s [0xA1, 0, 1]) 3).itemPos)).isSome = true) := by decide +kernel

theorem hyp_IntakeCommands_alone (n m : Nat) (h : m ≠ n) :
    (slotAt { run with strm := { run.strm with slots := [(n, { isOpen := true })] } } m).isOpen = false := by
  have h' : ¬ n = m := fun e => h e.symm
  simp [slotAt, tget, h']

/-- Slot 3 has an access unit ready, and decode core 8 is free. -/
def toDecode (a : AU) (sl : SlotS) : State :=
  { setSs [(F.COOPER_POOL_CFG_EN, 0, 1), (F.COOPER_POOL_CFG_COUNT, 0, 2), (F.COOPER_POOL_CFG_SIZE, 0, 1), (F.ADM_DIMS_WIDTH, 3, 64),
      (F.ADM_DIMS_HEIGHT, 3, 64), (F.ADM_DPB_RATE_DPB, 3, 1), (F.ADM_CODEC_CODEC, 3, 4), (F.ADM_CODEC_LEVEL, 3, 9)]
      (sets [(F.MGMT_SERVICE_DEC, 0x1FF)] (setDom run 216 true)) with
    pools := [(0, { free := [0, 1], cached := 2 })],
    strm := { run.strm with slots := [(3, { sl with isOpen := true, aus := [a] })] } }

/-- An access unit. -/
def au0 : AU := { d := ⟨0, 1, 0, 0, 0⟩, arrival := 0, handle := 1 }

/-- Claims that pass the header check there. -/
def cl0 : Claims := { codec := 4, profile := 0, tools := false, w := 64, h := 64, dpb := 1, level := 9, hibit := false, rap := true, units := 1 }

theorem hyp_DecodingCommands :
    (let s := toDecode au0 {}
     s.live = true ∧ nextPicture s = some (3, au0) ∧ freeDecs s = 8 :: [] ∧ au0.readFailed = false ∧
       headerCheck s 3 au0 { cl0 with w := 65 } = some (2, 1) ∧ headerCheck s 3 au0 cl0 = none ∧ (slotAt s 3).skip = .none ∧
       gangOf s 3 cl0 = some [8] ∧
       (cooperAlloc s 3 (picBytes (admCodec s 3) (regS s F.ADM_DIMS_WIDTH 3) (regS s F.ADM_DIMS_HEIGHT 3)
          (decide (regS s F.ADM_CODEC_HIBIT 3 ≠ 0))) (2 ^ regS s F.ADM_POOL_POOL 3) none).2.isSome = false) ∧
    (let s := setS (toDecode au0 {}) F.COOPER_POOL_CFG_SIZE 0 2
     nextPicture s = some (3, au0) ∧ freeDecs s = 8 :: [] ∧ headerCheck s 3 au0 cl0 = none ∧ gangOf s 3 cl0 = some [8] ∧
       (cooperAlloc s 3 (picBytes (admCodec s 3) (regS s F.ADM_DIMS_WIDTH 3) (regS s F.ADM_DIMS_HEIGHT 3)
          (decide (regS s F.ADM_CODEC_HIBIT 3 ≠ 0))) (2 ^ regS s F.ADM_POOL_POOL 3) none).2.isSome = true) ∧
    (let s := toDecode { au0 with readFailed := true } { skip := .outcome 2 1 }
     nextPicture s = some (3, { au0 with readFailed := true }) ∧ freeDecs s = 8 :: [] ∧ (slotAt s 3).skip = .outcome 2 1 ∧
       ({ au0 with readFailed := true } : AU).kind ≠ .overRate) ∧
    (let s := toDecode { au0 with readFailed := true, kind := .overRate } {}
     nextPicture s = some (3, { au0 with readFailed := true, kind := .overRate }) ∧ freeDecs s = 8 :: []) ∧
    (let s := toDecode au0 { skip := .outcome 2 1 }
     nextPicture s = some (3, au0) ∧ headerCheck s 3 au0 { cl0 with rap := false } = none ∧ (slotAt s 3).skip = .outcome 2 1 ∧
       ({ cl0 with rap := false } : Claims).rap = false ∧ cl0.rap = true ∧ au0.readFailed = false) ∧
    (let s := { atT 130 run with strm := { run.strm with decs := [(8, { au := some au0, claims := some cl0, slot := 3, gang := [8] })], slots := [(3, { budget := 100 })] } }
     s.live = true ∧ (dec s 8).au = some au0 ∧ (dec s 8).claims = some cl0 ∧
       13 * (slotAt s (dec s 8).slot).budget ≤ 10 * (s.now - (dec s 8).start)) := by decide +kernel

/-- Port 7 receives a frame of one line of four pixels, of which it has `lines`. -/
def csi7 (lines : List (List Nat)) : State :=
  { setIs [(F.CSI_FRAME_SIZE_WIDTH, 7, 4), (F.CSI_FRAME_SIZE_HEIGHT, 7, 1), (F.CSI_FE_TIMEOUT, 7, 1)] (setDom (atT 65536 run) 223 true) with
    strm := { run.strm with slots := [(71, { isOpen := true })], csi := [(7, { busy := true, lines := lines })] } }

theorem hyp_Csi2Commands :
    let s := csi7 []
    s.live = true ∧ csiRuns s 7 = true ∧ (csi s 7).busy = true ∧ (2 : Nat) ≤ 2 ∧ (1 : Nat) < 2 ∧
      ((1 : Nat) ≠ regI s F.CSI_CFG_VC 7 ∨ (0 : Nat) ≠ regI s F.CSI_CFG_DT 7) ∧ (0 : Nat) = regI s F.CSI_CFG_VC 7 ∧
      regI s F.CSI_CFG_DT 7 = regI s F.CSI_CFG_DT 7 ∧ (csi s 7).lines.length < csiH s 7 ∧ ([] : List Nat).length < (if isYuv s 7 then 2 else 1) ∧ (if isYuv s 7 then 2 else 1) ≤ [5].length ∧
      isYuv s 7 = false ∧ csiW s 7 ≤ [5, 6, 7, 8].length ∧ [5].length < csiW s 7 ∧
      csiRuns (csi7 [[1]]) 7 = true ∧ csiH (csi7 [[1]]) 7 ≤ (csi (csi7 [[1]]) 7).lines.length ∧
      (csi s 7).s + regI s F.CSI_FE_TIMEOUT 7 * 65536 ≤ s.now := by decide +kernel

/-- A picture of `w` × `h` samples at address 0: sequence number 0 of slot 0. -/
def pic0 (w h : Nat) : Pic :=
  { slot := 0, seq := 0, kind := .decoded, w := w, h := h, format := 0, base := 0, handle := 0, src := 0, ready := true }

/-- Item 1 runs with one shaping stage; its one input is that picture. -/
def shaping (st : ShapeStage) (w h : Nat) : State :=
  { run with
    plans := [(0, { st := .installed, img := { shaping := [st] } })]
    disp := { run.disp with items := [{ key := 1, st := .running, cores := [0], e := { bind := [1] } }] }
    strm := { run.strm with pics := [pic0 w h] } }

/-- The stage's descriptor. -/
def d8 : ShapeDesc := { outW := 8, outH := 8 }

/-- A stage for the scaler. -/
def scSt : ShapeStage := { unit := .scaler, binding := 0, desc := d8 }

/-- A running stage. -/
def run1 : StageS := { item := 1, stage := 0, start := 0, dur := 1 }

theorem hyp_ScalerStages :
    (let s := shaping scSt 16 16
     s.live = true ∧ (item? s 1).isSome = true ∧ s.plans.all (fun p => decide (p.2.img.shaping[0]? = some scSt)) = true ∧
       (match item? s 1 with
        | some it => ((scSt.binding :: scSt.more).mapM (srcOf s it)).isSome && stageMay s it 0 scSt 1624
        | none => false) = true) ∧
    (let s0 (w : Nat) (m : Mem) : State := { atT 1 (shaping scSt w 16) with shape := { scaler := some run1 }, hbm := { run.hbm with mem := m } }
     let ok (w : Nat) (m : Mem) (p : List Src → Bool) : Bool :=
       match item? (s0 w m) 1 with
       | some it => stageRoom (s0 w m) it scSt scSt.outBytes && (((scSt.binding :: scSt.more).mapM (srcOf (s0 w m) it)).map p).getD false
       | none => false
     let good (l : List Src) : Bool := l.all (fun src => decide (src.info.ue = 0) && decide (src.info.poison = 0))
     (s0 16 {}).live = true ∧ (s0 16 {}).shape.scaler = some run1 ∧ run1.start + run1.dur ≤ (s0 16 {}).now ∧
       ok 16 {} (fun l => good l && l.all (fun src => decide (src.w ≠ 0) && decide (src.h ≠ 0))) = true ∧
       ok 0 {} (fun l => good l && l.any (fun src => decide (src.w = 0))) = true ∧
       ok 16 { err := [(0, 2 ^ 128 + 2 ^ 132)] } (fun l =>
         !(l.filter (fun src => decide (0 < src.info.ue) || decide (0 < src.info.poison))).isEmpty) = true ∧
       item? { s0 16 {} with disp := run.disp } run1.item = none) ∧
    (let full : ShapeStage := { scSt with dstGran := { width := 16, bank := 0, start := 0, circ := some (0, 0) } }
     let s : State := { atT 1 (setPlace (shaping full 16 16) 0 0) with shape := { scaler := some run1 } }
     (match item? s 1 with
      | some it => !stageRoom s it full full.outBytes
      | none => false) = true) := by decide +kernel

/-- A stage for Sickle unit 1 with a box list header. -/
def siHd : BoxHdr := { count := 1, outW := 7, outH := 7, mode := 0, targets := 1, fill := [], binding := 0 }

/-- The stage. -/
def siSt : ShapeStage := { unit := .sickle1, binding := 0, desc := d8, hdr := some siHd, listBinding := 1, duration := 5 }

/-- Sickle unit 1 works on that stage with the state `x`. -/
def sick (x : SickleS) (t : Nat) (m : Mem) : State :=
  { atT t (setDom (shaping siSt 16 16) 219 true) with
    shape := { sickle := [(1, { x with stage := some run1, hdr := siHd })] }
    hbm := { run.hbm with mem := m } }

/-- A condition on what the unit works on. -/
def sickOk (s : State) (p : StageS × Item × ShapeStage × Src → Bool) : Bool := ((sickleCtx s 1).map p).getD false

/-- A box. -/
def bx : Box := { x0 := 0, y0 := 0, x1 := 16, y1 := 16 }

/-- Where the box the unit ends goes, and whether a bank there is dark (R68). -/
def boxPut (s : State) : Option (Option Nat) :=
  (sickleCtx s 1).bind fun c =>
    let x := sickle s 1
    (x.boxes[x.box]?).bind fun b => (physOf s (nth 64 c.2.1.cores 0)).map fun p =>
      let o := cropOut c.2.2.1.desc x.hdr c.2.2.2.fmt
        (planesFor c.2.2.2.fmt c.2.2.1.desc.outFmt (samplePlanes c.2.2.2.fmt c.2.2.2.w c.2.2.2.h c.2.2.2.bytes)) b (boxPert x.hdr c.2.1 x.box)
      let sp := granSpan s p c.2.1 { c.2.2.1.dstGran with strides := [] }
      (stripeOut (targetsOf x.hdr) sp (o.1.length / 64 + 2) (x.box * o.1.length) o.1 s).2.1

/-- What the stage `st` finds as its box list. -/
def boxList1 (s : State) (st : ShapeStage) (p : Item → StageList × Bool → Bool) : Bool :=
  match item? s 1 with
  | some it => decide ((imgOf s it.e).shaping[0]? = some st) && p it (stageBoxes (countWait s it st) it st siHd).2
  | none => false

theorem hyp_SickleAndPacker_stage :
    (let s := setDom (shaping siSt 16 16) 219 true
     s.live = true ∧ siSt.hdr = some siHd ∧ siSt.unit = sickleUnit 1 ∧ domOn s 219 = true ∧
       boxList1 s siSt (fun it l => l.2 && listLimits it l.1 && l.1.2.isEmpty &&
         decide (listTicks s it siSt (stageBoxes s it siSt siHd).2.1 = some 0) && stageMay s it 0 siSt 0) = true) ∧
    (let st : ShapeStage := { siSt with listHbm := some 0 }
     let s (b : List Byte) (err : Tbl Nat) : State :=
       { setDom (shaping st 16 16) 219 true with hbm := { run.hbm with mem := { (({} : Mem).write 0 b) with err := err } } }
     -- one box, a list whose output is too small, one that cannot be read
     let hdr (w : Byte) : List Byte := [1, 0, w, 7, 0, 1, 0, 0, 0, 0, 0, 0, 0, 0, 0, 0, 0, 0, 0, 0, 0, 0, 0, 0, 0, 0, 0, 0, 0, 0, 0, 0]
     boxList1 (s (hdr 7) []) st (fun it l => l.2 && listLimits it l.1 && decide (l.1.2 ≠ []) &&
         (match listTicks (s (hdr 7) []) it st (stageBoxes (s (hdr 7) []) it st siHd).2.1 with
          | some d => stageMay (s (hdr 7) []) it 0 st d
          | none => false)) = true ∧
       boxList1 (s (hdr 6) []) st (fun it l => l.2 && !listLimits it l.1) = true ∧
       boxList1 (s (hdr 7) [(0, 2 ^ 128 + 2 ^ 132)]) st (fun _ l => !l.2) = true) := by decide +kernel

theorem hyp_SickleAndPacker_reads :
    (let x : SickleS := { boxes := [bx], issued := 1 }
     let s := sick x 1 {}
     s.live = true ∧ sickOk s (fun c => decide (c.1.start < s.now)) = true ∧ 0 < x.issued ∧ x.issueBox < x.boxes.length ∧ x.inBuf < 2048 ∧
       maxOf (x.lastIssue.map (fun e => e.2)) < s.now) ∧
    (let x : SickleS := { boxes := [bx], issueBox := 1, lastIssue := [(0, 1)] }
     let s := sick x 1561 {}
     x.started = false ∧ x.box < x.boxes.length ∧ x.endT ≤ s.now ∧ tget 0 x.lastIssue x.box + 1560 ≤ s.now ∧
       sickOk s (fun c => boxIssued x (granulesOf (sickle s 1) c.2.1 c.2.2.1 c.2.2.2 x.box).length x.box) = true) := by decide +kernel

theorem hyp_SickleAndPacker_box :
    (let x (n : Nat) : SickleS := { boxes := List.replicate n bx, issueBox := 1, started := true }
     let s (n : Nat) (m : Mem) : State := sick (x n) 5000 m
     (∀ n ∈ [1, 2], (x n).boxes[(x n).box]? = some bx ∧
       sickOk (s n {}) (fun c => decide ((x n).startT + boxTicks c.2.2.1.desc siHd ≤ (s n {}).now) && !c.2.1.golden &&
         decide ((granInfo (s n {}) (granulesOf (sickle (s n {}) 1) c.2.1 c.2.2.1 c.2.2.2 0)).ue = 0) &&
         decide ((granInfo (s n {}) (granulesOf (sickle (s n {}) 1) c.2.1 c.2.2.1 c.2.2.2 0)).poison = 0) &&
         (physOf (s n {}) (nth 64 c.2.1.cores 0)).isNone) = true ∧
       boxPut (setPlace (s n {}) 0 0) = some none) ∧
     boxPut (modClu (setPlace (s 1 {}) 0 0) 0 (fun c => { c with offBanks := 2 ^ 17 - 1 })) = some (some 0) ∧
     sickOk (s 1 { err := [(0, 2 ^ 128 + 2 ^ 132)] }) (fun c => decide
       ((granInfo (s 1 { err := [(0, 2 ^ 128 + 2 ^ 132)] }) (granulesOf (sickle (s 1 {}) 1) c.2.1 c.2.2.1 c.2.2.2 0)).poison > 0)) = true) := by
  decide +kernel

theorem hyp_SickleAndPacker_pack :
    (let c (n : Nat) : PackCfg := { tile := false, rowW := 32, guard_ := 0, tokBytes := 1, maxRows := n }
     let st (n : Nat) : ShapeStage := { siSt with pack := some (c n) }
     let s (n : Nat) : State := { shaping (st n) 16 16 with strm := { run.strm with recs := [(3, { starts := [(7, 0)] })] } }
     let l : List PackSrc := [.utt 75 7 [1]]
     (∀ n ∈ [0, 1], (match item? (s n) 1 with
        | some it => decide ((imgOf (s n) it.e).shaping[0]? = some (st n)) && decide (it.st = .running) && packReady (s n) it 0 (c n) l &&
            (packSamples (s n) it 0 (c n) l).2.2 && stageRoom (s n) it (st n) 1000
        | none => false) = true) ∧
     (nextFit 32 0 [(0, 1, [(1 : Byte)])] [] 0).length = 1) ∧
    (let c : PackCfg := { tile := true, rowW := 32, guard_ := 0, tokBytes := 1, maxRows := 1 }
     let s : State := { shaping { siSt with pack := some c } 16 16 with shape := { done := [(1, 0, 0)], crops := [⟨1, 0, 7, 7, []⟩] } }
     (match item? s 1 with
      | some it => packReady s it 0 c [] && (packSamples s it 0 c []).2.2
      | none => false) = true) := by decide +kernel

/-- A ready picture of slot 64's full field at source Tally 5. -/
def live5 : Pic := { slot := 64, seq := 0, kind := .live 0, w := 8, h := 8, format := 0, base := 0, handle := 0, src := 5, ready := true }

/-- A hand-off of slot 7. -/
def ho : HandOff := { tick := 0, slot := 7, seq := 0, src := 0, cands := [] }

/-- A step of slot 7. -/
def st7 (ph : StepPhase) : TrkStep := { slot := 7, seq := 0, src := 0, phase := ph, start := 0, waitFrom := 0, waited := 0, n := 0, m := 0, dets := [], embs := none, late := false }

theorem hyp_EncoderAndTrackSteps :
    (let s := { setIs [(F.ENC_CTRL_EN, 1, 1), (F.ENC_SRC_SLOT, 1, 64)] run with strm := { run.strm with pics := [live5] } }
     s.live = true ∧ s.strm.pics.find? (fun p => decide (p.slot = 64) && decide (p.src = 5) && decide (p.kind = encKind s 1 64) && p.ready && !p.dead) = some live5 ∧
       (1 : Nat) < 2 ∧ s.d0 = true ∧ regI s F.ENC_CTRL_EN 1 ≠ 0 ∧ regI s F.ENC_SRC_SLOT 1 = 64 ∧ live5.outcome < 2 ∧ (enc_ s 1).due ≤ 5 ∧
       live5.w ≠ 0 ∧ live5.h ≠ 0 ∧ (enc_ s 1).queue = [] ∧
       (∀ n ∈ [1, 2], let q : State := { s with strm := { s.strm with encs := [(1, { queue := List.replicate n { src := 0, num := 0 } })] } }
         (enc_ q 1).queue.length = n ∧ (enc_ q 1).due ≤ 5)) ∧
    (∀ b ∈ [true, false], let p : EncPic := { src := 0, num := 0, slices := 1, sub := b }
     let s := { setI run F.ENC_CTRL_EN 0 1 with strm := { run.strm with encs := [(0, { queue := [p], started := true })] } }
     s.live = true ∧ (enc_ s 0).queue = p :: [] ∧ regI s F.ENC_CTRL_EN 0 ≠ 0 ∧ (enc_ s 0).started = true ∧ (enc_ s 0).slice < p.slices ∧ p.sub = b) ∧
    (let s := { setDom run 219 true with trk := { run.trk with handoffs := [ho] } }
     s.live = true ∧ nextHandOff s = some ho ∧ engineBusy s = false ∧ domOn s 219 = true ∧ regS s F.TRK_CTRL_EMB ho.slot = 0 ∧
       regS (setS s F.TRK_CTRL_EMB 7 1) F.TRK_CTRL_EMB ho.slot ≠ 0) ∧
    (let s (ph : StepPhase) (t : Nat) : State := { atT t run with trk := { run.trk with steps := [st7 ph] } }
     stepOf (s .waiting 1000000) 7 = some (st7 .waiting) ∧ 0 + regS (s .waiting 1000000) F.TRK_EMB_WAIT_UNITS 7 * 256 ≤ (s .waiting 1000000).now ∧
       stepOf (s .active 1000000) 7 = some (st7 .active) ∧
       stepTicks (st7 .active) (stepRecords (s .active 1000000) (st7 .active) (stepRes (s .active 1000000) (st7 .active))) ≤ (s .active 1000000).now ∧
       engineBusy (s .waiting 1000000) = false ∧
       (let t := { s .waiting 1000000 with trk := { run.trk with steps := [st7 .waiting, { st7 .active with slot := 8 }] } }
        stepOf t 7 = some (st7 .waiting) ∧ engineBusy t = true)) := by decide +kernel

theorem hyp_RecordsAndPeriods :
    (let r : Rec := { ring := 15, bytes := List.replicate 32 1 }
     let s : State := { setS run F.TRACK_RING_CFG_EN 15 1 with
       out := { run.out with recq := [r] }
       pcie := { run.pcie with bme := true, msixEn := true } }
     s.live = true ∧ s.out.recq = r :: [] ∧ r.result = none ∧ s.d0 = true ∧ r.orphan = false ∧ ringEn s 15 = true ∧ (ringAt s 15).diverted = 0 ∧
       (ringAt s 15).ovf = [] ∧ ringFits s 15 32 = true ∧ regX s F.RING_WIDX 15 % (ringSpan s 15).2 + 32 ≤ (ringSpan s 15).2 ∧
       (let q := modRing s 15 (fun x => { x with ovf := List.replicate 8191 r })
        ringEn q 15 = true ∧ (ringAt q 15).diverted = 0 ∧ (ringAt q 15).ovf ≠ [] ∧ ovfBytes (ringAt q 15).ovf + recSpan 32 = 262144)) ∧
    (∀ ty ∈ [1, 7], let r : Rec := { ring := 15, bytes := BitVec.ofNat 8 ty :: List.replicate 31 0 }
     let s := { run with out := { run.out with recq := [r] } }
     s.out.recq = r :: [] ∧ ringEn s 15 = false ∧ recType r.bytes = ty ∧ journalFits s 32 = true) ∧
    (let s0 := setSs [(F.RING_IRQ_COUNT, 15, 2), (F.RING_IRQ_TIMER, 15, 1)] (atT 256 run)
     let s := modRing { s0 with pcie := { run.pcie with msixEn := true } } 15 (fun x => { x with unsig := 1 })
     (15 : Nat) < 16 ∧ (ringAt s 15).unsig ≠ 0 ∧ regS s F.RING_IRQ_COUNT 15 ≠ 0 ∧ s.pcie.msixEn = true ∧
       (ringAt s 15).firstUnsig + 256 * regS s F.RING_IRQ_TIMER 15 ≤ s.now) ∧
    (let s := { setSs [(F.REEVE_CFG_EN, 63, 1), (F.REEVE_PERIOD, 63, 5)] (atT 5 run) with reeve := [(63, { live := true })] }
     (63 : Nat) < 64 ∧ regS s F.REEVE_CFG_EN 63 ≠ 0 ∧ regS s F.REEVE_PERIOD 63 ≠ 0 ∧ (pipe s 63).live = true ∧
       (pipe s 63).since + regS s F.REEVE_PERIOD 63 ≤ s.now) := by decide +kernel

/-- Pool 7 in list mode, of two buffers of 4 KiB, with the link of buffer 0 still to be read as `v`. -/
def listPool (v : Nat) (err : Tbl Nat) : State :=
  { setSs [(F.COOPER_POOL_CFG_EN, 7, 1), (F.COOPER_POOL_CFG_LIST, 7, 1), (F.COOPER_POOL_CFG_COUNT, 7, 2), (F.COOPER_POOL_CFG_SIZE, 7, 1)] run with
    pools := [(7, { link := some 0 })],
    hbm := { run.hbm with mem := { (({} : Mem).write cooperBase (Machine.le 8 v)) with err := err } } }

theorem hyp_CooperCommands_alloc :
    (let s := { setSs [(F.COOPER_POOL_CFG_EN, 7, 1), (F.COOPER_POOL_CFG_COUNT, 7, 1), (F.COOPER_POOL_CFG_SIZE, 7, 1)] run with
       pools := [(7, { free := [0], cached := 1 })] }
     s.live = true ∧ (7 : Nat) < 8 ∧ (pool s 7).link = none ∧ poolReady s 7 = true ∧ 4096 ≤ poolSize s 7 ∧ mayTake s 7 3 = true ∧
       regS s F.COOPER_POOL_CFG_LIST 7 = 0 ∧ (pool s 7).free = 0 :: [] ∧ poolSize s 7 < 4097) ∧
    (let s := { setSs [(F.COOPER_POOL_CFG_EN, 7, 1), (F.COOPER_POOL_CFG_LIST, 7, 1), (F.COOPER_POOL_CFG_COUNT, 7, 2), (F.COOPER_POOL_CFG_SIZE, 7, 1)] run
       with pools := [(7, { head := some 1 })] }
     (pool s 7).link = none ∧ poolReady s 7 = true ∧ mayTake s 7 3 = true ∧ regS s F.COOPER_POOL_CFG_LIST 7 ≠ 0 ∧ (pool s 7).head = some 1) ∧
    (∀ p, p < 8 → Nat.testBit 255 p = true → (pool run p).link = none ∧ poolReady run p = false) ∧
    (∀ list ∈ [0, 1], let s := { setSs [(F.COOPER_POOL_CFG_EN, 7, 1), (F.COOPER_POOL_CFG_COUNT, 7, 2), (F.COOPER_POOL_CFG_SIZE, 7, 1),
         (F.COOPER_POOL_CFG_LIST, 7, list)] run with pools := [(7, { bufs := [(1, { owner := some 3, item := none, gen := 5 })] })] }
     let h := handleOf 7 1 5
     poolEn s 7 = true ∧ 1 < poolCount s 7 ∧ (buf s 7 1).owner = some 3 ∧ (buf s 7 1).gen = 5 ∧ (pool s 7).link = none ∧
       regS s F.COOPER_POOL_CFG_LIST 7 = list ∧
       h < 2 ^ 30 ∧ handlePool h = 7 ∧ handleIdx h = 1 ∧ handleGen h = 5 ∧ (buf s 7 1).gen ≠ handleGen (handleOf 7 1 6)) := by decide +kernel

theorem hyp_CooperCommands :
    (let s := { setS run F.COOPER_POOL_CFG_EN 7 1 with pools := [(7, { free := List.replicate 17 0, cached := 15 })] }
     s.live = true ∧ poolEn s 7 = true ∧ regS s F.COOPER_POOL_CFG_LIST 7 = 0 ∧ (pool s 7).cached < 16 ∧ (pool s 7).cached < (pool s 7).free.length) ∧
    (let s := listPool 0 [(cooperBase / 16, 2 ^ 128 + 2 ^ 132)]
     s.live = true ∧ (pool s 7).link = some 0 ∧ true ∈ s.hbm.mem.badWords (bufAddr s 7 0) 8) ∧
    (let s := listPool (2 ^ 64 - 1) []
     true ∉ s.hbm.mem.badWords (bufAddr s 7 0) 8 ∧ unle (s.hbm.mem.read (bufAddr s 7 0) 8) = 2 ^ 64 - 1) ∧
    (let s := listPool (cooperBase + 4096) []
     true ∉ s.hbm.mem.badWords (bufAddr s 7 0) 8 ∧ unle (s.hbm.mem.read (bufAddr s 7 0) 8) ≠ 2 ^ 64 - 1 ∧ 1 < poolCount s 7 ∧ 0 < poolSize s 7 ∧
       unle (s.hbm.mem.read (bufAddr s 7 0) 8) = bufAddr s 7 0 + 1 * poolSize s 7) ∧
    (let s := listPool 1 []
     (∀ j, j < poolCount s 7 → unle (s.hbm.mem.read (bufAddr s 7 0) 8) ≠ bufAddr s 7 0 + j * poolSize s 7) ∧
       unle (s.hbm.mem.read (bufAddr s 7 0) 8) ≠ 2 ^ 64 - 1 ∧ 0 < poolSize s 7) := by decide +kernel

theorem hyp_GranaryAndDomains :
    (let s := { atT 9 run with power := { run.power with settling := [(72, 9), (207, 9)], deferred := [3] } }
     s.live = true ∧ (72, 9) ∈ s.power.settling ∧ 9 ≤ s.now ∧ (207, 9) ∈ s.power.settling ∧ s.power.deferred = 3 :: [] ∧ s.power.lastOn = none) ∧
    (let s := { atT 256 run with power := { run.power with deferred := [3], lastOn := some 0 } }
     s.power.deferred = 3 :: [] ∧ s.power.lastOn = some 0 ∧ 0 + 256 ≤ s.now) ∧
    ((7 : Nat) < 8 ∧ (atT 31 run).now % 32 = 31) ∧
    (let s := setI { run with clus := [(7, { offBanks := 0, inflight := [(16, 0, none), (15, 9, none)] })] } F.CLU_BANK_STATE_DRAINING 7 (2 ^ 16)
     (clu s 7).copyRow = none ∧ (clu s 7).copyDone = none ∧ (spareBank s 7).isSome = true ∧ ((spareBank s 7).map (bankDark s 7)) = some false ∧
       (regI s F.CLU_BANK_STATE_DRAINING 7).testBit 16 = true ∧ (∀ e ∈ (clu s 7).inflight, e.1 = 16 → e.2.1 ≤ s.now) ∧ (15 : Nat) < 16 ∧ (16 : Nat) < 17) ∧
    (let s := { atT 32768 run with clus := [(0, { zeroFrom := [(16, 1)] })] }
     tget 0 (clu s 0).zeroFrom 16 = 0 + 1 ∧ 0 + 32768 ≤ s.now) := by decide +kernel

/-- Channel 0 in mode `m`, with `q` in pseudo-channel 0's queue. -/
def chan0 (m : Nat) (q : List HbmEnt) : State :=
  { setI run F.HBMC_CH_STATE_MODE 0 m with hbm := { run.hbm with queues := [(0, q)] } }

theorem hyp_HbmChannels :
    (run.live = true ∧ hbmTop ≤ ({ id := 0, src := .carter 7, addr := hbmTop, wr := false } : HbmReq).addr ∧ hbmTop - 1 < hbmTop) ∧
    (∀ pin ∈ [true, false],
     let e : HbmEnt := { req := { id := 4, src := .carter 7, addr := 0, wr := false }, pinned := pin, at_ := 0 }
     let x : HbmEnt := { req := { id := 5, src := .carter 7, addr := 64, wr := false }, pinned := pin, at_ := 0 }
     let s := chan0 2 [e, x]
     hbmQ s 0 = e :: [x] ∧ e.kind = .request ∧ e.req.wr = false ∧ chUp s (0 / 2) = true ∧ bankHeld s e.req.addr = false ∧
       (e.pinned = true ∨ ∀ y ∈ [x], y.pinned = false)) ∧
    (let s := setIs [(F.HBMC_CH_STATE_MODE, 15, 1), (F.HBMC_CH_SCRUB_EN, 15, 1), (F.HBMC_CH_SCRUB_INTERVAL, 15, 4096), (F.HBMC_CH_PD, 15, 64)] (atT 4096 run)
     let z := { s with hbm := { s.hbm with patrol := [(30, 12582911), (31, 12582911)] } }
     (31 : Nat) < 32 ∧ chUp s (31 / 2) = true ∧ regI s F.HBMC_CH_SCRUB_EN (31 / 2) ≠ 0 ∧
       tget 0 s.hbm.patrolAt 31 + regI s F.HBMC_CH_SCRUB_INTERVAL (31 / 2) ≤ s.now ∧ tget 0 s.hbm.patrol 31 + 1 ≠ 12582912 ∧
       tget 0 z.hbm.patrol 31 + 1 = 12582912 ∧ tget 0 z.hbm.patrol 30 + 1 = 12582912 ∧
       (15 : Nat) < 16 ∧ regI s F.HBMC_CH_PD 15 ≠ 0 ∧ regI s F.HBMC_CH_STATE_MODE 15 = 1 ∧ hbmQ s (2 * 15) = [] ∧ hbmQ s (2 * 15 + 1) = [] ∧
       tget [] s.hbm.wbq 15 = [] ∧ tget 0 s.hbm.idleSince 15 + regI s F.HBMC_CH_PD 15 ≤ s.now) ∧
    (∀ st ∈ [3, 4], let s := { setR (atT 13000 run) F.HBMC_STATE_STATE st with hbm := { run.hbm with srefExit := some 0 } }
     s.hbm.srefExit = some 0 ∧ 0 + 13000 ≤ s.now ∧ reg s F.HBMC_STATE_STATE = st) ∧
    (∀ hard ∈ [true, false], let r : Repair := { pc := 1, bank := 47, row := 0, hard := hard, start := 0 }
     let s := { run with hbm := { run.hbm with repairs := [(15, some r)] } }
     tget none s.hbm.repairs 15 = some r ∧ r.hard = hard) := by decide +kernel

theorem hyp_HopLatency :
    (let s := setI run F.LINK_STATE_STATE 3 1
     s.live = true ∧ (3 : Nat) < 4 ∧ regI s F.LINK_STATE_STATE 3 = 1) ∧
    (let s := { setI (atT (2 ^ 20) run) F.LINK_STATE_STATE 0 3 with fab := { run.fab with links := [(0, { probeT0 := some 0 })] } }
     s.live = true ∧ portProbes s 0 = true ∧ (link s 0).probeT0 = some 0 ∧ 0 + 2 ^ 20 ≤ s.now ∧ (2 ^ 20 : Nat) ≤ s.now ∧
       ((((8191 : Nat) : Int) - (0 : Nat)) - (((1 : Nat) : Int) - (0 : Nat)) + 1) / 2 ≤ 4095 ∧
       4095 < ((((8192 : Nat) : Int) - (0 : Nat)) - (((1 : Nat) : Int) - (0 : Nat)) + 1) / 2) := by decide +kernel

theorem hyp_TimeOut :
    run.live = true ∧ run.now % 1300000000 = 0 ∧ (atT 1 run).now % 1300000000 ≠ 0 ∧
    (let s := { atT 1300000 run with power := { run.power with timeOut := true } }
     s.power.timeOut = true ∧ s.power.timeOutAt + 1300000 ≤ s.now ∧ (atT 1299999 s).now < (atT 1299999 s).power.timeOutAt + 1300000) := by
  decide +kernel

theorem hyp_MarkersAndTimeEdges :
    (run.live = true ∧ run.now % 2 ^ 20 = 0) ∧
    (let s := setIs [(F.LINK_STATE_STATE, 1, 2)] (sets [(F.TALLY_CTRL_ROLE, 2), (F.TALLY_CTRL_SRC_PORT, 1), (F.TALLY_STATE_STATE, 2)] (atT (2 ^ 21) run))
     let a := { s with fab := { s.fab with armed := true, lastMarker := some 0 } }
     portUp s 1 = true ∧ reg s F.TALLY_CTRL_ROLE = 2 ∧ 1 = reg s F.TALLY_CTRL_SRC_PORT ∧ s.fab.armed = false ∧ reg s F.TALLY_STATE_STATE = 2 ∧
       s.fab.step = none ∧ a.fab.armed = true ∧ portUp s (reg s F.TALLY_CTRL_SRC_PORT) = true ∧ a.fab.lastMarker = some 0 ∧ 0 + 2 ^ 21 ≤ a.now ∧
       ((2 ^ 21 + 4 : Nat) : Int) + regI s F.LINK_HOP 1 - s.now = 13 * 0 + 4 ∧ ((2 ^ 21 + 8 : Nat) : Int) + regI s F.LINK_HOP 1 - s.now = 13 * 1 + -5 ∧
       ((2 ^ 21 + 9 : Nat) : Int) + regI s F.LINK_HOP 1 - s.now = 13 * 1 + -4) ∧
    (let s := { run with fab := { run.fab with timeArmed := true } }
     s.fab.timeArmed = true ∧ run.fab.timeArmed = false ∧ run.fab.expected = none) ∧
    (let s := { atT 2600000000 run with fab := { run.fab with expected := some 1300000000, lastEdge := some 0 } }
     s.fab.timeArmed = false ∧ s.fab.expected = some 1300000000 ∧ s.fab.expected.isSome = true ∧ s.fab.lastEdge = some 0 ∧ 0 + 2600000000 ≤ s.now) := by
  decide +kernel

/-- Ports 0 to 3 up. -/
def ports : State := setIs [(F.LINK_STATE_STATE, 0, 2), (F.LINK_STATE_STATE, 1, 2), (F.LINK_STATE_STATE, 2, 2), (F.LINK_STATE_STATE, 3, 2)] run

/-- A transfer of one granule from this chip to chip 1 over port 2, or towards this chip from chip 1. -/
def xfer (src dst : Nat) (relay : Bool) : FabXfer :=
  { srcChip := src, dstChip := dst, port := 2, relay := relay, dstHbm := false, start := 0, bytes := 64, slack := 0, sem := 1, srcAddr := 0, dstAddr := 0 }

/-- Item 1, pinned or not, runs with that one transfer; `u` are the units it has. -/
def fabric (x : FabXfer) (cls : Nat) (u : List XUnit) (t : Nat) : State :=
  { setPlace (atT t ports) 0 0 with
    plans := [(0, { st := .installed, img := { hdr := { cls := cls }, fabric := some { xfers := [x] } } })],
    disp := { run.disp with items := [{ key := 1, st := .running, cores := [0], e := { cls := cls } }] },
    fab := { run.fab with units := u } }

/-- The item. -/
def fabIt (cls : Nat) : Item := { key := 1, st := .running, cores := [0], e := { cls := cls } }

theorem hyp_FlitsAndUnits :
    (let good : Flit := { lane := 0, seq := 0, crc := crc4 0 12 0, body := .probe }
     let s := ports
     s.live = true ∧ portUp s 3 = true ∧ flitGood good = true ∧ good.seq % 256 = (link s 3).rxSeq % 256 ∧
       flitGood { good with crc := good.crc + 1 } = false ∧ (256 - 1) % 256 ≠ (link s 3).rxSeq % 256 ∧ (link s 3).awaiting = false ∧
       (link { s with fab := { s.fab with links := [(3, { awaiting := true })] } } 3).awaiting = true) ∧
    (let f : Flit := { lane := 0, seq := 7, body := .probe }
     let s (n : Nat) : State := { ports with fab := { run.fab with links := [(3, { replay := [f], nakSeq := 7, replays := n })] } }
     (link ports 3).replay.dropWhile (fun g => decide (g.seq ≠ 7 % 256)) = [] ∧ (link (s 8) 3).nakSeq = 7 % 256 ∧ 8 ≤ (link (s 8) 3).replays ∧
       (link (s 7) 3).replay.dropWhile (fun g => decide (g.seq ≠ 7 % 256)) ≠ [] ∧ (link (s 7) 3).replays < 8 ∧ portUp (s 7) 3 = true ∧
       portProbes (s 7) 3 = true) ∧
    (let s := { atT 2598 run with cores := [(71, { item := some 1, preempt := some 0, credits := 1 })] }
     s.live = true ∧ (Machine.core s 71).item = some 1 ∧ (Machine.core s 71).preempt = some 0 ∧ (Machine.core s 71).credits ≠ 0 ∧ 0 + 2598 ≤ s.now) ∧
    [0, 1].all (fun cls =>
      let x := xfer 0 1 false
      let s := fabric x cls [] 0
      decide (item? s 1 = some (fabIt cls)) && decide ((fabOf s (fabIt cls)).xfers[0]? = some x) && decide (rank0 s (fabIt cls) = some 0) &&
        decide (x.srcChip = chipId s) && decide (fabLaunch (fabIt cls) + x.start ≤ s.now) && decide ((1, 0) ∉ s.fab.started) && carries s x.port &&
        decide ((link s x.port).laneBusyTo ≤ s.now) &&
        (let r := granGet s 0 (claimSpan s 0 (fabIt cls) x.srcAddr) (flitsOf x.bytes)
         (afterGran r.1 0 1 0 (claimSpan s 0 (fabIt cls) x.srcAddr) (flitsOf x.bytes) r.2).2)) = true ∧
    (let x := xfer 1 0 false
     let u : XUnit := { item := 1, entry := 0, complete := true, arrived := List.replicate 64 0 }
     let s := fabric x 1 [u] 0
     rxEntry s (fabIt 1) 0 = some x ∧ (fabIt 1).launched = true ∧ (unitOf s 1 0).complete = true ∧ (unitOf s 1 0).landed = none ∧ x.relay = false) ∧
    (let x := xfer 1 0 false
     let u : XUnit := { item := 1, entry := 0, complete := true, arrived := List.replicate 64 0, landed := some 3 }
     let s := fabric x 1 [u] 5000
     (fabIt 1).isPinned = true ∧ rxEntry s (fabIt 1) 0 = some x ∧ (unitOf s 1 0).landed = some 3 ∧ (unitOf s 1 0).signalled = false ∧
       dueOf s (fabIt 1) x ≤ s.now) ∧
    [true, false].all (fun relay =>
      let x := xfer 1 0 relay
      let s := fabric x 1 [] 5000
      decide (rxEntry s (fabIt 1) 0 = some x) && decide ((unitOf s 1 0).landed = none) && decide (limitOf s (fabIt 1) x ≤ s.now)) = true ∧
    (let x := xfer 1 0 true
     let s := { fabric x 1 [] 0 with fab := { run.fab with relayReady := 1 } }
     let s0 := { s with fab := { s.fab with relayReady := s.fab.relayReady - 1 } }
     0 < s.fab.relayReady ∧ unitItem s0 0 0 = some (fabIt 1) ∧ rxEntry s0 (fabIt 1) 0 = some x ∧ unitItem s0 0 1 = none) := by decide +kernel

/-- A relayed unit whose tag is not that of its ciphertext. -/
theorem hyp_FlitsAndUnits_tag (t : Nat) : ∃ u : RelayUnit, t ≠ u.tag := ⟨⟨0, 0, 0, 0, 0, 0, [], t + 1⟩, by simp⟩

/-- The warm spare of cluster 7 is its core 8; logical core 56 stands on physical core 63. -/
def rotate : State := setPlace (putF (sets [(F.WINNOW_CTRL_ROTATE, 1), (F.WINNOW_CTRL_EN, 1)] run) F.WINNOW_CLU_SPARE 0 0 7 8) 56 63

theorem hyp_FlitsAndUnits_more :
    -- a unit's granule that cannot be delivered, and a relayed unit
    (let x := xfer 0 1 false
     let s := modClu (fabric x 1 [] 0) 0 (fun c => { c with offBanks := 2 ^ 17 - 1 })
     let r := granGet s 0 (claimSpan s 0 (fabIt 1) x.srcAddr) (flitsOf x.bytes)
     (afterGran r.1 0 1 0 (claimSpan s 0 (fabIt 1) x.srcAddr) (flitsOf x.bytes) r.2).2 = false) ∧
    (let x := xfer 0 1 true
     let s := setR (fabric x 1 [] 0) F.RELAY_CFG_EN 1
     item? s 1 = some (fabIt 1) ∧ (fabOf s (fabIt 1)).xfers[0]? = some x ∧ rank0 s (fabIt 1) = some 0 ∧ x.srcChip = chipId s ∧
       (1, 0) ∉ s.fab.started ∧ x.relay = true ∧ flag s F.RELAY_CFG_EN = true ∧ flag s F.DISP_LEASE_EXPIRED = false ∧
       (let r := granGet s 0 (claimSpan s 0 (fabIt 1) x.srcAddr) (flitsOf x.bytes)
        (afterGran r.1 0 1 0 (claimSpan s 0 (fabIt 1) x.srcAddr) (flitsOf x.bytes) r.2).2 = true)) ∧
    (let x := xfer 0 1 false
     let s := { fabric x 1 [] 2598 with cores := [(71, { item := some 1, preempt := some 0, credits := 1 })] }
     item? s 1 = some (fabIt 1) ∧ (imgOf s (fabIt 1).e).fabric = some { xfers := [x] } ∧
       ({ xfers := [x] } : FabSec).xfers.filter (fun x => !x.relay) = x :: []) := by decide +kernel

theorem hyp_FlitsAndUnits_end :
    (let x := xfer 1 0 false
     let s := setIs [(F.LINK_PEER_CHIP, 3, 1)] (fabric x 1 [] 5000)
     rxEntry s (fabIt 1) 0 = some x ∧ regI s F.LINK_PEER_CHIP 3 = x.srcChip ∧ (∀ q < 3, regI s F.LINK_PEER_CHIP q ≠ x.srcChip)) ∧
    (let x := xfer 1 0 true
     let s := { fabric x 1 [] 0 with fab := { run.fab with relayReady := 1 } }
     let s0 := { s with fab := { s.fab with relayReady := s.fab.relayReady - 1 } }
     (unitOf s0 (fabIt 1).key 0).landed = none ∧ x.dstChip = chipId s0 ∧ x.relay = true) := by decide +kernel

/-- A relayed unit whose tag is that of its ciphertext. -/
theorem hyp_FlitsAndUnits_good (s : State) (it : Item) : ∃ u : RelayUnit, u.dstChip = 0 ∧ u.srcChip = 1 ∧
    Config.gcmTag (fabricKey s it) (relayIv u.launch u.entry u.srcChip)
      (relayHdr u.srcChip u.dstChip u.plan u.launch u.entry u.bytes) u.ct = u.tag :=
  ⟨⟨1, 0, 0, 0, 0, 64, [], Config.gcmTag (fabricKey s it) (relayIv 0 0 1) (relayHdr 1 0 0 0 0 64) []⟩, rfl, rfl, rfl⟩

theorem hyp_WinnowCommands :
    (let s := setR run F.WINNOW_CTRL_EN 1
     s.live = true ∧ flag s F.WINNOW_CTRL_EN = true ∧ (8 : Nat) < 9 ∧ segKind 8 = 7 ∧ segUnit s 7 1 = true ∧ segRuns s 7 1 = false) ∧
    (let g : SegRun := { seg := 8, unitKind := 7, unit := 1, start := 0 }
     let s := { atT 1300000 run with winnow := { run.winnow with segs := [g] } }
     let o := { s with winnow := { s.winnow with overruns := [(winKey 8 7 1, 1)] } }
     s.winnow.segs.find? (fun g => decide (g.unitKind = 7) && decide (g.unit = 1)) = some g ∧ g.start + segTicks g.seg ≤ s.now ∧
       tget 0 s.winnow.overruns (winKey 8 7 1) = 0 ∧ tget 0 o.winnow.overruns (winKey 8 7 1) ≠ 0) ∧
    (let it : Item := { key := 1, st := .running, golden := true }
     let s := setSs [(F.REEVE_CFG_EN, 63, 1)] (one it)
     item? s 1 = some it ∧ it.golden = true ∧ it.launched = true ∧ it.e.launch + windowLen s it ≤ s.now ∧ pipeOf s it.e.plan = some 63) ∧
    (let s := rotate
     spareOf s 7 = some 71 ∧ logicalCore s (9 * 7 + 0) = some 56 ∧ (7 : Nat) < 8 ∧ (0 : Nat) < 9 ∧ flag s F.WINNOW_CTRL_ROTATE = true ∧ pairDown s 0 = false ∧
       getF s F.WINNOW_CLU_STATE 0 0 7 = 0 ∧ tget none s.faults.reactions 7 = none ∧ segRuns s 1 71 = false ∧ handoverDue s 7 0 = true ∧
       0 = getF s F.WINNOW_CLU_NEXT 0 0 7 ∧ 0 < nextInRotation s 7 0) ∧
    (let s := setPlace (putF rotate F.WINNOW_CLU_NEXT 0 0 7 7) 57 70
     logicalCore s (9 * 7 + 7) = some 57 ∧ handoverDue s 7 7 = true ∧ 7 = getF s F.WINNOW_CLU_NEXT 0 0 7 ∧
       nextInRotation (setI s F.CORE_STATE_STATE 71 6) 7 7 ≤ 7) ∧
    (let s := setR (putF rotate F.WINNOW_CLU_NEXT 0 0 7 7) F.WINNOW_AGE_THR 0
     handoverDue s 7 0 = true ∧ 0 ≠ getF s F.WINNOW_CLU_NEXT 0 0 7) ∧
    (let h : Handover := { logical := 56, phys := 63, spare := 71, start := 0 }
     let s := { atT copyTicks rotate with winnow := { run.winnow with handovers := [(7, some h)] } }
     s.live = true ∧ tget none s.winnow.handovers 7 = some h ∧ h.start + copyTicks ≤ s.now ∧ coreIdle s h.logical = true ∧ segRuns s 1 h.phys = false ∧
       pairDown s 0 = false ∧ wearOf s h.phys < reg s F.WINNOW_AGE_THR ∧ reg (setR s F.WINNOW_AGE_THR 0) F.WINNOW_AGE_THR ≤ wearOf s h.phys) ∧
    (let s := { rotate with winnow := { run.winnow with testing := [(7, some 0)] } }
     (71 : Nat) < 72 ∧ tget none s.winnow.testing (71 / 9) = some 0 ∧ spareOf s (71 / 9) = some 71) ∧
    (let s := setR (atT (2 ^ 60) run) F.WINNOW_CTRL_OVERDUE_FAULT 0
     (8 : Nat) < 9 ∧ latentUnit s 8 7 1 = true ∧ latentFrom s 8 7 1 + latentTicks s 8 ≤ s.now ∧ flag s F.WINNOW_CTRL_OVERDUE_FAULT = false) ∧
    (let img : PlanImage := { timeline := some { period := 65536, offsets := [], golden := some { offset := 0, length := 64, every := 1, sig := 0 } } }
     let s0 := setSs [(F.REEVE_CFG_EN, 63, 1), (F.REEVE_CFG_PLAN, 63, 511)] (setR (atT (2 ^ 60) run) F.WINNOW_CTRL_OVERDUE_FAULT 0)
     let s := { s0 with plans := [(255, { st := .installed, gen := 1, img := img })] }
     latentUnit s 15 8 255 = true ∧ latentFrom s 15 8 255 + latentTicks s 15 ≤ s.now ∧ flag s F.WINNOW_CTRL_OVERDUE_FAULT = false ∧
       511 = planIdAt s 255 ∧ pipeOf s 511 = some 63) := by decide +kernel

/-- A host read of 4 bytes with tag 9 outstanding. -/
def rd9 : HostRead := { id := 0, kind := .ledgerPidx, addr := 0, len := 4, next := 4, reqs := [{ tag := 9, off := 0, len := 4, issued := 0, data := none }], keep := true }

theorem hyp_FlashAndPcieEvents :
    (let s := { setR run F.FLASH_STATE_MODE 2 with flash := { run.flash with blocks := [(4095, { pages := 64 })] } }
     s.live = true ∧ (4095 : Nat) < 4096 ∧ 63 < (fblock s 4095).pages ∧ (fblock s 4095).bad = 0 ∧ s.flash.ops = [] ∧ pairDown s 1 = false ∧
       reg s F.FLASH_STATE_MODE = 2 ∧ (∀ n ∈ [0, 3, 11, 11].take 4, n < 12) ∧ roundNow s < (fblock s 4095).progRound + yearRounds) ∧
    (let s := { run with flash := { run.flash with blocks := [(0, { pages := 1 }), (1, { erases := 2001 })] } }
     (0 : Nat) < 7 ∧ (eraseRange s 0).1 + 2000 < (eraseRange s 0).2 ∧ s.flash.ops = [] ∧ pairDown s 1 = false ∧ extremeBlock s 0 true (fun _ => true) = some 0 ∧
       extremeBlock s 0 false (fun x => decide (x.pages = 0)) = some 1 ∧ (fblock s 0).pages ≠ 0) ∧
    (let o : FlashOp := { kind := .read, use := .patrol }
     let s := { run with flash := { run.flash with ops := [o] } }
     s.live = true ∧ s.flash.ops = o :: [] ∧ s.flash.ops ≠ [] ∧ s.pcie.ackPending = false) ∧
    (∀ o ∈ [({ kind := .program, use := .record } : FlashOp), { kind := .program, use := .move }, { kind := .program, use := .refresh },
         { kind := .erase, use := .move, block := 4095 }],
     let s := { run with flash := { run.flash with ops := [o] } }
     s.flash.ops = o :: [] ∧ s.pcie.ackPending = false ∧ (fblock s o.block).bad = 0) ∧
    (let s := { atT (2 ^ 62) run with pcie := { run.pcie with reads := [rd9] } }
     (reqOf s 9).map (fun x => decide (x.2.len = 4) && decide (x.2.issued + usTicks (reg s F.PCIE_CTO) ≤ s.now)) = some true ∧ reqOf s 8 = none ∧
       8 ∉ s.pcie.dropTags ∧ (reqOf s 9).map (fun x => decide (x.1.len ≤ x.1.next)) = some true ∧
       (let r : HostRead := { rd9 with len := 8 }
        let u := { s with pcie := { s.pcie with reads := [r] } }
        (reqOf u 9).map (fun x => decide (x.1.next < x.1.len)) = some true)) ∧
    (let s := served run
     let m := { s with pcie := { s.pcie with pba := 2 ^ 63, msixEn := true, bme := true } }
     (63 : Nat) < 64 ∧ memServed s = true ∧ s.pcie.pba.testBit 63 = false ∧ m.pcie.pba.testBit 63 = true ∧ m.pcie.msixEn = true ∧
       m.pcie.fnMask = false ∧ m.canIssue = true ∧ memServed m = true ∧ s.pcie.reads = [] ∧ s.pcie.bme = false ∧ (1 : Nat) ≤ 1 ∧ (5 : Nat) ≤ 5 ∧ 8 ∈ [1, 2, 4, 8] ∧ reg s F.PCIE_LINK_STATE ≤ 1 ∧ s.d0 = true) ∧
    (flag (setR run F.PCIE_LINK_STATE 2) F.PCIE_LINK_STATE = true ∧ (setR run F.PCIE_LINK_STATE 2).d0 = true ∧
      (setR run F.PCIE_POWER_DSTATE 3).d0 = false ∧ run.flash.ops = []) := by decide +kernel

theorem hyp_FlashAndPcieEvents_d0 :
    (∀ sref ∈ [0, 1], ∀ sus ∈ [true, false],
      let d := setR (setR run F.PCIE_POWER_DSTATE 3) F.HBMC_SREF sref
      let s := { d with disp := { d.disp with leaseSuspended := sus } }
      let s1 := banksUp (setR (setR s F.PCIE_POWER_DSTATE 0) F.PCIE_POWER_WATCH 0)
      s.d0 = false ∧ flag s1 F.HBMC_SREF = decide (sref = 1) ∧ s1.disp.leaseSuspended = sus ∧
        (exitSref (putBoth s1 F.HBMC_SREF 0 0 0 0)).disp.leaseSuspended = sus) := by decide +kernel

/-! ## Commands on fixed values, worked out from the spec by hand -/

/-- The state a command leaves; `{}` where it stops. -/
def after (o : Out) : State :=
  match o with
  | .next s => s
  | _ => {}

/-- What the command sends last. -/
def sent (o : Out) : Option HostOut := (after o).pcie.out.getLast?

/-- The opcode table gives its rows no bits. -/
theorem test_decode_none : ∀ nbits w, decodeTableWord nbits w = none := fun _ _ => rfl

/-- No word, so nothing is put into the queue. -/
theorem test_withFetchWord : ∀ (s : State) (nbits w : Nat), s.withFetchWord nbits w = s := fun _ _ _ => rfl

/-- R283: the Tally counts by one in each tick. -/
theorem test_idle_tick : (after (step (atT 41 run))).tally = 42 := by decide +kernel

/-- R402: the Tally stands while PERST_N is asserted. -/
theorem test_idle_reset : (after (step State.reset)).tally = 0 := by decide +kernel

/-- R409, R401: PERST_N asserted ends all but the flash and the straps. -/
theorem test_perst : (after (execPerstNAssert (atT 7 (sets [(F.CLK_PLL, 63)] run)))).tally = 0 ∧
    reg (after (execPerstNAssert (sets [(F.CLK_PLL, 63)] run))) F.CLK_PLL = 0 := by decide +kernel

/-- R416, Table 18-1: PAGE_ID of SYS holds type 0x01, major version 1. -/
theorem test_page_id_sys : sent (exec (.loRead .bar0 0 4) (served run)) = some (.readReply 0x01000100) := by decide +kernel

/-- R416, Table 18-1: PAGE_ID of LINK_3 holds type 0x1A and instance 3. -/
theorem test_page_id_link : sent (exec (.loRead .bar0 0xC3000 4) (served (up [138] run))) = some (.readReply 0x1A030100) := by decide +kernel

/-- R379: a page that is not up reads as 0. -/
theorem test_page_down : sent (exec (.loRead .bar0 0xC3000 4) (served run)) = some (.readReply 0) := by decide +kernel

/-- R381: an unaligned read answers 0. -/
theorem test_read_unaligned : sent (exec (.loRead .bar0 2 4) (served run)) = some (.readReply 0) := by decide +kernel

/-- R7: the read of TALLY_LO holds TALLY_HI for the next read. -/
theorem test_tally_pair :
    let s := atT (3 * 2 ^ 32 + 9) (served (up [1] run))
    let t := after (exec (.loRead .bar0 (0x1000 + F.TALLY_LO.off) 4) s)
    sent (exec (.loRead .bar0 (0x1000 + F.TALLY_LO.off) 4) s) = some (.readReply 9) ∧
      sent (exec (.loRead .bar0 (0x1000 + F.TALLY_HI.off) 4) { t with tally := 0 }) = some (.readReply 3) := by decide +kernel

/-- R342: a host write of a guarded page through BAR 0 changes nothing but the access-violation flag. -/
theorem test_guarded_write :
    let s := after (exec (.registerWrite .host .bar0 (0x2000 + F.DISP_PERIOD.off) 4 5000) (served (up [2] run)))
    getSh s F.DISP_PERIOD 0 0 0 = F.DISP_PERIOD.reset 0 0 ∧ regI s F.PAGE_STATUS_ACCESS_VIOLATION 2 = 1 := by decide +kernel

/-- R354: the bypass register is one bit, which captures 0. -/
theorem test_tap_bypass : sent (exec (.tapInstruction .bypass [true, false, true]) State.reset) =
    some (.tapBits [false, true, false]) := by decide +kernel

/-- R289: TIME_OUT rises at a multiple of 1,300,000,000 ticks and at no other. -/
theorem test_time_out : (after (exec .timeOutStart (atT 1300000000 run))).power.timeOut = true ∧
    (after (exec .timeOutStart (atT 1300000001 run))).power.timeOut = false := by decide +kernel

/-- R285: H is ((t4 − t1) − (t3 − t2)) / 2, rounded to nearest. -/
theorem test_hop :
    let s := { setI run F.LINK_STATE_STATE 0 2 with fab := { run.fab with links := [(0, { probeT0 := some 100 })] } }
    regI (after (exec (.echoReceived 0 2000 2010 311) s)) F.LINK_HOP 0 = 101 := by decide +kernel

/-- R224: a buffer's handle holds its number, its pool and its generation. -/
theorem test_cooper :
    let s := { setSs [(F.COOPER_POOL_CFG_EN, 3, 1), (F.COOPER_POOL_CFG_COUNT, 3, 6), (F.COOPER_POOL_CFG_SIZE, 3, 1)] run with
      pools := [(3, { free := [5], cached := 1, bufs := [(5, { gen := 2 })] })] }
    (cooperAlloc s 0 4096 (2 ^ 3) none).2 = some (5 + 2 ^ 11 * 3 + 2 ^ 14 * 2) ∧
      (buf (after (exec (.cooperFree (5 + 2 ^ 11 * 3 + 2 ^ 14 * 2)) (cooperAlloc s 0 4096 (2 ^ 3) none).1)) 3 5).gen = 3 := by decide +kernel

/-- R52: a packet of another virtual channel is not counted in the frame. -/
theorem test_csi_vc : (csi (after (exec (.csiPacket 7 { vc := 1, dt := 0, hdrErr := 0, crcOk := true, px := [1, 2, 3, 4] }) (csi7 []))) 7).lines =
    [] := by decide +kernel

/-- R52: a short line is filled with its last pixel. -/
theorem test_csi_short :
    let s := csi7 []
    (csi (after (exec (.csiPacket 7 { vc := 0, dt := regI s F.CSI_CFG_DT 7, hdrErr := 0, crcOk := true, px := [1, 2] }) s)) 7).lines =
      [[1, 2, 2, 2]] := by decide +kernel

/-- An INT32 vector of two elements, −1 and 5, at the start of the activation bin. -/
def two (ins : VecOp) : State :=
  writeRef (tile [{ ins := .vec ins }]) 0 { bin := .act, reg := 0, off := 0 } (Machine.le 4 (2 ^ 32 - 1) ++ Machine.le 4 5) 0

/-- Where results go. -/
def outAt : BinRef := { bin := .act, reg := 0, off := 64 }

/-- The words there. -/
def words (o : Out) : List Nat := elems 4 2 (readRef (after o) 0 outAt 8).2.bytes

/-- R95: ReLU replaces a negative element by 0. -/
theorem test_relu : words (exec (.relu 0 .i32 2 { bin := .act, reg := 0, off := 0 } outAt {}) (two (.relu .i32 2 { bin := .act, reg := 0, off := 0 } outAt))) =
    [0, 5] := by decide +kernel

/-- R86: an INT32 sum wraps modulo 2^32. -/
theorem test_add : words (exec (.add 0 .i32 false 2 { bin := .act, reg := 0, off := 0 } { bin := .act, reg := 0, off := 0 } outAt none {})
    (two (.add .i32 false 2 { bin := .act, reg := 0, off := 0 } { bin := .act, reg := 0, off := 0 } outAt none))) = [2 ^ 32 - 2, 10] := by decide +kernel

/-- R107: REG defines a region. -/
theorem test_reg : (tget ({} : Region) (Machine.core (after (exec (.reg 0 .psum 2 3 4 false {}) (tile [{ ins := .reg .psum 2 3 4 false }]))) 0).regions
    (2 * 8 + 2)) = { defined := true, base := 3, len := 4 } := by decide +kernel

/-- R107: ENDL of a loop with iterations left goes back to the instruction after its LOOP. -/
theorem test_endl :
    let s := modCore (tile [{ ins := .endl }]) 0 (fun c => { c with loops := [{ start := 0, left := 2, iter := 0, strides := [4] }] })
    (Machine.core (after (exec (.endl 0 {}) s)) 0).loops = [{ start := 0, left := 1, iter := 1, strides := [4] }] ∧
      (Machine.core (after (exec (.endl 0 {}) s)) 0).pc = 0 := by decide +kernel

/-- R385: a pending message is sent when its vector is unmasked. -/
theorem test_msix : sent (exec (.msixUnmask 3)
    { served run with pcie := { (served run).pcie with bme := true, msixEn := true, pba := 8, msix := [(3, { addr := 64, data := 7 })] } }) =
    some (.msix 3 64 7) := by decide +kernel

/-- R235: an address beyond the stack's 24 GiB is no place in HBM: 64 bytes of zeros, poisoned. -/
theorem test_hbm_top : ((after (exec (.hbmRequest { id := 1, src := .carter 0, addr := hbmTop, wr := false }) run)).hbm.served).map (fun x => x.2.2) = some true := by
  decide +kernel

/-- R338: OPEN with the keys not ready is refused with reason KEYS. -/
theorem test_open_keys :
    let s := after (exec (.openOp { session := 0, seq := 0, tag := 0 } 0 0 0 0 0) (up [7] run))
    s.sec.resp.reason = 12 ∧ s.sec.sess = [] := by decide +kernel

/-! ## The spec's worked examples and test vectors -/

/-- 09 R213's test vector: only data bit 4 set gives the check field 0x7212; as poison the word carries 0x7203. -/
theorem test_check_field : checkField (2 ^ 4) = 0x7212 ∧ (encode144 (2 ^ 4)).xor poisonPattern / 2 ^ 128 = 0x7203 ∧
    decodePat poisonPattern = .poison := by decide +kernel

/-- 05, Table 5-2: INT32 16,842,753 becomes FP32 16,842,752 and BF16 16,777,216. -/
theorem test_double_rounding : convOf .i32 .fp32 16842753 = ofInt 16842752 ∧ convOf .bf16 .fp32 (convOf .i32 .bf16 16842753) = ofInt 16777216 := by
  decide +kernel

/-- 05, Table 5-4: the S32 path; S_STAGE is 2⁻¹² (0x39800000), CLIP 65,536. -/
theorem test_s32 :
    let r := deriveInt 5000 0x39800000 65536 false
    r.sh = 37 ∧ r.mult = 3490949418 ∧ [1234, 3000, 5000, 2500].map (requantOf .i32 r) = [31, 76, 127, 63] ∧
      requantOf .i32 r (2 ^ 32 - 5000) = 256 - 127 := by decide +kernel

/-- 05: with CLIP = 58,982 the element 5,000 saturates at 127, and 1,234 converts to 35. -/
theorem test_s32_clip :
    let r := deriveInt 5000 0x39800000 58982 false
    [1234, 5000].map (requantOf .i32 r) = [35, 127] := by decide +kernel

/-- 05, Table 5-4: the S16 path over the BF16 elements 1,232, 3,008 and 4,992. -/
theorem test_s16 :
    let b (n : Nat) : Nat := convOf .i32 .bf16 n
    let r := deriveFlt (convOf .bf16 .fp32 (b 5000)) 0x39800000 65536 false
    [1234, 3000, 5000].map (fun n => convOf .bf16 .fp32 (b n)) = [ofInt 1232, ofInt 3008, ofInt 4992] ∧
      [1234, 3000, 5000].map (fun n => requantOf .bf16 r (b n)) = [31, 77, 127] := by decide +kernel

/-- 06, Table 6-3: the borders. -/
theorem test_borders : outSize 20 3 1 64 64 64 = 20 ∧ outSize 5 7 1 1 0 0 = -1 ∧ outSize 5 7 1 1 1 1 = 1 ∧ outSize 20 3 8 1 0 0 = 3 ∧
    outSize 5 7 16 1 0 0 = 0 ∧ tapAt 19 0 1 64 64 = -45 ∧ tapAt 19 1 1 64 64 = 19 ∧ tapAt 19 2 1 64 64 = 83 := by decide +kernel

/-- 07, Table 7-5: in rank order the parts 1, 2⁻²⁴ and 2⁻²⁴ add up to 1. -/
theorem test_combine : fadd (fadd 0x3F800000 0x33800000) 0x33800000 = 0x3F800000 ∧ fadd 0x3F800000 (fadd 0x33800000 0x33800000) = 0x3F800001 := by
  decide +kernel

/-- The weight-stationary operation of Table 4-5. -/
def wsOp (mode : Mode) (m k n : Nat) (chunks : List Nat) : MMOp :=
  { mode := mode, flow := .ws, m := m, n := n, k := k, a := { bin := .act, reg := 0, off := 0 }, w := { bin := .weight, reg := 0, off := 0 },
    tiles := [], acc := false, chunks := chunks }

/-- 04, Table 4-5, and 07, Table 7-9: cycles of the layers. -/
theorem test_layer_cycles : (wsOp .i8 2040 256 128 [256, 256, 256, 256, 256, 256, 256, 248]).cycles = 65375 ∧
    (wsOp .l4 2040 256 128 [256, 256, 256, 256, 256, 256, 256, 248]).cycles = 32737 ∧
    (wsOp .i8 1080 864 96 [384, 384, 312]).cycles = 87575 ∧ (wsOp .i8 960 864 96 [384, 384, 192]).cycles = 77855 := by decide +kernel

/-- 06, Table 6-6: cycles of the depth-wise layer. -/
theorem test_depthwise :
    let d : OpDesc := { pool2 0 with cIn := 96, cOut := 96, groups := 96, hMax := 68, wMax := 120, kh := 3, kw := 3, padT := 1, padB := 1, padL := 1, padR := 1 }
    let o : MMOp := { wsOp .i8 8160 9 96 [] with flow := .diag }
    d.blockCycles false 1 = 54 ∧ o.fedCycles d .nhwc 68 120 0 = 44127 ∧
      ({ d with dw := 2, padT := 2, padB := 2, padL := 2, padR := 2 } : OpDesc).blockCycles false 1 = 60 ∧
      ({ d with sw := 2 } : OpDesc).blockCycles false 1 = 144 := by decide +kernel

/-- 10: the address 0x1_2345_6780 with the 4 KiB grain, without and with the fold. -/
theorem test_hbm_address :
    let s := setR run F.HBMC_MAP_FOLD 0
    let l := (hbmMap s 0x123456780).2
    hbmMap s 0x123456780 = (6, 0x12345780) ∧ l / 2 ^ 29 = 0 ∧ l / 64 % 2 = 0 ∧ l / 2 ^ 7 % 16 = 15 ∧ l / 2 ^ 15 % 2 ^ 14 = 9320 ∧
      (hbmMap (setR run F.HBMC_MAP_FOLD 1) 0x123456780).1 = 4 := by decide +kernel

/-- 12: chip A measures H = 57, and B's step is −2,162,498 with the residual 1. -/
theorem test_align :
    let a := { setI (atT 500134 run) F.LINK_STATE_STATE 1 2 with fab := { run.fab with links := [(1, { probeT0 := some 500000 })] } }
    let b0 := setIs [(F.LINK_STATE_STATE, 1, 2), (F.LINK_HOP, 1, 57)] (sets [(F.TALLY_CTRL_ROLE, 2), (F.TALLY_CTRL_SRC_PORT, 1)] (atT 3211130 run))
    let b := after (exec (.markerReceived 1 1048576) { b0 with fab := { b0.fab with armed := true } })
    regI (after (exec (.echoReceived 1 2662554 2662574 500134) a)) F.LINK_HOP 1 = 57 ∧ b.fab.step = some (-2162498) ∧ b.fab.stepAligns = true ∧
      reg b F.TALLY_STATE_RESID = 1 := by decide +kernel

/-- 08: the centre of track 7 of the occupant-camera step after its update. -/
theorem test_kalman :
    let p : Cov := { p11 := 2048, p12 := 512, p22 := 256 }
    p.gains 1024 = (43691, 10923) ∧ p.update 43691 10923 = { p11 := 683, p12 := 171, p22 := 171 } ∧
      ({ p := 38912, v := 128 } : Coord).update 43691 10923 38400 = { p := 38571, v := 43 } ∧
      ({ p := 25856, v := 64 } : Coord).update 43691 10923 25600 = { p := 25685, v := 21 } := by decide +kernel

/-- 08: candidates 0 and 2 of that step survive the suppression, and its detections score 964 and 60 as stated. -/
theorem test_suppress :
    let c0 : Cand := { x0 := 1600, y0 := 800, x1 := 3200, y1 := 2400, score := 900, cls := 0 }
    let c1 : Cand := { x0 := 1760, y0 := 800, x1 := 3360, y1 := 2400, score := 900, cls := 0 }
    let c2 : Cand := { x0 := 6400, y0 := 1600, x1 := 8000, y1 := 3200, score := 700, cls := 0 }
    suppress false 512 2048 [c0, c1, c2] = [c0, c2] ∧ iouQ ⟨1632, 816, 3232, 2416⟩ ⟨1600, 800, 3200, 2400⟩ = 964 ∧
      stepTicks { st7 .active with n := 3, m := 3, dets := [c0, c2] } 4 = 242 := by decide +kernel

/-- 03: the first sample of box 0 of the re-identification crops lies at 768 and 128/256; a box takes 792 ticks. -/
theorem test_crop :
    cropPos 12288 14336 64 0 = 50364416 ∧ (cropPos 12288 14336 64 0) / 65536 = 768 ∧ (cropPos 12288 14336 64 0) / 256 % 256 = 128 ∧
      boxTicks { outW := 64, outH := 64 } { count := 64, outW := 64, outH := 64, mode := 0, targets := 0xFF, fill := [], binding := 0 } = 792 := by
  decide +kernel

/-- 03 R71: 64 crops of 64 columns with 8 guard columns fill 5 rows of 1,024 columns, the last with 8 crops. -/
theorem test_pack : (nextFit 1024 8 ((upto 64).map (fun i => (i, 64, []))) [] 0).map List.length = [14, 14, 14, 14, 8] := by decide +kernel

/-- 17: trim codes of the ageing part: V_min 31 gives 34, and t = 36 is clamped to 35, with BASE 29. -/
theorem test_trim : clampTrim 29 34 = 34 ∧ clampTrim 29 36 = 35 := by decide +kernel

/-- 02: the default budget of the slot of 1920 × 1088 at H.264 level 4.1 is 66,406,250 cycles. -/
theorem test_budget :
    let s := setSs [(F.ADM_CODEC_CODEC, 5, 1), (F.ADM_CODEC_PROFILE, 5, 2), (F.ADM_CODEC_LEVEL, 5, 41), (F.ADM_DIMS_WIDTH, 5, 1920), (F.ADM_DIMS_HEIGHT, 5, 1088),
      (F.ADM_DPB_RATE_FPS, 5, 30)] run
    decodeBudget s 5 = 66406250 ∧ picBytes 1 1920 1088 false = 3133440 := by decide +kernel

/-- 09, Table 9-6: pool 3 of 32 buffers, minima of 10 for slots 5 and 6, holdings of slot 5, slot 6 and a plan (owner 76). -/
def pool3 (a b c : Nat) : State :=
  { setSs [(F.COOPER_POOL_CFG_EN, 3, 1), (F.COOPER_POOL_CFG_COUNT, 3, 32), (F.COOPER_POOL_CFG_SIZE, 3, 768)] run with
    pools := [(3, { minima := [(5, 10), (6, 10)],
                    bufs := enumFrom 0 ((List.replicate a 5 ++ List.replicate b 6 ++ List.replicate c 76).map (fun o => { owner := some o })) })] }

/-- 09, Table 9-6: who may take a buffer. -/
theorem test_pool : poolFree (pool3 2 2 0) 3 = 28 ∧ poolUnmet (pool3 2 2 0) 3 = 16 ∧ mayTake (pool3 2 2 0) 3 76 = true ∧ mayTake (pool3 2 2 11) 3 76 = true ∧
    mayTake (pool3 2 2 12) 3 76 = false ∧ mayTake (pool3 10 2 12) 3 5 = false ∧ mayTake (pool3 10 2 12) 3 6 = true ∧ poolFree (pool3 10 10 12) 3 = 0 := by
  decide +kernel

/-- 14: slot 2 of the session table at generation 7 gives tag 114. -/
theorem test_session_tag : tagOf { run with sec := { run.sec with sess := [(2, { gen := 7 })] } } 2 = 114 := by decide +kernel

/-- 12: the first launch of the driver-monitoring plan lies on its item offset 4,333,396, and 4,000,000,000 on 13,333,272. -/
theorem test_timeline : 91000064 % 21666667 = 4333396 ∧ (91000064 + 3900000060) % 21666667 = 4333396 ∧ 4000000000 % 21666667 = 13333272 := by decide +kernel

end Sys2Proof.Tests
end

section
/-!
PROOFS. Image operators: pooling and tensor crop-and-resize as a vector instruction that reaches its core (06
R134, R149, R152): what it refuses, what it reads, its room, its cycles and its effect.
-/

namespace Sys2Proof.Machine

/-! ## The commands that may name an operator descriptor -/

/-- A command that only a running device obeys does what it does there. -/
theorem whenLive_of_live {s : State} (f : State → State) (h : s.live = true) : whenLive s f = f s := if_pos h

theorem exec_max_of_live {s : State} (p : Nat) (fmt : Fmt) (n : Nat) (x x2 y : BinRef) (opr : Option Nat) (tok : Toks)
    (h : s.live = true) : exec (.max p fmt n x x2 y opr tok) s =
      .next (runCmd s p { ins := .vec (.max fmt n x x2 y opr), tok := tok } .vector false) := by
  show execMax p fmt n x x2 y opr tok s = _
  exact congrArg Host.Outcome.next (whenLive_of_live _ h)

theorem exec_add_of_live {s : State} (p : Nat) (fmt : Fmt) (ps : Bool) (n : Nat) (x x2 y : BinRef) (opr : Option Nat) (tok : Toks)
    (h : s.live = true) : exec (.add p fmt ps n x x2 y opr tok) s =
      .next (runCmd s p { ins := .vec (.add fmt ps n x x2 y opr), tok := tok } .vector false) := by
  show execAdd p fmt ps n x x2 y opr tok s = _
  exact congrArg Host.Outcome.next (whenLive_of_live _ h)

theorem exec_fusedMultiplyAdd_of_live {s : State} (p : Nat) (fmt : Fmt) (n : Nat) (x x2 x3 y : BinRef) (opr : Option Nat) (tok : Toks)
    (h : s.live = true) : exec (.fusedMultiplyAdd p fmt n x x2 x3 y opr tok) s =
      .next (runCmd s p { ins := .vec (.fma fmt n x x2 x3 y opr), tok := tok } .vector false) := by
  show execFusedMultiplyAdd p fmt n x x2 x3 y opr tok s = _
  exact congrArg Host.Outcome.next (whenLive_of_live _ h)

/-- A vector operation with an operator descriptor refuses exactly the inputs that are too large for it (R134). -/
theorem insRefuses_of_oper {s : State} {it : Item} {op : VecOp} {i : Nat} {d : OpDesc} (tok : Toks) (hi : op.oper = some i)
    (hd : opAt (imgOf s it.e) i = some d) :
    insRefuses s it { ins := .vec op, tok := tok } = d.tooLarge (opShape s it i).1 (opShape s it i).2 := by
  show vecRefuses s it op = _
  unfold vecRefuses
  rw [hi]
  simp only [hd]

/-! ## Pooling -/

/-- The vector operations that pool `x` into `y` by operator `i`: MAX and ADD that name it (R147, R148). -/
inductive VecOp.Pools (i : Nat) (x y : BinRef) : VecOp → Prop
  | max (fmt : Fmt) (n : Nat) (x2 : BinRef) : Pools i x y (.max fmt n x x2 y (some i))
  | add (fmt : Fmt) (ps : Bool) (n : Nat) (x2 : BinRef) : Pools i x y (.add fmt ps n x x2 y (some i))

theorem VecOp.Pools.oper_eq {i : Nat} {x y : BinRef} {op : VecOp} (h : op.Pools i x y) : op.oper = some i := by
  cases h <;> rfl

/-- A pooling operation can always tell its operands. -/
theorem VecOp.Pools.insReady_eq {i : Nat} {x y : BinRef} {op : VecOp} (h : op.Pools i x y) (s : State) (p : Nat) (tok : Toks) :
    insReady s p { ins := .vec op, tok := tok } = true := by
  cases h <;> rfl

/-- MAX and ADD with the same descriptor run alike. -/
theorem VecOp.Pools.insRun_eq {i : Nat} {x y : BinRef} {op : VecOp} {s : State} {it : Item} {d : OpDesc} (h : op.Pools i x y)
    (hd : opAt (imgOf s it.e) i = some d) (p : Nat) (tok : Toks) (r : Bool) :
    insRun s p it { ins := .vec op, tok := tok } r = poolRun s p it i d x y := by
  show vecRun s p it op = _
  unfold vecRun
  rw [h.oper_eq, Option.bind_some, hd]
  cases h <;> rfl

/-- A pooling with an empty output reads and writes nothing in 2 cycles. -/
theorem poolRun_empty {s : State} {p : Nat} {it : Item} {i : Nat} {d : OpDesc} (x y : BinRef)
    (h : (d.outDims (opShape s it i).1 (opShape s it i).2).1 = 0) :
    poolRun s p it i d x y = { cycles := 2, post := fun _ _ t => (t, []) } := if_pos h

/-- A pooling with an output reads the rows its windows lie in, for the cycles of R149. -/
theorem poolRun_nonempty {s : State} {p : Nat} {it : Item} {i : Nat} {d : OpDesc} (x y : BinRef)
    (h : (d.outDims (opShape s it i).1 (opShape s it i).2).1 ≠ 0) :
    let dims := opShape s it i
    let out := d.outDims dims.1 dims.2
    let l := d.layout (x.offset (core s p)) dims.1 dims.2
    let offs := poolReads d l dims.1 dims.2
    poolRun s p it i d x y =
      { cycles := d.poolCycles (l.factor true) dims.1 dims.2, rd := gather (core s p) x d.fmt.size offs,
        wr := [(.bin y, d.fmt.size * d.outLen out.1 out.2 d.cIn)],
        post := fun _ bs t => operOut d.fmt.size (d.poolOut l dims.1 dims.2 (gathered (core t p) x d.fmt.size offs bs)) [] y t } :=
  if_neg h

/-- An instruction without operands finds them and its room at once. -/
theorem feeds_nil (s : State) (p : Nat) (it : Item) : Feeds s p it [] [] := ⟨rfl, rfl, rfl⟩

section
variable {s0 s : State} {p i : Nat} {x y : BinRef} {op : VecOp} {tok : Toks} {it : Item} {d : OpDesc}

/-- A pooling operation whose input is too large ends its item (R134). -/
theorem VecOp.Pools.runCmd_tooLarge (hp : op.Pools i x y) (h : Issues s0 p { ins := .vec op, tok := tok } .vector it s)
    (hd : opAt (imgOf s it.e) i = some d) (hl : d.tooLarge (opShape s it i).1 (opShape s it i).2 = true) :
    runCmd s0 p { ins := .vec op, tok := tok } .vector false = endItem s it.key 0x201 :=
  runCmd_refuses false h ((insRefuses_of_oper tok hp.oper_eq hd).trans hl)

/-- A pooling operation that can take its input has the effect of its run. -/
theorem VecOp.Pools.runCmd_feeds (hp : op.Pools i x y) (h : Issues s0 p { ins := .vec op, tok := tok } .vector it s)
    (hd : opAt (imgOf s it.e) i = some d) (hl : d.tooLarge (opShape s it i).1 (opShape s it i).2 = false)
    (hf : Feeds s p it (poolRun s p it i d x y).rd (poolRun s p it i d x y).wr) :
    runCmd s0 p { ins := .vec op, tok := tok } .vector false =
      effectOn s p it { ins := .vec op, tok := tok } .vector (poolRun s p it i d x y).cycles (poolRun s p it i d x y).rd
        (poolRun s p it i d x y).post := by
  rw [← hp.insRun_eq hd p tok false] at hf ⊢
  exact Machine.runCmd_feeds false h ((insRefuses_of_oper tok hp.oper_eq hd).trans hl) (hp.insReady_eq s p tok) hf

end

/-! ## Tensor crop-and-resize -/

/-- FUSED_MULTIPLY_ADD with a descriptor is ready when the header of its box list may be read. -/
theorem insReady_fma (s : State) (p : Nat) (fmt : Fmt) (n : Nat) (x bl x3 y : BinRef) (i : Nat) (tok : Toks) :
    insReady s p { ins := .vec (.fma fmt n x bl x3 y (some i)), tok := tok } = canRead s p bl 32 := rfl

/-- FUSED_MULTIPLY_ADD with a descriptor runs as a crop-and-resize. -/
theorem insRun_fma {s : State} {it : Item} {i : Nat} {d : OpDesc} (hd : opAt (imgOf s it.e) i = some d) (p : Nat) (fmt : Fmt) (n : Nat)
    (x bl x3 y : BinRef) (tok : Toks) (r : Bool) :
    insRun s p it { ins := .vec (.fma fmt n x bl x3 y (some i)), tok := tok } r = cropRun s p it i d x bl y := by
  show vecRun s p it _ = _
  unfold vecRun
  simp only [VecOp.oper, Option.bind_some, hd, Option.map_some]

/-- A header is refused unless its count, its output size and its shift are in range (R150). -/
theorem CropHdr.refused_eq_false {hd : CropHdr} (hc : hd.count ≤ 4096) (hw : 1 ≤ hd.ow ∧ hd.ow ≤ 64) (hh : 1 ≤ hd.oh ∧ hd.oh ≤ 64)
    (hs : hd.sh ≤ 6) : hd.refused = false := by
  simp [CropHdr.refused, inRange, hc, hw, hh, hs]

/-- A crop-and-resize whose header passes and asks for boxes of a non-empty input reads the list and the rows its boxes lie in, for the
cycles of R152. -/
theorem cropRun_boxes {s : State} {p : Nat} {it : Item} {i : Nat} {d : OpDesc} {bl : BinRef} (x y : BinRef)
    (hb : (peekList s p bl 32).info.bad = false) (hr : (cropHdrOf (peekList s p bl 32).bytes).refused = false)
    (hc : (cropHdrOf (peekList s p bl 32).bytes).count ≠ 0) (hh : (opShape s it i).1 ≠ 0) (hw : (opShape s it i).2 ≠ 0) :
    let dims := opShape s it i
    let l := d.layout (x.offset (core s p)) dims.1 dims.2
    let hd := cropHdrOf (peekList s p bl 32).bytes
    let len := 32 + 16 * hd.count
    let boxes := cropBoxes hd.count ((peekList s p bl len).bytes.drop 32)
    cropRun s p it i d x bl y =
      { cycles := cropCycles hd.count hd.ow hd.oh hd.s d.cIn (l.factor true),
        rd := [(.bin bl, len)] ++ gather (core s p) x d.fmt.size (cropReads d l hd dims.1 dims.2 boxes),
        wr := [(.bin y, d.fmt.size * (hd.count * d.outLen hd.oh hd.ow d.cIn) + hd.count)],
        post := cropPost p i d l dims.1 dims.2 x y } :=
  if_neg fun h => match h with
    | .inl bad => Bool.false_ne_true (hb.symm.trans bad)
    | .inr (.inl refused) => Bool.false_ne_true (hr.symm.trans refused)
    | .inr (.inr (.inl noBox)) => hc noBox
    | .inr (.inr (.inr (.inl noRow))) => hh noRow
    | .inr (.inr (.inr (.inr noColumn))) => hw noColumn

end Sys2Proof.Machine

namespace Sys2Proof

open Sys2Proof.Machine

/-- Settles O35: MAX and ADD with a descriptor run alike, so one rule for each of the three outcomes of a pooling serves both. -/
theorem poolingTakesItsCycles : Obligations.PoolingTakesItsCycles := by
  intro s0 s p i n fmt ps x x2 y tok it d c cmd hcmd hi hd
  obtain ⟨hp, he⟩ : c.Pools i x y ∧ exec cmd s0 = .next (runCmd s0 p { ins := .vec c, tok := tok } .vector false) := by
    obtain ⟨rfl, rfl⟩ | ⟨rfl, rfl⟩ := hcmd
    · exact ⟨.max .., exec_max_of_live _ _ _ _ _ _ _ _ hi.1⟩
    · exact ⟨.add .., exec_add_of_live _ _ _ _ _ _ _ _ _ hi.1⟩
  rw [he]
  refine ⟨fun hl => ?_, fun hl h0 => ?_, fun hl h0 hf => ?_⟩
  · rw [hp.runCmd_tooLarge hi hd hl]
  · rw [hp.runCmd_feeds hi hd hl (by rw [poolRun_empty x y h0]; exact feeds_nil s p it), poolRun_empty x y h0]
  · rw [hp.runCmd_feeds hi hd hl (by rw [poolRun_nonempty x y h0]; exact hf), poolRun_nonempty x y h0]
    rfl

/-- Settles O36: the header passes, so the crop runs over its boxes, and the cycles of that run are a function of the header and the
descriptor alone. -/
theorem tensorCropTakesItsCycles : Obligations.TensorCropTakesItsCycles := by
  intro s0 s p i n fmt x bl x3 y tok it d cmd hi hd hready h w hb hdr hl hbad h1 hc how1 how hoh1 hoh hsh hh hw l len boxes rd hf
  have hrun : insRun s p it cmd false = _ := (insRun_fma hd p fmt n x bl x3 y tok false).trans
    (cropRun_boxes x y hbad (CropHdr.refused_eq_false hc ⟨how1, how⟩ ⟨hoh1, hoh⟩ hsh) (Nat.one_le_iff_ne_zero.mp h1) hh hw)
  rw [exec_fusedMultiplyAdd_of_live _ _ _ _ _ _ _ _ _ hi.1,
    runCmd_feeds false hi ((insRefuses_of_oper tok rfl hd).trans hl) hready (by rw [hrun]; exact hf), hrun]
  rfl

end Sys2Proof
end

section
/-!
PROOFS. The fabric's timing: hop latency by probe and echo (12 R285) and the TIME_OUT pin (12 R289), as commands under a condition
that either have their effect or leave the state.
-/

namespace Sys2Proof.Machine

/-! ## Commands under a condition -/

/-- On a running device a command whose condition holds has its effect. -/
theorem whenLive_guardOn_of_true {s : State} {c : State → Bool} {f : State → State} (h : s.live = true) (hc : c s = true) :
    whenLive s (fun s => guardOn (c s) s f) = f s :=
  (whenLive_of_live _ h).trans (if_pos hc)

/-- A command whose condition does not hold leaves the state, on a running device and on any other. -/
theorem whenLive_guardOn_of_false {s : State} {c : State → Bool} {f : State → State} (hc : c s = false) :
    whenLive s (fun s => guardOn (c s) s f) = s := by
  unfold whenLive
  split
  · exact if_neg (Bool.eq_false_iff.mp hc)
  · rfl

/-! ## TIME_OUT -/

/-- TIME_OUT rises in a tick in which the Tally is a multiple of a second, which is noted. -/
theorem exec_timeOutStart_of_dvd {s : State} (h : s.live = true) (ht : second ∣ s.now) :
    exec .timeOutStart s = .next { s with power := { s.power with timeOut := true, timeOutAt := s.now } } :=
  congrArg Host.Outcome.next (whenLive_guardOn_of_true h (decide_eq_true (Nat.mod_eq_zero_of_dvd ht)))

/-- In any other tick TIME_OUT is left as it is. -/
theorem exec_timeOutStart_of_not_dvd {s : State} (ht : ¬ second ∣ s.now) : exec .timeOutStart s = .next s :=
  congrArg Host.Outcome.next (whenLive_guardOn_of_false (decide_eq_false fun h0 => ht (Nat.dvd_of_mod_eq_zero h0)))

/-- A high TIME_OUT falls when it has been high for 1,300,000 ticks. -/
theorem exec_timeOutEnd_of_le {s : State} (h : s.live = true) (hi : s.power.timeOut = true) (ht : s.power.timeOutAt + 1300000 ≤ s.now) :
    exec .timeOutEnd s = .next { s with power := { s.power with timeOut := false } } :=
  congrArg Host.Outcome.next (whenLive_guardOn_of_true h (Bool.and_eq_true_iff.mpr ⟨hi, decide_eq_true ht⟩))

/-- TIME_OUT stays as it is until 1,300,000 ticks after it rose. -/
theorem exec_timeOutEnd_of_lt {s : State} (ht : s.now < s.power.timeOutAt + 1300000) : exec .timeOutEnd s = .next s :=
  congrArg Host.Outcome.next
    (whenLive_guardOn_of_false (Bool.and_eq_false_iff.mpr (.inr (decide_eq_false (Nat.not_le_of_lt ht)))))

/-! ## Hop latency -/

/-- A port whose last probe is 2^20 ticks old, or which has none under way, sends a probe. -/
theorem exec_probe_of_due {s : State} {port : Nat} (h : s.live = true) (hp : portProbes s port = true)
    (hd : ∀ t0, (link s port).probeT0 = some t0 → t0 + 2 ^ 20 ≤ s.now) : exec (.probe port) s = .next (sendProbe s port) := by
  refine congrArg Host.Outcome.next (whenLive_guardOn_of_true h (Bool.and_eq_true_iff.mpr ⟨hp, ?_⟩))
  cases h0 : (link s port).probeT0 with
  | none => rfl
  | some t0 => exact decide_eq_true (hd t0 h0)

/-- A received probe is answered by an echo with its arrival and the present tick. -/
theorem exec_probeReceived_of_probes {s : State} {port t1 : Nat} (h : s.live = true) (hp : portProbes s port = true) (ht : t1 ≤ s.now) :
    exec (.probeReceived port t1) s = .next (sendFlits s port [{ lane := 0, body := .echo t1 s.now }] none) :=
  congrArg Host.Outcome.next (whenLive_guardOn_of_true h (Bool.and_eq_true_iff.mpr ⟨hp, decide_eq_true ht⟩))

/-- The echo of a probe under way gives the hop latency: LINK_HOP shows it up to 4,095 ticks, and above it the port goes down for
good. -/
theorem exec_echoReceived_of_probe {s : State} {port t0 : Nat} (t1 t2 t3 : Nat) (h : s.live = true) (hp : portProbes s port = true)
    (h0 : (link s port).probeT0 = some t0) :
    let hop : Int := (((t3 : Int) - t0) - ((t2 : Int) - t1) + 1) / 2
    exec (.echoReceived port t1 t2 t3) s =
      .next (if 4095 < hop then portDown s port true else setI s F.LINK_HOP port hop.toNat) := by
  refine congrArg Host.Outcome.next ((whenLive_guardOn_of_true h hp).trans ?_)
  rw [h0]

/-- A port that goes down for good is FAILED when the fabric items over it fail. -/
theorem portDown_dead (s : State) (p : Nat) :
    ∃ u cause, portDown s p true = linkFault u p cause (itemsOver s p) ∧ regI u F.LINK_STATE_STATE p = 4 := by
  refine ⟨_, _, rfl, ?_⟩
  rw [Bool.or_true, if_pos rfl]
  exact getF_putF_same (addI s F.LINK_DOWNS p 1) F.LINK_STATE_STATE p 0 0 4

/-- A port whose training succeeds sends a probe from the state it comes up in: up, or ID_CONFLICT. -/
theorem exec_linkUp_of_training {s : State} {port : Nat} (peer peerPort : Nat) (errs : List Nat) (h : s.live = true) (hp : port < 4)
    (ht : regI s F.LINK_STATE_STATE port = 1) :
    ∃ t, exec (.linkUp port peer peerPort errs true) s = .next (sendProbe t port) ∧
      (regI t F.LINK_STATE_STATE port = 2 ∨ regI t F.LINK_STATE_STATE port = 3) := by
  refine ⟨_, congrArg Host.Outcome.next
    (whenLive_guardOn_of_true h (Bool.and_eq_true_iff.mpr ⟨decide_eq_true hp, decide_eq_true ht⟩)), ?_⟩
  rw [regI_eq, setI_eq, getF_putF_same]
  split
  · exact .inr rfl
  · exact .inl rfl

end Sys2Proof.Machine

namespace Sys2Proof

open Sys2Proof.Machine

/-- Settles O55: a probe leaves when the port comes up or when the last one is 2^20 ticks old, a received one is echoed, and the echo
either shows in LINK_HOP or takes the port down for good. -/
theorem hopLatency : Obligations.HopLatency := by
  intro s port h
  refine ⟨fun peer peerPort errs => exec_linkUp_of_training peer peerPort errs h, exec_probe_of_due h, rfl,
    fun t1 => exec_probeReceived_of_probes h, ?_⟩
  intro t0 t1 t2 t3 hp h0 hop
  have he := exec_echoReceived_of_probe t1 t2 t3 h hp h0
  refine ⟨fun hle => ?_, fun hlt => ?_⟩
  · rw [he, if_neg (Int.not_lt.mpr hle)]
  · obtain ⟨u, cause, hu, hfailed⟩ := portDown_dead s port
    exact ⟨u, cause, by rw [he, if_pos hlt, hu], hfailed⟩

/-- Settles O56: TIME_OUT rises at a multiple of a second only, and falls once it has been high for 1,300,000 ticks. -/
theorem timeOut : Obligations.TimeOut := fun _ h =>
  ⟨fun ht => exec_timeOutStart_of_dvd h (Nat.dvd_of_mod_eq_zero ht),
    fun ht => exec_timeOutStart_of_not_dvd fun hd => ht (Nat.mod_eq_zero_of_dvd hd),
    exec_timeOutEnd_of_le h, exec_timeOutEnd_of_lt⟩

end Sys2Proof
end

section
/-!
PROOFS. Commits at the PCIE page's commit point (16 R396; 18 R417, R418): when the host's lone snapshot meets its point, and what a
refusal leaves.
-/

namespace Sys2Proof.Machine

/-! ## A lone snapshot at a commit point -/

/-- A page whose only pending snapshot is the other writer's has nothing to commit for this one. -/
theorem commitBy_of_other_writer {s : State} {x : Snap} {fw : Bool} (p : Nat) (frame : Bool) (hs : s.rf.snaps = [x]) (hf : x.fw ≠ fw) :
    commitBy s p fw frame = s := by
  have hnone : s.rf.snaps.find? (fun y => decide (y.page = p) && (y.fw == fw)) = none := by
    rw [hs, List.find?_singleton]
    exact if_neg fun h => hf (beq_iff_eq.mp (Bool.and_eq_true_iff.mp h).2)
  rw [commitBy, hnone]

/-- A writer's lone pending snapshot is judged at its commit point. -/
theorem commitBy_of_lone {s : State} {x : Snap} {fw frame : Bool} (hs : s.rf.snaps = [x]) (hf : x.fw = fw)
    (hp : atPoint s (goLive s x) x frame = true) : commitBy s x.page fw frame = commitOne s x := by
  have hfind : s.rf.snaps.find? (fun y => decide (y.page = x.page) && (y.fw == fw)) = some x := by
    rw [hs]
    exact List.find?_cons_of_pos (Bool.and_eq_true_iff.mpr ⟨decide_eq_true rfl, beq_iff_eq.mpr hf⟩)
  rw [commitBy, hfind]
  exact if_pos hp

/-- The commit point of a page on which only the host's snapshot waits: firmware's turn passes, then the host's snapshot is judged. -/
theorem exec_commitPoint_of_lone_host {s : State} {x : Snap} (h : s.live = true) (hs : s.rf.snaps = [x]) (hf : x.fw = false)
    (hp : atPoint s (goLive s x) x false = true) : exec (.commitPoint x.page) s = .next (commitOne s x) := by
  have hfw : commitBy s x.page true false = s := commitBy_of_other_writer x.page false hs (by simp [hf])
  have hhost : commitBy s x.page false false = commitOne s x := commitBy_of_lone hs hf hp
  refine congrArg Host.Outcome.next ((whenLive_of_live _ h).trans ?_)
  rw [commitPage, hfw, hhost]

/-- A snapshot that a check refuses is dropped, counted and reported, and nothing of it goes live. -/
theorem commitOne_of_refused {s : State} {x : Snap} {r : Nat}
    (hr : checkSnap (dropSnap s x.page x.fw) (goLive (dropSnap s x.page x.fw) x) x = r) (h0 : r ≠ 0) :
    commitOne s x = setI (setI (setI (addI (dropSnap s x.page x.fw) F.PAGE_COMMIT_STATUS_REFUSALS x.page 1) (stateFld x.fw) x.page 3)
      F.PAGE_COMMIT_STATUS_REASON x.page r) F.PAGE_COMMIT_STATUS_WHO x.page (bnat x.fw) := by
  obtain ⟨k, rfl⟩ := Nat.exists_eq_succ_of_ne_zero h0
  simp only [commitOne, hr]

/-! ## The PCIE page -/

/-- A snapshot of the PCIE page meets its commit point in every tick after the one it was taken in. -/
theorem atPoint_pcie {s : State} (c : State) {x : Snap} (frame : Bool) (hp : x.page = 13) (ht : x.at_ < s.now) :
    atPoint s c x frame = true := by
  simp [atPoint, hp, ht]

/-- The PCIE page's snapshots pass by the check of R396 alone. -/
theorem checkSnap_pcie (s c : State) {x : Snap} (hp : x.page = 13) : checkSnap s c x = checkPcie c := by
  simp [checkSnap, hp]

/-- SOURCES: the watch enabled with none of its sources. -/
theorem checkPcie_of_no_source {c : State} (hen : flag c F.PCIE_WATCH_EN = true) (hsaf : flag c F.PCIE_WATCH_SAF = false)
    (hconf : flag c F.PCIE_WATCH_CONFIRMED = false) (hlost : flag c F.PCIE_WATCH_LOST = false)
    (hevt : flag c F.PCIE_WATCH_PLAN_EVT = false) (hpin : flag c F.PCIE_WATCH_PIN = false) : checkPcie c = 57 := by
  simp [checkPcie, firstOf, hen, hsaf, hconf, hlost, hevt, hpin]

end Sys2Proof.Machine

namespace Sys2Proof

open Sys2Proof.Machine

/-- Settles O25: the lone host snapshot meets the commit point, R396's check answers SOURCES, and a refused snapshot changes the commit
status only. -/
theorem pcieCommitNeedsASource : Obligations.PcieCommitNeedsASource := by
  intro s x hlive hs hpage hfw hat ⟨hen, hsaf, hconf, hlost, hevt, hpin⟩
  have hcheck : checkSnap (dropSnap s x.page x.fw) (goLive (dropSnap s x.page x.fw) x) x = 57 := by
    rw [checkSnap_pcie _ _ hpage, hpage, hfw]
    exact checkPcie_of_no_source hen hsaf hconf hlost hevt hpin
  have hexec : exec (.commitPoint x.page) s = .next (commitOne s x) :=
    exec_commitPoint_of_lone_host hlive hs hfw (atPoint_pcie _ false hpage hat)
  rw [commitOne_of_refused hcheck (by decide), hpage, hfw] at hexec
  exact hexec

end Sys2Proof
end

section
/-!
PROOFS. The invariant, and what a step leaves of the base part: one statement about every command, read off for the queue's front, for
a tick and for reset.
-/

namespace Sys2Proof.Laws

/-- Every command of the table runs: the one case analysis over the commands. -/
theorem Runs.every (i : Sys2Proof.Instr) : Runs.Statement i :=
  match i with
  | .vddAonPowerOn sc serial testEn smbAddr => Runs.vddAonPowerOn sc serial testEn smbAddr
  | .perstNAssert => Runs.perstNAssert
  | .perstNRelease boot => Runs.perstNRelease boot
  | .clockLossReset cause => Runs.clockLossReset cause
  | .hotReset => Runs.hotReset
  | .linkDown => Runs.linkDown
  | .functionLevelReset => Runs.functionLevelReset
  | .d3hotEntry => Runs.d3hotEntry
  | .d0Return => Runs.d0Return
  | .pmeTurnOff => Runs.pmeTurnOff
  | .busMasterEnableClear => Runs.busMasterEnableClear
  | .completionReceived tag status bytes => Runs.completionReceived tag status bytes
  | .completionTimeout tag => Runs.completionTimeout tag
  | .msixUnmask vector => Runs.msixUnmask vector
  | .smbusReadTemperature sensor => Runs.smbusReadTemperature sensor
  | .smbusReadVcore => Runs.smbusReadVcore
  | .smbusReadStatus => Runs.smbusReadStatus
  | .smbusReadTrim => Runs.smbusReadTrim
  | .smbusWake => Runs.smbusWake
  | .alertResponse => Runs.alertResponse
  | .registerWrite by_ space addr size value => Runs.registerWrite by_ space addr size value
  | .loRead space addr size => Runs.loRead space addr size
  | .rcRead addr => Runs.rcRead addr
  | .intStatusClear addr value session => Runs.intStatusClear addr value session
  | .intForce page bits session => Runs.intForce page bits session
  | .errClr page session => Runs.errClr page session
  | .pageCommitHost page sel session => Runs.pageCommitHost page sel session
  | .pageCommitFw page => Runs.pageCommitFw page
  | .commitPoint page => Runs.commitPoint page
  | .ringRidxWrite ring idx => Runs.ringRidxWrite ring idx
  | .dispJournalRidxWrite idx => Runs.dispJournalRidxWrite idx
  | .relayOutRidxWrite idx => Runs.relayOutRidxWrite idx
  | .leaseRenew => Runs.leaseRenew
  | .reeveFaultClr session => Runs.reeveFaultClr session
  | .mgmtFjSelWrite n => Runs.mgmtFjSelWrite n
  | .trainingRun ch value => Runs.trainingRun ch value
  | .trainingRunDone ch mism => Runs.trainingRunDone ch mism
  | .openOp r role iface minSvn hwm hostNonce => Runs.openOp r role iface minSvn hwm hostNonce
  | .prove r => Runs.prove r
  | .challengeExpiry slot => Runs.challengeExpiry slot
  | .close r => Runs.close r
  | .provision r role ct => Runs.provision r role ct
  | .roleClear r role => Runs.roleClear r role
  | .regWrite r count writes => Runs.regWrite r count writes
  | .adopt r mask => Runs.adopt r mask
  | .reeveSet r pipe cfg age period => Runs.reeveSet r pipe cfg age period
  | .modelKey r keyId ct => Runs.modelKey r keyId ct
  | .modelKeyDelete r keyId => Runs.modelKeyDelete r keyId
  | .install r addr len img => Runs.install r addr len img
  | .installCommit => Runs.installCommit
  | .uninstall r plan => Runs.uninstall r plan
  | .unlockStream r mask => Runs.unlockStream r mask
  | .unlockTensor r plan output count => Runs.unlockTensor r plan output count
  | .embRead r slot first count => Runs.embRead r slot first count
  | .lock r mask plan => Runs.lock r mask plan
  | .lockAck r => Runs.lockAck r
  | .attest r nonce => Runs.attest r nonce
  | .getCert r part => Runs.getCert r part
  | .fwUpdate r addr len img => Runs.fwUpdate r addr len img
  | .repairAuth r ch row => Runs.repairAuth r ch row
  | .recover r => Runs.recover r
  | .testMode r on => Runs.testMode r on
  | .placementEdit r edits => Runs.placementEdit r edits
  | .jtagUnlock r => Runs.jtagUnlock r
  | .locksmithZeroise => Runs.locksmithZeroise
  | .keysReloaded => Runs.keysReloaded
  | .intakePoll => Runs.intakePoll
  | .descriptorRead slot => Runs.descriptorRead slot
  | .auCopyDone slot => Runs.auCopyDone slot
  | .pictureDecodeStart claims => Runs.pictureDecodeStart claims
  | .decodeComplete core d => Runs.decodeComplete core d
  | .decodeBudgetExpiry core => Runs.decodeBudgetExpiry core
  | .frameStart port => Runs.frameStart port
  | .csiPacket port pkt => Runs.csiPacket port pkt
  | .frameEnd port => Runs.frameEnd port
  | .frameEndTimeout port => Runs.frameEndTimeout port
  | .recordItem slot => Runs.recordItem slot
  | .scalerStageStart item stage => Runs.scalerStageStart item stage
  | .scalerStageDone => Runs.scalerStageDone
  | .sickleStageStart unit item stage => Runs.sickleStageStart unit item stage
  | .sickleGranuleRead unit => Runs.sickleGranuleRead unit
  | .sickleBoxStart unit => Runs.sickleBoxStart unit
  | .sickleBoxEnd unit => Runs.sickleBoxEnd unit
  | .pack item stage samples => Runs.pack item stage samples
  | .encoderPictureTake enc slot src => Runs.encoderPictureTake enc slot src
  | .encodeSliceDone enc => Runs.encodeSliceDone enc
  | .encodePictureDone enc => Runs.encodePictureDone enc
  | .ledgerPoll => Runs.ledgerPoll
  | .ledgerEntryArrival => Runs.ledgerEntryArrival
  | .pinnedLaunchDecision item => Runs.pinnedLaunchDecision item
  | .pinnedLaunch item => Runs.pinnedLaunch item
  | .pooledPlacement => Runs.pooledPlacement
  | .eviction => Runs.eviction
  | .deadlineRefusal item => Runs.deadlineRefusal item
  | .preemptionArrival core => Runs.preemptionArrival core
  | .contextSave core => Runs.contextSave core
  | .contextSaveLanded core => Runs.contextSaveLanded core
  | .contextMove ctx => Runs.contextMove ctx
  | .contextMoveDone ctx => Runs.contextMoveDone ctx
  | .contextRestore item => Runs.contextRestore item
  | .creditReturnTimeout core => Runs.creditReturnTimeout core
  | .leaseExpiry => Runs.leaseExpiry
  | .autonomousRepeat plan offset => Runs.autonomousRepeat plan offset
  | .ld core g d bytes tok => Runs.ld core g d bytes tok
  | .st core x g bytes tok => Runs.st core x g bytes tok
  | .ldw core g x bytes tag tok => Runs.ldw core g x bytes tag tok
  | .cb core x tok => Runs.cb core x tok
  | .mm core op tok residueErr => Runs.mm core op tok residueErr
  | .relu core fmt n x y tok => Runs.relu core fmt n x y tok
  | .clip core fmt n lo hi x y tok => Runs.clip core fmt n lo hi x y tok
  | .requantise core src n x scl y om tok => Runs.requantise core src n x scl y om tok
  | .tableFunction core n p x y tok => Runs.tableFunction core n p x y tok
  | .maxAbs core fmt n x y tok => Runs.maxAbs core fmt n x y tok
  | .softmax core n src scale dst x y tok => Runs.softmax core n src scale dst x y tok
  | .layerNormalisation core n eps x gamma beta y tok => Runs.layerNormalisation core n eps x gamma beta y tok
  | .boxDecoding core p anchors scores regs y tok => Runs.boxDecoding core p anchors scores regs y tok
  | .add core fmt psum n x1 x2 y opr tok => Runs.add core fmt psum n x1 x2 y opr tok
  | .multiply core fmt n x1 x2 y tok => Runs.multiply core fmt n x1 x2 y tok
  | .fusedMultiplyAdd core fmt n x1 x2 x3 y opr tok => Runs.fusedMultiplyAdd core fmt n x1 x2 x3 y opr tok
  | .min core fmt n x1 x2 y tok => Runs.min core fmt n x1 x2 y tok
  | .max core fmt n x1 x2 y opr tok => Runs.max core fmt n x1 x2 y opr tok
  | .convert core src dst n x y om tok => Runs.convert core src dst n x y om tok
  | .derive core fmt sStage clip int16 x y tok => Runs.derive core fmt sStage clip int16 x y tok
  | .biasq core n sa sw b y tok => Runs.biasq core n sa sw b y tok
  | .reg core bin r base len circ tok => Runs.reg core bin r base len circ tok
  | .loop core n strides tok => Runs.loop core n strides tok
  | .endl core tok => Runs.endl core tok
  | .wait core w tok => Runs.wait core w tok
  | .sig core n tok => Runs.sig core n tok
  | .bnd core live tok => Runs.bnd core live tok
  | .endOp core tok => Runs.endOp core tok
  | .trackStepStart => Runs.trackStepStart
  | .embWaitExpiry slot => Runs.embWaitExpiry slot
  | .trackStepEnd slot => Runs.trackStepEnd slot
  | .recordWrite => Runs.recordWrite
  | .ringIrqTimer ring => Runs.ringIrqTimer ring
  | .scrubSlot clu => Runs.scrubSlot clu
  | .bankDrainEnd clu bank => Runs.bankDrainEnd clu bank
  | .bankZeroFillDone clu bank => Runs.bankZeroFillDone clu bank
  | .domainUsable dom => Runs.domainUsable dom
  | .cooperAllocation owner bytes mask => Runs.cooperAllocation owner bytes mask
  | .cooperFree handle => Runs.cooperFree handle
  | .cooperRefill pool => Runs.cooperRefill pool
  | .listLinkRead pool => Runs.listLinkRead pool
  | .hbmRequest req => Runs.hbmRequest req
  | .hbmReadData pch id => Runs.hbmReadData pch id
  | .refresh pch => Runs.refresh pch
  | .stackTemperatureRead deg => Runs.stackTemperatureRead deg
  | .hbmPatrolRead pch => Runs.hbmPatrolRead pch
  | .powerDownEntry ch => Runs.powerDownEntry ch
  | .repairDone ch ok => Runs.repairDone ch ok
  | .probe port => Runs.probe port
  | .probeReceived port t1 => Runs.probeReceived port t1
  | .echoReceived port t1 t2 t3 => Runs.echoReceived port t1 t2 t3
  | .marker => Runs.marker
  | .markerReceived port value => Runs.markerReceived port value
  | .markerAbsent => Runs.markerAbsent
  | .timeInEdge => Runs.timeInEdge
  | .timeInAbsent => Runs.timeInAbsent
  | .timeOutStart => Runs.timeOutStart
  | .timeOutEnd => Runs.timeOutEnd
  | .flitReceived port f => Runs.flitReceived port f
  | .nakReceived port seq => Runs.nakReceived port seq
  | .linkUp port peer peerPort laneErrs ok => Runs.linkUp port peer peerPort laneErrs ok
  | .creditReturn port lane n => Runs.creditReturn port lane n
  | .transferUnitStart item entry => Runs.transferUnitStart item entry
  | .unitLanded item entry => Runs.unitLanded item entry
  | .dueTick item entry => Runs.dueTick item entry
  | .slackExpiry item entry => Runs.slackExpiry item entry
  | .relayUnitLanded u => Runs.relayUnitLanded u
  | .faultReport f => Runs.faultReport f
  | .spareResetCheckDone clu ok => Runs.spareResetCheckDone clu ok
  | .periodBreach pipe => Runs.periodBreach pipe
  | .divergence pair => Runs.divergence pair
  | .watchdogExpiry pair => Runs.watchdogExpiry pair
  | .pairRestartDone pair => Runs.pairRestartDone pair
  | .bothPairsResetTimeout => Runs.bothPairsResetTimeout
  | .faultJournalWrite => Runs.faultJournalWrite
  | .dumWrite kind unit sub value => Runs.dumWrite kind unit sub value
  | .winnowSegmentStart g => Runs.winnowSegmentStart g
  | .winnowSegmentEnd unitKind unit pass_ => Runs.winnowSegmentEnd unitKind unit pass_
  | .testOverrun unitKind unit => Runs.testOverrun unitKind unit
  | .goldenWindowCutoff item => Runs.goldenWindowCutoff item
  | .handoverStart clu core => Runs.handoverStart clu core
  | .handoverSubstitution clu => Runs.handoverSubstitution clu
  | .coreTestDone core pass_ age => Runs.coreTestDone core pass_ age
  | .latentOverdue seg unitKind unit => Runs.latentOverdue seg unitKind unit
  | .flashPatrol block page bits => Runs.flashPatrol block page bits
  | .wearLevelMove part => Runs.wearLevelMove part
  | .thermalConversion degs => Runs.thermalConversion degs
  | .unlistedCommand r code => Runs.unlistedCommand r code
  | .flashOperationDone ok => Runs.flashOperationDone ok
  | .pcieLinkUp speed width => Runs.pcieLinkUp speed width
  | .busMasterEnableSet => Runs.busMasterEnableSet
  | .pmeStatusClear => Runs.pmeStatusClear
  | .spareBankCopyStart clu bank => Runs.spareBankCopyStart clu bank
  | .deferredDomainSwitchOn => Runs.deferredDomainSwitchOn
  | .selfRefreshExitDone => Runs.selfRefreshExitDone
  | .tapInstruction ir dr => Runs.tapInstruction ir dr
  | .vddAonPowerLoss => Runs.vddAonPowerLoss
  | .entropyHealthTest pass_ => Runs.entropyHealthTest pass_
end Sys2Proof.Laws

namespace Sys2Proof.Machine

/-! ## The invariant as a property of the base part -/

/-- The base domain runs: the rails and resets of the base part say so. -/
def Base.live (b : Base) : Bool := b.vddAon && !b.perst && !b.clkHold

/-- The Tally counts exactly while the base domain runs, and a waiting step of a multiple of 13 exists only then. -/
def Base.Ok (b : Base) : Prop := b.tallyRun = b.live ∧ ∀ d, b.step = some d → 13 ∣ d ∧ b.live = true

/-- The invariant says two things: the memories are canonical, and the base part is in order. -/
theorem State.inv_iff (s : State) : s.Inv ↔ s.Canon ∧ s.base.Ok := Iff.rfl

/-- A base part that does not run is in order when nothing of it counts or waits. -/
theorem Base.Ok.of_stopped {b : Base} (hr : b.tallyRun = false) (hl : b.live = false) (hs : b.step = none) : b.Ok :=
  ⟨hr.trans hl.symm, fun _ h => nomatch hs.symm.trans h⟩

/-- Nothing waits in a base part in order that does not run. -/
theorem Base.Ok.step_none {b : Base} (h : b.Ok) (hl : b.live = false) : b.step = none := by
  cases hs : b.step with
  | none => rfl
  | some d => exact absurd (h.2 d hs).2 (by simp [hl])

/-- What lies in the queue, the time, and the part's identity play no part. -/
theorem Base.Ok.congr {a b : Base} (h : a.Ok) (hr : b.tallyRun = a.tallyRun) (hl : b.live = a.live) (hs : b.step = a.step) : b.Ok := by
  unfold Base.Ok
  rw [hr, hl, hs]
  exact h

/-! ## The commands that change the base part -/

theorem base_live (s : State) : s.base.live = s.live := rfl

theorem powerOn_keeps_ok {s t : State} {sc testEn : Bool} {serial smbAddr : Nat}
    (h : exec (.vddAonPowerOn sc serial testEn smbAddr) s = .next t) (ok : s.base.Ok) : t.base.Ok := by
  obtain ⟨u, hu, _, hb⟩ := execVddAonPowerOn_runs sc serial testEn smbAddr s
  obtain rfl : t = u := Host.Outcome.next.inj (h.symm.trans hu)
  rw [hb]
  cases hv : s.power.vddAon with
  | true => exact ok
  | false =>
    have hl : s.base.live = false := by simp [base_live, State.live, hv]
    exact .of_stopped (ok.1.trans hl) rfl (ok.step_none hl)

theorem powerLoss_keeps_ok {s t : State} (h : exec .vddAonPowerLoss s = .next t) (ok : s.base.Ok) : t.base.Ok := by
  obtain ⟨u, hu, _, hb⟩ := execVddAonPowerLoss_runs s
  obtain rfl : t = u := Host.Outcome.next.inj (h.symm.trans hu)
  rw [hb]
  split
  · exact .of_stopped rfl rfl rfl
  · exact ok

theorem perstAssert_keeps_ok {s t : State} (h : exec .perstNAssert s = .next t) (ok : s.base.Ok) : t.base.Ok := by
  obtain ⟨u, hu, _, hb⟩ := execPerstNAssert_runs s
  obtain rfl : t = u := Host.Outcome.next.inj (h.symm.trans hu)
  rw [hb]
  split
  · exact .of_stopped rfl rfl rfl
  · exact ok

theorem perstRelease_keeps_ok {s t : State} {boot : BootIn} (h : exec (.perstNRelease boot) s = .next t) (ok : s.base.Ok) :
    t.base.Ok := by
  obtain ⟨u, hu, _, hb⟩ := execPerstNRelease_runs boot s
  obtain rfl : t = u := Host.Outcome.next.inj (h.symm.trans hu)
  rw [hb]
  split
  · next hc =>
    obtain ⟨hv, hp⟩ := Bool.and_eq_true_iff.mp hc
    have hl : s.base.live = false := by simp [base_live, State.live, hp]
    have hs : s.fab.step = none := ok.step_none hl
    exact ⟨by simp [Base.live, hv], fun _ h => nomatch hs.symm.trans h⟩
  · exact ok

theorem clockLoss_keeps_ok {s t : State} {cause : Nat} (h : exec (.clockLossReset cause) s = .next t) (ok : s.base.Ok) :
    t.base.Ok := by
  obtain ⟨u, hu, _, hb⟩ := execClockLossReset_runs cause s
  obtain rfl : t = u := Host.Outcome.next.inj (h.symm.trans hu)
  rw [hb]
  split
  · exact .of_stopped rfl rfl rfl
  · exact ok

/-- On a running device a marker or an edge leaves at most a waiting step of a multiple of 13. -/
theorem StepsBy13.keeps_ok {s t : State} (k : StepsBy13 s t) (hl : s.live = true) (ok : s.base.Ok) : t.base.Ok := by
  obtain hb | ⟨d, hd, hb⟩ := k.2
  · rw [hb]
    exact ok
  · rw [hb]
    exact ⟨ok.1, fun e he => Option.some.inj he ▸ ⟨hd, hl⟩⟩

theorem markerReceived_keeps_ok {s t : State} {port value : Nat} (h : exec (.markerReceived port value) s = .next t)
    (ok : s.base.Ok) : t.base.Ok := by
  cases hl : s.live with
  | true =>
    obtain ⟨u, hu, k⟩ := execMarkerReceived_runs port value s
    obtain rfl : t = u := Host.Outcome.next.inj (h.symm.trans hu)
    exact k.keeps_ok hl ok
  | false =>
    obtain rfl : t = s := (Host.Outcome.next.inj h).symm.trans (if_neg (by simp [hl]))
    exact ok

theorem timeInEdge_keeps_ok {s t : State} (h : exec .timeInEdge s = .next t) (ok : s.base.Ok) : t.base.Ok := by
  cases hl : s.live with
  | true =>
    obtain ⟨u, hu, k⟩ := execTimeInEdge_runs s
    obtain rfl : t = u := Host.Outcome.next.inj (h.symm.trans hu)
    exact k.keeps_ok hl ok
  | false =>
    obtain rfl : t = s := (Host.Outcome.next.inj h).symm.trans (if_neg (by simp [hl]))
    exact ok

/-! ## Every command and every tick -/

/-- A command that answers leaves canonical memories canonical, and changes the base part only if it is one of the seven that may. -/
theorem exec_keeps {c : Instr} {s t : State} (h : exec c s = .next t) :
    (s.Canon → t.Canon) ∧ (c.changesBase = false → t.base = s.base) := by
  obtain ⟨u, hu, hc, hb⟩ | ⟨hr, _⟩ := Laws.Runs.every c s
  · obtain rfl : t = u := Host.Outcome.next.inj (h.symm.trans hu)
    exact ⟨hc, hb⟩
  · exact nomatch h.symm.trans hr

/-- Every command keeps the base part in order. -/
theorem exec_keeps_ok {c : Instr} {s t : State} (h : exec c s = .next t) (ok : s.base.Ok) : t.base.Ok := by
  cases hc : c.changesBase with
  | false =>
    rw [(exec_keeps h).2 hc]
    exact ok
  | true =>
    cases c with
    | vddAonPowerOn => exact powerOn_keeps_ok h ok
    | vddAonPowerLoss => exact powerLoss_keeps_ok h ok
    | perstNAssert => exact perstAssert_keeps_ok h ok
    | perstNRelease => exact perstRelease_keeps_ok h ok
    | clockLossReset => exact clockLoss_keeps_ok h ok
    | markerReceived => exact markerReceived_keeps_ok h ok
    | timeInEdge => exact timeInEdge_keeps_ok h ok
    | _ => cases hc

/-- A tick keeps the base part in order: it only counts, or makes the step that waits. -/
theorem tick_keeps_ok (s : State) (ok : s.base.Ok) : (tick s).base.Ok := by
  rw [(tick_keeps s).2]
  split
  · split
    · next d _ =>
      split
      · exact ⟨ok.1, fun _ he => nomatch he⟩
      · exact ok.congr rfl rfl rfl
    · exact ok.congr rfl rfl rfl
  · exact ok

/-- A step on an empty queue is a tick. -/
theorem step_of_empty {s : State} (h : s.pending = []) : step s = .next (tick s) := by
  unfold step
  rw [h]

/-- A step takes the front command off the queue and runs it. -/
theorem step_of_cons {s : State} {c : Instr} {rest : List Instr} (h : s.pending = c :: rest) :
    step s = exec c { s with pending := rest } := by
  unfold step
  rw [h]

end Sys2Proof.Machine

namespace Sys2Proof

open Sys2Proof.Machine

/-- Settles O1: the queue's front decides what a step is. -/
theorem stepRunsFront : Obligations.StepRunsFront := fun _ _ _ => step_of_cons rfl

/-- Settles O4: the memories at reset are empty, and the base part does not run. -/
theorem resetInv : Obligations.ResetInv :=
  (State.inv_iff _).mpr ⟨reset_canon, .of_stopped rfl rfl rfl⟩

/-- Settles O5: the memories and the base part are kept apart, each by every command and by a tick; the queue plays no part in either. -/
theorem stepInv : Obligations.StepInv := by
  intro s t hs h
  obtain ⟨canon, ok⟩ := (State.inv_iff s).mp hs
  refine (State.inv_iff t).mpr ?_
  cases hp : s.pending with
  | nil =>
    obtain rfl : tick s = t := Host.Outcome.next.inj ((step_of_empty hp).symm.trans h)
    exact ⟨(tick_keeps s).1 canon, tick_keeps_ok s ok⟩
  | cons c rest =>
    have he : exec c { s with pending := rest } = .next t := (step_of_cons hp).symm.trans h
    exact ⟨(exec_keeps he).1 canon, exec_keeps_ok he (ok.congr rfl rfl rfl)⟩

/-- Settles O6: the step is the front command's run, and that one is not among the seven. -/
theorem onlyTheseTouchTheBase : Obligations.OnlyTheseTouchTheBase := by
  intro c rest s t hc h
  rw [stepRunsFront] at h
  exact (exec_keeps h).2 hc

/-- Settles O7, by what a marker and an edge leave. -/
theorem markersAndEdgesStepBy13 : Obligations.MarkersAndEdgesStepBy13 := by
  refine ⟨fun port value s => ?_, fun s => ?_⟩
  · obtain ⟨t, ht, k⟩ := execMarkerReceived_runs port value s
    exact ⟨t, ht, k.2⟩
  · obtain ⟨t, ht, k⟩ := execTimeInEdge_runs s
    exact ⟨t, ht, k.2⟩

/-- Settles O8: what every command does, without what it keeps. -/
theorem everyCommandAnswers : Obligations.EveryCommandAnswers := by
  intro c s
  obtain ⟨t, ht, _⟩ | h := Laws.Runs.every c s
  · exact .inl ⟨t, ht⟩
  · exact .inr h

end Sys2Proof
end

section
/-!
PROOFS. Memories, the register file and a tick: what a write leaves, what reset holds, and a tick of a device at rest.
-/

namespace Sys2Proof.Machine

/-! ## Places of the register file -/

/-- Two places of the register file that differ in page, field, selector value or element are two places. -/
theorem key_ne {f g : Fld} {i k x j l y : Nat} (hf : f.id < 1024) (hg : g.id < 1024) (hk : k < 1024) (hl : l < 1024) (hx : x < 128)
    (hy : y < 128) (h : f.base + i ≠ g.base + j ∨ f.id ≠ g.id ∨ k ≠ l ∨ x ≠ y) : g.key j l y ≠ f.key i k x := by
  intro he
  obtain ⟨h1, h2, h3, h4⟩ := key_inj f g i k x j l y hf hg hk hl hx hy he.symm
  exact h.elim (· h1) fun h => h.elim (· h2) fun h => h.elim (· h3) (· h4)

/-- A register file that lists nothing reads its reset values. -/
theorem getF_of_unlisted {s : State} (h : s.rf.live = []) (f : Fld) (i k x : Nat) : getF s f i k x = f.reset i x := by
  unfold getF
  rw [h]
  exact Nat.zero_xor _

theorem getSh_of_unlisted {s : State} (h : s.rf.shadow = []) (f : Fld) (i k x : Nat) : getSh s f i k x = f.reset i x := by
  unfold getSh
  rw [h]
  exact Nat.zero_xor _

/-! ## A tick of a device at rest -/

/-- Nothing in flight on a core: no core is pumped. -/
theorem pumpFlights_of_rest {s : State} (h : s.cores.all (fun e => e.2.flights.all (fun f => f.2.isNone)) = true) : pumpFlights s = s := by
  have hf : s.cores.filter (fun e => e.2.flights.any (fun f => f.2.isSome)) = [] := by
    refine List.filter_eq_nil_iff.mpr fun e he => ?_
    have hn := List.all_eq_true.mp (List.all_eq_true.mp h e he)
    simp only [List.any_eq_true, not_exists, not_and]
    intro f hmem hs
    simp [Option.isNone_iff_eq_none.mp (hn f hmem)] at hs
  unfold pumpFlights
  rw [hf]
  rfl

/-- No write-back that waits in a cluster: none enters a queue. -/
theorem enterAll_of_rest {s : State} (h : s.clus.all (fun e => e.2.wbIn.isEmpty) = true) : enterAll s = s := by
  have hf : s.clus.filter (fun e => !e.2.wbIn.isEmpty) = [] :=
    List.filter_eq_nil_iff.mpr fun e he => by simp [List.all_eq_true.mp h e he]
  unfold enterAll
  rw [hf]
  rfl

/-- Nothing on its way to HBM and no write-back: the controller has nothing to do. -/
theorem hbmTick_of_rest {s : State} (hf : s.hbm.flying = []) (hw : s.hbm.wbq = []) : hbmTick s = s := by
  unfold hbmTick
  simp [hf, hw]

/-- What a tick of a running device comes to before a waiting step: at rest, one more on the Tally. -/
theorem tick_of_rest {s : State} (hr : s.tallyRun = true) (h : s.atRest = true) :
    tick s = match s.fab.step with
      | some d => if (s.tally + 1).toNat % 13 = 0 then stepTally { s with tally := s.tally + 1 } d else { s with tally := s.tally + 1 }
      | none => { s with tally := s.tally + 1 } := by
  unfold State.atRest at h
  simp only [Bool.and_eq_true, List.isEmpty_iff] at h
  obtain ⟨⟨⟨⟨hcores, hports⟩, hflying⟩, hwbq⟩, hclus⟩ := h
  have hp : portsTick (pumpFlights s) = s := by
    rw [pumpFlights_of_rest hcores]
    unfold portsTick
    simp [hports]
  have he : enterAll { s with tally := s.tally + 1 } = { s with tally := s.tally + 1 } := enterAll_of_rest hclus
  have ht : hbmTick { s with tally := s.tally + 1 } = { s with tally := s.tally + 1 } := hbmTick_of_rest hflying hwbq
  unfold tick
  rw [if_pos hr, hp]
  simp only [he, ht]
  rfl

/-- A step that completes an alignment shows ALIGNED and clears ALIGN. -/
theorem stepTally_aligns {s : State} (h : s.fab.stepAligns = true) (d : Int) :
    reg (stepTally s d) F.TALLY_STATE_STATE = 2 ∧ reg (stepTally s d) F.TALLY_CTRL_ALIGN = 0 := by
  unfold stepTally
  simp only [h, if_true]
  refine ⟨getF_putF_same _ F.TALLY_STATE_STATE 0 0 0 2, ?_⟩
  rw [reg_eq, setR_eq, getF_putF_other _ _ _ _ _ _ _ _ _ _ (by decide)]
  exact getF_putF_same _ F.TALLY_CTRL_ALIGN 0 0 0 0

end Sys2Proof.Machine

namespace Sys2Proof

open Sys2Proof.Machine

/-- Settles O2: an empty queue leaves a tick, whose base part is known in every case, and which at rest does nothing else. -/
theorem idleTick : Obligations.IdleTick := by
  intro s hp
  have hstep : step s = .next (tick s) := step_of_empty hp
  have hbase := (tick_keeps s).2
  refine ⟨fun hr => ?_, fun hr hn => ⟨tick s, hstep, ?_⟩, fun d hr hd h13 => ⟨tick s, hstep, ?_⟩,
    fun d hr hd h13 => ⟨tick s, hstep, ?_⟩, fun hr hrest hno => ?_, fun d hr hrest hd h13 ha => ⟨tick s, hstep, ?_⟩⟩
  · rw [hstep, tick, if_neg (by simp [hr])]
  · rw [hbase, if_pos hr, hn]
  · rw [hbase, if_pos hr, hd]
    exact if_neg h13
  · rw [hbase, if_pos hr, hd]
    exact if_pos h13
  · rw [hstep, tick_of_rest hr hrest]
    cases hd : s.fab.step with
    | none => rfl
    | some d =>
      have h13 : (s.tally + 1).toNat % 13 ≠ 0 := hno.resolve_left (by simp [hd])
      exact congrArg Host.Outcome.next (if_neg h13)
  · rw [tick_of_rest hr hrest, hd]
    simp only [h13, if_true]
    exact stepTally_aligns (s := { s with tally := s.tally + 1 }) ha d

/-- Settles O3: every memory and table is empty, so every field reads its reset value. -/
theorem resetState : Obligations.ResetState :=
  ⟨rfl, rfl, rfl, rfl, rfl, rfl, rfl, rfl, rfl, rfl, rfl, rfl, rfl, fun f i k x =>
    ⟨getF_of_unlisted rfl f i k x, getSh_of_unlisted rfl f i k x⟩⟩

/-- Settles O9: live values and shadows are two tables, and two places have two keys. -/
theorem registerReadAfterWrite : Obligations.RegisterReadAfterWrite := by
  intro s f g i k x v j l y
  refine ⟨getF_putF_same s f i k x v, rfl, getSh_putSh_same s f i k x v, rfl, fun hf hg hk hl hx hy hne => ?_⟩
  have hkey := key_ne hf hg hk hl hx hy hne
  exact ⟨getF_putF_other s f g i k x v j l y hkey, getSh_putSh_other s f g i k x v j l y hkey⟩

/-- Settles O10: the codewords a write touches are those of its range, and no other. -/
theorem memoryReadAfterWrite : Obligations.MemoryReadAfterWrite := by
  intro m a b
  refine ⟨m.read_write a b, fun x hx => ⟨m.byte_write_out a b x (.inr hx), ?_⟩, fun w h0 hlo hhi => ?_, m.write_wf a b⟩
  · rw [Mem.pat_write, if_neg]
    omega
  · rw [Mem.pat_write, if_pos ⟨h0, hlo, hhi⟩]

/-- Settles O11: bytes and patterns are two canonical tables. -/
theorem canonicalMemoriesAreEqual : Obligations.CanonicalMemoriesAreEqual := by
  intro m n hm hn hdata hpat
  obtain ⟨hmd, hme⟩ := m.wf_iff.mp hm
  obtain ⟨hnd, hne⟩ := n.wf_iff.mp hn
  obtain ⟨md, me⟩ := m
  obtain ⟨nd, ne⟩ := n
  obtain rfl := twf_ext 0 md nd hmd hnd hdata
  obtain rfl := twf_ext 0 me ne hme hne hpat
  rfl

end Sys2Proof
end

section
/-!
PROOFS. Power-on and the reset pins, the SMBus target, the TAP, the temperatures, and the host-owned fields that a reset returns.
-/

namespace Sys2Proof.Machine

/-! ## Fundamental resets -/

/-- The grade's levels are registers: nothing else of the state depends on them. -/
theorem gradeLevels_rf (s : State) : ∃ rf, gradeLevels s = { s with rf := rf } := by
  unfold gradeLevels
  split
  · exact ⟨_, rfl⟩
  · exact ⟨s.rf, rfl⟩

/-- What a fundamental reset leaves beside the register file: the queue, the part's identity, what the device has sent, and what is
not volatile. -/
theorem fundamental_rf (s : State) (aon : Bool) (p : PowerS) : ∃ rf, fundamental s aon p =
    { pending := s.pending, freeCtr := s.freeCtr, gradeSC := s.gradeSC, serial := s.serial, rf := rf, power := p,
      pcie := { out := s.pcie.out }, hbm := { spareRows := s.hbm.spareRows },
      sec := { flashRole := s.sec.flashRole, flashModel := s.sec.flashModel, lostRoles := s.sec.lostRoles },
      mgmt := s.mgmt.stored (roundNow s), flash := s.flash } :=
  gradeLevels_rf _

/-! ## Places of the field table -/

/-- The fields of the table are numbered in order. -/
theorem allFields_ids : allFields.map Fld.id = List.range 611 := by decide +kernel

/-- A field's number is its place in the table. -/
theorem allFields_getElem_id {i : Nat} (h : i < allFields.length) : allFields[i].id = i := by
  have hmap : (allFields.map Fld.id)[i]'(by rw [List.length_map]; exact h) = i := by
    simp only [allFields_ids, List.getElem_range]
  rw [List.getElem_map] at hmap
  exact hmap

/-- A field of the table is known by its number. -/
theorem eq_of_id {f g : Fld} (hf : f ∈ allFields) (hg : g ∈ allFields) (h : f.id = g.id) : f = g := by
  obtain ⟨i, hi, rfl⟩ := List.mem_iff_getElem.mp hf
  obtain ⟨j, hj, rfl⟩ := List.mem_iff_getElem.mp hg
  rw [allFields_getElem_id hi, allFields_getElem_id hj] at h
  subst h
  rfl

theorem id_lt_of_mem {f : Fld} (hf : f ∈ allFields) : f.id < 1024 := by
  have h : f.id ∈ List.range 611 := allFields_ids ▸ List.mem_map_of_mem hf
  have := List.mem_range.mp h
  omega

/-- A key tells its field's number. -/
theorem keyId_key {f : Fld} {i k x : Nat} (hf : f.id < 1024) (hk : k < 1024) (hx : x < 128) : keyId (f.key i k x) = f.id := by
  unfold keyId Fld.key
  omega

/-- A key tells its page. -/
theorem keyPage_key {f : Fld} {i k x : Nat} (hf : f.id < 1024) (hk : k < 1024) (hx : x < 128) : keyPage (f.key i k x) = f.base + i := by
  unfold keyPage Fld.key
  split <;> omega

/-! ## The host's fields after a reset -/

/-- Keeping some entries leaves the others at the default. -/
theorem tget_tfilter {α : Type} (d : α) (p : Nat → Bool) (m : Tbl α) (i : Nat) :
    tget d (tfilter p m) i = if p i then tget d m i else d := by
  induction m with
  | nil => simp [tfilter, tget]
  | cons e r ih =>
    obtain ⟨k, v⟩ := e
    unfold tfilter at ih ⊢
    rw [List.filter_cons]
    by_cases hki : k = i
    · subst hki
      cases hp : p k
      · simpa [hp] using ih
      · simp [tget]
    · cases hp : p k <;> simp [tget, hki, ih]

/-- The key of a field of the table is that of a host-owned field to be reset exactly when the field is one. -/
theorem resetKey_key {f : Fld} {i k x : Nat} (hf : f ∈ allFields) (hk : k < 1024) (hx : x < 128) :
    resetKey (f.key i k x) = resetField f (f.base + i) := by
  have hid := id_lt_of_mem hf
  unfold resetKey
  rw [keyId_key hid hk hx, keyPage_key hid hk hx]
  cases h : resetField f (f.base + i) with
  | true => exact List.any_eq_true.mpr ⟨f, hf, by simp [h]⟩
  | false =>
    refine Bool.eq_false_iff.mpr fun ha => ?_
    obtain ⟨g, hg, hgf⟩ := List.any_eq_true.mp ha
    obtain ⟨hgi, hgr⟩ := Bool.and_eq_true_iff.mp hgf
    obtain rfl := eq_of_id hg hf (of_decide_eq_true hgi)
    exact Bool.false_ne_true (h.symm.trans hgr)

/-- Clearing one page's field after another leaves every other field, live and staged. -/
theorem getF_foldl_setI {f : Fld} {i k x : Nat} (g : Fld) (v : Nat) (pages : List Snap)
    (h : ∀ p, f.key i k x ≠ g.key p 0 0) (t : State) :
    getF (pages.foldl (fun t y => setI t g y.page v) t) f i k x = getF t f i k x ∧
      getSh (pages.foldl (fun t y => setI t g y.page v) t) f i k x = getSh t f i k x := by
  induction pages generalizing t with
  | nil => exact ⟨rfl, rfl⟩
  | cons y ys ih =>
    obtain ⟨hl, hs⟩ := ih (setI t g y.page v)
    exact ⟨hl.trans (getF_putF_other _ _ _ _ _ _ _ _ _ _ (h y.page)), hs⟩

/-- A field of the table after the reset part, but for the host's commit state: the fields to be reset read their reset value, the
others as before. -/
theorem getF_resetHostFields (s : State) {f : Fld} {i k x : Nat} (hf : f ∈ allFields) (hk : k < 1024) (hx : x < 128)
    (hc : f.id ≠ (stateFld false).id) :
    getF (resetHostFields s) f i k x = (if resetField f (f.base + i) then f.reset i x else getF s f i k x) ∧
      getSh (resetHostFields s) f i k x = (if resetField f (f.base + i) then f.reset i x else getSh s f i k x) := by
  have hid := id_lt_of_mem hf
  have hkey : ∀ p, f.key i k x ≠ (stateFld false).key p 0 0 := fun p he =>
    hc (((keyId_key hid hk hx).symm.trans (congrArg keyId he)).trans (keyId_key (by decide) (by decide) (by decide)))
  unfold resetHostFields
  obtain ⟨hl, hs⟩ := getF_foldl_setI (stateFld false) 0 (s.rf.snaps.filter (fun x => !x.fw)) hkey
    { s with rf := { s.rf with
      live := tfilter (fun k => !resetKey k) s.rf.live
      shadow := tfilter (fun k => !resetKey k) s.rf.shadow
      snaps := s.rf.snaps.filter (fun x => x.fw) } }
  refine ⟨hl.trans ?_, hs.trans ?_⟩
  · unfold getF
    simp only [tget_tfilter, resetKey_key hf hk hx]
    cases resetField f (f.base + i) <;> simp
  · unfold getSh
    simp only [tget_tfilter, resetKey_key hf hk hx]
    cases resetField f (f.base + i) <;> simp

/-- The commit state of the host is the device's own field: no reset of the host's fields is meant for it. -/
theorem resetField_hostState (p : Nat) : resetField (stateFld false) p = false := rfl

/-! ## The TAP -/

/-- An instruction that shifts out unstated bits draws one free value for each. -/
theorem shiftFree_eq (s : State) (n : Nat) :
    (shiftFree s n).1 = { s with freeCtr := s.freeCtr + n } ∧ (shiftFree s n).2.length = n := by
  have h : ∀ (l : List Nat) (a : State × List Bool),
      (l.foldl (fun (a : State × List Bool) _ => ((fresh a.1).2, a.2 ++ [(fresh a.1).1.testBit 0])) a).1 =
          { a.1 with freeCtr := a.1.freeCtr + l.length } ∧
        (l.foldl (fun (a : State × List Bool) _ => ((fresh a.1).2, a.2 ++ [(fresh a.1).1.testBit 0])) a).2.length =
          a.2.length + l.length := by
    intro l
    induction l with
    | nil => exact fun a => ⟨rfl, rfl⟩
    | cons y ys ih =>
      intro a
      obtain ⟨h1, h2⟩ := ih ((fresh a.1).2, a.2 ++ [(fresh a.1).1.testBit 0])
      refine ⟨h1.trans ?_, h2.trans ?_⟩
      · simp [fresh, Nat.add_assoc, Nat.add_comm 1]
      · simp [Nat.add_assoc, Nat.add_comm 1]
  have hl : (upto n).length = n := rangeFrom_length 0 n
  have := h (upto n) (s, [])
  rw [hl] at this
  simpa [shiftFree] using this

end Sys2Proof.Machine

namespace Sys2Proof

open Sys2Proof.Machine

/-- Settles O12: each pin acts under its guard, and a fundamental reset leaves all but the register file as stated. -/
theorem powerAndResetPins : Obligations.PowerAndResetPins := by
  refine ⟨fun sc serial testEn smbAddr s hv => congrArg Host.Outcome.next (if_pos (by simp [hv])), fun s hv => ?_, fun s hv hp => ?_,
    fun b s hv hp => ?_⟩
  · obtain ⟨rf, hf⟩ := fundamental_rf s false { vddAon := false, smbAlert := false }
    refine ⟨_, congrArg Host.Outcome.next (if_pos hv), ?_⟩
    simp [hf]
  · obtain ⟨rf, hf⟩ := fundamental_rf s true (resetPower s true s.power.clkHold)
    refine ⟨_, congrArg Host.Outcome.next (if_pos (by simp [hv, hp])), ?_⟩
    simp only [hf]
    cases s.power.clkHold
    · exact ⟨rfl, rfl, rfl, rfl, rfl, rfl, rfl, rfl, rfl, rfl, rfl, rfl, rfl, rfl, rfl, rfl, rfl, rfl,
        fun _ => getF_putF_same _ F.PWR_RESET_CAUSE 0 0 0 1⟩
    · exact ⟨rfl, rfl, rfl, rfl, rfl, rfl, rfl, rfl, rfl, rfl, rfl, rfl, rfl, rfl, rfl, rfl, rfl, rfl, fun h => nomatch h⟩
  · have hg : (s.power.vddAon && s.power.perst) = true := by simp [hv, hp]
    refine ⟨fun slot img fb hb => congrArg Host.Outcome.next ((if_pos hg).trans ?_),
      fun hb => congrArg Host.Outcome.next ((if_pos hg).trans ?_)⟩
    · simp only [hb]
    · simp only [hb]

/-- Settles O14: the keys of a field's places are kept or dropped with the field; dropped snapshots touch the host's commit state alone. -/
theorem hostFieldsReset : Obligations.HostFieldsReset := by
  intro s f i k x hf _ hk hx
  refine ⟨fun hr => ?_, fun hr hc => ?_⟩
  · have hc : f.id ≠ (stateFld false).id := fun he => by
      obtain rfl := eq_of_id hf (by decide +kernel : stateFld false ∈ allFields) he
      exact Bool.false_ne_true ((resetField_hostState _).symm.trans hr)
    simpa only [hr, if_true] using getF_resetHostFields s (i := i) hf hk hx hc
  · simpa only [hr, Bool.false_eq_true, if_false] using getF_resetHostFields s (i := i) hf hk hx hc

/-- Settles O15: each command acts under its guard. -/
theorem smbusCommands : Obligations.SmbusCommands := by
  intro s hv
  refine ⟨fun sensor hs => congrArg Host.Outcome.next (if_pos (by simp [hv, hs])), congrArg Host.Outcome.next (if_pos hv),
    congrArg Host.Outcome.next (if_pos hv), congrArg Host.Outcome.next (if_pos hv), congrArg Host.Outcome.next (if_pos hv),
    fun hp => congrArg Host.Outcome.next (if_pos (by simp [hv, hp]))⟩

/-- Settles O16: with VDD_AON in range the instruction alone decides, EXTEST and the debug instructions under their condition. -/
theorem tapCommands : Obligations.TapCommands := by
  intro dr s hv
  have hon : ∀ ir, exec (.tapInstruction ir dr) s = match ir with
      | .bypass => .next (emit s (.tapBits ((false :: dr).take dr.length)))
      | .idcode => .next (emit (shiftFree s dr.length).1 (.tapBits (shiftFree s dr.length).2))
      | .samplePreload => .next (emit (shiftFree s dr.length).1 (.tapBits (shiftFree s dr.length).2))
      | .extest => .next (if s.power.perst then emit (shiftFree s dr.length).1 (.tapBits (shiftFree s dr.length).2) else s)
      | .debug _ => if s.live && flag s F.SEC_STATE_JTAG_OPEN then .refused .debugInstruction else .next s := by
    intro ir
    show execTapInstruction ir dr s = _
    unfold execTapInstruction
    rw [hv]
    rfl
  obtain ⟨hs, hlen⟩ := shiftFree_eq s dr.length
  refine ⟨hon _, ⟨_, _, hon _, hlen, hs⟩, (hon .samplePreload).trans (hon .idcode).symm, fun hp => ?_, fun hp => ?_, fun n hl hj => ?_, fun n hj => ?_⟩
  · rw [hon, hon, hp]
    rfl
  · rw [hon, hp]
    rfl
  · rw [hon]
    exact if_pos (by simp [hl, hj])
  · rw [hon]
    exact if_neg (by simp [hj])

/-- Settles O17: the conversion is served with VDD_AON, the stack's reading in its tick. -/
theorem temperatures : Obligations.Temperatures := by
  refine ⟨fun degs s hv => congrArg Host.Outcome.next (if_pos hv), fun deg s hl ht hr => ?_⟩
  exact congrArg Host.Outcome.next (whenLive_guardOn_of_true hl (by simp only [ht, hr, decide_true, Bool.and_self]))

end Sys2Proof
end

section
/-!
PROOFS. Management pairs, the fault collector, the journals and the disabled-unit map, and the alignment of the Tally: commands of a
running device under their conditions.
-/

namespace Sys2Proof.Machine

/-! ## Commands of a running device -/

/-- A command of a running device answers the state it makes. -/
theorem next_of_live {s t : State} {f : State → State} (h : s.live = true) (e : f s = t) :
    (Host.Outcome.next (whenLive s f) : Out) = .next t :=
  congrArg Host.Outcome.next ((whenLive_of_live f h).trans e)

/-- A command of a running device whose condition holds answers the state it makes. -/
theorem next_of_guard {s t : State} {c : State → Bool} {f : State → State} (h : s.live = true) (hc : c s = true) (e : f s = t) :
    (Host.Outcome.next (whenLive s fun s => guardOn (c s) s f) : Out) = .next t :=
  congrArg Host.Outcome.next ((whenLive_guardOn_of_true h hc).trans e)

/-- A command whose condition does not hold answers the state it found. -/
theorem next_of_unmet {s : State} {c : State → Bool} {f : State → State} (hc : c s = false) :
    (Host.Outcome.next (whenLive s fun s => guardOn (c s) s f) : Out) = .next s :=
  congrArg Host.Outcome.next (whenLive_guardOn_of_false hc)

/-! ## Management pairs -/

/-- Clearing the clusters' states leaves Winnow's own state. -/
theorem foldl_putF_winnow {α : Type} (g : α → Nat) (f : Fld) (v : Nat) (l : List α) (t : State) :
    (l.foldl (fun t h => putF t f 0 0 (g h) v) t).winnow = t.winnow :=
  foldl_keeps (fun u : State => u.winnow = t.winnow) (fun t h => putF t f 0 0 (g h) v) (fun _ _ h => h) l t rfl

/-- A fault of a pair in service resets it: a handover ends with pair A, and pair B's flash operation and services with pair B. -/
theorem pairFault_of_up {s : State} {pair : Nat} (cause : Nat) (hp : pair < 2) (h : pairDown s pair = false) :
    pairFault s pair cause =
      let s1 := resetPair (addR s (if cause = 1 then F.MGMT_DIVERGENCES else F.MGMT_WDOG_EXPIRIES) 1) pair cause
      if pair = 0 then
        let s2 := s1.winnow.handovers.foldl (fun t h => putF t F.WINNOW_CLU_STATE 0 0 h.1 0) s1
        { s2 with winnow := { s1.winnow with handovers := [] } }
      else dropServices (flashReset s1) := by
  refine (if_pos (by simp [hp, h])).trans ?_
  simp only [foldl_putF_winnow]

/-- The safe state follows when both pairs have been in reset for more than 13,000,000 ticks from the later reset. -/
theorem exec_bothPairsResetTimeout {s : State} {a b : Nat} (hl : s.live = true) (ha : tget none s.mgmt.resetAt 0 = some a)
    (hb : tget none s.mgmt.resetAt 1 = some b) : exec .bothPairsResetTimeout s =
      .next (if a + 13000000 < s.now ∧ b + 13000000 < s.now then enterSafe s else s) := by
  refine next_of_live hl ?_
  simp only [ha, hb]
  have hlater : (if a < b then b else a) + 13000000 < s.now ↔ a + 13000000 < s.now ∧ b + 13000000 < s.now := by
    split <;> omega
  simp only [hlater]

/-! ## The fault collector -/

/-- A report that no test has made starts the reaction of its class. -/
theorem exec_faultReport {s : State} {f : FaultRep} (hl : s.live = true) (ht : f.test = false) : exec (.faultReport f) s =
    .next (match f.cls with
      | .core p col adder => if p < 72 then coreFault (addI s F.CORE_RESIDUE_ERR p 1) p (col % 64 + 256 * bnat adder) else s
      | .memory kind unit addr poison decPoison ps => memoryFault s kind unit addr poison decPoison ps (itemsOn s ps)
      | .dark k b ps => if k < 8 ∧ b < 17 then darkFault s k b (itemsOn s ps) else s
      | .link p => if portUp s p then portDown s p false else s
      | .management pair cause => pairFault s pair cause
      | .trackLedger i => trackFault s i
      | .thermal => compareTemps s
      | .decoder c => if c < 9 then decoderFault s c else s
      | .selfCheck => enterSafe { s with faults := { s.faults with selfCheck := true } }) :=
  next_of_live hl ((if_neg (by simp [ht])).trans rfl)

/-- A reset check whose time has passed ends the reaction of its cluster. -/
theorem exec_spareResetCheckDone {s : State} {clu : Nat} {r : Reaction} (ok : Bool) (hl : s.live = true)
    (hr : tget none s.faults.reactions clu = some r) (ht : r.since + 117000 ≤ s.now) : exec (.spareResetCheckDone clu ok) s =
      .next (let s1 := { s with faults := { s.faults with reactions := tset none s.faults.reactions clu none } }
        match r.logical, r.spare with
        | some l, some q =>
          if ok then
            let s2 := setI (modCore (setSpare (setPlace (supersedeMap s1) l q) clu none 3) q (fun _ => {})) F.CORE_STATE_STATE q 0
            let s3 := addR (clearTag s2 q) F.SYS_PLACE_GEN 1
            nextReport (relaunchAll s3 r.items s3.now) clu
          else nextReport (noSpare (retireCore s1 q) clu q r.items) clu
        | _, _ => nextReport s1 clu) := by
  refine next_of_live hl ?_
  simp only [hr]
  exact if_pos (decide_eq_true ht)

/-! ## Tally alignment -/

/-- Rounding a difference to a multiple of 13 leaves at most 6. -/
theorem rhe13_residual (a : Int) : -6 ≤ a - 13 * rhe a 13 ∧ a - 13 * rhe a 13 ≤ 6 := by
  unfold rhe
  simp only
  split
  · omega
  · split
    · omega
    · omega

/-- A follower that receives a marker of its source port acts on the difference and its residual. -/
theorem exec_markerReceived {s : State} {port value : Nat} (hl : s.live = true) (hu : portUp s port = true)
    (hr : reg s F.TALLY_CTRL_ROLE = 2) (hp : port = reg s F.TALLY_CTRL_SRC_PORT) :
    let delta : Int := (value : Int) + regI s F.LINK_HOP port - s.now
    let d13 : Int := 13 * rhe delta 13
    let e := delta - d13
    let big := decide (e < -4) || decide (4 < e)
    let s1 := setR (addR { s with fab := { s.fab with lastMarker := some s.now } } F.TALLY_MARKERS 1) F.TALLY_STATE_RESID (enc 8 e)
    exec (.markerReceived port value) s = .next (
      if s.fab.armed then
        let s2 := { s1 with fab := { s1.fab with armed := false } }
        if big then setR (putBoth s2 F.TALLY_CTRL_ALIGN 0 0 0 0) F.TALLY_STATE_STATE 4
        else { s2 with fab := { s2.fab with step := some d13, stepAligns := true } }
      else if reg s F.TALLY_STATE_STATE = 2 ∧ s.fab.step.isNone ∧ (d13 ≠ 0 ∨ big = true) then outOfStep s1 delta
      else s1) :=
  next_of_guard hl (by rw [hu, hr, ← hp]; simp) rfl

/-- A TIME_IN edge of a running device: the first one armed sets the waiting step, later ones are compared with their expected tick. -/
theorem exec_timeInEdge {s : State} (hl : s.live = true) : exec .timeInEdge s = .next (
    let t := s.now
    let s1 := setPairI (addR { s with fab := { s.fab with lastEdge := some t } } F.TIME_EDGES 1) F.TALLY_TIME_STAMP_LO
      F.TALLY_TIME_STAMP_HI 0 t
    if s.fab.timeArmed then
      let d : Int := 13 * rhe ((pairI s F.TALLY_TIME_LOAD_LO F.TALLY_TIME_LOAD_HI 0 : Int) + sgn 16 (reg s F.TALLY_TIME_COMP) - t) 13
      { s1 with fab := { s1.fab with
        timeArmed := false, step := some d, stepAligns := false, expected := some ((t : Int) + d + 1300000000).toNat,
        lastEdge := some ((t : Int) + d).toNat } }
    else match s.fab.expected with
      | none => s1
      | some x =>
        let e : Int := (t : Int) - x
        let s2 := setR { s1 with fab := { s1.fab with expected := some (x + 1300000000) } } F.TALLY_TIME_ERR (enc 32 e)
        let tol : Int := reg s F.TALLY_TIME_TOL
        if tol < e ∨ e < -tol then drift s2 (enc 64 e) else s2) := by
  show execTimeInEdge s = _
  unfold execTimeInEdge second
  exact next_of_live hl rfl

theorem two_seconds : 2 * second = 2600000000 := rfl

/-- The residual's bound, as the model tests it. -/
theorem residual_big_iff (e : Int) : (decide (e < -4) || decide (4 < e)) = true ↔ ¬(-4 ≤ e ∧ e ≤ 4) := by
  simp only [Bool.or_eq_true, decide_eq_true_eq]
  omega

end Sys2Proof.Machine

namespace Sys2Proof

open Sys2Proof.Machine

/-- Settles O18: a pair in service is reset, one in reset is restarted. -/
theorem managementPairs : Obligations.ManagementPairs := by
  intro s hl
  refine ⟨fun h0 => ⟨?_, ?_⟩, fun h1 => ⟨?_, ?_⟩, fun h0 => ?_, fun h1 => ?_, fun a b ha hb => ⟨fun hpa hpb => ?_, fun hnot => ?_⟩⟩
  · exact next_of_live hl ((pairFault_of_up 1 (by decide) h0).trans (if_pos rfl))
  · exact next_of_live hl ((pairFault_of_up 2 (by decide) h0).trans (if_pos rfl))
  · exact next_of_live hl ((pairFault_of_up 1 (by decide) h1).trans (if_neg (by decide)))
  · exact next_of_live hl ((pairFault_of_up 2 (by decide) h1).trans (if_neg (by decide)))
  · exact next_of_guard hl (by simp [h0]) rfl
  · exact next_of_guard hl (by simp [h1]) rfl
  · rw [exec_bothPairsResetTimeout hl ha hb, if_pos ⟨hpa, hpb⟩]
  · rw [exec_bothPairsResetTimeout hl ha hb, if_neg (by omega)]

/-- Settles O19: the class of a report names its reaction, and the check of a spare ends one. -/
theorem faultsAndReactions : Obligations.FaultsAndReactions := by
  refine ⟨fun f s hl ht => next_of_live hl (if_pos ht), fun f s hl ht => ?_, fun clu r l q s hl hr hlog hsp ht => ?_,
    fun clu ok r s hl hr hno ht => ?_⟩
  · rw [exec_faultReport hl ht]
    refine ⟨fun p col adder hc hp => ?_, fun kind unit addr poison d ps hc => ?_, fun k b ps hc hk hb => ?_, fun p hc hp => ?_,
      fun pair cause hc => ?_, fun i hc => ?_, fun hc => ?_, fun c hc hlt => ?_, fun hc => ?_⟩
    all_goals rw [hc]
    · simp only [hp, if_true]
    · simp only [hk, hb, and_self, if_true]
    · simp only [hp, if_true]
    · simp only [hlt, if_true]
  · constructor
    · rw [exec_spareResetCheckDone true hl hr ht]
      simp only [hlog, hsp, if_true]
    · rw [exec_spareResetCheckDone false hl hr ht]
      simp only [hlog, hsp, Bool.false_eq_true, if_false]
  · rw [exec_spareResetCheckDone ok hl hr ht]
    obtain hnone | hnone := hno
    · simp only [hnone]
    · rw [hnone]
      cases r.logical <;> rfl

/-- Settles O20: each write has its effect under its guard. -/
theorem journalsAndMap : Obligations.JournalsAndMap := by
  intro s hl
  refine ⟨fun hp hf hb => next_of_guard hl (by simp [hp, hf, hb]) rfl, fun n hu => next_of_guard hl hu rfl,
    fun kind unit sub value hp => ⟨fun hs hc => ?_, fun hc => ?_⟩⟩
  · exact next_of_guard hl (by simp only [hp, hs, hc, Bool.not_false, Bool.and_self]) rfl
  · exact next_of_unmet (by simp only [hc, Bool.not_true, Bool.and_false])

/-- Settles O57: a marker's or an edge's difference is a multiple of 13 and a residual of at most 6. -/
theorem markersAndTimeEdges : Obligations.MarkersAndTimeEdges := by
  intro s hl
  refine ⟨fun ht => ?_, fun port value hu hr hp => ?_, fun t hr hst hu hm ht => ?_, ⟨fun ha => ?_, fun ha hx => ?_, fun x ha hx => ?_⟩,
    fun t hx hm ht => ?_⟩
  · exact next_of_guard hl (decide_eq_true ht) rfl
  · have hexec := exec_markerReceived (value := value) hl hu hr hp
    intro delta
    refine ⟨rhe delta 13, delta - 13 * rhe delta 13, by omega, (rhe13_residual delta).1, (rhe13_residual delta).2, ?_⟩
    refine ⟨fun ha hlo hhi => hexec.trans ?_, fun ha hbig => hexec.trans ?_, fun ha hst hs hmoves => hexec.trans ?_,
      fun ha hk hlo hhi => hexec.trans ?_⟩
    · exact congrArg Host.Outcome.next ((if_pos ha).trans (if_neg (mt (residual_big_iff _).mp (not_not_intro ⟨hlo, hhi⟩))))
    · exact congrArg Host.Outcome.next ((if_pos ha).trans (if_pos ((residual_big_iff _).mpr hbig)))
    · refine congrArg Host.Outcome.next ((if_neg (by simp [ha])).trans (if_pos ⟨hst, by simp [hs], ?_⟩))
      exact hmoves.imp (fun hk (h0 : 13 * rhe delta 13 = 0) => hk (by omega)) (residual_big_iff _).mpr
    · refine congrArg Host.Outcome.next ((if_neg (by simp [ha])).trans (if_neg fun h => ?_))
      exact h.2.2.elim (fun hd => hd (show 13 * rhe delta 13 = 0 by omega)) (mt (residual_big_iff _).mp (not_not_intro ⟨hlo, hhi⟩))
  · refine next_of_live hl ((if_pos ?_).trans rfl)
    simp only [hr, hst, hu, hm, Option.getD_some, ht, decide_true, Bool.and_self]
  · refine ⟨_, _, (Int.sub_eq_iff_eq_add.mp rfl).trans (Int.add_comm _ _), (rhe13_residual _).1, (rhe13_residual _).2, ?_⟩
    rw [exec_timeInEdge hl]
    exact congrArg Host.Outcome.next (if_pos ha)
  · rw [exec_timeInEdge hl, if_neg (by simp [ha])]
    simp only [hx]
  · rw [exec_timeInEdge hl, if_neg (by simp [ha])]
    simp only [hx]
  · refine next_of_guard hl ?_ rfl
    simp only [hx, hm, two_seconds, Option.getD_some, ht, decide_true, Bool.and_self]

end Sys2Proof
end

section
/-!
PROOFS. Host reads and writes of each space, and the commits of a page.
-/

namespace Sys2Proof.Machine

/-! ## Reads and writes of BAR 0 -/

/-- A read of BAR 0 while memory requests are not served is an unsupported request. -/
theorem barRead_of_unserved {s : State} (h : memServed s = false) (a n : Nat) :
    barRead s a n = emit (aer s .unsupportedRead) .unsupported :=
  if_pos (by rw [h]; rfl)

/-- A misaligned or short read of BAR 0 answers 0 and is counted. -/
theorem barRead_of_misfit {s : State} {a n : Nat} (h : memServed s = true) (hb : a % 4 ≠ 0 ∨ n ≠ 4) :
    barRead s a n = emit (addR s F.PCIE_BAD_ACCESS 1) (.readReply 0) :=
  (if_neg (by simp [h])).trans (if_pos hb)

/-- An aligned read of BAR 0 reaches the page mapped at its offset, if any. -/
theorem barRead_of_fit {s : State} {a : Nat} (h : memServed s = true) (ha : a % 4 = 0) :
    barRead s a 4 = match pageAt a with
      | some p => let r := hostReadReg s p (a % 0x1000); emit r.2 (.readReply r.1)
      | none => emit s (.readReply 0) :=
  (if_neg (by simp [h])).trans (if_neg (by simp [ha]))

/-- A host write of BAR 0 while memory requests are served. -/
theorem exec_hostWrite_bar0 {s : State} (hl : s.live = true) (h : memServed s = true) (a n v : Nat) :
    exec (.registerWrite .host .bar0 a n v) s = .next (
      if a % 4 ≠ 0 ∨ n ≠ 4 then addR s F.PCIE_BAD_ACCESS 1
      else match pageAt a with
        | some p => (writeReg .direct (directSels s) s p (a % 0x1000) (v % 2 ^ 32)).1
        | none => s) :=
  next_of_live hl ((if_neg (by simp [h])).trans rfl)

/-! ## A snapshot at its commit point -/

/-- A snapshot that passes its checks and needs a domain that is off starts its switch-on, and stays pending. -/
theorem commitOne_of_waiting {s : State} {x : Snap} {d : Nat}
    (hr : checkSnap (dropSnap s x.page x.fw) (goLive (dropSnap s x.page x.fw) x) x = 0)
    (hd : needDom (goLive (dropSnap s x.page x.fw) x) x = some d) (ho : domOn s d = false) : commitOne s x = switchOn s d := by
  simp only [commitOne, hr, hd, ho, Option.filter, Bool.not_false, if_true]

/-- A snapshot that passes its checks and needs no domain that is off goes live whole. -/
theorem commitOne_of_passed {s : State} {x : Snap}
    (hr : checkSnap (dropSnap s x.page x.fw) (goLive (dropSnap s x.page x.fw) x) x = 0)
    (hd : ∀ d, needDom (goLive (dropSnap s x.page x.fw) x) x = some d → domOn s d = true) :
    commitOne s x = setI (noteLtr (dropSnap s x.page x.fw) (applied (dropSnap s x.page x.fw) (goLive (dropSnap s x.page x.fw) x) x))
      (stateFld x.fw) x.page 2 := by
  have hnone : (needDom (goLive (dropSnap s x.page x.fw) x) x).filter (fun d => !domOn s d) = none := by
    rw [Option.filter_eq_none_iff]
    intro d hn
    simp [hd d hn]
  simp only [commitOne, hr, hnone]

end Sys2Proof.Machine

namespace Sys2Proof

open Sys2Proof.Machine

/-- Settles O22: each space and each writer by its branch of LO_READ, RC_READ and REGISTER_WRITE. -/
theorem hostRegisterAccess : Obligations.HostRegisterAccess := by
  unfold Obligations.HostRegisterAccess
  intro s hl
  refine ⟨fun a => rfl, ?_, ?_, ?_, ?_, ?_, ?_, ⟨rfl, rfl, rfl, rfl⟩, ?_, ?_, ?_, ?_, ?_, ?_, ?_, ?_, ?_, fun sp a n v => next_of_live hl rfl⟩
  · intro a n h
    exact ⟨next_of_live hl (barRead_of_unserved h a n), next_of_live hl (if_neg (by simp [h])), next_of_live hl (if_neg (by simp [h]))⟩
  · intro a n h hb
    exact next_of_live hl (barRead_of_misfit h hb)
  · intro a h ha hp
    exact next_of_live hl ((barRead_of_fit h ha).trans (by rw [hp]))
  · intro a p h ha hp
    have hread : barRead s a 4 = emit (hostReadReg s p (a % 0x1000)).2 (.readReply (hostReadReg s p (a % 0x1000)).1) :=
      (barRead_of_fit h ha).trans (by rw [hp])
    exact ⟨next_of_live hl hread, next_of_live hl hread⟩
  · intro a n h
    exact ⟨next_of_live hl (if_pos h), next_of_live hl (if_pos h)⟩
  · intro a n h
    exact next_of_guard hl h rfl
  · intro a n v p h ha hn hp
    rw [exec_hostWrite_bar0 hl h, if_neg (by simp [ha, hn]), hp]
  · intro a n v h ha hn hp
    rw [exec_hostWrite_bar0 hl h, if_neg (by simp [ha, hn]), hp]
  · intro a n v h hb
    rw [exec_hostWrite_bar0 hl h, if_pos hb]
  · rintro a n v sp h (rfl | rfl | rfl)
    · exact next_of_live hl (if_pos (by simp [h]))
    · exact next_of_live hl (if_pos (by simp [h]))
    · exact next_of_live hl (if_pos (by simp [h]))
  · intro a n v h
    exact next_of_live hl (if_neg (by simp [h]))
  · intro a n v h
    exact next_of_live hl (if_neg (by simp [h]))
  · intro a n v h ha hn
    exact next_of_live hl (if_pos (by simp [h, ha, hn]))
  · intro a n v h
    refine next_of_live hl (if_neg ?_)
    rcases h with h | h | h <;> simp [h]
  · intro a n v p ha hn hp
    refine next_of_live hl ?_
    simp only [hp]
    exact if_pos ⟨ha, hn⟩

/-- Settles O24: PAGE_COMMIT by writer and level of the page, then the commit point of a lone snapshot, of a frame start and of an
encoder's picture. -/
theorem pageCommits : Obligations.PageCommits := by
  unfold Obligations.PageCommits
  intro s hl
  refine ⟨?_, ?_, ?_, ?_, fun page => next_of_live hl rfl, ?_, ?_, ?_⟩
  · intro page sel hp hu h0
    exact next_of_guard hl (by simp only [hp, hu, decide_true, Bool.and_self]) (if_pos h0)
  · intro page sel hp hu h0
    exact next_of_guard hl (by simp only [hp, hu, decide_true, Bool.and_self]) (if_neg h0)
  · intro page sel t hp hu ht h0
    refine next_of_guard hl (by simp only [hp, hu, decide_true, Bool.and_self]) ?_
    exact if_pos (by simp [ht, h0])
  · intro page hp hu
    exact next_of_guard hl (by simp only [hp, hu, decide_true, Bool.and_self]) rfl
  · intro x hs hf hp s0 c hr hd
    rw [exec_commitPoint_of_lone_host hl hs hf hp]
    have hpass := commitOne_of_passed (s := s) (x := x) (by rw [hf]; exact hr) (by rw [hf]; exact hd)
    rw [hf] at hpass
    exact congrArg Host.Outcome.next hpass
  · intro port hp ho
    exact next_of_guard hl (by simp only [hp, ho, decide_true, Bool.and_self]) rfl
  · intro enc p rest he hq hen hst hsl
    refine next_of_live hl ?_
    simp only [hq]
    exact if_pos (by simp only [he, hst, hsl, decide_true, Bool.and_self, ne_eq, hen, not_false_eq_true])

/-- Settles O26: the three outcomes of a snapshot at its commit point. -/
theorem snapshotsGoLiveWhole : Obligations.SnapshotsGoLiveWhole := by
  unfold Obligations.SnapshotsGoLiveWhole
  intro s x s0 c
  exact ⟨fun r hr h0 => commitOne_of_refused hr h0, fun d hr hd ho => commitOne_of_waiting hr hd ho,
    fun hr hd => commitOne_of_passed hr hd⟩

end Sys2Proof
end

section
/-!
PROOFS. A register write that reaches one field, and the register commands with a row of their own.
-/

namespace Sys2Proof.Machine

/-! ## The writable fields of an offset -/

/-- The fields that take writes at page offset `off`, on whatever page, with their elements. -/
def writableOff (off : Nat) : List (Fld × Nat) :=
  (allFields.filterMap (fun f => (f.at off).map (fun i => (f, i)))).filter (fun e => decide (e.1.acc ≠ .ro) && decide (e.1.acc ≠ .rc))

/-- Choosing the fields of a page before or after their elements at an offset is the same. -/
theorem filterMap_onPage (p off : Nat) (l : List Fld) :
    l.filterMap (fun f => if f.onPage p then (f.at off).map (fun i => (f, i)) else none) =
      (l.filterMap (fun f => (f.at off).map (fun i => (f, i)))).filter (fun e => e.1.onPage p) := by
  induction l with
  | nil => rfl
  | cons f l ih =>
    rw [List.filterMap_cons, List.filterMap_cons, ih]
    cases hp : f.onPage p <;> cases ha : f.at off <;> simp [hp]

/-- A page's writable fields are those of the offset that stand on the page. -/
theorem writableAt_eq (p off : Nat) : writableAt p off = (writableOff off).filter (fun e => e.1.onPage p) := by
  rw [writableAt, fieldsAt, filterMap_onPage, writableOff, List.filter_filter, List.filter_filter]
  exact List.filter_congr fun e _ => Bool.and_comm _ _

theorem writableOff_intStatus : writableOff F.INT_STATUS.off = [(F.INT_STATUS, 0)] := by decide +kernel
theorem writableOff_violation : writableOff F.PAGE_STATUS_ACCESS_VIOLATION.off = [(F.PAGE_STATUS_ACCESS_VIOLATION, 0)] := by decide +kernel
theorem writableOff_intForce : writableOff F.INT_FORCE.off = [(F.INT_FORCE, 0)] := by decide +kernel
theorem writableOff_pageCtrl : writableOff F.PAGE_CTRL.off = [(F.PAGE_CTRL, 0)] := by decide +kernel
theorem writableAt_faultClr : writableAt 5 F.REEVE_FAULT_CLR.off = [(F.REEVE_FAULT_CLR, 0)] := by decide +kernel

/-- The register that holds a training run's pattern and its start. -/
theorem writableAt_train {ch : Nat} (h : ch < 16) : writableAt (119 + ch) F.HBMC_CH_TRAIN_GO.off =
    [(F.HBMC_CH_TRAIN_PATTERN, 0), (F.HBMC_CH_TRAIN_DIR, 0), (F.HBMC_CH_TRAIN_LEN, 0), (F.HBMC_CH_TRAIN_GO, 0)] := by
  revert ch
  decide +kernel

/-- A common register's field that alone takes writes at its offset does so on every page. -/
theorem writableAt_common {f : Fld} {p : Nat} (hw : writableOff f.off = [(f, 0)]) (hb : f.base = 0) (hn : f.n = 139) (hp : p < 139) :
    writableAt p f.off = [(f, 0)] := by
  rw [writableAt_eq, hw]
  simp [Fld.onPage, hb, hn, hp]

/-! ## Pages and their addresses -/

/-- Every page begins at a multiple of 4,096 and is found at its beginning. -/
theorem pageAt_of_start : ∀ p < 139, pageBase p % 0x1000 = 0 ∧ pageAt (pageBase p) = some p := by decide +kernel

/-- A page's addresses are those of its 4,096 bytes. -/
theorem pageAt_pageBase {p off : Nat} (hp : p < 139) (ho : off < 0x1000) :
    pageAt (pageBase p + off) = some p ∧ (pageBase p + off) % 0x1000 = off := by
  obtain ⟨hz, hat⟩ := pageAt_of_start p hp
  have hdiv : (pageBase p + off) / 0x1000 = pageBase p / 0x1000 := by omega
  refine ⟨?_, by omega⟩
  rw [← hat, pageAt, pageAt, hdiv]

/-! ## A write that reaches one field -/

/-- A write to a register whose one writable field is its writer's takes effect through that field alone. -/
theorem writeReg_of_single {b : By} {s : State} {p off k : Nat} {f : Fld} (x : Sels) (v : Nat) (hu : pageUp s p = true)
    (hw : writableAt p off = [(f, k)]) (hm : mayWrite b p f = true) : (writeReg b x s p off v).1 = writeFld b x s p f k (f.slice v) := by
  have hown : [(f, k)].filter (fun e => mayWrite b p e.1) = [(f, k)] := by simp [hm]
  have hflags : flags b s x p off v = false := by simp [flags, hw, hm]
  simp [writeReg, hu, hw, hm, hflags]

/-- A direct write to a register whose one writable field is a session's is ignored and flagged. -/
theorem writeReg_of_guarded {s : State} {p off k : Nat} {f : Fld} (x : Sels) (v : Nat) (hu : pageUp s p = true)
    (hw : writableAt p off = [(f, k)]) (hm : mayWrite .direct p f = false) : (writeReg .direct x s p off v).1 = violation s p := by
  have hflags : flags .direct s x p off v = true := by simp [flags, hw, hm]
  simp [writeReg, hu, hw, hm, hflags]

/-- A served write that reaches the one writable field of its register, directly or by a session. -/
theorem writeBy_of_writesTo {s : State} {ses : Option Nat} {p off k : Nat} {f : Fld} (v : Nat) (h : WritesTo s ses p f)
    (hw : writableAt p off = [(f, k)]) : ∃ (b : By) (x : Sels), writeBy s ses p off v = writeFld b x s p f k (f.slice v) := by
  obtain ⟨_, hu, hses⟩ := h
  cases ses with
  | none => exact ⟨_, _, writeReg_of_single _ v hu hw hses.2⟩
  | some t => exact ⟨_, _, (if_pos hses.1).trans (writeReg_of_single _ v hu hw hses.2)⟩

/-- A served write is a session's, or one of a function that serves memory requests. -/
theorem WritesTo.served {s : State} {ses : Option Nat} {p : Nat} {f : Fld} (h : WritesTo s ses p f) :
    (ses.isSome || memServed s) = true := by
  obtain ⟨_, _, hses⟩ := h
  cases ses with
  | none => simp [hses.1]
  | some t => rfl

/-- INT_STATUS_CLEAR of a common W1C field that alone takes writes at its offset clears the bits written 1. -/
theorem exec_intStatusClear_common {s : State} {f : Fld} {page : Nat} {ses : Option Nat} (v : Nat) (hp : page < 139)
    (h : WritesTo s ses page f) (hw : writableOff f.off = [(f, 0)]) (hb : f.base = 0) (hn : f.n = 139) (ho : f.off < 0x1000)
    (ha : f.acc = .w1c) (hs : f.sel = .none) :
    exec (.intStatusClear (pageBase page + f.off) v ses) s = .next (cleared s f page v) := by
  obtain ⟨hpage, hoff⟩ := pageAt_pageBase hp ho
  have hat := writableAt_common hw hb hn hp
  have hw1c : (fieldsAt page f.off).any (fun e => decide (e.1.acc = .w1c)) = true := by
    have hmem : (f, 0) ∈ fieldsAt page f.off := (List.mem_filter.mp (hat ▸ List.mem_singleton_self (f, 0))).1
    exact List.any_eq_true.mpr ⟨_, hmem, decide_eq_true ha⟩
  obtain ⟨b, x, hwrite⟩ := writeBy_of_writesTo v h hat
  refine next_of_live h.1 ?_
  simp only [hpage, hoff]
  refine (if_pos (by rw [hw1c, h.served]; rfl)).trans (hwrite.trans ?_)
  simp only [writeFld, ha, Fld.inst, hb, Sels.of, hs, Nat.sub_zero, cleared]

/-! ## The lanes of a training run -/

theorem mem_upto {n k : Nat} : k ∈ upto n ↔ k < n := by
  rw [upto, mem_rangeFrom]
  omega

/-- Writing elements of a field one after another: each reads as written, and those not written as before. -/
theorem getF_foldl_elements {f : Fld} (hf : f.id < 1024) (i : Nat) (g : Nat → Nat) (l : List Nat) (hl : ∀ k ∈ l, k < 128) (s : State)
    {k : Nat} (hk : k < 128) :
    getF (l.foldl (fun t k => putF t f i 0 k (g k)) s) f i 0 k = if k ∈ l then g k % 2 ^ f.width else getF s f i 0 k := by
  induction l generalizing s with
  | nil => rfl
  | cons a l ih =>
    rw [List.foldl_cons, ih fun j hj => hl j (List.mem_cons_of_mem a hj)]
    by_cases ha : k = a
    · subst ha
      simp
    · have hother : getF (putF s f i 0 a (g a)) f i 0 k = getF s f i 0 k :=
        getF_putF_other _ _ _ _ _ _ _ _ _ _ (key_ne hf hf (by decide) (by decide) (hl a List.mem_cons_self) hk (by omega))
      simp [ha, hother]

/-- A channel whose 72 lanes' counts are written, and whose training run goes on or has ended. -/
def lanesWritten (s : State) (ch : Nat) (g : Nat → Nat) (runs : Bool) : State :=
  let t := (upto 72).foldl (fun t k => putF t F.HBMC_CH_LANE_ERR ch 0 k (g k)) s
  { t with hbm := { t.hbm with trainRun := tset false t.hbm.trainRun ch runs } }

theorem lanesWritten_trainRun (s : State) (ch : Nat) (g : Nat → Nat) (runs : Bool) :
    tget false (lanesWritten s ch g runs).hbm.trainRun ch = runs := by
  simp only [lanesWritten, tget_tset_same]

/-- Each lane's count reads as written. -/
theorem getF_lanesWritten (s : State) (ch : Nat) (g : Nat → Nat) (runs : Bool) {k : Nat} (hk : k < 72) :
    getF (lanesWritten s ch g runs) F.HBMC_CH_LANE_ERR ch 0 k = g k % 2 ^ 24 := by
  have hupto : ∀ j ∈ upto 72, j < 128 := fun j hj => by
    have := mem_upto.mp hj
    omega
  have hrf : (lanesWritten s ch g runs).rf = ((upto 72).foldl (fun t k => putF t F.HBMC_CH_LANE_ERR ch 0 k (g k)) s).rf := rfl
  rw [getF_other hrf, getF_foldl_elements (by decide) ch g (upto 72) hupto s (by omega), if_pos (mem_upto.mpr hk)]
  rfl

/-- The end of a training run writes the mismatch counts. -/
theorem exec_trainingRunDone {s : State} {ch : Nat} (mism : List Nat) (hl : s.live = true) (hc : ch < 16)
    (hr : tget false s.hbm.trainRun ch = true) : exec (.trainingRunDone ch mism) s =
      .next (lanesWritten s ch (fun k => if nth 0 mism k < 2 ^ 24 then nth 0 mism k else 2 ^ 24 - 1) false) :=
  next_of_guard hl (by rw [hr, decide_eq_true hc]; rfl) rfl

/-- A count saturated at 24 bits is a 24-bit number. -/
theorem saturated_mod (n : Nat) : (if n < 2 ^ 24 then n else 2 ^ 24 - 1) % 2 ^ 24 = if n < 2 ^ 24 then n else 2 ^ 24 - 1 := by
  split <;> omega

/-- A cleared error report reads 0. -/
theorem regI_clearErr (s : State) (p : Nat) : regI (clearErr s p) F.ERR_LAST_ADDR_LO p = 0 ∧ regI (clearErr s p) F.ERR_LAST_ADDR_HI p = 0 ∧
    regI (clearErr s p) F.ERR_LAST_SYNDROME p = 0 := by
  have hother : ∀ (t : State) {f g : Fld}, f.id < 1024 → g.id < 1024 → f.id ≠ g.id → getF (putF t f p 0 0 0) g p 0 0 = getF t g p 0 0 :=
    fun t f g hf hg hne => getF_putF_other _ _ _ _ _ _ _ _ _ _ (key_ne hf hg (by decide) (by decide) (by decide) (by decide) (.inr (.inl hne)))
  simp only [clearErr, regI_eq, setI_eq]
  refine ⟨?_, ?_, getF_putF_same ..⟩
  · rw [hother _ (by decide) (by decide) (by decide), hother _ (by decide) (by decide) (by decide), getF_putF_same, Nat.zero_mod]
  · rw [hother _ (by decide) (by decide) (by decide), getF_putF_same, Nat.zero_mod]

/-- A write of the training register with GO set stores the pattern and starts the run. -/
theorem exec_trainingRun {s : State} {ch : Nat} (v : Nat) (hl : s.live = true) (hc : ch < 16) (hu : pageUp s (119 + ch) = true) :
    ∃ u : State, exec (.trainingRun ch v) s = .next (lanesWritten u ch (fun _ => 0) true) := by
  have hat := writableAt_train hc
  have hgo : F.HBMC_CH_TRAIN_GO.slice (setBit v F.HBMC_CH_TRAIN_GO.lo) = 1 := by
    show (v ||| 2 ^ 9) / 2 ^ 9 % 2 ^ 1 = 1
    have h : (v ||| 2 ^ 9).testBit 9 = true := by rw [Nat.testBit_or, Nat.testBit_two_pow_self, Bool.or_true]
    rw [Nat.testBit_eq_decide_div_mod_eq] at h
    exact of_decide_eq_true h
  have hwrite : ∃ u : State, (writeReg .fw {} s (119 + ch) F.HBMC_CH_TRAIN_GO.off (setBit v F.HBMC_CH_TRAIN_GO.lo)).1 =
      writeFld .fw {} u (119 + ch) F.HBMC_CH_TRAIN_GO 0 1 := by
    rw [← hgo]
    simp only [writeReg, hu, hat]
    exact ⟨_, rfl⟩
  obtain ⟨u, hwrite⟩ := hwrite
  refine ⟨u, next_of_guard hl (decide_eq_true hc) (hwrite.trans ?_)⟩
  show lanesWritten u (119 + ch - 119) (fun _ => 0) true = _
  rw [Nat.add_sub_cancel_left]

end Sys2Proof.Machine

namespace Sys2Proof

open Sys2Proof.Machine

/-- Settles O23: each command's write reaches its one field; read indices and the lease go by their bounds; the lanes of a training
run are cleared and then written. -/
theorem registerCommands : Obligations.RegisterCommands := by
  unfold Obligations.RegisterCommands
  intro s hl
  refine ⟨?_, ?_, ?_, ?_, ?_, ?_, ?_, ?_, ?_, ?_, ?_, ?_, ?_, ?_⟩
  · intro page v ses hp h
    exact exec_intStatusClear_common v hp h writableOff_intStatus rfl rfl (by decide) rfl rfl
  · intro page v ses hp h
    exact exec_intStatusClear_common v hp h writableOff_violation rfl rfl (by decide) rfl rfl
  · intro a v ses p hp hw hs
    refine next_of_live hl ?_
    simp only [hp]
    exact if_pos (by rw [hw, hs]; rfl)
  · intro page bits t hp h
    obtain ⟨b, x, hwrite⟩ := writeBy_of_writesTo (bits % 2 ^ 32) h (writableAt_common writableOff_intForce rfl rfl hp)
    have hslice : F.INT_FORCE.slice (bits % 2 ^ 32) = bits % 2 ^ 32 := by
      show bits % 2 ^ 32 / 2 ^ 0 % 2 ^ 32 = _
      omega
    rw [hslice] at hwrite
    exact next_of_guard hl (decide_eq_true hp) hwrite
  · intro page ses hp h
    obtain ⟨b, x, hwrite⟩ := writeBy_of_writesTo 1 h (writableAt_common writableOff_pageCtrl rfl rfl hp)
    exact ⟨_, next_of_guard hl (by rw [decide_eq_true hp, h.served]; rfl) hwrite, rfl, regI_clearErr s page⟩
  · intro t ht hu hm hr hn
    refine next_of_guard hl (by rw [hu, hm]; rfl) ?_
    simp only [renewLease, ht]
    exact if_pos (by rw [hr, decide_eq_true hn]; rfl)
  · intro h
    have hstays : renewLease s = s := by
      unfold renewLease
      cases ht : s.disp.leaseEnd with
      | none => rfl
      | some t => exact if_neg (by rcases h t ht with h | h <;> simp [h])
    exact next_of_live hl (by simp only [guardOn, hstays, ite_self])
  · intro ses h
    obtain ⟨b, x, hwrite⟩ := writeBy_of_writesTo 1 h writableAt_faultClr
    exact next_of_guard hl h.served hwrite
  · intro hu hm
    exact next_of_guard hl (by rw [hm]; rfl) (writeReg_of_guarded _ 1 hu writableAt_faultClr (by decide))
  · intro ring idx hr hu
    have hg : (decide (ring < 16) && pageUp s 15) = true := by rw [hu, decide_eq_true hr]; rfl
    exact ⟨fun hfit => next_of_guard hl hg (if_pos hfit), fun hover => next_of_guard hl hg (if_neg (by omega))⟩
  · intro idx hu
    exact ⟨fun hfit => ⟨fun hfree => next_of_guard hl hu ((if_pos hfit).trans (if_pos hfree)),
        fun hfull => next_of_guard hl hu ((if_pos hfit).trans (if_neg (by omega)))⟩,
      fun hover => next_of_guard hl hu (if_neg (by omega))⟩
  · intro idx hu
    exact ⟨fun hfit => next_of_guard hl hu (if_pos hfit), fun hover => next_of_guard hl hu (if_neg (by omega))⟩
  · intro ch v hc hu
    obtain ⟨u, hrun⟩ := exec_trainingRun v hl hc hu
    exact ⟨_, hrun, lanesWritten_trainRun .., fun k hk => getF_lanesWritten u ch (fun _ => 0) true hk⟩
  · intro ch mism hc hr
    refine ⟨_, exec_trainingRunDone mism hl hc hr, lanesWritten_trainRun .., fun k hk => ?_⟩
    rw [getF_lanesWritten s ch _ false hk]
    exact saturated_mod _

end Sys2Proof
end

section
/-!
PROOFS. The commands of the session mailbox: each runs its body in the state that counts the request.
-/

namespace Sys2Proof.Machine

/-- A mailbox command whose request passes every check answers what its body makes of the counted request. -/
theorem next_of_asks {s t : State} {r : MbReq} {cmd no4 : Nat} {p : List Byte} {roles : Option Nat → Bool} {body : State → State}
    (h : Asks s r cmd p roles) (e : body (asked s r) = t) :
    (Host.Outcome.next (whenLive s (mailbox cmd r p roles no4 body)) : Out) = .next t :=
  next_of_live h.1 ((mailbox_asks no4 body h).trans e)

/-- A mailbox command outside every session answers what its body makes of the counted request. -/
theorem next_of_openly {s t : State} {r : MbReq} {cmd no4 : Nat} {p : List Byte} {roles : Option Nat → Bool} {body : State → State}
    (h : AsksOpenly s r) (hc : cmd = 1 ∨ cmd = 4 ∨ cmd = 0x41) (hr : roles none = true) (e : body (addR s F.SEC_COMMANDS 1) = t) :
    (Host.Outcome.next (whenLive s (mailbox cmd r p roles no4 body)) : Out) = .next t :=
  next_of_live h.1 ((mailbox_openly cmd p roles no4 body h hc hr).trans e)

/-- A pair in service carries out its command. -/
theorem serviced_of_up {s : State} {pair : Nat} (r : MbReq) (cmd : Nat) (body : State → State) (h : pairDown s pair = false) :
    serviced pair r cmd body s = body s :=
  if_neg (by simp [h])

/-- Pair B in service writes a partition that stands. -/
theorem stored_of_up {s : State} {k : Nat} (r : MbReq) (cmd : Nat) (body : State → State) (h : pairDown s 1 = false)
    (hk : partFailed s k = false) : stored k r cmd body s = body s :=
  (serviced_of_up r cmd _ h).trans (if_neg (by simp [hk]))

/-- A request whose sender may not give the command is refused in the place of check 4, with its sequence number still unused. -/
theorem mailbox_bars {s : State} {r : MbReq} {cmd : Nat} {p : List Byte} {roles : Option Nat → Bool} (no4 : Nat) (body : State → State)
    (hu : pageUp s 7 = true) (hb : reg s F.SEC_MB_STATE_STATE ≠ 1) (h0 : r.session ≠ 0) (ht : tagOf s (r.session % 16) = r.session)
    (ho : (asker s r).isOpen = true) (hq : r.seq = (asker s r).seq) (htag : r.tag = reqTag (asker s r).key r.session cmd r.seq p)
    (hm : mbMay s (r.session % 16) cmd roles = false) :
    mailbox cmd r p roles no4 body s =
      refuseMb (putSess (addR s F.SEC_COMMANDS 1) (r.session % 16) { asker s r with badRun := 0 }) r cmd no4 := by
  have hfrom : mbFrom (addR s F.SEC_COMMANDS 1) r cmd = .slot (r.session % 16) :=
    mbFrom_slot (s := addR s F.SEC_COMMANDS 1) h0 ht (Or.inl ho)
  have hopen : (sess (addR s F.SEC_COMMANDS 1) (r.session % 16)).isOpen = true := ho
  have hw : r.tag = wantTag (addR s F.SEC_COMMANDS 1) r (r.session % 16) cmd p := htag.trans (if_pos hopen).symm
  have hs : r.seq = if (sess (addR s F.SEC_COMMANDS 1) (r.session % 16)).isOpen = true
      then (sess (addR s F.SEC_COMMANDS 1) (r.session % 16)).seq else 0 := hq.trans (if_pos hopen).symm
  have hm' : mbMay (putSess (addR s F.SEC_COMMANDS 1) (r.session % 16)
      { sess (addR s F.SEC_COMMANDS 1) (r.session % 16) with badRun := 0 }) (r.session % 16) cmd roles = false :=
    (mbMay_badRun s _ _ _ 0 roles (sess_putSess _ _ _)).trans hm
  unfold mailbox guardOn
  refine (if_pos hu).trans ((if_neg fun h => hb h.1).trans ?_)
  dsimp only
  rw [hfrom]
  refine (if_neg (not_not_intro hs)).trans ((if_neg (not_not_intro hw)).trans (if_neg ?_))
  rw [hm']
  decide

/-- No role may give a command that Table 14-8 does not list. -/
theorem mbMay_unlisted {s : State} {i : Nat} (cmd : Nat) (ho : (sess s i).isOpen = true) : mbMay s i cmd (fun _ => false) = false :=
  (if_pos ho).trans (by simp)

@[simp] theorem putSess_flash (s : State) (i : Nat) (x : Sess) : (putSess s i x).flash = s.flash := by
  simp only [putSess, refreshSess, setS_eq, setR_eq, putF_flash]

@[simp] theorem putSess_roleKeys (s : State) (i : Nat) (x : Sess) : (putSess s i x).sec.roleKeys = s.sec.roleKeys := by
  simp only [putSess, refreshSess, setS_eq, setR_eq, putF_sec]

/-- The firmware slot that is not active stays as it was when a request is counted. -/
theorem idleSlot_asked (s : State) (r : MbReq) : idleSlot (asked s r) = idleSlot s := by
  simp only [idleSlot, asked, putSess_flash, addR_eq, putF_flash]

/-! ## The challenge of an OPEN (R338, R352) -/

/-- The slot an OPEN takes, which held `x`, holds a pending challenge. -/
def challengeOf (s : State) (role iface minSvn hwm hostNonce nd now : Nat) (x : Sess) : Sess :=
  { gen := x.gen % 4095 + 1, pending := true, role := role, minSvn := minSvn, iface := iface, hwm := hwm, hostNonce := hostNonce,
    devNonce := nd, restricted := decide (reg s F.SEC_IFACE_SVN < minSvn), openedAt := now }

/-- The next XMSS leaf is at least HWM, and the response buffer is empty. -/
def raiseLeaf (s : State) (hwm : Nat) : State :=
  let s1 := setR s F.SEC_XMSS (maxOf [reg s F.SEC_XMSS, if hwm < 2 ^ 20 then hwm else 2 ^ 20])
  { s1 with sec := { s1.sec with resp := {} } }

/-- The challenge of slot `i` is answered under a tag of the role's key. -/
def answerOpen (t : State) (r : MbReq) (i nd key : Nat) : State :=
  let u := respond t r (tagOf t i) 1 0 0 (le 32 nd) none
  { u with sec := { u.sec with resp := { u.sec.resp with tag := Config.kmac256 key (transcript t i) 256 "LK6424 CHAL" } } }

/-- An OPEN that no reason refuses takes the lowest free slot and answers its challenge. -/
theorem exec_openOp {r : MbReq} {role iface minSvn hwm nonce i : Nat} {s : State} (h : AsksOpenly s r)
    (hok : openRefusal (addR s F.SEC_COMMANDS 1) role iface minSvn = none)
    (hfree : (upto 16).find? (fun i => !(sess s i).isOpen && !(sess s i).pending) = some i) :
    let s1 := addR s F.SEC_COMMANDS 1
    let nd := (fresh s1).1 % 2 ^ 256
    exec (.openOp r role iface minSvn hwm nonce) s = .next (answerOpen (raiseLeaf (putSess (fresh s1).2 i
      (challengeOf s1 role iface minSvn hwm nonce nd s1.now (sess s1 i))) hwm) r i nd ((roleKey s1 role).getD 0)) := by
  refine next_of_openly h (by decide) rfl ?_
  have hfree' : (upto 16).find? (fun i => !(sess (addR s F.SEC_COMMANDS 1) i).isOpen &&
      !(sess (addR s F.SEC_COMMANDS 1) i).pending) = some i := hfree
  generalize addR s F.SEC_COMMANDS 1 = s1 at *
  simp -zeta only [hok, hfree']
  rfl

end Sys2Proof.Machine

namespace Sys2Proof

open Sys2Proof.Machine

/-- Settles O27: the request of each command passes the mailbox's checks, and the command's own condition picks its branch. -/
theorem openingASession : Obligations.OpeningASession := by
  unfold Obligations.OpeningASession
  refine ⟨?_, ?_, ?_, ?_, ?_⟩
  · intro r role iface minSvn hwm nonce i s h s1 hok hfree nd s2 s3 s4 u
    have hs2 : putSess (fresh s1).2 i (challengeOf s1 role iface minSvn hwm nonce ((fresh s1).1 % 2 ^ 256) s1.now (sess s1 i)) = s2 := rfl
    have hnd : (fresh s1).1 % 2 ^ 256 = nd := rfl
    rw [exec_openOp h hok hfree, hs2, hnd]
    rfl
  · intro r role iface minSvn hwm nonce reason s h hno
    refine next_of_openly h (by decide) rfl ?_
    simp only [hno]
  · intro r s hl hu hb h0 ht ho hp hq htag s1 ks
    refine next_of_live hl ((mailbox_proves [] _ _ _ hu hb h0 ht ho hp hq htag).trans ?_)
    have hkey : roleKey s1 (asker s r).role = roleKey s (asker s r).role := by
      simp only [roleKey, s1, putSess_roleKeys, addR_eq, putF_sec]
    have hsess : sess s1 (r.session % 16) = { asker s r with badRun := 0 } := sess_putSess _ _ _
    dsimp only [s1] at hkey hsess
    simp only [hsess, hkey]
    rfl
  · intro r s h
    exact next_of_asks h rfl
  · intro slot s hl hs hp ht
    exact next_of_guard hl (by rw [decide_eq_true hs, hp, decide_eq_true ht]; rfl) rfl

/-- Settles O28: with pair B serving and the key partition standing, each command's own condition picks its branch. -/
theorem keysOfTheLocksmith : Obligations.KeysOfTheLocksmith := by
  unfold Obligations.KeysOfTheLocksmith
  refine ⟨?_, ?_, ?_, ?_, ?_⟩
  · intro r role ct s h s1
    refine ⟨fun hr hf hlost hpuf hp hk => ?_, fun hbad => ?_⟩
    · have hsame : reg s1 F.SEC_STATE_PUF_OK = reg s F.SEC_STATE_PUF_OK := getF_putF_other _ _ _ _ _ _ _ _ _ _ (by decide)
      refine next_of_openly h (by decide) rfl ((if_neg ?_).trans ((if_neg (hsame ▸ hpuf)).trans (stored_of_up r 4 _ hp hk)))
      rintro (h' | h' | h')
      · omega
      · rw [show (addR s F.SEC_COMMANDS 1).sec = s.sec from rfl, hf] at h'
        exact absurd h' (by decide)
      · exact absurd (hlost.symm.trans h') (by decide)
    · exact next_of_openly h (by decide) rfl (if_pos hbad)
  · intro r role s h s1 hp hk hset s2
    refine next_of_asks h ((if_neg ?_).trans (stored_of_up r 5 _ hp hk))
    rintro ⟨h', _⟩
    rw [Option.isNone_iff_eq_none] at h'
    rw [h'] at hset
    exact absurd hset (by decide)
  · intro r keyId ct s h s1 hp hk hnew hroom k
    refine next_of_asks h ((stored_of_up r 0x20 _ hp hk).trans (if_neg ?_))
    rintro (h' | h')
    · exact absurd (hnew.symm.trans h') (by decide)
    · omega
  · intro r keyId s h s1 hp hk
    exact ⟨fun hu => next_of_asks h ((stored_of_up r 0x21 _ hp hk).trans (if_pos hu)),
      fun hu => next_of_asks h ((stored_of_up r 0x21 _ hp hk).trans (if_neg (by rw [hu]; decide)))⟩
  · intro s hl
    exact ⟨next_of_live hl rfl, fun hz hp hpuf => next_of_guard hl (by rw [hz, hp, hpuf]; rfl) rfl, fun ok => next_of_live hl rfl⟩

/-- Settles O29: the release and lock commands, each by the branch of its condition. -/
theorem releasesAndLocks : Obligations.ReleasesAndLocks := by
  unfold Obligations.ReleasesAndLocks
  refine ⟨fun r mask s h => next_of_asks h rfl, ?_, ?_, fun r slot first count s h => next_of_asks h rfl,
    fun r mask plan s h => next_of_asks h rfl, fun r s h => next_of_asks h rfl⟩
  · intro r mask s h s1
    refine ⟨fun hm hopen => next_of_asks h (if_neg ?_), fun hbad => next_of_asks h (if_pos ?_)⟩
    · rw [hopen, decide_eq_false (by omega)]
      decide
    · rcases hbad with hb | hb
      · rw [decide_eq_true hb]
        rfl
      · rw [hb, Bool.or_true]
  · intro r plan output count s h s1
    refine ⟨fun ho h1 h2 hp => next_of_asks h ((if_neg (by omega)).trans (if_neg ?_)), fun hbad => next_of_asks h (if_pos (by omega)),
      fun ho h1 h2 hp => next_of_asks h ((if_neg (by omega)).trans (if_pos ?_))⟩
    · rw [hp]
      decide
    · rw [hp]
      rfl

/-- Settles O30: with pair B serving, ATTEST goes by the leaves that are left and GET_CERT by its part. -/
theorem attestation : Obligations.Attestation := by
  unfold Obligations.Attestation
  refine ⟨?_, ?_, ?_⟩
  · intro r nonce s h s1 leaf hp
    refine ⟨fun hend => next_of_asks h ((serviced_of_up r 0x40 _ hp).trans (if_pos hend)), ?_⟩
    intro hleft hpart s2 body
    refine next_of_asks h ((serviced_of_up r 0x40 _ hp).trans ((if_neg (Nat.not_le.mpr hleft)).trans (if_neg ?_)))
    rintro ⟨hres, hfail⟩
    exact absurd ((hpart hres).symm.trans hfail) (by decide)
  · intro r part s h s1 hp
    exact next_of_asks h (serviced_of_up r 0x41 _ hp)
  · intro r part s h s1 hp
    exact next_of_openly h (by decide) rfl (serviced_of_up r 0x41 _ hp)

/-- Settles O31: with pair B serving, each command's own condition picks its branch; an unlisted code has no role that may give it. -/
theorem maintenanceCommands : Obligations.MaintenanceCommands := by
  unfold Obligations.MaintenanceCommands
  refine ⟨?_, ?_, ?_, ?_, ?_, ?_⟩
  · intro r ch row s h s1 hp
    exact next_of_asks h (serviced_of_up r 0x51 _ hp)
  · intro r s h s1 hp
    refine ⟨fun hout => next_of_asks h ((serviced_of_up r 0x52 _ hp).trans (if_pos ?_)),
      fun hin hc => next_of_asks h ((serviced_of_up r 0x52 _ hp).trans ((if_neg ?_).trans (if_pos hc))),
      fun hin hc => next_of_asks h ((serviced_of_up r 0x52 _ hp).trans ((if_neg ?_).trans (if_neg ?_)))⟩
    · rw [hout]
      rfl
    · rw [hin]
      decide
    · rw [hin]
      decide
    · rw [hc]
      decide
  · intro r on s h s1 hp
    refine ⟨?_, ?_, ?_⟩
    · rintro rfl
      exact next_of_asks h (serviced_of_up r 0x60 _ hp)
    · rintro rfl hph hby
      refine next_of_asks h ((serviced_of_up r 0x60 _ hp).trans ?_)
      dsimp only
      rw [if_neg (by decide), if_pos ⟨hph, hby⟩]
      rfl
    · rintro rfl hno
      refine next_of_asks h ((serviced_of_up r 0x60 _ hp).trans ?_)
      dsimp only
      rw [if_neg (by decide), if_neg fun hb => hno.elim (· hb.1) (· hb.2)]
  · intro r s h s1 hp hk s2 sec
    exact next_of_asks h (stored_of_up r 0x62 _ hp hk)
  · intro r addr len img t s h s1 hp hk
    rw [idleSlot_asked] at hk
    have hbody : ∀ body, stored (1 + idleSlot s) r 0x50 body s1 = body s1 := fun body => stored_of_up r 0x50 body hp hk
    refine ⟨fun hbad => next_of_asks h ((hbody _).trans (if_pos hbad)), fun h1 h2 hread => ?_, fun h1 h2 hread => ?_⟩
    · have hlen : ¬(len = 0 ∨ 294912 < len) := by omega
      refine next_of_asks h ((hbody _).trans ((if_neg hlen).trans ?_))
      rw [hread]
    · have hlen : ¬(len = 0 ∨ 294912 < len) := by omega
      refine next_of_asks h ((hbody _).trans ((if_neg hlen).trans ?_))
      rw [hread]
  · intro r code i s hl hu hb h0 ht ho hq htag
    exact next_of_live hl (mailbox_bars 9 id hu hb h0 ht ho hq htag (mbMay_unlisted code ho))

/-- Settles O32: REG_WRITE goes by its count, REEVE_SET by its pipeline; PLACEMENT_EDIT stages and takes the snapshot. -/
theorem configurationCommands : Obligations.ConfigurationCommands := by
  unfold Obligations.ConfigurationCommands
  refine ⟨?_, ?_, ?_⟩
  · intro r count writes s h s1
    exact ⟨fun h1 h2 h3 => next_of_asks h (if_neg (by omega)), fun hbad => next_of_asks h (if_pos hbad)⟩
  · intro r pipe cfg age period s h s1 hp
    exact ⟨fun hpipe => next_of_asks h ((serviced_of_up r 0x12 _ hp).trans (if_neg (by omega))),
      fun hpipe => next_of_asks h ((serviced_of_up r 0x12 _ hp).trans (if_pos (by omega)))⟩
  · intro r edits s h s1 hp
    exact next_of_asks h (serviced_of_up r 0x61 _ hp)

/-- Settles O33: INSTALL goes by its read, the end of an installation by the first reason, UNINSTALL by the plan's entry. -/
theorem planCommands : Obligations.PlanCommands := by
  unfold Obligations.PlanCommands
  refine ⟨?_, ?_, ?_⟩
  · intro r addr len img t s h s1 hp
    refine ⟨fun hread => next_of_asks h ((serviced_of_up r 0x22 _ hp).trans ?_),
      fun hread => next_of_asks h ((serviced_of_up r 0x22 _ hp).trans ?_)⟩
    · simp only [hread]
    · simp only [hread]
  · intro x i s hl hx hi hp
    have hinst : ∀ t, (if installReason s i x.img ≠ 0 then installEnds s x 0x205 (installReason s i x.img) else
        let s1 := planLast (commitPlan { s with sec := { s.sec with install := none } } i x.img) 0 0 i
        done_ s1 x.req 0x22 (le 2 (planIdAt s1 i))) = t → exec .installCommit s = .next t := by
      intro t e
      refine next_of_live hl ?_
      simp only [hx, hi]
      exact (if_pos (by rw [hp]; rfl)).trans e
    exact ⟨fun h0 => hinst _ (if_neg (not_not_intro h0)), fun hne => hinst _ (if_pos hne)⟩
  · intro r plan s h s1 hp
    refine ⟨fun hno => next_of_asks h ((serviced_of_up r 0x23 _ hp).trans (if_pos ?_)),
      fun hyes => next_of_asks h ((serviced_of_up r 0x23 _ hp).trans (if_neg ?_))⟩
    · rw [hno]
      rfl
    · rw [hyes]
      decide

end Sys2Proof
end

section
/-!
PROOFS. Contexts: the rows a context holds are those it was given, and a row that goes back to a bin reads as it was saved.
-/

namespace Sys2Proof.Machine

/-! ## A bin replaced -/

/-- Replacing a bin leaves the rest of the core. -/
theorem CoreS.setBin_eq (c : CoreS) (b : Bin) (m : Mem) :
    c.setBin b m = { c with wbin := (c.setBin b m).wbin, abin := (c.setBin b m).abin, pbin := (c.setBin b m).pbin } := by
  cases b <;> rfl

/-- The core with the bytes of a row in place, and the row written. -/
def CoreS.putRow (x : CoreS) (b : Bin) (n : Nat) (bytes : List Byte) : CoreS :=
  { x.setBin b ((x.bin b).write (n * b.row) bytes) with written := tset false x.written (rowKey b n) true }

theorem CoreS.bin_putRow_same (x : CoreS) (b : Bin) (n : Nat) (bytes : List Byte) :
    (x.putRow b n bytes).bin b = (x.bin b).write (n * b.row) bytes := by
  cases b <;> rfl

theorem CoreS.bin_putRow_other (x : CoreS) {b d : Bin} (n : Nat) (bytes : List Byte) (h : d ≠ b) :
    (x.putRow b n bytes).bin d = x.bin d := by
  cases b <;> cases d <;> simp [CoreS.putRow, CoreS.setBin, CoreS.bin] at h ⊢

/-- A row of a bin. -/
def CoreS.rowOf (x : CoreS) (b : Bin) (n : Nat) : List Byte := (x.bin b).read (n * b.row) b.row

/-- A row put in place reads as it was given. -/
theorem CoreS.rowOf_putRow_same (x : CoreS) {b : Bin} (n : Nat) {bytes : List Byte} (h : bytes.length = b.row) :
    (x.putRow b n bytes).rowOf b n = bytes := by
  rw [CoreS.rowOf, CoreS.bin_putRow_same, ← h]
  exact Mem.read_write _ _ _

/-- Reads of bytes whose codewords a write does not touch. -/
theorem Mem.read_write_apart (m : Mem) (a : Nat) (b : List Byte) (x n : Nat)
    (h : ∀ i < n, b.length = 0 ∨ (x + i) / 16 < a / 16 ∨ (a + b.length - 1) / 16 < (x + i) / 16) :
    (m.write a b).read x n = m.read x n := by
  refine List.map_congr_left fun y hy => ?_
  obtain ⟨h1, h2⟩ := (mem_rangeFrom x n y).mp hy
  have := h (y - x) (by omega)
  rw [Nat.add_sub_cancel' h1] at this
  exact Mem.byte_write_out m a b y this

/-- Any other row reads as before. -/
theorem CoreS.rowOf_putRow_other (x : CoreS) {b d : Bin} {n k : Nat} {bytes : List Byte} (hlen : bytes.length = b.row)
    (h : d ≠ b ∨ k ≠ n) : (x.putRow b n bytes).rowOf d k = x.rowOf d k := by
  by_cases hb : d = b
  · subst hb
    have hk : k ≠ n := h.resolve_left (not_not_intro rfl)
    rw [CoreS.rowOf, CoreS.bin_putRow_same, CoreS.rowOf]
    refine Mem.read_write_apart _ _ _ _ _ fun i hi => ?_
    rw [hlen]
    cases d <;> simp only [Bin.row] at hi ⊢ <;> omega
  · rw [CoreS.rowOf, CoreS.bin_putRow_other x n bytes hb, CoreS.rowOf]

/-! ## The rows of a context -/

/-- A context before its rows are stored. -/
def contextBase (c : CoreS) : CoreS := {
  regions := c.regions, tokens := c.tokens, loops := c.loops, pc := c.pc, codebook := c.codebook, itemTag := c.itemTag,
  resident := c.resident, item := c.item, rank := c.rank, launched := c.launched, modeOf := c.modeOf, blocked := c.blocked }

/-- A context stores its rows one after another. -/
theorem contextOf_eq (c : CoreS) (rows : List SavedRow) :
    contextOf c rows = rows.foldl (fun x r => x.putRow r.bin r.row r.bytes) (contextBase c) := by
  refine congrArg (fun f => rows.foldl f (contextBase c)) ?_
  funext x ⟨b, n, bytes⟩
  cases b <;> rfl

/-- Storing rows leaves the loop engine, the region pointers and the codebook. -/
theorem contextOf_keeps (c : CoreS) (rows : List SavedRow) : let x := contextOf c rows
    x.pc = c.pc ∧ x.loops = c.loops ∧ x.tokens = c.tokens ∧ x.regions = c.regions ∧ x.codebook = c.codebook ∧ x.rank = c.rank ∧
      x.launched = c.launched := by
  rw [contextOf_eq]
  refine foldl_keeps (fun x : CoreS => x.pc = c.pc ∧ x.loops = c.loops ∧ x.tokens = c.tokens ∧ x.regions = c.regions ∧
    x.codebook = c.codebook ∧ x.rank = c.rank ∧ x.launched = c.launched) _ (fun x r hx => ?_) rows _ ⟨rfl, rfl, rfl, rfl, rfl, rfl, rfl⟩
  unfold CoreS.putRow
  rw [CoreS.setBin_eq]
  exact hx

/-- Storing rows one after another: the rows written are those stored and those written before. -/
theorem written_foldl_putRow (rows : List SavedRow) (x : CoreS) (key : Nat) :
    tget false (rows.foldl (fun x r => x.putRow r.bin r.row r.bytes) x).written key = true ↔
      tget false x.written key = true ∨ ∃ r ∈ rows, rowKey r.bin r.row = key := by
  induction rows generalizing x with
  | nil => simp
  | cons r rows ih =>
    rw [List.foldl_cons, ih]
    have hput : tget false (x.putRow r.bin r.row r.bytes).written key = true ↔ tget false x.written key = true ∨ rowKey r.bin r.row = key := by
      rw [CoreS.putRow, tget_tset]
      by_cases h : key = rowKey r.bin r.row
      · simp [h]
      · simp [h, Ne.symm h]
    simp [hput, or_assoc]

theorem twf_written_foldl_putRow (rows : List SavedRow) (x : CoreS) (h : twf false x.written = true) :
    twf false (rows.foldl (fun x r => x.putRow r.bin r.row r.bytes) x).written = true :=
  foldl_keeps (fun x : CoreS => twf false x.written = true) _
    (fun x r hx => (twf_tset false x.written _ true hx : twf false (x.putRow r.bin r.row r.bytes).written = true)) rows x h

/-- Storing other rows leaves a row. -/
theorem rowOf_foldl_putRow_apart (rows : List SavedRow) (x : CoreS) (d : Bin) (k : Nat) (hlen : ∀ r ∈ rows, r.bytes.length = r.bin.row)
    (h : ∀ r ∈ rows, d ≠ r.bin ∨ k ≠ r.row) : (rows.foldl (fun x r => x.putRow r.bin r.row r.bytes) x).rowOf d k = x.rowOf d k := by
  induction rows generalizing x with
  | nil => rfl
  | cons r rows ih =>
    rw [List.foldl_cons, ih _ (fun q hq => hlen q (List.mem_cons_of_mem r hq)) (fun q hq => h q (List.mem_cons_of_mem r hq)),
      CoreS.rowOf_putRow_other x (hlen r List.mem_cons_self) (h r List.mem_cons_self)]

/-- Each of the different rows stored reads as it was given. -/
theorem rowOf_foldl_putRow (rows : List SavedRow) (x : CoreS) (hlen : ∀ r ∈ rows, r.bytes.length = r.bin.row)
    (hp : rows.Pairwise (fun a b => a.bin ≠ b.bin ∨ a.row ≠ b.row)) {q : SavedRow} (hq : q ∈ rows) :
    (rows.foldl (fun x r => x.putRow r.bin r.row r.bytes) x).rowOf q.bin q.row = q.bytes := by
  induction rows generalizing x with
  | nil => exact absurd hq List.not_mem_nil
  | cons r rows ih =>
    obtain ⟨hr, hrest⟩ := List.pairwise_cons.mp hp
    have hlen' : ∀ q ∈ rows, q.bytes.length = q.bin.row := fun q hq => hlen q (List.mem_cons_of_mem r hq)
    rw [List.foldl_cons]
    rcases List.mem_cons.mp hq with rfl | hq
    · rw [rowOf_foldl_putRow_apart rows _ _ _ hlen' hr]
      exact CoreS.rowOf_putRow_same x q.row (hlen q List.mem_cons_self)
    · exact ih _ hlen' hrest hq

/-- A number below every number of a table reads the default. -/
theorem tget_of_above {α : Type} [DecidableEq α] {d : α} {m : Tbl α} {n k : Nat} (h : twfAbove d (some n) m = true) (hk : k ≤ n) :
    tget d m k = d := by
  induction m generalizing n with
  | nil => rfl
  | cons e m ih =>
    obtain ⟨j, w⟩ := e
    simp only [twfAbove, Bool.and_eq_true, decide_eq_true_eq] at h
    rw [tget, if_neg (by omega), ih h.2 (by omega)]

/-- An entry of a canonical table is a number that reads other than the default. -/
theorem mem_of_twfAbove {α : Type} [DecidableEq α] {d : α} {m : Tbl α} {b : Option Nat} (h : twfAbove d b m = true) (k : Nat) (v : α) :
    (k, v) ∈ m ↔ tget d m k = v ∧ v ≠ d := by
  induction m generalizing b with
  | nil => simp [tget, eq_comm]
  | cons e m ih =>
    obtain ⟨j, w⟩ := e
    simp only [twfAbove, Bool.and_eq_true, decide_eq_true_eq] at h
    obtain ⟨⟨_, hw⟩, hm⟩ := h
    rw [List.mem_cons, ih hm, tget]
    by_cases hj : j = k
    · subst hj
      have habove := tget_of_above hm (Nat.le_refl j)
      rw [if_pos rfl, habove, Prod.mk.injEq]
      constructor
      · rintro (⟨-, rfl⟩ | ⟨rfl, hne⟩)
        · exact ⟨rfl, hw⟩
        · exact absurd rfl hne
      · rintro ⟨rfl, -⟩
        exact .inl ⟨rfl, rfl⟩
    · rw [if_neg hj, Prod.mk.injEq]
      exact ⟨fun h => h.resolve_left fun he => hj he.1.symm, .inr⟩

/-- The row a key names: the bins' keys do not meet. -/
theorem rowKey_names {b : Bin} {n : Nat} (h : n < 4096) :
    (if rowKey b n < 4096 then Bin.weight else if rowKey b n < 8192 then .act else .psum) = b ∧ rowKey b n % 4096 = n := by
  cases b
  · have : rowKey .weight n = n := by simp [rowKey, Bin.num]
    exact ⟨if_pos (by omega), by omega⟩
  · have : rowKey .act n = 4096 + n := by simp [rowKey, Bin.num]
    exact ⟨(if_neg (by omega)).trans (if_pos (by omega)), by omega⟩
  · have : rowKey .psum n = 8192 + n := by simp [rowKey, Bin.num]
    exact ⟨(if_neg (by omega)).trans (if_neg (by omega)), by omega⟩

/-- A saved row, as a context's key and bins give it. -/
def CoreS.savedRow (x : CoreS) (key : Nat) : SavedRow :=
  let b : Bin := if key < 4096 then .weight else if key < 8192 then .act else .psum
  ⟨b, key % 4096, x.rowOf b (key % 4096)⟩

theorem CoreS.savedRow_rowKey (x : CoreS) {b : Bin} {n : Nat} (h : n < 4096) : x.savedRow (rowKey b n) = ⟨b, n, x.rowOf b n⟩ := by
  obtain ⟨hb, hn⟩ := rowKey_names (b := b) h
  simp only [CoreS.savedRow, hb, hn]

theorem CoreS.savedRows_eq (x : CoreS) : x.savedRows = x.written.map fun e => x.savedRow e.1 := rfl

/-- A context holds exactly the different rows it was given. -/
theorem mem_savedRows_contextOf {c : CoreS} {rows : List SavedRow} (h : ∀ q ∈ rows, q.row < 4096 ∧ q.bytes.length = q.bin.row)
    (hp : rows.Pairwise (fun a b => a.bin ≠ b.bin ∨ a.row ≠ b.row)) (q : SavedRow) : q ∈ (contextOf c rows).savedRows ↔ q ∈ rows := by
  rw [contextOf_eq, CoreS.savedRows_eq, List.mem_map]
  have hsaved : ∀ r ∈ rows, (rows.foldl (fun x r => x.putRow r.bin r.row r.bytes) (contextBase c)).savedRow (rowKey r.bin r.row) = r :=
    fun r hr => by rw [CoreS.savedRow_rowKey _ (h r hr).1, rowOf_foldl_putRow rows _ (fun q hq => (h q hq).2) hp hr]
  have hmem := mem_of_twfAbove (twf_written_foldl_putRow rows (contextBase c) rfl)
  constructor
  · rintro ⟨⟨k, v⟩, he, rfl⟩
    obtain ⟨hk, hv⟩ := (hmem k v).mp he
    rw [eq_true_of_ne_false hv] at hk
    obtain h0 | ⟨r, hr, rfl⟩ := (written_foldl_putRow rows (contextBase c) k).mp hk
    · exact absurd h0 Bool.false_ne_true
    · rw [hsaved r hr]
      exact hr
  · intro hq
    refine ⟨(rowKey q.bin q.row, true), (hmem _ _).mpr ⟨?_, Bool.noConfusion⟩, hsaved q hq⟩
    exact (written_foldl_putRow rows (contextBase c) _).mpr (.inr ⟨q, hq, rfl⟩)

/-! ## Rows that go back -/

@[simp] theorem core_modCore_same (s : State) (p : Nat) (f : CoreS → CoreS) : core (modCore s p f) p = f (core s p) := by
  simp only [core, modCore, tmod, tget_tset_same]

/-- A row with a place in a bin is put there. -/
theorem writeRows_of_place {s : State} {p n : Nat} {it : Item} {q : SavedRow} (h : rowPlace s p it q.bin q.row = some n) :
    core (writeRows s p it [q]) p = (core s p).putRow q.bin n q.bytes := by
  simp only [writeRows, List.foldl_cons, List.foldl_nil, h]
  exact core_modCore_same s p _

end Sys2Proof.Machine

namespace Sys2Proof

open Sys2Proof.Machine

/-- Settles O44: storing a row leaves the rest of a context and every other row, and a row's key names its place. -/
theorem aSaveKeepsWhatWasLive : Obligations.ASaveKeepsWhatWasLive := by
  unfold Obligations.ASaveKeepsWhatWasLive
  refine ⟨?_, fun c rows h hp q => mem_savedRows_contextOf h hp q, ?_⟩
  · intro c x rows plan mask res r
    obtain ⟨hpc, hloops, htok, hreg, hcode, hrank, hl⟩ := contextOf_keeps c rows
    exact ⟨hpc, hloops, htok, hreg, hcode, hrank, hl, rfl, rfl, fun b => by cases b <;> rfl, id⟩
  · intro s p n it q hplace hlen t
    simp only [t, writeRows_of_place hplace]
    exact ⟨CoreS.rowOf_putRow_same _ n hlen, tget_tset_same false (Machine.core s p).written _ true⟩

end Sys2Proof
end

section
/-!
PROOFS. The loop engine: what an issue leaves of a core, and the effect of each instruction.
-/

namespace Sys2Proof.Machine

/-! ## What an issue leaves -/

/-- Two cores agree in their loop engine's position and request, and in the item they run. -/
def CoreS.SameRun (c d : CoreS) : Prop :=
  d.loops = c.loops ∧ d.preempt = c.preempt ∧ d.rank = c.rank ∧ d.launched = c.launched ∧ d.pc = c.pc

theorem CoreS.SameRun.refl (c : CoreS) : c.SameRun c := ⟨rfl, rfl, rfl, rfl, rfl⟩

/-- Replacing a bin leaves the loop engine. -/
theorem CoreS.SameRun.setBin {c d : CoreS} (h : c.SameRun d) (b : Bin) (m : Mem) : c.SameRun (d.setBin b m) := by
  cases b <;> exact h

/-- Writing rows back leaves the loop engine. -/
theorem CoreS.sameRun_writeBackRows (c : CoreS) (n : Nat) : c.SameRun (c.writeBackRows n) :=
  foldl_keeps (fun d : CoreS => c.SameRun d) _ (fun d e h => h.setBin e.1 ((d.bin e.1).writeBack (e.2 * e.1.row) e.1.row)) (c.wbq.take n) c
    (CoreS.SameRun.refl c)

/-- Phase-3 cycles given to the write-back queue touch a handover alone. -/
theorem usePhase3_winnow (s : State) (p n : Nat) : ∃ w, usePhase3 s p n = { s with winnow := w } := by
  unfold usePhase3
  split
  · split
    · exact ⟨_, rfl⟩
    · exact ⟨s.winnow, rfl⟩
  · exact ⟨s.winnow, rfl⟩

/-- Writing waiting rows back touches the core and a handover alone. -/
theorem flushBins_touches (s : State) (p : Nat) : ∃ w cs, flushBins s p = { s with winnow := w, cores := cs } := by
  have h : ∀ (n : Nat) (f : CoreS → CoreS), ∃ w cs, modCore (usePhase3 s p n) p f = { s with winnow := w, cores := cs } := fun n f => by
    obtain ⟨w, hw⟩ := usePhase3_winnow s p n
    rw [hw]
    exact ⟨w, _, rfl⟩
  exact h _ _

/-- An issue touches the core and a handover alone. -/
theorem issueOn_touches (s : State) (p : Nat) (c : TileCmd) (e : Engine) (n : Nat) :
    ∃ w cs, issueOn s p c e n = { s with winnow := w, cores := cs } := by
  obtain ⟨w, cs, h⟩ := flushBins_touches s p
  rw [issueOn, h]
  exact ⟨w, _, rfl⟩

@[simp] theorem issueOn_now (s : State) (p : Nat) (c : TileCmd) (e : Engine) (n : Nat) : (issueOn s p c e n).now = s.now := by
  obtain ⟨w, cs, h⟩ := issueOn_touches s p c e n
  rw [h]
  rfl

@[simp] theorem issueOn_sems (s : State) (p : Nat) (c : TileCmd) (e : Engine) (n : Nat) : (issueOn s p c e n).sems = s.sems := by
  obtain ⟨w, cs, h⟩ := issueOn_touches s p c e n
  rw [h]

theorem core_flushBins (s : State) (p : Nat) : (core s p).SameRun (core (flushBins s p) p) := by
  have hcore : ∀ m, core (usePhase3 s p m) p = core s p := fun m => by
    obtain ⟨w, h⟩ := usePhase3_winnow s p m
    rw [h]
    rfl
  simp only [flushBins, core_modCore_same, hcore]
  exact CoreS.sameRun_writeBackRows (core s p) _

/-- After an issue the core stands behind the instruction, in the same loops. -/
theorem core_issueOn (s : State) (p : Nat) (c : TileCmd) (e : Engine) (n : Nat) : let k := core (issueOn s p c e n) p
    k.loops = (core s p).loops ∧ k.preempt = (core s p).preempt ∧ k.rank = (core s p).rank ∧ k.launched = (core s p).launched ∧
      k.pc = (core s p).pc + 1 := by
  obtain ⟨hl, hp, hr, hla, hpc⟩ := core_flushBins s p
  rw [issueOn, issued, core_modCore_same, ← hpc, ← hl, ← hp, ← hr, ← hla]
  generalize core (flushBins s p) p = d
  cases e <;> exact ⟨rfl, rfl, rfl, rfl, rfl⟩

/-! ## Commands of the loop engine -/

/-- An instruction of the loop engine that issues answers its effect. -/
theorem next_of_issues {s0 s t : State} {p : Nat} {it : Item} {c : TileCmd} {n : Nat} {eff : Nat → State → State} {f : State → State}
    (h : Issues s0 p c .loop it s) (hf : f s0 = runLoop s0 p c n eff) (e : eff it.key (issueOn s p c .loop n) = t) :
    (Host.Outcome.next (whenLive s0 f) : Out) = .next t :=
  next_of_live h.1 (hf.trans ((runLoop_issues n eff h).trans e))

/-- A WAIT that may issue goes by what it waits on. -/
theorem waitIns_issues {s0 s : State} {p : Nat} {it : Item} {w : WaitOn} {tok : Toks}
    (h : Issues s0 p { ins := .wait w, tok := tok } .loop it s) : waitIns s0 p w tok =
      let cmd : TileCmd := { ins := .wait w, tok := tok }
      match w with
      | .token t => if (core s p).tokenSet (2 * s.now) t then issueOn s p cmd .loop 2 else blockOn s p it.key none
      | .tally t => if (core s p).launched + t ≤ s.now then issueOn s p cmd .loop 2 else blockOn s p it.key none
      | .sem n => waitSem s p it.key n cmd
      | .semScratch r => waitSem (scratchOf s p r).1 p it.key ((scratchOf s p r).2 % 4096) cmd := by
  obtain ⟨_, rfl, hi, ho⟩ := h
  unfold waitIns
  simp only [(itemOn_item hi).1]
  exact (if_pos ho).trans (by cases w <;> rfl)

/-- What an END does for item `k` once it has issued on core `p`. -/
def endEffect (p k : Nat) (s : State) : State :=
  let s1 := modItem s k (fun i => { i with ended := i.ended ++ [(core s p).rank] })
  match item? s1 k with
  | none => s1
  | some it =>
    if it.ended.length = it.cores.length then finishItem s1 k
    else match (core s1 p).preempt with
      | some t => if t ≤ s.now then stopCore s1 p [] else s1
      | none => s1

/-- An END that issues with every engine idle takes its effect. -/
theorem exec_endOp_issues {s0 s : State} {p : Nat} {it : Item} {tok : Toks} (h : Issues s0 p { ins := .end_, tok := tok } .loop it s)
    (hidle : enginesIdle s p = true) :
    exec (.endOp p tok) s0 = .next (endEffect p it.key (issueOn s p { ins := .end_, tok := tok } .loop 2)) := by
  have hissue := runLoop_issues 2 (endEffect p) h
  obtain ⟨hl, rfl, _⟩ := h
  exact next_of_live hl ((if_pos hidle).trans hissue)

@[simp] theorem sem_modSem_same (s : State) (n : Nat) (f : Sem → Sem) : sem (modSem s n f) n = f (sem s n) := by
  simp only [sem, modSem, tmod, tget_tset_same]

@[simp] theorem sem_modItem (s : State) (k : Nat) (f : Item → Item) (n : Nat) : sem (modItem s k f) n = sem s n := rfl

/-- A signal raises its semaphore by one. -/
theorem sem_signalSem (s : State) (n k : Nat) : (sem (signalSem s n (some k)) n).val = ((sem s n).val + 1) % 2 ^ 32 := by
  unfold signalSem
  simp only
  split <;> simp only [sem_modItem, sem_modSem_same]

end Sys2Proof.Machine

namespace Sys2Proof

open Sys2Proof.Machine

/-- Settles O38: each instruction's effect in the state of its issue, which leaves the core's loops and request. -/
theorem loopEngine : Obligations.LoopEngine := by
  unfold Obligations.LoopEngine
  intro s0 s p it tok
  refine ⟨?_, ?_, ?_, ?_, ?_, ?_, ?_, ?_, ?_, ?_⟩
  · intro bin r base len circ c h
    exact next_of_issues h rfl rfl
  · intro n strides c h
    exact next_of_issues h rfl rfl
  · intro c h
    obtain ⟨hl, _, _, _, hpc⟩ := core_issueOn s p c .loop 0
    refine ⟨_, next_of_issues h rfl rfl, fun f rest hf hleft => ?_, fun f rest hf hleft => ?_⟩
    · simp only [core_modCore_same, hl, hf, Nat.ne_of_gt hleft, if_false, and_self]
    · simp only [core_modCore_same, hl, hf, hleft, if_true, hpc, and_self]
  · intro n c h
    exact ⟨fun ht => next_of_live h.1 ((waitIns_issues h).trans (if_pos ht)),
      fun ht => next_of_live h.1 ((waitIns_issues h).trans (if_neg (by rw [ht]; decide)))⟩
  · intro n c h
    exact ⟨fun ht => next_of_live h.1 ((waitIns_issues h).trans (if_pos ht)),
      fun ht => next_of_live h.1 ((waitIns_issues h).trans (if_neg (Nat.not_le.mpr ht)))⟩
  · intro n c h
    exact ⟨fun hv => next_of_live h.1 ((waitIns_issues h).trans (if_neg hv)),
      fun hv => next_of_live h.1 ((waitIns_issues h).trans (if_pos hv))⟩
  · intro r c h
    exact next_of_live h.1 (waitIns_issues h)
  · intro n c h t
    refine ⟨next_of_issues h rfl rfl, ?_⟩
    rw [show (sem t n).val = _ from sem_signalSem _ n it.key]
    simp only [sem, issueOn_sems]
  · intro live c h s1
    have hpre : (Machine.core s1 p).preempt = (Machine.core s p).preempt := by
      simp only [s1, core_modCore_same, (core_issueOn s p c .loop 2).2.1]
    refine ⟨fun hn => next_of_issues h rfl ?_, fun t ht hlt => next_of_issues h rfl ?_, fun t ht hle => next_of_issues h rfl ?_⟩
    · simp only [s1] at hpre
      simp only [hpre, hn]
      rfl
    · simp only [s1] at hpre
      simp only [hpre, ht, issueOn_now]
      exact if_neg (Nat.not_le.mpr hlt)
    · simp only [s1] at hpre
      simp only [hpre, ht, issueOn_now]
      exact if_pos hle
  · intro c h hidle s1 x hx
    obtain ⟨_, hp, hr, _, _⟩ := core_issueOn s p c .loop 2
    have hend := exec_endOp_issues h hidle
    simp only [s1, c] at hx hr
    simp only [endEffect, hr, hx] at hend
    refine ⟨fun hall => hend.trans (congrArg Host.Outcome.next (if_pos hall)),
      fun hnot hn => hend.trans (congrArg Host.Outcome.next ((if_neg hnot).trans ?_))⟩
    have hpre : (Machine.core s1 p).preempt = none := hp.trans hn
    simp only [s1, c] at hpre
    simp only [hpre]
    rfl

end Sys2Proof
end

section
/-!
PROOFS. The vector instructions, and pooling and tensor crop-and-resize at their corners.
-/

namespace Sys2Proof.Machine

/-! ## Vector operations without an operator descriptor -/

/-- What a vector operation reads, as operands. -/
def VecOp.opers (op : VecOp) : List (Oper × Nat) := op.reads.map (fun x => (.bin x.1, x.2))

/-- A plain operation that issues with its operands there and its room free has its result at its result place. -/
theorem runCmd_plain {s0 s : State} {p : Nat} {it : Item} {op : VecOp} {tok : Toks} (hrun : vecRun s p it op = plainRun s p op)
    (hrefuses : vecRefuses s it op = false) (hready : vecReady s p op = true) (h : Issues s0 p { ins := .vec op, tok := tok } .vector it s)
    (hf : Feeds s p it op.opers [op.dest]) :
    runCmd s0 p { ins := .vec op, tok := tok } .vector false = effectOn s p it { ins := .vec op, tok := tok } .vector
      (psumLead s p op.reads + op.cycles) op.opers (resultAt p op.dest.1 op.eval) := by
  have hins : insRun s p it { ins := .vec op, tok := tok } false = plainRun s p op := hrun
  have hfeeds := runCmd_feeds false h hrefuses hready (by rw [hins]; exact hf)
  rw [hins] at hfeeds
  exact hfeeds

/-- A conversion with an output map that issues with its operands there and its room free has its effect. -/
theorem runCmd_mapped {s0 s : State} {p : Nat} {it : Item} {op : VecOp} {m : OutMap} {d : OpDesc} {tok : Toks}
    (hrun : vecRun s p it op = mappedRun s p it op m d) (hrefuses : vecRefuses s it op = false) (hready : vecReady s p op = true)
    (h : Issues s0 p { ins := .vec op, tok := tok } .vector it s)
    (hf : Feeds s p it (mappedRun s p it op m d).rd (mappedRun s p it op m d).wr) :
    runCmd s0 p { ins := .vec op, tok := tok } .vector false = effectOn s p it { ins := .vec op, tok := tok } .vector
      (mappedRun s p it op m d).cycles (mappedRun s p it op m d).rd (mappedRun s p it op m d).post := by
  have hins : insRun s p it { ins := .vec op, tok := tok } false = mappedRun s p it op m d := hrun
  have hfeeds := runCmd_feeds false h hrefuses hready (by rw [hins]; exact hf)
  rw [hins] at hfeeds
  exact hfeeds

/-! ## The corners of crop-and-resize -/

/-- A header is refused when its count, its output size or its shift is out of range (R150). -/
theorem CropHdr.refused_iff (hd : CropHdr) :
    hd.refused = true ↔ 4096 < hd.count ∨ hd.ow = 0 ∨ hd.oh = 0 ∨ 64 < hd.ow ∨ 64 < hd.oh ∨ 6 < hd.sh := by
  simp only [CropHdr.refused, inRange, Bool.or_eq_true, Bool.not_eq_true', Bool.and_eq_false_iff, decide_eq_true_eq, decide_eq_false_iff_not]
  omega

/-- A crop-and-resize whose header does not pass, or that asks for nothing, reads its header alone. -/
theorem cropRun_header {s : State} {p : Nat} {it : Item} {i : Nat} {d : OpDesc} {bl : BinRef} (x y : BinRef)
    (h : (cropHdrOf (peekList s p bl 32).bytes).refused = true ∨ (cropHdrOf (peekList s p bl 32).bytes).count = 0 ∨
      (opShape s it i).1 = 0 ∨ (opShape s it i).2 = 0) :
    cropRun s p it i d x bl y = {
      cycles := 2
      rd := [(.bin bl, 32)]
      post := cropPost p i d (d.layout (x.offset (core s p)) (opShape s it i).1 (opShape s it i).2) (opShape s it i).1
        (opShape s it i).2 x y } :=
  if_pos (.inr h)

end Sys2Proof.Machine

namespace Sys2Proof

open Sys2Proof.Machine

/-- Settles O34: every operation runs without a descriptor, or with the output map it names. -/
theorem vectorInstructions : Obligations.VectorInstructions := by
  unfold Obligations.VectorInstructions
  intro s0 s p n it tok x x1 x2 x3 y
  refine ⟨?_, ?_, ?_, ?_, ?_, ?_, ?_, ?_, ?_, ?_, ?_, ?_, ?_, ?_, ?_, ?_, ?_, ?_⟩
  · intro fmt c h hf
    exact next_of_live h.1 (runCmd_plain rfl rfl rfl h hf)
  · intro fmt lo hi c h hf
    exact next_of_live h.1 (runCmd_plain rfl rfl rfl h hf)
  · intro fmt c h hf
    exact next_of_live h.1 (runCmd_plain rfl rfl rfl h hf)
  · intro fmt c h hf
    exact next_of_live h.1 (runCmd_plain rfl rfl rfl h hf)
  · intro fmt ps c h hf
    exact next_of_live h.1 (runCmd_plain rfl rfl rfl h hf)
  · intro fmt c h hf
    exact next_of_live h.1 (runCmd_plain rfl rfl rfl h hf)
  · intro fmt c h hf
    exact next_of_live h.1 (runCmd_plain rfl rfl rfl h hf)
  · intro src dst c h hf
    exact next_of_live h.1 (runCmd_plain rfl rfl rfl h hf)
  · intro src c h hf
    exact next_of_live h.1 (runCmd_plain rfl rfl rfl h hf)
  · intro fmt c h hf
    exact next_of_live h.1 (runCmd_plain rfl rfl rfl h hf)
  · intro fmt sc clp i16 c ops rd h hf
    cases sc <;> exact next_of_live h.1 (runCmd_plain rfl rfl rfl h hf)
  · intro c h hf
    exact next_of_live h.1 (runCmd_plain rfl rfl rfl h hf)
  · intro q c h hf
    exact next_of_live h.1 (runCmd_plain rfl rfl rfl h hf)
  · intro src scale dst c h hf
    exact next_of_live h.1 (runCmd_plain rfl rfl rfl h hf)
  · intro eps c h hf
    exact next_of_live h.1 (runCmd_plain rfl rfl rfl h hf)
  · intro q c rd hq h hf
    have hdest : (VecOp.boxDecode q x1 x2 x3 y).dest =
        (.bin y, 16 + 24 * (if q.cap < q.anchors then q.cap else q.anchors)) := by
      simp only [VecOp.dest, hq]
    have hplain := runCmd_plain (op := .boxDecode q x1 x2 x3 y) rfl rfl rfl h (by rw [hdest]; exact hf)
    rw [hdest] at hplain
    exact next_of_live h.1 hplain
  · intro src dst m d op h hd r hf
    have hrun : vecRun s p it op = mappedRun s p it op m d := by
      simp only [vecRun, op, VecOp.oper, VecOp.outMap, Option.bind_some, hd, Option.map_some]
      rfl
    exact next_of_live h.1 (runCmd_mapped hrun rfl rfl h hf)
  · intro src m d op h hd r hf
    have hrun : vecRun s p it op = mappedRun s p it op m d := by
      simp only [vecRun, op, VecOp.oper, VecOp.outMap, Option.bind_some, hd, Option.map_some]
      rfl
    exact next_of_live h.1 (runCmd_mapped hrun rfl rfl h hf)

/-- Settles O39: an input that is too large refuses its operator, an empty output or a header that asks for nothing leaves the run of
2 cycles. -/
theorem operatorCorners : Obligations.OperatorCorners := by
  unfold Obligations.OperatorCorners
  intro s0 s p i n fmt ps x x2 x3 y tok it d hd h w cmax cadd cfma nothing
  have hmax : VecOp.Pools i x y (.max fmt n x x2 y (some i)) := .max ..
  have hadd : VecOp.Pools i x y (.add fmt ps n x x2 y (some i)) := .add ..
  refine ⟨fun hl => ⟨fun hi => ?_, fun hi => ?_, fun hi => ?_⟩, fun hl h0 => ⟨fun hi => ?_, fun hi => ?_⟩, ?_, ?_⟩
  · rw [exec_max_of_live _ _ _ _ _ _ _ _ hi.1, hmax.runCmd_tooLarge hi hd hl]
  · rw [exec_add_of_live _ _ _ _ _ _ _ _ _ hi.1, hadd.runCmd_tooLarge hi hd hl]
  · rw [exec_fusedMultiplyAdd_of_live _ _ _ _ _ _ _ _ _ hi.1,
      runCmd_refuses false hi ((insRefuses_of_oper tok rfl hd).trans hl)]
  · rw [exec_max_of_live _ _ _ _ _ _ _ _ hi.1,
      hmax.runCmd_feeds hi hd hl (by rw [poolRun_empty x y h0]; exact feeds_nil s p it), poolRun_empty x y h0]
  · rw [exec_add_of_live _ _ _ _ _ _ _ _ _ hi.1,
      hadd.runCmd_feeds hi hd hl (by rw [poolRun_empty x y h0]; exact feeds_nil s p it), poolRun_empty x y h0]
  · intro hdr hi hl hready hcorner hf
    have hasks : hdr.refused = true ∨ hdr.count = 0 ∨ h = 0 ∨ w = 0 := by
      rw [CropHdr.refused_iff]
      omega
    have hrun : insRun s p it cfma false = _ := (insRun_fma hd p fmt n x x2 x3 y tok false).trans (cropRun_header x y hasks)
    rw [exec_fusedMultiplyAdd_of_live _ _ _ _ _ _ _ _ _ hi.1,
      runCmd_feeds false hi ((insRefuses_of_oper tok rfl hd).trans hl) hready (by rw [hrun]; exact hf), hrun]
  · intro l b bs t hdr
    refine ⟨fun hbad => if_pos ((CropHdr.refused_iff hdr).mpr hbad), fun how1 how hoh1 hoh hsh hc hnone => ?_⟩
    have hpass : hdr.refused ≠ true := by
      rw [CropHdr.refused_eq_false hc ⟨how1, how⟩ ⟨hoh1, hoh⟩ hsh]
      decide
    exact (if_neg hpass).trans (if_pos hnone)

end Sys2Proof
end

section
/-!
PROOFS. The array's and the loader's instructions, and the landing of a load in flight.
-/

namespace Sys2Proof.Machine

/-! ## Operands in the Granary -/

/-- An instruction with an operand or a result in the Granary does not have its effect at once: it goes in slots. -/
theorem not_feeds_of_gran {s : State} {p : Nat} {it : Item} {rd wr : List (Oper × Nat)} {g : GranRef} {n : Nat}
    (h : (Oper.gran g, n) ∈ rd ++ wr) : ¬Feeds s p it rd wr := by
  intro hf
  have hany : (rd ++ wr).any (fun x => x.1.isGran) = true := List.any_eq_true.mpr ⟨_, h, rfl⟩
  exact Bool.false_ne_true (hf.2.2.symm.trans hany)

/-- An instruction without operands whose effect writes nothing has that effect on the state of its issue. -/
theorem effectOn_nil (s : State) (p : Nat) (it : Item) (c : TileCmd) (e : Engine) (n : Nat) (eff : Item → State → State) :
    effectOn s p it c e n [] (fun it _ t => (eff it t, [])) = eff it (issueOn s p c e n) := rfl

/-! ## The pieces of a linear operand of one slot -/

/-- What a read meets on its own means the same for the item as after reads that met nothing. -/
theorem afterBins_empty_join (s : State) (p k : Nat) (i : ReadInfo) :
    afterBins s p k (ReadInfo.join {} i) = afterBins s p k i := by
  obtain ⟨ce, ue, poison, dp, dark, un, la, ls, gran, hbm⟩ := i
  simp only [ReadInfo.join, Nat.zero_add, Bool.false_or, Option.or_none, afterBins]

/-- Nothing left to read: the flight stays as it is. -/
theorem flightReads_nil {p : Nat} {it : Item} {f : Flight} (n : Nat) (s : State) (h : f.rd = []) : flightReads p it n s f = (s, f) := by
  cases n with
  | zero => rfl
  | succ n => simp only [flightReads, h]

/-- Nothing left to write: the flight stays as it is. -/
theorem flightWrites_nil {p : Nat} {it : Item} {f : Flight} (n : Nat) (s : State) (h : f.out = []) :
    flightWrites p it n s f = (s, f) := by
  cases n with
  | zero => rfl
  | succ n => simp only [flightWrites, h]

/-- A linear Granary range of at most one granule a bank stands there whole, and always did. -/
theorem availRead_slot {s : State} {p : Nat} {it : Item} {g : GranRef} {len : Nat} (hcirc : (granSpan s p it g).circ = none)
    (hwidth : cdiv len 64 ≤ (granSpan s p it g).width) :
    availRead s p it (.gran g) len = { bytes := len, since := 0, next := g.nextStripe, cycles := 0 } := by
  have hready : granReady s (p / 9) (granSpan s p it g) (cdiv len 64) = cdiv len 64 := by
    simp only [granReady, hcirc]
  have hlen : ¬64 * cdiv len 64 < len := by
    unfold cdiv
    omega
  simp only [availRead, hcirc, if_neg (Nat.not_lt.mpr hwidth), hready, if_neg hlen, Option.map_none, Option.getD_none]

/-- A slot that finds its granules there waits for none. -/
theorem noteSlots_zero (s : State) (p : Nat) (it : Item) (slack before : Nat) : noteSlots s p it slack before 0 = s :=
  if_pos (Nat.sub_self _)

/-- A flight whose slot has come reads a linear Granary range that one slot moves. -/
theorem flightReads_slot {s : State} {p : Nat} {it : Item} {f : Flight} {g : GranRef} {len : Nat} (n : Nat)
    (hrd : f.rd = [(.gran g, len)]) (hpart : f.part = []) (hlen : 0 < len) (hslot : f.slotAt ≤ s.now)
    (hcirc : (granSpan s p it g).circ = none) (hwidth : cdiv len 64 ≤ (granSpan s p it g).width) :
    flightReads p it (n + 1) s f = ((readOper s p it (.gran g, len)).1, { f with
      rd := [], got := f.got ++ [(readOper s p it (.gran g, len)).2.bytes], part := []
      info := f.info.join (readOper s p it (.gran g, len)).2.info, slotAt := f.slotAt + 16 }) := by
  have hempty : ¬(len = 0 ∧ 0 < len) := by omega
  have hnow : f.slot s p 0 = f.slotAt := if_pos (Nat.zero_le _)
  have hwait : ∀ k, noteSlots s p it g.slack k ((f.slotAt - f.slotAt) / 16) = s := fun k => by
    rw [Nat.sub_self]
    exact noteSlots_zero s p it g.slack k
  have htook : f.tookSlot f.slotAt = { f with slotAt := f.slotAt + 16 } := by
    simp only [Flight.tookSlot, Nat.sub_self, Nat.zero_div, Nat.mul_zero, Nat.add_zero]
  unfold flightReads
  simp only [hrd, availRead_slot hcirc hwidth, if_neg hempty, hnow, if_neg (Nat.not_lt.mpr hslot), hwait, htook, Nat.le_refl, if_true, hpart,
    List.nil_append]
  rw [flightReads_nil _ _ rfl]

/-- A flight writes the bytes of a linear bin region at its end. -/
theorem flightWrites_linear {s : State} {p : Nat} {it : Item} {f : Flight} {x : BinRef} {b : List Byte} (n : Nat)
    (hout : f.out = [(.bin x, b)]) (hcirc : ((core s p).region x.bin x.reg).circ = false) :
    flightWrites p it (n + 1) s f = (writeOper s p it (.bin x, b) f.endAt, { f with out := [] }) := by
  have hempty : ¬(b.length = 0 ∧ 0 < b.length) := by omega
  unfold flightWrites
  simp only [hout, availWrite, hcirc, Bool.false_eq_true, if_false, if_neg hempty, Nat.zero_sub, noteBubbles, if_true, Nat.add_zero,
    List.take_length, Nat.le_refl]
  rw [flightWrites_nil _ _ rfl]

/-! ## A flight that lands -/

/-- A flight that has read its operands, and whose reads let the item go on, has the effect of its instruction. -/
theorem takeEffect_ok {s t u : State} {p : Nat} {it : Item} {e : Engine} {f : Flight} {out : List (Oper × List Byte)}
    (hread : f.read = false) (hok : afterBins (modCore s p (fun c => c.busy e f.endAt)) p it.key f.info = (t, true))
    (hpost : (insRun s p it f.cmd f.residueErr).post it f.got t = (u, out)) :
    takeEffect s p it e f = (u, { f with read := true, out := out, slotAt := f.outSlot s p e }) := by
  unfold takeEffect
  rw [if_neg (by rw [hread]; exact Bool.false_ne_true)]
  simp only [runPost, hok, hpost, if_true]

/-- A flight that has written all while its item goes on lands. -/
theorem putWrites_lands {s t : State} {p : Nat} {it : Item} {e : Engine} {f f1 : Flight} (loops : List LoopF)
    (h : flightWrites p it (pieceBound (f.out.map (fun x => x.2.length))) s f = (t, f1)) (hout : f1.out = [])
    (hon : stillOn t p it.key = true) : putWrites s p it e f loops = underLoops (landFlight t p e f1) p loops := by
  simp only [putWrites, h, hon, hout, Bool.not_true, Bool.false_eq_true, if_false, List.isEmpty_nil, if_true]

/-- A landing changes the core by the flight's instruction and its end alone. -/
theorem landFlight_congr {f g : Flight} (s : State) (p : Nat) (e : Engine) (hcmd : f.cmd = g.cmd) (hend : f.endAt = g.endAt) :
    landFlight s p e f = landFlight s p e g := by
  simp only [landFlight, hcmd, hend]

end Sys2Proof.Machine

namespace Sys2Proof

open Sys2Proof.Machine

/-- Settles O37: what stands in the Granary goes in slots, all else at once; a load that one slot moves reads, writes and lands. -/
theorem arrayAndLoader : Obligations.ArrayAndLoader := by
  unfold Obligations.ArrayAndLoader
  intro s0 s p tok it
  refine ⟨?_, ?_, ?_, ?_, ?_, ?_, ?_⟩
  · intro o res c h r
    refine ⟨fun hr => next_of_live h.1 (runCmd_refuses res h hr), fun hr hf => ?_, fun hr hf => ?_⟩
    · exact next_of_live h.1 (runCmd_feeds res h hr rfl hf)
    · exact next_of_live h.1 (runCmd_flies res h hr rfl hf)
  · intro x c h hf
    exact next_of_live h.1 (runCmd_feeds false h rfl rfl hf)
  · intro g x bytes c h
    exact next_of_live h.1 (runCmd_flies false h rfl rfl (not_feeds_of_gran (List.mem_cons_self ..)))
  · intro g k bytes c h
    exact next_of_live h.1 (runCmd_flies false h rfl rfl (not_feeds_of_gran (List.mem_cons_self ..)))
  · intro g x bytes tag c h
    refine ⟨fun ht => ?_, fun ht => ?_⟩
    · have hrun : insRun s p it c false = { cycles := 2, post := fun it _ t =>
          (flagItem (addI (nameTag t p it tag) F.CORE_RESIDENT_HITS p 1) it.key 2, []) } := if_pos (decide_eq_true ht)
      have hfeeds := runCmd_feeds false h rfl rfl (by rw [hrun]; exact feeds_nil s p it)
      rw [hrun] at hfeeds
      exact next_of_live h.1 hfeeds
    · have hskip : ldwSkips s p it tag ≠ true := by
        rw [ldwSkips, decide_eq_false ht]
        exact Bool.false_ne_true
      have hrun : insRun s p it c false = { ldRun s p g (.bin x) bytes with
          post := fun it bs t => (markResident (nameTag t p it tag) p it x tag, [(.bin x, nth [] bs 0)]) } := if_neg hskip
      have hflies := runCmd_flies false h rfl rfl (by rw [hrun]; exact not_feeds_of_gran (List.mem_cons_self ..))
      rw [hrun] at hflies
      exact next_of_live h.1 hflies
  · intro g x bytes c h
    exact next_of_live h.1 (runCmd_flies false h rfl rfl
      (not_feeds_of_gran (List.mem_append_right _ (List.mem_cons_self ..))))
  · intro f g g0 x len hins hrd hread hgot hpart hinfo hflight hit hlen hslot s1 sp hcirc hwidth _ r a t hok hon hlin hlands hbytes
    let f1 : Flight := { f with
      rd := [], got := [r.2.bytes], part := [], info := ReadInfo.join {} r.2.info, slotAt := f.slotAt + 16 }
    let f2 : Flight := { f1 with read := true, out := [(.bin x, r.2.bytes)], slotAt := f1.outSlot r.1 p .loader }
    have htake : takeReads s1 p it f = (r.1, f1) := by
      have := flightReads_slot (len / 16 + 1) hrd hpart hlen (s := s1) hslot hcirc hwidth
      rw [hgot, hinfo] at this
      unfold takeReads
      rw [hrd]
      exact this
    have hjoin : afterBins (modCore r.1 p (fun k => k.busy .loader f.endAt)) p it.key (ReadInfo.join {} r.2.info) = a :=
      afterBins_empty_join _ p it.key r.2.info
    have hpost : (insRun r.1 p it f.cmd f.residueErr).post it [r.2.bytes] a.1 = (a.1, [(.bin x, r.2.bytes)]) := by
      simp only [insRun, hins]
      rfl
    have heffect : takeEffect r.1 p it .loader f1 = (a.1, f2) := takeEffect_ok hread (hjoin.trans (Prod.ext rfl hok)) hpost
    have hwrite : flightWrites p it (pieceBound (f2.out.map (fun x => x.2.length))) a.1 f2 = (t, { f2 with out := [] }) :=
      flightWrites_linear _ rfl hlin
    have hstill : (!stillOn a.1 p it.key) ≠ true := by
      rw [hon]
      exact Bool.false_ne_true
    calc pumpEngine p s .loader = putWrites a.1 p it .loader f2 (Machine.core s p).loops := by
          simp only [pumpEngine, hflight, hit]
          rw [htake, if_neg (by exact Bool.false_ne_true), heffect, if_neg hstill]
      _ = underLoops (landFlight t p .loader { f2 with out := [] }) p (Machine.core s p).loops := putWrites_lands _ hwrite rfl hlands
      _ = underLoops (landFlight t p .loader f) p (Machine.core s p).loops :=
          congrArg (fun q => underLoops q p (Machine.core s p).loops) (landFlight_congr t p .loader rfl rfl)

end Sys2Proof
end

section
/-!
PROOFS. The work ledger, the lease and autonomous repeats; pinned launches; pooled placement, deadlines and eviction.
-/

namespace Sys2Proof.Machine

/-- A condition that holds lets its effect happen. -/
theorem guardOn_true {s t : State} {b : Bool} {f : State → State} (hb : b = true) (e : f s = t) : guardOn b s f = t :=
  (if_pos hb).trans e

/-- A condition that does not hold leaves the state. -/
theorem guardOn_false {s : State} {b : Bool} {f : State → State} (hb : b = false) : guardOn b s f = s :=
  if_neg (Bool.eq_false_iff.mp hb)

/-- A Boolean that does not hold is not true. -/
theorem not_true_of_false {b : Bool} (h : b = false) : ¬b = true := Bool.eq_false_iff.mp h

/-- A command of a running device about an item that is there, and for which its condition holds, answers the state it makes. -/
theorem next_of_item {s t : State} {item : Nat} {it : Item} {c : State → Item → Bool} {f : Item → State → State} (hl : s.live = true)
    (hit : item? s item = some it) (hc : c s it = true) (e : f it s = t) :
    (Host.Outcome.next (whenLive s fun s =>
      match item? s item with
      | none => s
      | some it => guardOn (c s it) s (f it)) : Out) = .next t := by
  refine next_of_live hl ?_
  rw [hit]
  exact guardOn_true hc e

/-- A pinned item that finds its cores takes them and, unless it is golden, its decision checks. -/
theorem decidePinned_cores {s : State} {it : Item} {ls : List Nat} (hgold : it.golden = false)
    (hls : pickCores (imgOf (pruneResv s) it.e).hdr.cores (imgOf (pruneResv s) it.e).hdr.oneCluster
      ((upto 64).filter (freeAt (pruneResv s) it.e.launch)) = some ls) :
    decidePinned s it = decideChecks
      (takeCores (pruneResv s) it.key ls it.e.launch (it.e.launch + windowLen (pruneResv s) it)) it.key := by
  simp only [decidePinned, hls, hgold, Bool.false_eq_true, if_false]

/-- With no inheriting holder that waits, a placement goes by the levels (R259). -/
theorem next_of_levels {s t : State} (hl : s.live = true) (hno : s.noLaunch = false) (hwarn : flag s F.THERM_STATE_WARN = false)
    (hs : s.disp.items.filter (fun i => !i.isPinned && i.inherit &&
      (decide (i.st = .pooled) || decide (i.st = .saving) || decide (i.st = .out))) = [])
    (e : placeLevels [0, 1, 2, 3] s = t) : exec .pooledPlacement s = .next t := by
  refine next_of_live hl (guardOn_true (by rw [hno, hwarn]; rfl) ?_)
  dsimp only
  rw [hs]
  exact e

/-- A ready head of the first level that finds its place takes it. -/
theorem placeLevels_head {s t : State} {p : Nat} {ps : List Nat} {it : Item} (hhead : (waitingAt s p).find? (headReady s) = some it)
    (htry : tryHead s it = some t) : placeLevels (p :: ps) s = t := by
  simp only [placeLevels, hhead, htry]

/-- A pooled head in time, with 64 contexts free and a place, is launched there. -/
theorem tryHead_pooled {s : State} {it : Item} {ls : List Nat} (hst : it.st = .pooled) (hpast : pastDeadline s it = false)
    (hfree : 64 ≤ ctxFree s) (hplace : placeable s it = some ls) : tryHead s it = some (launchPooled s it ls) := by
  simp only [tryHead, hst, hpast, Bool.false_eq_true, if_false, if_neg (Nat.not_lt.mpr hfree), hplace, Option.map_some]

/-- A pre-empted head whose clusters are in service and that finds its cores is resumed there. -/
theorem tryHead_out {s : State} {it : Item} {ls : List Nat} (hst : it.st = .out)
    (hserv : it.clusterSet.any (fun c => (clu s c.1).outOfService) = false) (hplace : placeable s it = some ls) :
    tryHead s it = some (startRestore s it ls) := by
  simp only [tryHead, hst, hserv, Bool.false_eq_true, if_false, hplace, Option.map_some]

end Sys2Proof.Machine

namespace Sys2Proof

open Sys2Proof.Machine

/-- Settles O40: each command takes the branch its premises name. -/
theorem ledgerCommands : Obligations.LedgerCommands := by
  unfold Obligations.LedgerCommands
  intro s hl
  refine ⟨fun hper hlease hd0 => ?_, fun p hp hgot hfail hcount => ?_, fun t ht hlease hnow => ?_, fun plan offset r hr hex hst => ?_⟩
  · intro s1
    have hpoll : (decide (s.now % (if reg s F.DISP_PERIOD = 0 then 8192 else reg s F.DISP_PERIOD) = 0) && leaseRuns s && s.d0) = true := by
      rw [decide_eq_true hper, hlease, hd0]
      rfl
    refine ⟨fun hrelay => next_of_guard hl hpoll (if_neg ?_), fun hrelay hreads => next_of_guard hl hpoll (if_pos ?_)⟩
    · change ¬((flag s1 F.RELAY_CFG_EN && _) = true)
      rw [hrelay]
      exact Bool.false_ne_true
    · change (flag s1 F.RELAY_CFG_EN && !s1.pcie.reads.any _) = true
      rw [hrelay, hreads]
      rfl
  · intro e s1
    have harrives : ∀ c, arrivalCheck s1 e = c → exec .ledgerEntryArrival s = .next (settlePoll (match c with
        | some (st, r) => refuseEntry s1 e st r
        | none => keepRepeat (enqueue s1 { e := e, st := if e.cls = 1 then .pinned else .pooled, arrival := s.now }) e)) := by
      rintro _ rfl
      refine next_of_live hl ?_
      rw [hp]
      exact guardOn_true (by rw [hgot, hfail, decide_eq_true hcount]; rfl) rfl
    exact ⟨fun st r hc => harrives _ hc, harrives none⟩
  · intro s1 s2 s3 s4
    refine next_of_live hl ?_
    simp only [ht]
    exact guardOn_true (by rw [hlease, decide_eq_true hnow]; rfl) rfl
  · intro l s1
    refine next_of_live hl ?_
    simp only [hr]
    refine guardOn_true ?_ rfl
    obtain hexp | ⟨hd3, hw⟩ := hex
    · rw [hexp, decide_eq_true hst, Bool.true_or, Bool.true_and]
    · rw [hd3, hw, decide_eq_true hst, Bool.not_false, Bool.and_self, Bool.or_true, Bool.true_and]

/-- Settles O41: the decision, the golden window and the launch, each branch by its premises. -/
theorem pinnedItems : Obligations.PinnedItems := by
  unfold Obligations.PinnedItems
  intro s hl
  refine ⟨fun item it hbase hit hst hlaunch hfirst hafter => ?_, fun i w hdue hen hplan hcls hall hafter => ?_,
    fun item it hit hst hlaunch => ?_⟩
  · have hdec : exec (.pinnedLaunchDecision item) s = .next (decidePinned s it) := by
      refine next_of_live hl ((if_neg (Nat.not_le.mpr hbase)).trans ?_)
      rw [hit]
      exact guardOn_true (by rw [decide_eq_true hst, decide_eq_true hlaunch, hfirst, hafter]; rfl) rfl
    exact ⟨hdec, fun ls hgold hls => hdec.trans (congrArg Host.Outcome.next (decidePinned_cores hgold hls))⟩
  · intro g s1
    refine next_of_live hl ((if_pos (Nat.le_add_right ..)).trans ?_)
    have hidx : goldenBase + i - goldenBase = i := Nat.add_sub_cancel_left ..
    rw [hidx]
    dsimp only
    rw [hdue]
    exact guardOn_true (by rw [hen, decide_eq_true hplan, decide_eq_true hcls, hall, hafter]; rfl) rfl
  · have hguard : (decide (it.st = .decided) && decide (it.e.launch ≤ s.now)) = true := by
      rw [decide_eq_true hst, decide_eq_true hlaunch]
      rfl
    refine ⟨fun hg hno hidle => ?_, fun hg hor => ?_, fun hg hlate hno => ?_, fun hg hlate hno hgone => ?_, fun hg hlate hno hgone hidle => ?_,
      fun hg hlate hno hgone hidle => ?_, fun hg hlate hno => ?_, fun hg hlate hno hrep hready => ?_, fun hg hlate hno hrep hready => ?_⟩
    · exact next_of_item hl hit hguard ((if_pos hg).trans (if_neg (by rw [hno, hidle]; exact Bool.false_ne_true)))
    · refine next_of_item hl hit hguard ((if_pos hg).trans (if_pos ?_))
      obtain hno | hidle := hor
      · rw [hno, Bool.true_or]
      · rw [hidle, Bool.not_false, Bool.or_true]
    · exact next_of_item hl hit hguard ((if_neg (not_true_of_false hg)).trans ((if_pos hlate).trans (if_pos hno)))
    · exact next_of_item hl hit hguard ((if_neg (not_true_of_false hg)).trans ((if_pos hlate).trans
        ((if_neg (not_true_of_false hno)).trans (if_pos hgone))))
    · exact next_of_item hl hit hguard ((if_neg (not_true_of_false hg)).trans ((if_pos hlate).trans
        ((if_neg (not_true_of_false hno)).trans ((if_neg (not_true_of_false hgone)).trans (if_pos hidle)))))
    · exact next_of_item hl hit hguard ((if_neg (not_true_of_false hg)).trans ((if_pos hlate).trans
        ((if_neg (not_true_of_false hno)).trans ((if_neg (not_true_of_false hgone)).trans (if_neg (not_true_of_false hidle))))))
    · exact next_of_item hl hit hguard ((if_neg (not_true_of_false hg)).trans ((if_neg (not_true_of_false hlate)).trans (if_pos hno)))
    · refine next_of_item hl hit hguard ((if_neg (not_true_of_false hg)).trans ((if_neg (not_true_of_false hlate)).trans
        ((if_neg (not_true_of_false hno)).trans ?_)))
      simp only [hrep, Bool.false_eq_true, if_false, hit, hready, Bool.not_false, if_true]
    · refine ⟨fun st r hshape => ?_, fun hshape hidle => ?_⟩
      · refine next_of_item hl hit hguard ((if_neg (not_true_of_false hg)).trans ((if_neg (not_true_of_false hlate)).trans
          ((if_neg (not_true_of_false hno)).trans ?_)))
        simp only [hrep, Bool.false_eq_true, if_false, hit, hready, Bool.not_true, hshape]
      · refine next_of_item hl hit hguard ((if_neg (not_true_of_false hg)).trans ((if_neg (not_true_of_false hlate)).trans
          ((if_neg (not_true_of_false hno)).trans ?_)))
        simp only [hrep, Bool.false_eq_true, if_false, hit, hready, Bool.not_true, hshape, hidle, if_true]

/-- Settles O42: the holders, else the first ready head of level 0; the two refusals of a deadline; the eviction. -/
theorem pooledItems : Obligations.PooledItems := by
  unfold Obligations.PooledItems
  intro s hl
  refine ⟨fun hno hwarn => ?_, fun item it hit hst hdl => ?_, fun h it k hhead hlong hit hall hfor hno => ?_⟩
  · intro hs
    refine ⟨next_of_live hl (guardOn_true (by rw [hno, hwarn]; rfl) rfl), fun it ls hnil hfind hst hpast hfree hplace => ?_,
      fun it ls hnil hfind hst hserv hplace => ?_⟩
    · exact next_of_levels hl hno hwarn hnil (placeLevels_head hfind (tryHead_pooled hst hpast hfree hplace))
    · exact next_of_levels hl hno hwarn hnil (placeLevels_head hfind (tryHead_out hst hserv hplace))
  · have hguard : (decide (it.st = .pooled) && decide (it.e.deadline ≠ 0)) = true := by
      rw [decide_eq_true hst, decide_eq_true hdl]
      rfl
    refine ⟨fun hready hpast => ?_, fun hready hpast => ?_⟩
    · exact next_of_item hl hit hguard ((if_pos hready).trans (if_pos hpast))
    · exact next_of_item hl hit hguard ((if_neg (not_true_of_false hready)).trans (if_pos hpast))
  · refine next_of_live hl ?_
    rw [hhead, hlong]
    refine guardOn_true ?_ ?_
    · rw [hall, hno]
      obtain hfor | hfree := hfor
      · rw [decide_eq_true hfor]
        rfl
      · rw [hfree]
        simp only [Bool.not_false, Bool.or_true, Bool.and_self]
    · rewrite [hit]
      rfl

end Sys2Proof
end

section
/-!
PROOFS. Contexts saved, moved and restored.
-/

namespace Sys2Proof.Machine

/-- A save reads the rows of the live regions in Carter's slots; a row that cannot be delivered ends it, else the context holds them. -/
theorem next_of_save {s : State} {p k e : Nat} {live : List (Bin × Nat)} {r : State × List SavedRow × ReadInfo} (hl : s.live = true)
    (hk : (core s p).item = some k) (hbnd : (core s p).atBnd = some live) (hfree : freeCtx s = some e)
    (hguard : (wantsSave s p && enginesIdle s p && !saveRuns s (p / 9) && saveFirst s p) = true)
    (hr : readRows s p ((item? s k).getD {}) (liveRows (core s p) live) = r) :
    let s1 := useCarter (usePhase3 r.1 p r.2.1.length) (p / 9) (carterSlot s (p / 9) s.now (ctxGranules r.2.1))
    (r.2.2.bad = true → exec (.contextSave p) s = .next (afterBins s1 p k r.2.2).1) ∧
    (r.2.2.bad = false →
      let x : Ctx := { st := .save, blocked := (core s p).blocked.isSome, rank := (core s p).rank, cluster := p / 9,
                       core := regI s F.CORE_STATE_LOGICAL p, item := k,
                       tag := regI s F.CORE_RESIDENT_TAG p, tagPlan := regI s F.CORE_RESIDENT_PLAN p }
      exec (.contextSave p) s = .next (refreshCtx (addR (setI { s1 with
        ctxs := tset {} s1.ctxs e x, ctxCores := tset {} s1.ctxCores e (contextOf (core s1 p) r.2.1) }
        F.CORE_STATE_STATE p 2) F.CARTER_SAVES 1))) := by
  obtain ⟨s0, rows, i⟩ := r
  refine ⟨fun hbad => next_of_live hl ?_, fun hbad => next_of_live hl ?_⟩ <;> dsimp only <;> rw [hk, hbnd, hfree]
  · refine guardOn_true hguard ?_
    rw [hr]
    exact if_pos hbad
  · refine guardOn_true hguard ?_
    rw [hr]
    exact if_neg (not_true_of_false hbad)

end Sys2Proof.Machine

namespace Sys2Proof

open Sys2Proof.Machine

/-- Settles O43: the arrival, the save, its landing, the move, its end and the restore, each with its condition. -/
theorem contextsSavedAndRestored : Obligations.ContextsSavedAndRestored := by
  unfold Obligations.ContextsSavedAndRestored
  intro s hl
  refine ⟨fun p k t it hk hpre ht hstop hit => ?_, fun p k e live hk hbnd hfree hwants hidle hruns hfirst => ?_,
    fun p k hk hstate hcarter => ?_, fun ctx hst hlanded => ?_, fun ctx hst => ?_, fun item e p it x hit hctx hphys hst hwaits => ?_⟩
  · have hguard : (decide (t ≤ s.now) && !(Machine.core s p).stopped) = true := by
      rw [decide_eq_true ht, hstop]
      rfl
    refine ⟨fun hst => ?_, fun live hst hbnd => ?_⟩
    · refine next_of_live hl ?_
      dsimp only
      rw [hk, hpre]
      refine guardOn_true hguard ?_
      rw [hit]
      exact if_pos hst
    · refine next_of_live hl ?_
      dsimp only
      rw [hk, hpre]
      refine guardOn_true hguard ?_
      rw [hit]
      refine (if_neg hst).trans ?_
      rw [hbnd]
  · have hguard : (wantsSave s p && enginesIdle s p && !saveRuns s (p / 9) && saveFirst s p) = true := by
      rw [hwants, hidle, hruns, hfirst]
      rfl
    exact next_of_save hl hk hbnd hfree hguard rfl
  · have hguard : (decide (regI s F.CORE_STATE_STATE p = 2) && decide ((clu s (p / 9)).carterAt + 7 ≤ s.now)) = true := by
      rw [decide_eq_true hstate, decide_eq_true hcarter]
      rfl
    refine ⟨fun hany => ?_, fun hnone => ?_⟩
    · refine next_of_live hl ?_
      rw [hk]
      exact guardOn_true hguard (if_pos hany)
    · refine next_of_live hl ?_
      rw [hk]
      exact guardOn_true hguard (if_neg (not_true_of_false hnone))
  · exact next_of_live hl (guardOn_true (by rw [hlanded, decide_eq_true hst]; rfl) rfl)
  · exact next_of_live hl (guardOn_true (decide_eq_true hst) rfl)
  · intro snap due hdue r s1 s2 s3 s4
    refine next_of_live hl ?_
    rw [hit, hctx]
    dsimp only
    rw [hphys]
    exact guardOn_true (by rw [hwaits, decide_eq_true hst]; exact decide_eq_true hdue) rfl

end Sys2Proof
end

section
/-!
PROOFS. Intake: the poll, a descriptor, a copy that is done and the items of a record slot.
-/

namespace Sys2Proof.Machine

/-! ## Reads of host memory -/

/-- A device that may read begins a read. -/
theorem startRead_of_mayRead {s : State} (kind : ReadKind) (addr len : Nat) (keep : Bool) (h : s.mayRead = true) :
    startRead s kind addr len keep = some (readBegun s kind addr len keep) := if_pos h

/-- Issuing the requests of a read leaves the streams. -/
theorem issueRead_strm (id n : Nat) (s : State) : (issueRead id n s).strm = s.strm := by
  induction n generalizing s with
  | zero => rfl
  | succ n ih =>
    unfold issueRead
    split
    · split
      · exact ih _
      · rfl
    · rfl

/-- A read that has begun leaves the streams. -/
theorem readBegun_strm (s : State) (kind : ReadKind) (addr len : Nat) (keep : Bool) : (readBegun s kind addr len keep).strm = s.strm :=
  issueRead_strm ..

/-! ## A fold in which one element acts -/

/-- A fold over distinct elements of which one alone acts, before and after it, is what that one does. -/
theorem foldl_alone {α β : Type} {f : β → α → β} {s : β} {n : α} {l : List α} (hnd : l.Nodup) (hn : n ∈ l)
    (hbefore : ∀ m, m ≠ n → f s m = s) (hafter : ∀ m, m ≠ n → f (f s n) m = f s n) : l.foldl f s = f s n := by
  induction l with
  | nil => cases hn
  | cons x l ih =>
    rw [List.foldl_cons]
    by_cases hx : x = n
    · subst hx
      have hrest : ∀ m ∈ l, f (f s x) m = f s x := fun m hm => hafter m fun h => (List.nodup_cons.mp hnd).1 (h ▸ hm)
      exact List.foldlRecOn (motive := fun t => t = f s x) l f rfl fun t ht m hm => by rw [ht]; exact hrest m hm
    · rw [hbefore x hx]
      exact ih (List.nodup_cons.mp hnd).2 ((List.mem_cons.mp hn).resolve_left fun h => hx h.symm)

/-! ## Polls -/

/-- A slot that is not open is not polled. -/
theorem pollSlot_closed {s : State} {n : Nat} (h : (slotAt s n).isOpen = false) : pollSlot s n = s :=
  if_pos (by rw [h]; rfl)

/-- An open slot that may read its producer index begins to. -/
theorem pollSlot_open {s : State} {n : Nat} (hopen : (slotAt s n).isOpen = true) (hclosing : (slotAt s n).closing = false)
    (hpidx : (slotAt s n).pidxPending = false) (hdesc : (slotAt s n).descPending = 0) (hwaits : waitsBuffer s n = false)
    (hread : s.mayRead = true) :
    pollSlot s n = modSlot (readBegun s (.intakePidx n) (pairS s F.PIDX_ADDR_LO F.PIDX_ADDR_HI n) 4 true) n
      (fun x => { x with pidxPending := true }) := by
  simp only [pollSlot, hopen, hclosing, hpidx, hdesc, hwaits, ne_eq, not_true_eq_false, decide_false, Bool.not_true, Bool.or_self,
    Bool.false_eq_true, if_false, startRead_of_mayRead _ _ _ _ hread]

/-- A change of one slot leaves every other. -/
theorem slotAt_modSlot_other (s : State) {n m : Nat} (f : SlotS → SlotS) (h : m ≠ n) : slotAt (modSlot s n f) m = slotAt s m :=
  tget_tset_other _ _ _ h

/-- Every slot that intake polls is polled once. -/
theorem polled_nodup : (rangeFrom 72 4 ++ upto 64).Nodup := by decide

end Sys2Proof.Machine

namespace Sys2Proof

open Sys2Proof.Machine

/-- Settles O45: the poll of one slot, and each outcome of a descriptor, of a copy and of a record slot's unit. -/
theorem intakeCommands : Obligations.IntakeCommands := by
  unfold Obligations.IntakeCommands
  intro s hl
  refine ⟨fun hper hd0 hlease hj => ?_, fun n d rest hfetched hopen hclosing hcopying hmay => ?_,
    fun n d h failed b hcopying hres => ?_, fun n a rest hrec hopen haus => ?_⟩
  · have hpoll : exec .intakePoll s = .next ((rangeFrom 72 4 ++ upto 64).foldl pollSlot s) :=
      next_of_live hl (guardOn_true (by rw [decide_eq_true hper, hd0, hlease, hj]; rfl) rfl)
    refine ⟨hpoll, fun n hn halone hopen hclosing hpidx hdesc hwaits hread => hpoll.trans (congrArg Host.Outcome.next ?_)⟩
    have hone := pollSlot_open hopen hclosing hpidx hdesc hwaits hread
    have hmem : n ∈ rangeFrom 72 4 ++ upto 64 := by
      simp only [upto, List.mem_append, mem_rangeFrom]
      omega
    refine (foldl_alone polled_nodup hmem (fun m hm => pollSlot_closed (halone m hm)) fun m hm => pollSlot_closed ?_).trans hone
    rw [hone, slotAt_modSlot_other _ _ hm]
    exact (congrArg (fun t => (tget {} t.slots m).isOpen) (readBegun_strm ..)).trans (halone m hm)
  · intro p
    have htakes : ∀ t, (if d.len = 0 ∨ 16777216 < d.len ∨ poolSize s p < d.len then
          notCopied (modSlot s n (fun x => { x with fetched := rest })) n d
        else match cooperAlloc s n d.len (2 ^ p) none with
          | (t, none) => t
          | (s2, some h) =>
            let s3 := modSlot s2 n (fun x => { x with fetched := rest, copying := some (d, h) })
            match startRead s3 (.auBytes n) d.addr d.len true with
            | some t => t
            | none => addR (modSlot s3 n (fun x => { x with copyRes := some (true, []) })) F.PCIE_READ_FAILS 1) = t →
        exec (.descriptorRead n) s = .next t := by
      intro t ht
      refine next_of_live hl ?_
      dsimp only
      rw [hfetched]
      exact guardOn_true (by rw [hopen, hclosing, hcopying, hmay]; rfl) ht
    refine ⟨fun hlen => htakes _ (if_pos hlen), fun s2 r h1 h2 h3 halloc => ?_⟩
    have hfits : ¬(d.len = 0 ∨ 16777216 < d.len ∨ poolSize s p < d.len) := by omega
    refine ⟨fun hr => htakes _ ((if_neg hfits).trans ?_), fun h hr hread => htakes _ ((if_neg hfits).trans ?_)⟩
    · rw [halloc, hr]
    · rw [halloc, hr]
      dsimp only
      rw [startRead_of_mayRead]
      exact hread
  · intro arr fast s1
    have hdone : exec (.auCopyDone n) s = .next (if failed && isRecordSlot n then recDrop s1 n else s1) := by
      refine next_of_live hl ?_
      dsimp only
      rw [hcopying, hres]
    refine ⟨fun hor => hdone.trans (congrArg _ (if_neg ?_)), fun hfailed hrec => hdone.trans (congrArg _ (if_pos ?_))⟩
    · obtain h | h := hor <;> simp only [h, Bool.false_and, Bool.and_false, Bool.false_eq_true, not_false_eq_true]
    · rw [hfailed, hrec]
      rfl
  · intro r b done
    have hguard : (isRecordSlot n && (slotAt s n).isOpen) = true := by
      rw [hrec, hopen]
      rfl
    refine ⟨fun hb => ?_, fun hb hitem => ?_, fun m rem hb hitem => ?_⟩
    · refine next_of_live hl (guardOn_true hguard ?_)
      rw [haus]
      exact if_pos hb
    · refine next_of_live hl (guardOn_true hguard ?_)
      rw [haus]
      refine (if_neg (not_true_of_false hb)).trans ?_
      change (match cborItem b with
        | none => _
        | some (_, _) => _) = _
      rewrite [hitem]
      rfl
    · intro s1
      refine next_of_live hl (guardOn_true hguard ?_)
      rw [haus]
      refine (if_neg (not_true_of_false hb)).trans ?_
      change (match cborItem b with
        | none => _
        | some (_, _) => _) = _
      rewrite [hitem]
      rfl

end Sys2Proof
end

section
/-!
PROOFS. Decoding: the start of a picture, its completion and the expiry of its budget.
-/

namespace Sys2Proof.Machine

/-! ## The start -/

/-- A picture that is next while a decode core is free is refused when a check refuses it. -/
theorem next_of_refused {s : State} {cl : Claims} {n g0 o c : Nat} {a : AU} {gs : List Nat} (hl : s.live = true)
    (hnext : nextPicture s = some (n, a)) (hfree : freeDecs s = g0 :: gs) (href : refusalOf s n a cl = some (o, c)) :
    exec (.pictureDecodeStart cl) s = .next (refusePicture s n a cl o c (.outcome o c)) := by
  refine next_of_live hl ?_
  rw [hnext, hfree]
  dsimp only
  rw [href]

/-- A picture of a slot that skips with an outcome is refused with it, unless it is a random-access picture that was read. -/
theorem next_of_skipped {s : State} {cl : Claims} {n g0 o c : Nat} {a : AU} {gs : List Nat} (hl : s.live = true)
    (hnext : nextPicture s = some (n, a)) (hfree : freeDecs s = g0 :: gs) (href : refusalOf s n a cl = none)
    (hskip : (slotAt s n).skip = .outcome o c) (hrap : (cl.rap && !a.readFailed) = false) :
    exec (.pictureDecodeStart cl) s = .next (refusePicture s n a cl o c (.outcome o c)) := by
  refine next_of_live hl ?_
  rw [hnext, hfree]
  dsimp only
  rw [href]
  dsimp only
  rw [hskip]
  exact if_neg (not_true_of_false hrap)

/-- A picture that no check refuses and that is not skipped starts once its gang and its buffer are there. -/
theorem next_of_tried {s : State} {cl : Claims} {n g0 : Nat} {a : AU} {gs : List Nat} (hl : s.live = true)
    (hnext : nextPicture s = some (n, a)) (hfree : freeDecs s = g0 :: gs) (href : refusalOf s n a cl = none)
    (hskip : (slotAt s n).skip = .none ∨ (cl.rap = true ∧ a.readFailed = false)) :
    exec (.pictureDecodeStart cl) s = .next (tryStart s n a cl) := by
  refine next_of_live hl ?_
  rw [hnext, hfree]
  dsimp only
  rw [href]
  dsimp only
  obtain hskip | ⟨hrap, hread⟩ := hskip
  · rw [hskip]
  · split
    · exact if_pos (by rw [hrap, hread]; rfl)
    · rfl

/-- A picture that was read is refused by the header check. -/
theorem refusalOf_read {s : State} {n : Nat} {a : AU} {cl : Claims} (h : a.readFailed = false) :
    refusalOf s n a cl = headerCheck s n a cl := if_neg (not_true_of_false h)

/-- A picture that could not be read is refused for its rate alone. -/
theorem refusalOf_unread {s : State} {n : Nat} {a : AU} {cl : Claims} (h : a.readFailed = true) :
    refusalOf s n a cl = if a.kind = .overRate then some (4, 8) else none := if_pos h

/-! ## The completion -/

/-- What a decode core with an uncorrectable error has written is poison: the ranges given, or the whole picture when none is. -/
theorem writePicture_eq (s : State) (core : Nat) (a : AU) (c : Claims) (d : Decoded) :
    writePicture s core a c d =
      (let x := dec s core
       let base := handleAddr s x.handle
       let put := hbmPut s base (d.bytes a.readFailed c.hibit c.w c.h (refPlanes s x.slot d.ref))
       if x.gang.any (fun i => (dec s i).ue) then
         poisonPic put base (if d.poisoned = [] then [(0, picSize (bnat c.hibit) c.w c.h)] else d.poisoned)
       else put) := by
  simp only [writePicture, List.isEmpty_iff]

end Sys2Proof.Machine

namespace Sys2Proof

open Sys2Proof.Machine

/-- Settles O46: the start's refusals and its start, the picture a completion makes, and the abandoned picture. -/
theorem decodingCommands : Obligations.DecodingCommands := by
  unfold Obligations.DecodingCommands
  intro s hl
  refine ⟨fun cl n a g0 gs hnext hfree => ⟨fun o c href => ?_, fun hpass => ?_⟩, fun core d a c hau hcl => ?_,
    fun core a c hau hcl hbudget => ?_⟩
  · refine next_of_refused hl hnext hfree ?_
    obtain ⟨hread, hcheck⟩ | ⟨hread, hrate, rfl, rfl⟩ := href
    · exact (refusalOf_read hread).trans hcheck
    · exact (refusalOf_unread hread).trans (if_pos hrate)
  · have href : refusalOf s n a cl = none := by
      obtain ⟨hread, hcheck⟩ | ⟨hread, hrate⟩ := hpass
      · exact (refusalOf_read hread).trans hcheck
      · exact (refusalOf_unread hread).trans (if_neg hrate)
    refine ⟨fun o c hskip hor => next_of_skipped hl hnext hfree href hskip ?_, fun g s1 r hskip hgang halloc => ?_⟩
    · obtain h | h := hor
      · rw [h, Bool.false_and]
      · rw [h, Bool.not_true, Bool.and_false]
    · have hstart := next_of_tried hl hnext hfree href hskip
      refine ⟨fun h hr => hstart.trans (congrArg _ ?_), fun hr => hstart.trans (congrArg _ ?_)⟩ <;>
        simp only [tryStart, hgang, halloc, hr]
  · intro x n conc cause head p put s0 s1 s2 s3 s4
    refine next_of_live hl ?_
    rw [hau, hcl]
    have hput : writePicture s core a c d = s0 := writePicture_eq s core a c d
    have hmade : pictureMade s core a c d = s4 := by
      unfold pictureMade
      rw [hput]
      rfl
    exact congrArg (fun t => endDecode (d.released.foldl (fun t q => forward t n q) t) n) hmade
  · intro x s1 s2
    refine next_of_live hl ?_
    dsimp only
    rw [hau, hcl]
    exact guardOn_true (decide_eq_true hbudget) rfl

end Sys2Proof
end

section
/-!
PROOFS. CSI-2 packets and frames; the stages of the scaler.
-/

namespace Sys2Proof.Machine

/-! ## CSI-2 -/

/-- A packet on a port that runs, with a frame in progress, whose header passes, is dropped for its channel or type, or goes to its line. -/
theorem next_of_packet {s t : State} {port : Nat} {pkt : CsiPkt} (hl : s.live = true) (hrun : csiRuns s port = true)
    (hbusy : (csi s port).busy = true) (hhdr : pkt.hdrErr < 2)
    (e : (let s1 := if pkt.hdrErr = 1 then addI s F.CSI_ECC_CORR port 1 else s
          if pkt.vc ≠ regI s1 F.CSI_CFG_VC port ∨ pkt.dt ≠ regI s1 F.CSI_CFG_DT port then s1
          else
            let r := (csi s1 port).lines.length
            if csiH s1 port ≤ r then addI s1 F.CSI_CRC_ERR port 1
            else if !pkt.crcOk then badLine (addI s1 F.CSI_CRC_ERR port 1) port 12
            else if noPixel s1 port pkt.px then badLine s1 port 12
            else
              let l := fitLine (isYuv s1 port) (csiW s1 port) pkt.px
              let s2 := if lineLen s1 port < pkt.px.length then addI s1 F.CSI_CRC_ERR port 1 else s1
              modCsi s2 port (fun x => { x with
                lines := x.lines ++ [l.1], filled := x.filled + l.2,
                cause := if l.2 = 0 then x.cause else lowCause x.cause 12,
                lastGood := tset [] x.lastGood (r % 2) l.1 })) = t) :
    exec (.csiPacket port pkt) s = .next t :=
  next_of_live hl (guardOn_true (by rw [hrun, hbusy]; rfl) ((if_neg (Nat.not_le.mpr hhdr)).trans e))

/-- A line of one value a pixel that is at least as long as the frame is wide is cut. -/
theorem fitLine_cut {w : Nat} {px : List Nat} (h : w ≤ px.length) : fitLine false w px = (px.take w, 0) := by
  simp only [fitLine, Bool.false_eq_true, if_false, if_pos h]

/-- A line of one value a pixel that is too short repeats its last. -/
theorem fitLine_short {w : Nat} {px : List Nat} (h : px.length < w) :
    fitLine false w px = (px ++ List.replicate (w - px.length) (nth 0 px (px.length - 1)), w - px.length) := by
  simp only [fitLine, Bool.false_eq_true, if_false, if_neg (Nat.not_le.mpr h)]

/-! ## The scaler -/

/-- Pictures of which none has a dimension of 0 are full. -/
theorem srcsFull_iff (l : List Src) : srcsFull l = true ↔ ∀ src ∈ l, src.w ≠ 0 ∧ src.h ≠ 0 := by
  simp only [srcsFull, List.all_eq_true, Bool.and_eq_true, decide_eq_true_eq]

/-- A scaler stage that has taken its ticks, whose item, stage and sources are there and whose output has room, ends: with the fault of its
first source that cannot be delivered, else with its output. -/
theorem next_of_scaled {s t : State} {g : StageS} {it : Item} {st : ShapeStage} {l : List Src} (hl : s.live = true)
    (hg : s.shape.scaler = some g) (hdone : g.start + g.dur ≤ s.now) (hit : item? s g.item = some it)
    (hst : (imgOf s it.e).shaping[g.stage]? = some st) (hsrcs : (st.binding :: st.more).mapM (srcOf s it) = some l)
    (hroom : stageRoom s it st st.outBytes = true)
    (e : (let s0 := { s with shape := { s.shape with scaler := none } }
          match l.find? (fun src => decide (src.info.ue > 0) || decide (src.info.poison > 0)) with
          | some src => hbmFault s0 (src.info.lastAddr.getD src.base) (decide (src.info.ue = 0)) src.info.decPoison (some it.key)
          | none =>
            let s1 := markDone (modItem (stageWaits s0 it st (g.start + g.dur)) it.key
              (fun i => { i with late := i.late || decide (g.start + g.dur < s.now) })) it.key g.stage
            if srcsFull l then
              putScaler s1 it g.stage st ((enumFrom 0 l).flatMap (fun p =>
                scalerOut st.desc p.2.fmt p.2.w p.2.h p.2.bytes (pertOf it p.1)))
            else s1) = t) : exec .scalerStageDone s = .next t := by
  refine next_of_live hl ?_
  rw [hg]
  refine guardOn_true (decide_eq_true hdone) ?_
  dsimp only
  rw [hit]
  dsimp only
  rw [hst]
  dsimp only
  rw [show stageSrcs s it st = some l from hsrcs]
  refine (if_neg ?_).trans e
  rw [hroom]
  exact Bool.false_ne_true

end Sys2Proof.Machine

namespace Sys2Proof

open Sys2Proof.Machine

/-- Settles O47: the header, the channel and type, and the line's checks in their order; the frame's two ends. -/
theorem csi2Commands : Obligations.Csi2Commands := by
  unfold Obligations.Csi2Commands
  intro s port hl hrun hbusy
  have hguard : (csiRuns s port && (csi s port).busy) = true := by
    rw [hrun, hbusy]
    rfl
  refine ⟨fun pkt hhdr => next_of_live hl (guardOn_true hguard (if_pos hhdr)), fun pkt hhdr => ?_, next_of_live hl (guardOn_true hguard rfl),
    fun htime => next_of_live hl (guardOn_true (by rw [hguard, decide_eq_true htime]; rfl) rfl)⟩
  intro s1
  refine ⟨fun hother => next_of_packet hl hrun hbusy hhdr (if_pos hother), fun hvc hdt => ?_⟩
  have hmine : ¬(pkt.vc ≠ regI s1 F.CSI_CFG_VC port ∨ pkt.dt ≠ regI s1 F.CSI_CFG_DT port) := fun h => h.elim (· hvc) (· hdt)
  refine ⟨fun hfull => ?_, fun hroom hcrc => ?_, fun hroom hcrc hpx => ?_, fun hroom hcrc hpx => ?_⟩
  · exact next_of_packet hl hrun hbusy hhdr ((if_neg hmine).trans (if_pos hfull))
  · exact next_of_packet hl hrun hbusy hhdr ((if_neg hmine).trans ((if_neg (Nat.not_le.mpr hroom)).trans (if_pos (by rw [hcrc]; rfl))))
  · have hgood : ¬(!pkt.crcOk) = true := by
      rw [hcrc]
      exact Bool.false_ne_true
    exact next_of_packet hl hrun hbusy hhdr ((if_neg hmine).trans ((if_neg (Nat.not_le.mpr hroom)).trans
      ((if_neg hgood).trans (if_pos (decide_eq_true hpx)))))
  · have hgood : ¬(!pkt.crcOk) = true := by
      rw [hcrc]
      exact Bool.false_ne_true
    have hpixel : ¬noPixel s1 port pkt.px = true := fun h => Nat.not_lt.mpr hpx (of_decide_eq_true h)
    intro l s2
    refine ⟨?_, fun hyuv k hk hwide => ?_, fun hyuv k hk hshort => ?_⟩
    · exact next_of_packet hl hrun hbusy hhdr ((if_neg hmine).trans ((if_neg (Nat.not_le.mpr hroom)).trans
        ((if_neg hgood).trans (if_neg hpixel))))
    · subst hk
      exact (congrArg (fun y => fitLine y (csiW s1 port) pkt.px) hyuv).trans (fitLine_cut hwide)
    · subst hk
      exact (congrArg (fun y => fitLine y (csiW s1 port) pkt.px) hyuv).trans (fitLine_short hshort)

/-- Settles O48: the stage that starts, and the ways in which one ends. -/
theorem scalerStages : Obligations.ScalerStages := by
  unfold Obligations.ScalerStages
  refine ⟨fun s item stage it st l hl hit hst hsrcs hunit => ?_, fun s g it st l hl hg hdone => ?_⟩
  · intro gr out dur hmay
    refine next_of_live hl ?_
    rw [hit]
    dsimp only
    rw [hst]
    dsimp only
    rw [show stageSrcs s it st = some l from hsrcs]
    exact guardOn_true (by rw [decide_eq_true hunit]; exact hmay) rfl
  · intro s0
    refine ⟨fun hit => ?_, fun hit hst hsrcs => ⟨fun hroom => ?_, fun src rest hroom hbad => ?_, fun hroom hgood => ?_⟩⟩
    · refine next_of_live hl ?_
      rw [hg]
      refine guardOn_true (decide_eq_true hdone) ?_
      dsimp only
      rw [hit]
    · refine next_of_live hl ?_
      rw [hg]
      refine guardOn_true (decide_eq_true hdone) ?_
      dsimp only
      rw [hit]
      dsimp only
      rw [hst]
      dsimp only
      rw [show stageSrcs s it st = some l from hsrcs]
      exact if_pos (by rw [hroom]; rfl)
    · refine next_of_scaled hl hg hdone hit hst hsrcs hroom ?_
      have hfind : l.find? (fun src => decide (0 < src.info.ue) || decide (0 < src.info.poison)) = some src := by
        rw [← List.head?_filter, hbad]
        rfl
      dsimp only
      rw [hfind]
    · have hfind : l.find? (fun src => decide (src.info.ue > 0) || decide (src.info.poison > 0)) = none := by
        simp only [List.find?_eq_none, Bool.or_eq_true, decide_eq_true_eq]
        intro src hsrc
        have := hgood src hsrc
        omega
      refine ⟨fun hempty => ?_, fun hfull => ?_⟩
      · refine next_of_scaled hl hg hdone hit hst hsrcs hroom ?_
        dsimp only
        rw [hfind]
        refine if_neg fun h => ?_
        obtain ⟨src, hsrc, h0⟩ := hempty
        have := (srcsFull_iff l).mp h src hsrc
        omega
      · refine next_of_scaled hl hg hdone hit hst hsrcs hroom ?_
        dsimp only
        rw [hfind]
        exact if_pos ((srcsFull_iff l).mpr hfull)

end Sys2Proof
end

section
/-!
PROOFS. The stages of a Sickle unit and the packer.
-/

namespace Sys2Proof.Machine

/-- A started box that has taken its ticks ends: with the fault of a granule that cannot be delivered, else with its crop. -/
theorem next_of_boxEnd {s t : State} {unit : Nat} {g : StageS} {it : Item} {st : ShapeStage} {src : Src} {b : Box} (hl : s.live = true)
    (hctx : sickleCtx s unit = some (g, it, st, src)) (hstarted : (sickle s unit).started = true)
    (htime : (sickle s unit).startT + boxTicks st.desc (sickle s unit).hdr ≤ s.now)
    (hbox : (sickle s unit).boxes[(sickle s unit).box]? = some b) (hgold : it.golden = false)
    (e : (let x := sickle s unit
          let gs := granulesOf x it st src x.box
          let i := granInfo s gs
          if i.ue > 0 ∨ i.poison > 0 then hbmFault s (i.lastAddr.getD src.base) (decide (i.ue = 0)) i.decPoison (some it.key)
          else
            let o := cropOut st.desc x.hdr src.fmt (planesFor src.fmt st.desc.outFmt (samplePlanes src.fmt src.w src.h src.bytes)) b
              (boxPert x.hdr it x.box)
            let s1 := addI s F.SICKLE_BOXES unit 1
            let s2 := if o.2.testBit 1 then addI s1 F.SICKLE_OUTSIDE unit 1 else s1
            let s3 := if o.2.testBit 2 then addI s2 F.SICKLE_DEGENERATE unit 1 else s2
            let s4 := if (st.pack.map (fun c => c.tile)).getD false then
                { s3 with shape := { s3.shape with crops := s3.shape.crops ++
                  [{ item := it.key, stage := g.stage, w := x.hdr.outW, h := x.hdr.outH, bytes := o.1 }] } }
              else s3
            let s5 := putSickle s4 unit { x with
              box := x.box + 1, started := false, endT := s.now, inBuf := x.inBuf - gs.length, flags := x.flags ++ [o.2] }
            match physOf s5 (nth 64 it.cores 0) with
            | none => s5
            | some p =>
              let sp := granSpan s5 p it { st.dstGran with strides := [] }
              let r := stripeOut (targetsOf x.hdr) sp (o.1.length / 64 + 2) (x.box * o.1.length) o.1 s5
              let s6 := (targetsOf x.hdr).foldl (fun u k => nameWrites u k it.key) r.1
              match r.2.1 with
              | some k => afterPut s6 it.key k sp (cdiv ((x.box + 1) * o.1.length) 64) true false
              | none =>
                let s7 := afterPut s6 it.key 0 sp 0 false r.2.2
                if x.box + 1 = x.boxes.length then endSickle s7 unit it st g else s7) = t) :
    exec (.sickleBoxEnd unit) s = .next t := by
  refine next_of_live hl ?_
  rw [hctx]
  refine guardOn_true (by rw [hstarted, decide_eq_true htime]; rfl) ?_
  dsimp only
  rw [hbox]
  dsimp only
  rw [if_neg (not_true_of_false hgold)]
  exact e

end Sys2Proof.Machine

namespace Sys2Proof

open Sys2Proof.Machine

/-- Settles O49: the stage's start, a read, a box's start and end, and the packer, each branch by its premises. -/
theorem sickleAndPacker : Obligations.SickleAndPacker := by
  unfold Obligations.SickleAndPacker
  intro s hl
  refine ⟨fun unit item stage it st hd s1 l ok d hit hst hhdr hunit hsu hdom hticks hmay hboxes => ?_,
    fun unit g it st src hctx => ?_, fun item stage it st c samples s0 l hit hst hpack hrun hready hsamples => ?_⟩
  · intro gs s2
    have hstart : ∀ t, (if !ok then s1
        else if !listLimits it l then endItem s1 item 0x201
        else if l.2.isEmpty then endSickle s2 unit it st gs else s2) = t → exec (.sickleStageStart unit item stage) s = .next t := by
      intro t ht
      refine next_of_live hl ?_
      rw [hit]
      dsimp only
      rw [hst]
      dsimp only
      rw [hhdr]
      dsimp only
      rw [hticks]
      refine guardOn_true ?_ ?_
      · rw [decide_eq_true hunit, decide_eq_true hsu, hdom]
        exact hmay
      · rw [hboxes]
        exact ht
    refine ⟨fun hok => hstart _ (if_pos (by rw [hok]; rfl)), fun hok hlim => hstart _ ?_, fun hok hlim hnil => hstart _ ?_,
      fun hok hlim hnil => hstart _ ?_⟩
    · simp only [hok, hlim, Bool.not_true, Bool.not_false, Bool.false_eq_true, if_false, if_true]
    · simp only [hok, hlim, List.isEmpty_iff, hnil, Bool.not_true, Bool.false_eq_true, if_false, if_true]
    · simp only [hok, hlim, List.isEmpty_iff, hnil, Bool.not_true, Bool.false_eq_true, if_false]
  · intro x need
    refine ⟨fun hissued hbox hbuf hstart hlast => ?_, fun hstarted hbox hissued hend hwait => ?_,
      fun b hstarted htime hbox hgold => ?_⟩
    · have hnew : ¬x.issued = 0 := by omega
      refine next_of_live hl ?_
      rw [hctx]
      dsimp only
      rw [if_neg hnew]
      refine guardOn_true ?_ ?_
      · rw [decide_eq_true hbox, decide_eq_true hbuf, decide_eq_true (Nat.succ_le_of_lt hstart), decide_eq_true hlast]
        rfl
      · simp only [decide_eq_true_eq]
        rfl
    · refine next_of_live hl ?_
      rw [hctx]
      refine guardOn_true ?_ rfl
      rw [Bool.and_eq_true, Bool.and_eq_true, Bool.and_eq_true, Bool.and_eq_true, Bool.or_eq_true]
      exact ⟨⟨⟨⟨by rw [hstarted]; rfl, decide_eq_true hbox⟩, hissued⟩, decide_eq_true hend⟩,
        hwait.imp decide_eq_true decide_eq_true⟩
    · intro i
      refine ⟨fun hbad => next_of_boxEnd hl hctx hstarted htime hbox hgold (if_pos hbad), fun hue hpoison => ?_⟩
      have hgood : ¬(i.ue > 0 ∨ i.poison > 0) := by omega
      intro o s1 s2 s3 s4 s5
      refine ⟨fun hphys => next_of_boxEnd hl hctx hstarted htime hbox hgold ((if_neg hgood).trans ?_), fun p hphys => ?_⟩
      · change (match physOf s5 (nth 64 it.cores 0) with
          | none => s5
          | some p => _) = s5
        rw [hphys]
      · intro sp r s6 s7
        have hcrop : ∀ t, (match r.2.1 with
            | some k => afterPut s6 it.key k sp (cdiv ((x.box + 1) * o.1.length) 64) true false
            | none => if x.box + 1 = x.boxes.length then endSickle s7 unit it st g else s7) = t →
            exec (.sickleBoxEnd unit) s = .next t := by
          intro t ht
          refine next_of_boxEnd hl hctx hstarted htime hbox hgold ((if_neg hgood).trans ?_)
          change (match physOf s5 (nth 64 it.cores 0) with
            | none => s5
            | some p => _) = t
          rw [hphys]
          exact ht
        refine ⟨fun k hdark => hcrop _ ?_, fun hdark hmore => hcrop _ ?_, fun hdark hlast => hcrop _ ?_⟩
        · rw [hdark]
        · rw [hdark]
          exact if_neg hmore
        · rw [hdark]
          exact if_pos hlast
  · intro tooWide n s1 rows out
    have hpacks : ∀ t, (if c.maxRows < rows.length then endItem s1 item 0x201
        else if !stageRoom s it st out.length then s
        else
          let s2 := { s1 with shape := { s1.shape with packRows := tset 0 s1.shape.packRows item rows.length } }
          (itemClusters s2 it).foldl (fun t k =>
            let sp := granSpan t k.2 it { st.dstGran with strides := [] }
            let r := granPut t k.1 sp out
            afterPut r.1 item k.1 sp (cdiv out.length 64) r.2.1 r.2.2) s2) = t → exec (.pack item stage samples) s = .next t := by
      intro t ht
      refine next_of_live hl ?_
      rw [hit]
      dsimp only
      rw [hst]
      dsimp only
      rw [hpack]
      refine guardOn_true (by rw [decide_eq_true hrun, hready]; rfl) ?_
      rw [hsamples]
      exact ht
    refine ⟨fun htile => ?_, fun hmany => hpacks _ (if_pos hmany), fun hfits hroom => hpacks _ ?_⟩
    · have hcrops := (show packSamples s it stage c samples = _ from if_pos htile).symm.trans hsamples
      simp only [Prod.mk.injEq, and_true] at hcrops
      exact ⟨hcrops.1.symm, hcrops.2.symm⟩
    · refine (if_neg (Nat.not_lt.mpr hfits)).trans (if_neg ?_)
      rw [hroom]
      exact Bool.false_ne_true

end Sys2Proof
end

section
/-!
PROOFS. The pictures and slices of an encoder, and the steps of the track engine.
-/

namespace Sys2Proof.Machine

/-- A step waits exactly when its slot uses embeddings and none has come. -/
theorem handPhase_eq {α : Type} (emb : Bool) (early : Option α) :
    (if emb then (if early.isSome then StepPhase.active else .waiting) else .active) =
      if emb && early.isNone then .waiting else .active := by
  cases emb <;> cases early <;> rfl

end Sys2Proof.Machine

namespace Sys2Proof

open Sys2Proof.Machine

/-- Settles O50: the picture taken, the slice done, and the step that starts, goes on or ends. -/
theorem encoderAndTrackSteps : Obligations.EncoderAndTrackSteps := by
  unfold Obligations.EncoderAndTrackSteps
  intro s hl
  refine ⟨fun enc slot src p hfind henc hd0 hen hslot hout hdue hw hh => ?_, fun enc p rest hq henc hen hstarted hslice => ?_,
    fun h hnext hbusy hdom => ?_, fun slot x hx => ?_⟩
  · intro x fps s1
    have htake : ∀ t, (if 2 ≤ x.queue.length then addI s F.ENC_SKIPPED enc 1
        else if x.queue.isEmpty then startEnc s1 enc else s1) = t → exec (.encoderPictureTake enc slot src) s = .next t := by
      intro t ht
      refine next_of_live hl ?_
      dsimp only
      rw [hfind]
      refine guardOn_true ?_ ht
      simp only [decide_eq_true henc, hd0, decide_eq_true hen, decide_eq_true hslot, decide_eq_true hout, decide_eq_true hw,
        decide_eq_true hh, Bool.true_and, Bool.and_true]
      exact decide_eq_true hdue
    refine ⟨fun hfull => htake _ (if_pos hfull), fun hnil => htake _ ?_, fun hone => htake _ ?_⟩
    · have hfew : ¬2 ≤ x.queue.length := by
        rw [hnil]
        decide
      exact (if_neg hfew).trans (if_pos (List.isEmpty_iff.mpr hnil))
    · have hne : ¬x.queue.isEmpty = true := by
        rw [List.isEmpty_iff]
        intro h
        rw [h] at hone
        cases hone
      exact (if_neg (by omega)).trans (if_neg hne)
  · intro s1
    have hdone : ∀ t, (if p.sub then emitSlice s1 enc p (enc_ s enc).slice else s1) = t → exec (.encodeSliceDone enc) s = .next t := by
      intro t ht
      refine next_of_live hl ?_
      dsimp only
      rw [hq]
      refine guardOn_true ?_ ht
      rw [decide_eq_true henc, decide_eq_true hen, hstarted, decide_eq_true hslice]
      rfl
    exact ⟨fun hsub => hdone _ (if_pos hsub), fun hsub => hdone _ (if_neg (not_true_of_false hsub))⟩
  · intro early wait dets x s1 s2
    have hstart : ∀ t, (if wait then settle { s2 with strm := { s2.strm with lists := s2.strm.lists ++
          [{ slot := h.slot, detect := true, seq := h.seq, boxes := dets.map Cand.box, t := h.src }] } } else s2) = t →
        exec .trackStepStart s = .next t := by
      intro t ht
      refine next_of_live hl ?_
      rw [hnext]
      refine guardOn_true (by rw [hbusy, hdom]; rfl) ?_
      dsimp only
      rw [handPhase_eq]
      exact ht
    exact ⟨fun hwait => hstart _ (if_neg (not_true_of_false hwait)), fun hwait => hstart _ (if_pos hwait)⟩
  · refine ⟨fun hphase htime => ?_, fun hphase htime => ?_⟩
    · intro t
      have hgoes : exec (.embWaitExpiry slot) s = .next (resumeStep t) := by
        refine next_of_live hl ?_
        rw [hx]
        exact guardOn_true (by rw [decide_eq_true hphase, decide_eq_true htime]; rfl) rfl
      exact ⟨fun hbusy => hgoes.trans (congrArg _ (if_pos hbusy)), fun _ => hgoes⟩
    · refine next_of_live hl ?_
      rw [hx]
      exact guardOn_true (by rw [decide_eq_true hphase, decide_eq_true htime]; rfl) rfl

end Sys2Proof
end

section
/-!
PROOFS. The record writer, the ring timer and the period breach.
-/

namespace Sys2Proof.Machine

/-! ## What leaves the power state of the function -/

/-- A write of another field leaves the power state of the function. -/
theorem d0_putF {s : State} {f : Fld} {i k x : Nat} (v : Nat) (h : F.PCIE_POWER_DSTATE.key 0 0 0 ≠ f.key i k x) :
    (putF s f i k x v).d0 = s.d0 :=
  congrArg (fun n => decide (n = 0)) (getF_putF_other _ _ _ _ _ _ _ _ _ _ h)

/-- Every field of a page above the host interface's stands elsewhere than the power state, whatever its selector value and element. -/
theorem dstate_key_ne {f : Fld} (i k x : Nat) (h : 13 < f.base) : F.PCIE_POWER_DSTATE.key 0 0 0 ≠ f.key i k x := by
  have hd : F.PCIE_POWER_DSTATE.key 0 0 0 < 14 * 2 * 1024 * 1024 * 128 := by decide
  refine Nat.ne_of_lt (Nat.lt_of_lt_of_le hd ?_)
  unfold Fld.key
  omega

/-- A host write leaves the power state. -/
theorem d0_hostWrite (s : State) (a : Nat) (b : List Byte) : (hostWrite s a b).d0 = s.d0 := by
  unfold hostWrite
  split
  · rfl
  · exact ((d0_putF _ (by decide)).trans (d0_putF _ (by decide))).trans (d0_putF _ (by decide))

/-- A message leaves the power state. -/
theorem d0_sendMsix (s : State) (v : Nat) : (sendMsix s v).d0 = s.d0 := by
  unfold sendMsix
  split
  · rfl
  · dsimp only
    split <;> rfl

/-- The summary message leaves the power state. -/
theorem d0_evtRise (s : State) (p : Nat) (was : Bool) : (evtRise s p was).d0 = s.d0 := by
  unfold evtRise
  split
  · exact d0_sendMsix s _
  · rfl

/-- A cancelled write-back leaves the power state. -/
theorem d0_cancelWb (s : State) (a : Nat) : (cancelWb s a).d0 = s.d0 := by
  unfold cancelWb
  dsimp only
  split
  · exact d0_putF _ (dstate_key_ne _ _ _ (by decide))
  · rfl

/-- A write of HBM leaves the power state. -/
theorem d0_hbmPut (s : State) (a : Nat) (b : List Byte) : (hbmPut s a b).d0 = s.d0 := by
  have h : (if s.hbm.wbq.isEmpty then s else (granulesIn a b.length).foldl cancelWb s).d0 = s.d0 := by
    split
    · rfl
    · exact foldl_keeps (fun t => t.d0 = s.d0) cancelWb (fun t x ht => (d0_cancelWb t x).trans ht) _ s rfl
  exact h

/-- Either branch leaves the power state. -/
theorem d0_ite {c : Prop} [Decidable c] {s t u : State} (ht : t.d0 = s.d0) (hu : u.d0 = s.d0) : (if c then t else u).d0 = s.d0 := by
  split
  · exact ht
  · exact hu

/-- The counts of the rings of a vector start anew, and the power state stays. -/
theorem d0_vectorRings (s : State) (k : Nat) : (vectorRings s k).d0 = s.d0 := by
  unfold vectorRings
  exact List.foldlRecOn (motive := fun (t : State) => t.d0 = s.d0) _ _ rfl fun t ht j _ => ht

/-- The message of a ring leaves the power state. -/
theorem d0_ringSignal (s : State) (k : Nat) : (ringSignal s k).d0 = s.d0 :=
  d0_ite ((d0_sendMsix ..).trans (d0_vectorRings ..)) rfl

/-- A record that goes to the journal leaves the power state. -/
theorem d0_journalPut (s : State) (k : Nat) (b : List Byte) : (journalPut s k b).d0 = s.d0 := by
  have hidx : ∀ (t : State) (v n : Nat), (addR (setR t F.DISP_JOURNAL_WIDX v) F.RING_ORPHANED n).d0 = t.d0 := fun t v n =>
    (d0_putF _ (by decide)).trans (d0_putF _ (by decide))
  have hfull : ∀ t : State, (raiseInt (setR t F.SYS_STATUS_JOURNAL_FULL 1) 2 4).d0 = t.d0 := fun t =>
    (d0_evtRise ..).trans ((d0_putF _ (by decide)).trans (d0_putF _ (by decide)))
  have hout : ∀ (t : State) (o : OutS), ({ t with out := o } : State).d0 = t.d0 := fun _ _ => rfl
  unfold journalPut
  dsimp only
  generalize place (journalSize s) (reg s F.DISP_JOURNAL_WIDX) b.length = q
  obtain ⟨pad, at_⟩ := q
  have hput : (hbmPut (if pad = 0 then s else hbmPut s (journalBase + reg s F.DISP_JOURNAL_WIDX % journalSize s) (padBytes pad))
      (journalBase + at_ % journalSize s) b).d0 = s.d0 := (d0_hbmPut ..).trans (d0_ite rfl (d0_hbmPut ..))
  exact d0_ite ((hfull _).trans ((hout _ _).trans ((hidx ..).trans hput))) ((hout _ _).trans ((hidx ..).trans hput))

/-! ## Where a record goes -/

/-- In D0 a record that carries no result sets nothing off. -/
theorem afterTake_plain {t : State} {r : Rec} (hr : r.result = none) (hd : t.d0 = true) : afterTake t r = t := by
  simp only [afterTake, hr, hd, Bool.not_true, Bool.false_and, Bool.false_eq_true, if_false]

/-- The oldest record is taken. -/
theorem next_of_taken {s t : State} {r : Rec} {rest : List Rec} (hl : s.live = true) (hq : s.out.recq = r :: rest) (hr : r.result = none)
    (htake : takeRec { s with out := { s.out with recq := rest } } r = some t) (hd : t.d0 = true) :
    exec .recordWrite s = .next t := by
  refine next_of_live hl ?_
  rw [hq]
  dsimp only
  rw [htake]
  exact afterTake_plain hr hd

/-- A record of an enabled ring that owes no ORPHANED record goes to the ring or its overflow queue. -/
theorem takeRec_ring {s t : State} {r : Rec} (ho : r.orphan = false) (hen : ringEn s r.ring = true) (hd : s.d0 = true)
    (hdiv : (ringAt s r.ring).diverted = 0) (htake : ringTake s r.ring r = some t) : takeRec s r = some t := by
  have htell : tellOrphans s r.ring = s := if_pos (.inl hdiv)
  simp only [takeRec, ho, hen, hd, htell, hdiv, htake, Bool.not_true, Bool.or_self, Bool.false_eq_true, if_false, ne_eq, not_true_eq_false]

/-- A record of a disabled ring goes to the journal. -/
theorem takeRec_disabled {s : State} {r : Rec} (hen : ringEn s r.ring = false) : takeRec s r = toJournal s r := by
  simp only [takeRec, hen, Bool.not_false, Bool.or_true, Bool.true_or, if_true]

end Sys2Proof.Machine

namespace Sys2Proof

open Sys2Proof.Machine

/-- Settles O51: the ring, its overflow queue, the journal or nothing; the timer's message; the breach. -/
theorem recordsAndPeriods : Obligations.RecordsAndPeriods := by
  unfold Obligations.RecordsAndPeriods
  intro s hl
  refine ⟨fun r rest hq hres hd0 ho => ?_, fun k hk hunsig hcount hmsix htime => ?_, fun p hp hen hper hlive htime => ?_⟩
  · intro s0 k sp w n
    refine ⟨fun hen hdiv hovf hfits hpos => ?_, fun hen hdiv hovf hroom => ?_, fun hen hty hfits => ?_, fun hen hty => ?_⟩
    · intro s1 s2
      have htake : ringTake s0 k r = some (ringWrite s0 k r.bytes) := by
        refine if_pos ?_
        rw [Bool.and_eq_true, List.isEmpty_iff]
        exact ⟨hovf, hfits⟩
      have hwrite : ringWrite s0 k r.bytes = ringSignal (modRing s2 k (fun x => { x with
          unsig := x.unsig + 1, firstUnsig := if x.unsig = 0 then s.now else x.firstUnsig,
          safUnsig := x.safUnsig || decide (recType r.bytes = 6) })) k := by
        have hplace : place (ringSpan s0 k).2 (regX s0 F.RING_WIDX k) r.bytes.length = (0, regX s0 F.RING_WIDX k) := if_pos hpos
        unfold ringWrite
        dsimp only
        rw [hplace]
        rfl
      rw [hwrite] at htake
      refine next_of_taken hl hq hres (takeRec_ring (s := s0) ho hen hd0 hdiv htake) ?_
      calc (ringSignal (modRing s2 k _) k).d0 = s2.d0 := d0_ringSignal _ _
        _ = s1.d0 := d0_hostWrite ..
        _ = s0.d0 := (d0_putF _ (dstate_key_ne _ _ _ (by decide))).trans (d0_hostWrite ..)
        _ = true := hd0
    · have hne : ¬((ringAt s0 k).ovf.isEmpty && ringFits s0 k r.bytes.length) = true := by
        rw [Bool.and_eq_true, List.isEmpty_iff]
        exact fun h => hovf h.1
      have htake : ringTake s0 k r = some (setOvf (addR s0 F.RING_OVERFLOWS 1) k ((ringAt s k).ovf ++ [r])) :=
        (if_neg hne).trans (if_pos hroom)
      refine next_of_taken hl hq hres (takeRec_ring (s := s0) ho hen hd0 hdiv htake) ?_
      exact ((d0_putF _ (dstate_key_ne _ _ _ (by decide))).trans (d0_putF _ (by decide))).trans hd0
    · have hjournal : toJournal s0 r = some (journalPut s0 k r.bytes) := (if_neg hty).trans (if_pos hfits)
      exact next_of_taken hl hq hres ((takeRec_disabled (s := s0) hen).trans hjournal) ((d0_journalPut s0 k r.bytes).trans hd0)
    · have hdrop : toJournal s0 r = some s0 := if_pos hty
      exact next_of_taken hl hq hres ((takeRec_disabled (s := s0) hen).trans hdrop) hd0
  · refine next_of_live hl (guardOn_true (decide_eq_true hk) ?_)
    exact if_pos ⟨hunsig, hcount, hmsix, .inr (.inr (.inr htime))⟩
  · refine next_of_live hl (guardOn_true ?_ rfl)
    rw [decide_eq_true hp, decide_eq_true hen, decide_eq_true hper]
    exact (congrArg (· && _) hlive).trans (decide_eq_true htime)

end Sys2Proof
end

section
/-!
PROOFS. Power domains and the Granary's background work; the channels of HBM.
-/

namespace Sys2Proof.Machine

/-! ## The Granary -/

/-- The slot of the scrub is the last of a turn of 32 ticks. -/
theorem scrub_next {t : Nat} (h : t % 32 = 31) : SlotOwner.scrub.next t = t := by
  have hfind : (upto 32).find? (fun d => SlotOwner.scrub.slots.contains ((t + d) % 32)) = some 0 := by
    refine List.find?_cons_of_pos ?_
    rw [Nat.add_zero, h]
    rfl
  unfold SlotOwner.next
  rw [hfind]
  rfl

/-! ## The queues of HBM -/

/-- The numbers of a list start with the first, and its elements are the list's. -/
theorem mem_enumFrom {α : Type} {n : Nat} {l : List α} {x : Nat × α} (h : x ∈ enumFrom n l) : n ≤ x.1 ∧ x.2 ∈ l := by
  induction l generalizing n with
  | nil => cases h
  | cons y l ih =>
    rcases List.mem_cons.mp h with rfl | h
    · exact ⟨Nat.le_refl _, List.mem_cons_self ..⟩
    · exact ⟨Nat.le_of_succ_le (ih h).1, List.mem_cons_of_mem _ (ih h).2⟩

/-- The entry at the head of a queue may be served when its bank is not held, and no pinned entry stands behind a pooled one. -/
theorem mayServe_head {s : State} {e : HbmEnt} {rest : List HbmEnt} (hbank : bankHeld s e.req.addr = false)
    (hpin : e.pinned = true ∨ ∀ x ∈ rest, x.pinned = false) : mayServe s (e :: rest) 0 e = true := by
  have hbehind : ∀ x ∈ enumFrom 1 rest, (if x.2.pinned = e.pinned then decide (0 < x.1) else e.pinned) = true := by
    intro x hx
    obtain ⟨h1, hmem⟩ := mem_enumFrom hx
    split
    · exact decide_eq_true h1
    · next hne =>
      obtain h | h := hpin
      · exact h
      · rw [h _ hmem] at hne
        exact Bool.not_eq_false _ |>.mp (fun he => hne he.symm)
  have hall : (enumFrom 0 (e :: rest)).all (fun x => decide (x.1 = 0) || decide (entBank s x.2 ≠ entBank s e) ||
      !firstToGran (e :: rest) x.1 x.2 || (if x.2.pinned = e.pinned then decide (0 < x.1) else e.pinned)) = true := by
    refine List.all_eq_true.mpr fun x hx => ?_
    rcases List.mem_cons.mp hx with rfl | hx
    · rfl
    · rw [hbehind x hx, Bool.or_true]
  unfold mayServe
  rw [hbank, hall]
  rfl

/-- A read request at the head of its queue that is served leaves the rest of the queue. -/
theorem serveEnt_head {s : State} {p : Nat} {e : HbmEnt} {rest : List HbmEnt} (hq : hbmQ s p = e :: rest) (hkind : e.kind = .request)
    (hwr : e.req.wr = false) : serveEnt s p 0 e = serveRead (setHbmQ s p rest) p e := by
  simp only [serveEnt, hq, hkind, hwr, List.take_zero, List.map_nil, List.nil_append, Nat.zero_add, List.drop_succ_cons, List.drop_zero]

end Sys2Proof.Machine

namespace Sys2Proof

open Sys2Proof.Machine

/-- Settles O53: each command's condition from its premises. -/
theorem granaryAndDomains : Obligations.GranaryAndDomains := by
  unfold Obligations.GranaryAndDomains
  intro s hl
  refine ⟨fun d t hmem ht => ?_, fun d rest hdef hlast => ?_, fun k hk hslot => ?_, fun k b q hk hb hrow hdone hspare hdark => ?_,
    fun k b hk hb hbit hfl => ?_, fun k b t hk hb hz ht => ?_⟩
  · intro s1
    refine next_of_live hl (guardOn_true (List.any_eq_true.mpr ⟨(d, t), hmem, ?_⟩) rfl)
    rw [decide_eq_true ht, decide_eq_true rfl]
    rfl
  · refine next_of_live hl ?_
    rw [hdef]
    refine guardOn_true ?_ rfl
    split
    · rfl
    · next t hon => exact decide_eq_true (hlast t hon)
  · exact next_of_live hl (guardOn_true (by rw [decide_eq_true (scrub_next hslot), decide_eq_true hk]; rfl) rfl)
  · refine next_of_live hl (guardOn_true ?_ rfl)
    rw [decide_eq_true hk, decide_eq_true hb, hrow, hdone, hspare]
    dsimp only
    rw [hdark]
    rfl
  · refine next_of_live hl (guardOn_true ?_ rfl)
    rw [hbit, decide_eq_true hb, decide_eq_true hk, Bool.true_and, Bool.true_and, Bool.true_and]
    refine List.all_eq_true.mpr fun e he => ?_
    rw [Bool.or_eq_true, decide_eq_true_eq, decide_eq_true_eq]
    exact (Decidable.em (e.1 = b)).symm.imp_right (hfl e he)
  · refine next_of_live hl (guardOn_true ?_ rfl)
    rw [hz, decide_eq_true (Nat.succ_ne_zero t), Nat.add_sub_cancel, decide_eq_true ht, decide_eq_true hk, decide_eq_true hb]
    rfl

/-- Settles O54: requests, data, refresh, patrol, power-down, self-refresh and repair, each branch by its premises. -/
theorem hbmChannels : Obligations.HbmChannels := by
  unfold Obligations.HbmChannels
  intro s hl
  refine ⟨fun req htop => next_of_live hl (if_pos htop), fun req htop => next_of_live hl (if_neg (Nat.not_le.mpr htop)),
    fun pch e rest hq hkind hwr hup hbank hpin => ?_, fun pch hpch hup => ?_, fun pch hpch hup hen htime => ?_,
    fun ch hch hpd hmode hq0 hq1 hwb htime => ?_, fun t hexit ht => ⟨fun hst => ?_, fun hst => ?_⟩, fun ch r hr => ?_⟩
  · refine next_of_live hl ?_
    dsimp only
    rw [hq]
    have hfind : (enumFrom 0 (e :: rest)).find? (fun x => decide (x.2.req.id = e.req.id) && !x.2.req.wr && decide (x.2.kind = .request) &&
        mayServe s (e :: rest) x.1 x.2) = some (0, e) := by
      refine List.find?_cons_of_pos ?_
      rw [decide_eq_true rfl, hwr, decide_eq_true hkind, mayServe_head hbank hpin]
      rfl
    rw [hfind]
    exact guardOn_true hup (congrArg (fun t => hbmSettle t pch) (serveEnt_head hq hkind hwr))
  · exact next_of_live hl (guardOn_true (by rw [decide_eq_true hpch, hup]; rfl) rfl)
  · intro n s1 s2 s3
    have hreads : ∀ t, (if n + 1 = 12582912 then (if pch % 2 = 1 then addI s3 F.CH_SWEEPS (pch / 2) 1 else s3) else s2) = t →
        exec (.hbmPatrolRead pch) s = .next t := fun t ht =>
      next_of_live hl (guardOn_true (by rw [decide_eq_true hpch, hup, decide_eq_true hen, decide_eq_true htime]; rfl) ht)
    exact ⟨fun hn => hreads _ (if_neg hn), fun hn heven => hreads _ ((if_pos hn).trans (if_neg (by omega))),
      fun hn hodd => hreads _ ((if_pos hn).trans (if_pos hodd))⟩
  · refine next_of_live hl (guardOn_true ?_ rfl)
    rw [decide_eq_true hch, decide_eq_true hpd, decide_eq_true hmode, hq0, hq1, hwb, decide_eq_true htime]
    rfl
  · refine next_of_live hl ?_
    rw [hexit]
    exact guardOn_true (by rw [decide_eq_true ht, decide_eq_true hst]; rfl) rfl
  · refine next_of_live hl ?_
    rw [hexit]
    refine guardOn_false ?_
    rw [hst, Bool.and_eq_false_iff]
    exact .inr rfl
  · intro row s1 s2 resume
    refine ⟨?_, fun hhard => ?_, fun hhard => ?_⟩
    · refine next_of_live hl ?_
      rw [hr]
      rfl
    · refine next_of_live hl ?_
      rw [hr]
      exact congrArg resume (if_pos hhard)
    · refine next_of_live hl ?_
      rw [hr]
      exact congrArg resume (if_neg (not_true_of_false hhard))

end Sys2Proof
end

section
/-!
PROOFS. Flits, credits, retries and transfer units.
-/

namespace Sys2Proof.Machine

/-! ## Searches -/

/-- A search over a range of numbers finds the first for which the condition holds. -/
theorem find_rangeFrom {p : Nat → Bool} {a n m : Nat} (ha : a ≤ m) (hn : m < a + n) (hm : p m = true)
    (hfirst : ∀ q, a ≤ q → q < m → p q = false) : (rangeFrom a n).find? p = some m := by
  induction n generalizing a with
  | zero => omega
  | succ n ih =>
    by_cases h : a = m
    · subst h
      exact List.find?_cons_of_pos hm
    · refine (List.find?_cons_of_neg (not_true_of_false (hfirst a (Nat.le_refl a) (by omega)))).trans ?_
      exact ih (by omega) (by omega) fun q h1 h2 => hfirst q (by omega) h2

/-- The port of the first transfer that goes over a link. -/
theorem findSome_port {l rest : List FabXfer} {x : FabXfer} (h : l.filter (fun x => !x.relay) = x :: rest) :
    l.findSome? (fun (x : FabXfer) => if x.relay then none else some x.port) = some x.port := by
  induction l with
  | nil => cases h
  | cons y l ih =>
    by_cases hy : y.relay = true
    · rw [List.filter_cons_of_neg (by rw [hy]; exact Bool.false_ne_true)] at h
      exact (List.findSome?_cons_of_isNone (by rw [if_pos hy]; rfl)).trans (ih h)
    · rw [List.filter_cons_of_pos (by rw [Bool.not_eq_true'] ; exact Bool.eq_false_iff.mpr hy)] at h
      obtain ⟨rfl, -⟩ := List.cons.inj h
      simp only [List.findSome?_cons, if_neg hy]

/-! ## Transfer units -/

/-- A unit received for an item that is there, and for which its command's condition holds. -/
theorem next_of_rxUnit {s t : State} {item entry : Nat} {it : Item} {x : FabXfer} {c : State → Item → FabXfer → Bool}
    {f : Item → FabXfer → State → State} (hl : s.live = true) (hit : item? s item = some it) (hx : rxEntry s it entry = some x)
    (hc : c s it x = true) (e : f it x s = t) :
    (Host.Outcome.next (whenLive s fun s =>
      match item? s item with
      | none => s
      | some it =>
        match rxEntry s it entry with
        | none => s
        | some x => guardOn (c s it x) s (f it x)) : Out) = .next t := by
  refine next_of_live hl ?_
  rw [hit]
  dsimp only
  rw [hx]
  exact guardOn_true hc e

/-- A transfer of a running item whose time and way have come reads its bytes, and sends or relays them when they can be delivered. -/
theorem next_of_transfer {s s1 s2 t : State} {item entry p : Nat} {it : Item} {x : FabXfer} {r : GR} {ok : Bool} (hl : s.live = true)
    (hit : item? s item = some it) (hx : (fabOf s it).xfers[entry]? = some x) (hp : rank0 s it = some p) (hst : it.st = .running)
    (hsrc : x.srcChip = chipId s) (hlaunch : fabLaunch it + x.start ≤ s.now) (hnew : (item, entry) ∉ s.fab.started)
    (hway : (if x.relay then relayOn s else carries s x.port && (it.isPinned || decide ((link s x.port).laneBusyTo ≤ s.now))) = true)
    (hget : granGet s (p / 9) (claimSpan s p it x.srcAddr) (flitsOf x.bytes) = (s1, r))
    (hgran : afterGran s1 p item (p / 9) (claimSpan s p it x.srcAddr) (flitsOf x.bytes) r = (s2, ok))
    (e : (if !ok then s2
          else
            let s3 := { s2 with fab := { s2.fab with started := s2.fab.started ++ [(item, entry)] } }
            let b := r.bytes.take x.bytes
            if x.relay then
              let h := relayHdr x.srcChip x.dstChip it.e.plan (fabLaunch it) entry x.bytes
              let key := fabricKey s it
              let iv := relayIv (fabLaunch it) entry x.srcChip
              let ct := Config.gcmSeal key iv h b
              let s4 := { s3 with fab := { s3.fab with
                relayWait := s3.fab.relayWait ++ [h ++ ct ++ le 16 (Config.gcmTag key iv h ct)] } }
              relayDrain s4.fab.relayWait.length s4
            else
              let s4 := if it.isPinned then
                modLink s3 x.port (fun l => { l with laneBusyTo := s.now + flitTicks (flitsOf x.bytes) }) else s3
              sendFlits s4 x.port
                ({ lane := 2, sou := true, body := .header it.e.plan (fabLaunch it) entry } :: dataFlits (flitsOf x.bytes) b) (some p)) = t) :
    exec (.transferUnitStart item entry) s = .next t := by
  refine next_of_live hl ?_
  rw [hit]
  dsimp only
  rw [hx, hp]
  have hfresh : s.fab.started.contains (item, entry) = false := by
    rw [List.contains_eq_mem]
    exact decide_eq_false hnew
  refine guardOn_true (by rw [hway, decide_eq_true hst, decide_eq_true hsrc, decide_eq_true hlaunch, hfresh]; rfl) ?_
  rw [hget]
  dsimp only
  rw [hgran]
  exact e

end Sys2Proof.Machine

namespace Sys2Proof

open Sys2Proof.Machine

/-- Settles O58: each outcome of a flit, a retry, a credit, a transfer and a unit, by its premises. -/
theorem flitsAndUnits : Obligations.FlitsAndUnits := by
  unfold Obligations.FlitsAndUnits
  intro s hl
  refine ⟨fun port f hup => ?_, fun port seq hup => ?_, fun port lane n hup => ?_, fun c k t it hk hpre hcred htime hit sec x rest hsec hx => ?_,
    fun item entry it x p s1 s2 r hit hx hp hst hsrc hlaunch hnew hrelay hcarries hlane => ?_,
    fun item entry it x p s1 s2 r hit hx hp hst hsrc hlaunch hnew hrelay hen hexp hget hgran => ?_,
    fun item entry it x hit hx hlaunched => ?_, fun u it x hready => ?_⟩
  · have htakes : ∀ t, (let l := link s port
        let inOrder := decide (f.seq % 256 = l.rxSeq % 256)
        if flitGood f && inOrder then
          let s1 := modLink s port (fun x => { x with rxSeq := x.rxSeq + 1, awaiting := false })
          let s2 := addI (addI s1 F.LINK_RX_FLITS port 1) F.LINK_CORRECTED port (flitCorrected f)
          takeFlit (reply s2 port (.credit f.lane 1)) port f
        else if l.awaiting && !inOrder then s
        else reply (addI (modLink s port (fun x => { x with awaiting := true })) F.LINK_RETRIES port 1) port (.nak (l.rxSeq % 256))) = t →
        exec (.flitReceived port f) s = .next t := fun t ht =>
      next_of_live hl (guardOn_true (by rw [hup, Bool.true_or]) ht)
    refine ⟨fun hgood hseq => htakes _ (if_pos ?_), fun hseq hawait => htakes _ ((if_neg ?_).trans (if_pos ?_)), fun hbad hnot =>
      htakes _ ((if_neg ?_).trans (if_neg ?_))⟩
    · rw [hgood, decide_eq_true hseq]
      rfl
    · rw [decide_eq_false hseq, Bool.and_false]
      exact Bool.false_ne_true
    · rw [hawait, decide_eq_false hseq]
      rfl
    · rw [Bool.and_eq_true, decide_eq_true_eq]
      exact fun h => Bool.false_ne_true ((hbad h.2).symm.trans h.1)
    · rw [Bool.and_eq_true, Bool.not_eq_true', decide_eq_false_iff_not]
      exact fun h => Bool.false_ne_true ((hnot h.2).symm.trans h.1)
  · intro l rest n
    refine ⟨fun hor => next_of_live hl (guardOn_true hup (if_pos ?_)), fun hrest hn => next_of_live hl (guardOn_true hup (if_neg ?_))⟩
    · exact hor.imp_left List.isEmpty_iff.mpr
    · exact fun h => h.elim (fun h => hrest (List.isEmpty_iff.mp h)) (Nat.not_le.mpr hn)
  · exact next_of_live hl (guardOn_true hup rfl)
  · refine next_of_live hl ?_
    dsimp only
    rw [hk, hpre]
    refine guardOn_true (by rw [decide_eq_true hcred, decide_eq_true htime]; rfl) ?_
    rw [hit]
    dsimp only
    rw [hsec]
    rw [Option.map_some, Option.getD_some, findSome_port hx]
    rfl
  · intro n sp hget
    have hway : (if x.relay then relayOn s
        else carries s x.port && (it.isPinned || decide ((link s x.port).laneBusyTo ≤ s.now))) = true := by
      rw [if_neg (not_true_of_false hrelay), hcarries, Bool.true_and, Bool.or_eq_true, decide_eq_true_eq]
      exact hlane
    exact ⟨fun hgran => next_of_transfer hl hit hx hp hst hsrc hlaunch hnew hway hget hgran rfl,
      fun hgran => next_of_transfer hl hit hx hp hst hsrc hlaunch hnew hway hget hgran (if_neg (not_true_of_false hrelay))⟩
  · have hway : (if x.relay then relayOn s
        else carries s x.port && (it.isPinned || decide ((link s x.port).laneBusyTo ≤ s.now))) = true := by
      rw [if_pos hrelay, relayOn, hen, hexp]
      rfl
    exact next_of_transfer hl hit hx hp hst hsrc hlaunch hnew hway hget hgran (if_pos hrelay)
  · intro u u1 s1
    refine ⟨fun hcomplete hland hrelay => ?_, fun t hpin hrelay hland hsig hdue => ?_, fun hland hlim hrelay => ?_,
      fun port hland hlim hrelay hport hpeer hfirst => ?_⟩
    · refine next_of_rxUnit hl hit hx ?_ ?_
      · rw [hlaunched, hrelay]
        exact (congrArg (fun b => b && _ && true) hcomplete).trans (by rw [show (unitOf s item entry).landed = none from hland]; rfl)
      · simp only [Option.isNone_iff_eq_none, Bool.not_eq_true']
        rfl
    · refine next_of_rxUnit hl hit hx ?_ rfl
      rw [hlaunched, hpin, hrelay, decide_eq_true hdue, show (unitOf s item entry).landed = some t from hland,
        show (unitOf s item entry).signalled = false from hsig]
      rfl
    · refine next_of_rxUnit hl hit hx ?_ (if_pos hrelay)
      rw [hlaunched, show (unitOf s item entry).landed = none from hland, decide_eq_true hlim]
      rfl
    · refine next_of_rxUnit hl hit hx ?_ ((if_neg (not_true_of_false hrelay)).trans ?_)
      · rw [hlaunched, show (unitOf s item entry).landed = none from hland, decide_eq_true hlim]
        rfl
      · have hfind : (upto 4).find? (fun p => decide (regI s F.LINK_PEER_CHIP p = x.srcChip)) = some port :=
          find_rangeFrom (Nat.zero_le _) (by omega) (decide_eq_true hpeer) fun q _ hq => decide_eq_false (hfirst q hq)
        dsimp only
        rw [hfind]
        rfl
  · intro s0 h iv
    have hguard : decide (0 < s.fab.relayReady) = true := decide_eq_true hready
    refine ⟨fun hnone => ?_, fun hit hx => ⟨fun htag => ?_, fun htag hrelay hland hdst hsrc => ?_⟩⟩
    · refine next_of_live hl (guardOn_true hguard ?_)
      dsimp only
      rw [hnone]
    · refine next_of_live hl (guardOn_true hguard ?_)
      dsimp only
      rw [hit]
      dsimp only
      rw [hx]
      exact if_pos htag
    · intro y s1
      have hmine : ¬(!x.relay || (unitOf s0 it.key u.entry).landed.isSome || decide (u.dstChip ≠ chipId s0) ||
          decide (u.srcChip ≠ x.srcChip)) = true := by
        rw [hrelay, hland, hdst, hsrc, decide_eq_false (not_not_intro rfl), decide_eq_false (not_not_intro rfl)]
        exact Bool.false_ne_true
      have hlands : ∀ t, (if (item? s1 it.key).isNone then s1
          else signalUnit s1 it x y (it.isPinned && decide (fabLaunch it + x.start < s.now))) = t →
          exec (.relayUnitLanded u) s = .next t := by
        intro t ht
        refine next_of_live hl (guardOn_true hguard ?_)
        dsimp only
        rw [hit]
        dsimp only
        rw [hx]
        exact (if_neg (not_not_intro htag)).trans ((if_neg hmine).trans ht)
      exact ⟨fun hthere => hlands _ (if_neg (fun h => hthere (Option.isNone_iff_eq_none.mp h))),
        fun hgone => hlands _ (if_pos (Option.isNone_iff_eq_none.mpr hgone))⟩

end Sys2Proof
end

section
/-!
PROOFS. Winnow's segments, golden windows, rotation and latent intervals.
-/

namespace Sys2Proof.Machine

/-- What both branches read. -/
theorem reg_ite {c : Prop} [Decidable c] {t u : State} {f : Fld} {v : Nat} (ht : reg t f = v) (hu : reg u f = v) :
    reg (if c then t else u) f = v := by
  split
  · exact ht
  · exact hu

/-- A fault-journal entry leaves every register but its count of entries lost. -/
theorem reg_fjPush {s : State} {f : Fld} (e : FjEntry) (h : f.key 0 0 0 ≠ F.MGMT_FJ_OVERFLOWS.key 0 0 0) :
    reg (fjPush s e) f = reg s f :=
  reg_ite rfl (getF_putF_other _ _ _ _ _ _ _ _ _ _ h)

/-- A SAF record leaves every register but the fault journal's count of entries lost. -/
theorem reg_safNow {s : State} {f : Fld} (code sev kind unit plan detail items : Nat)
    (h : f.key 0 0 0 ≠ F.MGMT_FJ_OVERFLOWS.key 0 0 0) : reg (safNow s code sev kind unit plan detail items) f = reg s f :=
  (reg_fjPush _ h).trans rfl

/-- A segment whose unit is found ends: it has passed, or it is a finding. -/
theorem next_of_segment {s t : State} {unitKind unit : Nat} {g : SegRun} {pass_ : Bool} (hl : s.live = true)
    (hg : s.winnow.segs.find? (fun g => decide (g.unitKind = unitKind) && decide (g.unit = unit)) = some g)
    (e : (let key := winKey g.seg unitKind unit
          let s1 := dropRun s g
          let s2 := { s1 with winnow := { s1.winnow with overruns := terase s1.winnow.overruns key } }
          if pass_ then
            let s3 := testPassed (addR s2 F.WINNOW_SEGMENTS 1) key
            proveService { s3 with winnow := { s3.winnow with findings := s3.winnow.findings.filter (fun x => decide (x ≠ key)) } }
          else finding s2 g.seg unitKind unit) = t) :
    exec (.winnowSegmentEnd unitKind unit pass_) s = .next t := by
  refine next_of_live hl ?_
  rw [hg]
  exact e

/-- The record, with severity 1, of a test whose interval has passed at tick `now`. -/
def overdueWritten (s : State) (now key k u plan d : Nat) : State :=
  let t := safNow (addR s F.WINNOW_OVERDUE 1) 0xD 1 k u plan d 0
  { t with winnow := { t.winnow with
    overdueAt := tset 0 t.winnow.overdueAt key (now + 1),
    overdueOpen := t.winnow.overdueOpen.filter (fun x => decide (x ≠ key)) ++ [key] } }

/-- The record leaves the registers of Winnow's control. -/
theorem flag_overdueWritten (s : State) (now key k u plan d : Nat) :
    flag (overdueWritten s now key k u plan d) F.WINNOW_CTRL_OVERDUE_FAULT = flag s F.WINNOW_CTRL_OVERDUE_FAULT := by
  have hsaf : reg (safNow (addR s F.WINNOW_OVERDUE 1) 0xD 1 k u plan d 0) F.WINNOW_CTRL_OVERDUE_FAULT =
      reg s F.WINNOW_CTRL_OVERDUE_FAULT :=
    (reg_safNow _ _ _ _ _ _ _ (by decide)).trans (getF_putF_other _ _ _ _ _ _ _ _ _ _ (by decide))
  exact congrArg (fun n => decide (n ≠ 0)) hsaf

end Sys2Proof.Machine

namespace Sys2Proof

open Sys2Proof.Machine

/-- Settles O59: each command's condition, and the branch that its premises name. -/
theorem winnowCommands : Obligations.WinnowCommands := by
  unfold Obligations.WinnowCommands
  intro s hl
  refine ⟨fun g hen hseg hkind hunit hruns => ?_, fun unitKind unit g hg => ?_, fun item p it hit hgold hlaunched htime hpipe => ?_,
    fun clu core q l hq hlog hclu hcore hrot hdown hstate hreact hruns hdue => ?_, fun clu h hh htime hidle hruns hdown => ?_,
    fun core age t hcore ht hspare => ?_, fun seg kind unit plan hunit htime hfault => ?_⟩
  · refine next_of_live hl (guardOn_true (by rw [hen, decide_eq_true hseg, decide_eq_true hkind, hunit, hruns]; rfl) ?_)
    simp only [Bool.or_eq_true, Bool.and_eq_true, decide_eq_true_eq, Bool.not_eq_true']
  · intro key s1 s2 s3 o2
    have hover : ∀ t, (if tget 0 s.winnow.overruns key = 0 then
          (let u := safUnit (addR o2 F.WINNOW_OVERRUNS 1) unitKind unit
           safNow u.1 0xC 0 u.2.1 u.2.2 0 g.seg 0)
        else finding o2 g.seg unitKind unit) = t → g.start + segTicks g.seg ≤ s.now → exec (.testOverrun unitKind unit) s = .next t := by
      intro t ht htime
      refine next_of_live hl ?_
      rw [hg]
      exact guardOn_true (decide_eq_true htime) ht
    exact ⟨next_of_segment hl hg (if_pos rfl), next_of_segment hl hg (if_neg Bool.false_ne_true),
      fun htime hagain => hover _ (if_neg hagain) htime, fun htime hfirst => hover _ (if_pos hfirst) htime⟩
  · refine next_of_live hl ?_
    rw [hit]
    refine guardOn_true (by rw [hgold, hlaunched, decide_eq_true htime]; rfl) ?_
    dsimp only
    rw [hpipe]
  · intro n start s1 s2
    have hstart : ∀ t, (if core = getF s F.WINNOW_CLU_NEXT 0 0 clu then
          (if n ≤ core then testPassed s2 (winKey 14 9 clu) else s2) else s1) = t → exec (.handoverStart clu core) s = .next (start t) := by
      intro t ht
      refine next_of_live hl ?_
      rw [hq, hlog]
      refine guardOn_true ?_ (congrArg start ht)
      rw [decide_eq_true hclu, decide_eq_true hcore, hrot, hdown, decide_eq_true hstate, hreact, hruns, hdue]
      rfl
    exact ⟨fun hne => hstart _ (if_neg hne), fun he hlt => hstart _ ((if_pos he).trans (if_neg (Nat.not_le.mpr hlt))),
      fun he hle => hstart _ ((if_pos he).trans (if_pos hle))⟩
  · intro c s1 s2 s3 s4
    have hguard : (decide (h.start + copyTicks ≤ s.now) && coreIdle s h.logical && !segRuns s 1 h.phys && !pairDown s 0) = true := by
      rw [show decide (h.start + copyTicks ≤ s.now) = true from decide_eq_true htime, hidle, hruns, hdown]
      rfl
    refine ⟨fun hwear => next_of_live hl ?_, fun hwear => next_of_live hl ?_⟩
    · rw [hh]
      exact guardOn_true hguard (if_neg (Nat.not_le.mpr hwear))
    · rw [hh]
      exact guardOn_true hguard (if_pos hwear)
  · have hguard : (decide (core < 72) && (tget none s.winnow.testing (core / 9)).isSome && decide (spareOf s (core / 9) = some core)) = true := by
      rw [decide_eq_true hcore, ht, decide_eq_true hspare]
      rfl
    exact ⟨next_of_live hl (guardOn_true hguard (if_pos rfl)), next_of_live hl (guardOn_true hguard (if_neg Bool.false_ne_true))⟩
  · intro key overdue
    have hguard : (latentUnit s seg kind unit && decide (latentFrom s seg kind unit + latentTicks s seg ≤ s.now)) = true := by
      rw [hunit, decide_eq_true htime]
      rfl
    refine ⟨fun hseg hkind => next_of_live hl (guardOn_true hguard ?_), fun p hseg hplan hpipe => next_of_live hl (guardOn_true hguard ?_)⟩
    · have h14 : ¬seg = 14 := by omega
      have h15 : ¬seg = 15 := by omega
      have hsaf : safUnit s kind unit = (s, kind, unit) := (if_neg (by omega)).trans (if_neg (by omega))
      dsimp only
      rw [if_neg h15, if_neg h14, if_neg h15, hsaf]
      exact if_neg (not_true_of_false ((flag_overdueWritten ..).trans hfault))
    · have h14 : ¬seg = 14 := by omega
      dsimp only
      rw [if_pos hseg, ← hplan, if_neg h14, if_pos hseg, hpipe]
      exact if_neg (not_true_of_false ((flag_overdueWritten ..).trans hfault))

end Sys2Proof
end

section
/-!
PROOFS. The flash's patrol, its operations, and the events of the host link.
-/

namespace Sys2Proof.Machine

/-- What both branches hold of the host link. -/
theorem pcie_ite {c : Prop} [Decidable c] {t u : State} {p : PcieS} (ht : t.pcie = p) (hu : u.pcie = p) :
    (if c then t else u).pcie = p := by
  split
  · exact ht
  · exact hu

theorem fjPush_pcie (s : State) (e : FjEntry) : (fjPush s e).pcie = s.pcie := pcie_ite rfl rfl

theorem refreshPart_pcie (s : State) (k : Nat) : (refreshPart s k).pcie = s.pcie := pcie_ite (fjPush_pcie _ _) rfl

theorem foldl_refreshPart_pcie (l : List Nat) (s : State) : (l.foldl refreshPart s).pcie = s.pcie :=
  foldl_keeps (fun t => t.pcie = s.pcie) refreshPart (fun t k ht => (refreshPart_pcie t k).trans ht) l s rfl

theorem refreshFlash_pcie (s : State) : (refreshFlash s).pcie = s.pcie := by
  unfold refreshFlash
  rw [foldl_refreshPart_pcie]
  rfl

theorem moveRecs_queueOps_pcie (s : State) (l : List FlashOp) (b d : Nat) : (moveRecs (queueOps s l) b d).pcie = s.pcie := rfl

theorem growBad_pcie (s : State) (b : Nat) : (growBad s b).pcie = s.pcie := by
  refine pcie_ite rfl ((refreshFlash_pcie _).trans ?_)
  split
  · exact pcie_ite (fjPush_pcie _ _) ((moveRecs_queueOps_pcie _ _ _ _).trans (fjPush_pcie _ _))
  · exact fjPush_pcie _ _

/-- With no PME_TO_Ack held back, the end of an operation ends with the partitions' registers. -/
theorem ackTurnOff_refreshFlash {s : State} (h : s.pcie.ackPending = false) : ackTurnOff (refreshFlash s) = refreshFlash s :=
  if_neg (not_true_of_false ((congrArg PcieS.ackPending (refreshFlash_pcie s)).trans h))

/-- A read that completes is counted. -/
theorem flashDone_read {s : State} {o : FlashOp} {rest : List FlashOp} (ok : Bool) (hops : s.flash.ops = o :: rest)
    (hack : s.pcie.ackPending = false) (hkind : o.kind = .read) :
    flashDone ok s = refreshFlash (addR { s with flash := { s.flash with ops := rest } } F.FLASH_READS 1) := by
  unfold flashDone
  rw [hops]
  dsimp only
  rw [hkind]
  cases usePart o.use <;> exact ackTurnOff_refreshFlash hack

/-- A page that is programmed outside the logs goes to the block that its operation names. -/
theorem flashDone_programmed {s : State} {o : FlashOp} {rest : List FlashOp} (hops : s.flash.ops = o :: rest)
    (hack : s.pcie.ackPending = false) (hkind : o.kind = .program) (hpart : usePart o.use = none) :
    flashDone true s = refreshFlash (progPage { s with flash := { s.flash with ops := rest } } o.block) := by
  have hjournal : ¬(o.use = .journal ∧ o.kind = .program) := by
    rintro ⟨huse, -⟩
    rw [huse] at hpart
    cases hpart
  unfold flashDone
  rw [hops]
  dsimp only
  rw [hkind, hpart]
  dsimp only
  rw [if_pos rfl, show noteJournal _ o rest = _ from if_neg hjournal]
  exact ackTurnOff_refreshFlash hack

/-- A block that is erased for a move. -/
theorem flashDone_erased {s : State} {o : FlashOp} {rest : List FlashOp} (hops : s.flash.ops = o :: rest)
    (hack : s.pcie.ackPending = false) (hkind : o.kind = .erase) (huse : o.use = .move) :
    flashDone true s = refreshFlash (eraseBlock { s with flash := { s.flash with ops := rest } } o.block) := by
  unfold flashDone
  rw [hops]
  dsimp only
  rw [hkind, huse]
  exact ackTurnOff_refreshFlash hack

/-- A block whose erase for a move fails is grown bad. -/
theorem flashDone_eraseFailed {s : State} {o : FlashOp} {rest : List FlashOp} (hops : s.flash.ops = o :: rest)
    (hack : s.pcie.ackPending = false) (hkind : o.kind = .erase) (huse : o.use = .move) :
    flashDone false s = refreshFlash (growBad { s with flash := { s.flash with ops := rest } } o.block) := by
  unfold flashDone
  rw [hops]
  dsimp only
  rw [hkind, huse]
  exact ackTurnOff_refreshFlash ((congrArg PcieS.ackPending (growBad_pcie _ _)).trans hack)

/-- Firmware's slots know of programs and of erased firmware blocks alone. -/
theorem fwStep_of_not_program {o : FlashOp} (s : State) (hkind : o.kind ≠ .program) (hblock : o.kind ≠ .erase ∨ o.use ≠ .blockErase) :
    fwStep o s = s :=
  (if_neg fun h => hblock.elim (fun hk => hk h.1) (fun hu => hu h.2.1)).trans (if_pos hkind)

/-- A program of a record, a move or a refresh means nothing for the firmware slots. -/
theorem fwStep_of_copy {o : FlashOp} (s : State) (hkind : o.kind = .program)
    (huse : o.use = .record ∨ o.use = .move ∨ o.use = .refresh) : fwStep o s = s := by
  refine (if_neg fun h => ?_).trans ((if_neg (not_not_intro hkind)).trans ?_)
  · rw [hkind] at h
    exact absurd h.1 (by decide)
  · obtain huse | huse | huse := huse <;> rw [huse]

/-- An operation that completes well also has its meaning for the firmware slots. -/
theorem next_of_flashOk {s t : State} {o : FlashOp} {rest : List FlashOp} (hl : s.live = true) (hops : s.flash.ops = o :: rest)
    (e : fwStep o (flashDone true s) = t) : exec (.flashOperationDone true) s = .next t := by
  refine next_of_live hl ?_
  rw [hops]
  exact (if_pos rfl).trans e

theorem next_of_flashFailed {s t : State} {o : FlashOp} {rest : List FlashOp} (hl : s.live = true) (hops : s.flash.ops = o :: rest)
    (e : flashDone false s = t) : exec (.flashOperationDone false) s = .next t := by
  refine next_of_live hl ?_
  rw [hops]
  exact (if_neg Bool.false_ne_true).trans e

/-- The largest of values below a bound above 0 is below it. -/
theorem maxOf_lt {l : List Nat} {n : Nat} (hn : 0 < n) (h : ∀ x ∈ l, x < n) : maxOf l < n := by
  refine List.foldlRecOn (motive := fun a => a < n) l _ hn fun a ha x hx => ?_
  split
  · exact h x hx
  · exact ha

/-- A page whose sectors have few bit errors, in its first year, is counted. -/
theorem flashPatrol_of_good {s : State} {block page : Nat} {bits : List Nat} (hl : s.live = true) (hblock : block < 4096)
    (hpage : page < (fblock s block).pages) (hbad : (fblock s block).bad = 0) (hops : s.flash.ops = []) (hdown : pairDown s 1 = false)
    (hmode : reg s F.FLASH_STATE_MODE = 2) (hbits : ∀ n ∈ bits.take 4, n < 12)
    (hyear : roundNow s < (fblock s block).progRound + yearRounds) :
    exec (.flashPatrol block page bits) s =
      .next (if lastWritten s block page then
          addR (addR (addR (addR s F.FLASH_READS 1) F.FLASH_CORR_BITS (sumN (bits.take 4))) F.FLASH_UNCORR 0) F.FLASH_PATROLS 1
        else addR (addR (addR s F.FLASH_READS 1) F.FLASH_CORR_BITS (sumN (bits.take 4))) F.FLASH_UNCORR 0) := by
  have huncorr : (bits.take 4).filter (fun n => decide (24 < n)) = [] :=
    List.filter_eq_nil_iff.mpr fun n hn h => by have := hbits n hn; have := of_decide_eq_true h; omega
  have hcorr : (bits.take 4).filter (fun n => decide (n ≤ 24)) = bits.take 4 :=
    List.filter_eq_self.mpr fun n hn => decide_eq_true (by have := hbits n hn; omega)
  have hworst : maxOf (bits.take 4) < 12 := maxOf_lt (by decide) hbits
  have hretire : ¬20 ≤ maxOf (bits.take 4) := by omega
  have hrefresh : ¬(12 ≤ maxOf (bits.take 4) ∨ (fblock s block).progRound + yearRounds ≤ roundNow s) := by omega
  refine next_of_live hl (guardOn_true ?_ ?_)
  · rw [decide_eq_true hblock, decide_eq_true hpage, decide_eq_true hbad, hops, hdown, decide_eq_true hmode]
    rfl
  · dsimp only
    rw [huncorr, hcorr, List.length_nil, if_neg (Nat.lt_irrefl 0), if_neg hretire, if_neg hrefresh]

/-- A completion of an outstanding request acts on its read, and reads that wait for tags go on. -/
theorem next_of_completion {s t : State} {tag : Nat} {r : HostRead} {q : Req} {st : CplStatus} {bytes : List Byte} (hl : s.live = true)
    (hreq : reqOf s tag = some (r, q))
    (e : (match st with
        | .ok => if r.keep && decide (bytes.length ≠ q.len) then failRead (aer s .malformed) r (some tag) else gotData s r q bytes
        | .ur => failRead s r (some tag)
        | .ca => failRead s r (some tag)
        | .poisoned => failRead (aer s .poisonedTlp) r (some tag)
        | .malformed => failRead (aer s .malformed) r (some tag)) = t) :
    exec (.completionReceived tag st bytes) s = .next (pumpReads t) := by
  refine next_of_live hl ?_
  rw [hreq]
  refine congrArg pumpReads (Eq.trans ?_ e)
  cases st <;> rfl

/-- A completion of the length asked for brings its request's data. -/
theorem next_of_data {s t : State} {tag : Nat} {r : HostRead} {q : Req} {bytes : List Byte} (hl : s.live = true)
    (hreq : reqOf s tag = some (r, q)) (hlen : bytes.length = q.len) (e : gotData s r q bytes = t) :
    exec (.completionReceived tag .ok bytes) s = .next (pumpReads t) := by
  refine next_of_completion hl hreq ((if_neg ?_).trans e)
  rw [hlen]
  simp

/-- A vector that is unmasked sends what it has pending. -/
theorem next_of_unmask {s t : State} {v : Nat} (hl : s.live = true) (hv : v < 64) (hserved : memServed s = true)
    (e : flushVector (maskVector s v false) v = t) : exec (.msixUnmask v) s = .next t :=
  next_of_live hl (guardOn_true (by rw [decide_eq_true hv, hserved]; rfl) e)

/-- The entry of a vector that is unmasked. -/
theorem tget_maskVector (s : State) (v : Nat) (m : Bool) :
    tget {} (maskVector s v m).pcie.msix v = { tget {} s.pcie.msix v with mask := m } := tget_tset_same _ _ _ _

/-- With no read outstanding, none goes on. -/
theorem pumpReads_of_nil {s : State} (h : s.pcie.reads = []) : pumpReads s = s := by
  unfold pumpReads
  rw [h]
  rfl

/-- A function that is not in D0 goes back to it. -/
theorem next_of_d0Return {s t : State} (hl : s.live = true) (hd0 : s.d0 = false) (e : toD0 s = t) :
    exec .d0Return s = .next (resumeIssue t) :=
  next_of_live hl (guardOn_true (by rw [hd0]; rfl) (congrArg resumeIssue e))

/-- The banks power up; HBM leaves self-refresh (`u`), and a suspended lease starts. -/
theorem toD0_eq {s t u : State} (hd0 : s.d0 = false)
    (hu : (if flag (banksUp (setR (setR s F.PCIE_POWER_DSTATE 0) F.PCIE_POWER_WATCH 0)) F.HBMC_SREF then
        exitSref (putBoth (banksUp (setR (setR s F.PCIE_POWER_DSTATE 0) F.PCIE_POWER_WATCH 0)) F.HBMC_SREF 0 0 0 0)
      else banksUp (setR (setR s F.PCIE_POWER_DSTATE 0) F.PCIE_POWER_WATCH 0)) = u)
    (ht : (if u.disp.leaseSuspended then startLease { u with disp := { u.disp with leaseSuspended := false } } else u) = t) :
    toD0 s = t := by
  unfold toD0
  dsimp only
  rw [if_neg (not_true_of_false hd0), hu]
  exact ht

end Sys2Proof.Machine

namespace Sys2Proof

open Sys2Proof.Machine

/-- Settles O60: each event's condition, and the branch that its premises name. -/
theorem flashAndPcieEvents : Obligations.FlashAndPcieEvents := by
  unfold Obligations.FlashAndPcieEvents
  intro s hl
  refine ⟨fun block page bits hblock hpage hbad hops hdown hmode hbits hyear =>
      flashPatrol_of_good hl hblock hpage hbad hops hdown hmode hbits hyear,
    fun part a b hpart hrange hops hdown ha hb hne hpages => ?_, fun o rest hops hack => ?_,
    fun o rest hops => ⟨next_of_flashOk hl hops rfl, next_of_flashFailed hl hops rfl⟩,
    fun tag r q bytes hreq => ⟨fun hlen => ?_, next_of_completion hl hreq rfl, next_of_completion hl hreq rfl,
      next_of_completion hl hreq rfl, next_of_completion hl hreq rfl, fun htime => ?_⟩,
    fun tag st bytes hreq hdrop => ?_, fun v hv hserved => ?_, fun hbme => ?_, fun hreads => ?_, next_of_live hl rfl,
    fun speed width hlow hhigh hwidth hstate => ?_, fun hd0 hstate => ?_, fun hd0 => ?_, fun hops => ?_, fun hops => ?_,
    next_of_live hl rfl⟩
  · refine next_of_live hl (guardOn_true ?_ ?_)
    · rw [decide_eq_true hpart, decide_eq_true hrange, hops, hdown]
      rfl
    · rw [ha, hb]
      exact if_neg fun h => h.elim hne hpages
  · intro s0
    refine ⟨fun ok hkind => ?_, fun hkind huse => next_of_flashOk hl hops ?_, fun hkind huse => next_of_flashOk hl hops ?_,
      fun hkind huse hbad => next_of_flashFailed hl hops (flashDone_eraseFailed hops hack hkind huse)⟩
    · have hread := flashDone_read ok hops hack hkind
      have hnot : o.kind ≠ .program := by rw [hkind]; decide
      have hnote : o.kind ≠ .erase := by rw [hkind]; decide
      cases ok with
      | true => exact next_of_flashOk hl hops ((fwStep_of_not_program _ hnot (.inl hnote)).trans hread)
      | false => exact next_of_flashFailed hl hops hread
    · have hpart : usePart o.use = none := by obtain h | h | h := huse <;> rw [h] <;> rfl
      exact (fwStep_of_copy _ hkind huse).trans (flashDone_programmed hops hack hkind hpart)
    · have hnot : o.kind ≠ .program := by rw [hkind]; decide
      have hnote : o.use ≠ .blockErase := by rw [huse]; decide
      exact (fwStep_of_not_program _ hnot (.inr hnote)).trans (flashDone_erased hops hack hkind huse)
  · intro r1
    refine ⟨fun hnext hall => next_of_data hl hreq hlen (if_pos ⟨hnext, List.all_eq_true.mpr hall⟩),
      fun hopen => next_of_data hl hreq hlen (if_neg ?_)⟩
    rintro ⟨hle, hall⟩
    obtain hnext | ⟨x, hx, hnone⟩ := hopen
    · exact Nat.not_le.mpr hnext hle
    · have hsome := List.all_eq_true.mp hall x hx
      rw [hnone] at hsome
      cases hsome
  · refine next_of_live hl ?_
    rw [hreq]
    exact guardOn_true (decide_eq_true htime) rfl
  · refine next_of_live hl ?_
    rw [hreq]
    exact if_neg fun h => hdrop (List.contains_iff_mem.mp h)
  · intro s1
    refine ⟨fun hpba => next_of_unmask hl hv hserved ?_,
      fun hpba hen hmask hissue => next_of_unmask hl hv hserved ?_⟩
    · refine if_neg ?_
      rw [show (maskVector s v false).pcie.pba = s.pcie.pba from rfl, hpba]
      exact Bool.false_ne_true
    · unfold flushVector
      rw [tget_maskVector]
      refine if_pos ?_
      rw [show (maskVector s v false).pcie.pba = s.pcie.pba from rfl, hpba,
        show (maskVector s v false).pcie.msixEn = s.pcie.msixEn from rfl, hen,
        show (maskVector s v false).pcie.fnMask = s.pcie.fnMask from rfl, hmask,
        show (maskVector s v false).canIssue = s.canIssue from rfl, hissue]
      rfl
  · exact next_of_live hl (guardOn_true (by rw [hbme]; rfl) rfl)
  · exact next_of_live hl (pumpReads_of_nil hreads)
  · refine next_of_live hl (guardOn_true ?_ rfl)
    rw [decide_eq_true hlow, decide_eq_true hhigh, decide_eq_true hstate, List.contains_iff_mem.mpr hwidth]
    rfl
  · refine next_of_live hl (guardOn_true (by rw [hd0, hstate]; rfl) ?_)
    rfl
  · intro s1 s2 lease
    have hout (h : flag s1 F.HBMC_SREF = false) : (if flag s1 F.HBMC_SREF then s2 else s1) = s1 := if_neg (not_true_of_false h)
    have hin (h : flag s1 F.HBMC_SREF = true) : (if flag s1 F.HBMC_SREF then s2 else s1) = s2 := if_pos h
    exact ⟨fun hs hsus => next_of_d0Return hl hd0 (toD0_eq hd0 (hout hs) (if_neg (not_true_of_false hsus))),
      fun hs hsus => next_of_d0Return hl hd0 (toD0_eq hd0 (hout hs) (if_pos hsus)),
      fun hs hsus => next_of_d0Return hl hd0 (toD0_eq hd0 (hin hs) (if_neg (not_true_of_false hsus))),
      fun hs hsus => next_of_d0Return hl hd0 (toD0_eq hd0 (hin hs) (if_pos hsus))⟩
  · exact next_of_live hl (if_pos (List.isEmpty_iff.mpr hops))
  · exact next_of_live hl (if_neg fun h => hops (List.isEmpty_iff.mp h))

end Sys2Proof
end
